-- ==== Sys2Proof/Word.lean ====
section
/-! DEFINITION. The word types of the part: bytes, 32-bit register words, the name of a register field,
and the type of a table that lists only the units whose entry differs from the reset one. -/

namespace Sys2Proof

/-- One byte. -/
abbrev Byte := BitVec 8

/-- One register word, 32 bits (R14). -/
abbrev Word := BitVec 32

/-- A field of a register: the register's 24-bit address (R14), its lowest bit and its width. A register
shown through a selector register is named at the bank of its unit: the address plus 2^24 times one more
than the unit's number. -/
structure Fld where
  addr : Nat
  lo : Nat
  width : Nat
  deriving DecidableEq, Repr

/-- A table of entries by key, keys strictly rising, that lists only the entries that differ from the
entry an unlisted key has. -/
abbrev SMap (α : Type) := List (Nat × α)

end Sys2Proof
end

