-- ==== Sys2Proof/Syntax.lean ====
section
/-! DEFINITION. The commands of the part: one constructor of `Instr` per row of spec/opcode_table.json, with
the operands the row acts on. The part is a block: a command is a packet or a flit that arrives, a register
write, a pin or an event inside the part. What only the physical world decides (a measured temperature, a
test outcome, a sensed margin, an error pattern read from an array) is an operand of the row it belongs to. -/

namespace Sys2Proof

/-- Where a halyard packet came from (R137, R150): in-band on a port, with the fields of its MGMT header,
or the two-wire target port. -/
inductive Src where
  | inband (port reqId tag : Nat) (arrivalOnly : Bool)
  | twoWire
  deriving DecidableEq, Repr

/-- A halyard packet as received (Table 4.1): its sender, the MGMT length L or the two-wire length byte,
SEQ, LEN, FLAGS and its payload words. The row it stands on is its opcode. -/
structure Halyard where
  src : Src
  bytes : Nat
  seq : Nat
  len : Nat
  flags : Nat
  payload : List Nat
  deriving DecidableEq, Repr

/-- A request as received (Table 3.8): the port it arrived on, its header fields, its position in its
slot (R546), and the bytes of its data slot and of the slots it owed. -/
structure Req where
  port : Nat
  opcode : Nat
  cls : Nat := 0
  deadline : Nat := 0
  reqId : Nat
  tag : Nat
  stackId : Nat
  addr : Nat
  len : Nat := 0
  flags : Nat := 0
  pos : Nat := 0
  data : List Nat := []
  deriving DecidableEq, Repr

/-- How a controller-port transaction goes on the bus (R472 to R474): how often it loses arbitration, its RESULT code
where it is not lost three times, and the word read. -/
structure PmOutcome where
  losses : Nat := 0
  result : Nat := 0
  rdata : Nat := 0
  deriving DecidableEq, Repr

/-- What the words of a register packet meet as they are written: how the transaction goes that a write of TWB.PM_XFER starts,
and, word by word, the flags that hardware sets in the same cycle (R16). -/
structure WriteObs where
  xfer : PmOutcome := {}
  setNow : List Nat := []
  deriving DecidableEq, Repr

/-- What a housekeeping round meets (R383, R374): the voltage in mV and the current in mA of each of the seven rails in
the order of READ_TELEMETRY; the activity of D1 to D8 since the last round, its activates, bursts and refreshes weighted as
TRIM has it, and the model's temperature of D1 to D8 and of the board in 0.25 °C, as the TRIM resistances and capacitances of
the part give them; the REFs that core dies did not execute, by
engine; and how the PMBus polls of each regulator go: its PM_DEV entry and the transactions of READ_VOUT, READ_IOUT,
READ_TEMPERATURE_1 and STATUS_WORD (R471). -/
structure RoundObs where
  rails : List (Nat × Nat) := []
  activity : List Nat := []
  model : List Int := []
  board : Int := 100
  missed : List (Nat × Nat) := []
  poll : List (Nat × List PmOutcome) := []
  deriving DecidableEq, Repr

/-- One logical fuse word as its two physical copies read at the three margins of R450: normal, program-verify and
blank-verify. -/
structure FuseWord where
  aNorm : Nat
  aProg : Nat
  aBlank : Nat
  bNorm : Nat
  bProg : Nat
  bBlank : Nat
  deriving DecidableEq, Repr

/-- What training finds at one end of a via (R333): the setting it sweeps (via + 64 × end), the first strobe delay that passes
and how many pass from there on, in 1/128 UI, and the bit errors. -/
structure ViaTrain where
  setting : Nat
  first : Nat := 0
  len : Nat := 128
  errs : Nat := 0
  deriving DecidableEq, Repr

/-- What a boot meets (R437 to R439, R330 to R339): the rails as mV and mA in the order of READ_TELEMETRY, the hottest
base-die sensor in 0.25 °C, and the activity and temperatures of its first housekeeping round as in `RoundObs`; the microseconds that XA, FIO and the PLLs take to be valid or locked, where they are at all, and
the frequencies of XA and FIO in kHz; the positions of the core dies found and the SB_ADDR pins. Then what the tests find:
logic BIST; the failing columns that SRAM BIST finds in line-cache data, as sub-array and column, and a failure anywhere else;
how many attempts at training the D4 relays failed; the dies whose BIST engine fails its self-check; of each mast what
training finds, where a via that is not listed passes at every delay, and the failing words of quick BIST, each as bits
[19:0] of FAIL_LOC with the fields of FAIL_BIT, but for the first failing bit (8 × byte + bit) in place of BEAT and VIA; and
the settings of the DRAM eyes, by mast × 256 + setting. Last the lengths of logic BIST, SRAM BIST, training, quick BIST and
the fill in ms, the firmware version, the microseconds from the start to the end of the boot, and, of a boot that hangs, the
test it hangs in: 1 logic BIST, 2 SRAM BIST, 3 training, 4 to 7 a round of quick BIST, 8 repair, 9 the fill. -/
structure BootObs where
  rails : List (Nat × Nat) := [(750, 0), (850, 0), (850, 0), (1050, 0), (1800, 0), (750, 0), (1800, 0)]
  temp : Int := 100
  activity : List Nat := []
  model : List Int := []
  board : Int := 100
  xaUs : Option Nat := some 2622
  fioUs : Option Nat := some 128
  fioKhz : Nat := 400000
  xaKhz : Nat := 25000
  pllUs : Option Nat := some 50
  found : List Nat := [1, 2, 3, 4, 5, 6, 7, 8]
  sbAddr : Nat := 0
  logicFail : Bool := false
  sramCols : List (Nat × Nat) := []
  sramFail : Bool := false
  relayFails : Nat := 0
  dieFails : List Nat := []
  vias : List (Nat × List ViaTrain) := []
  words : List (Nat × List (Nat × Nat)) := []
  delays : List (Nat × Nat) := []
  times : List Nat := []
  fwVersion : Nat := 0
  bootUs : Nat := 0
  hang : Option Nat := none
  deriving DecidableEq, Repr

/-- What a Furl exit meets (R400 to R403): the microseconds that it takes until the ports are enabled, and that the PLLs take
to lock where they do; what training finds on the relay masts of D5 to D8, as at boot; and the errors of the array in the
seal of each index, as byte and pattern. -/
structure FurlObs where
  exitUs : Nat := 0
  pllUs : Nat := 0
  xaUs : Nat := 0
  vias : List (Nat × List ViaTrain) := []
  seals : List (Nat × List (Nat × Nat)) := []
  deriving DecidableEq, Repr

/-- Where a received marker block stands: the skew of its lane in symbols (R62), and the word position at which the aligner
sees it (R60, R73). -/
structure MarkerPlace where
  skew : Nat := 0
  pos : Nat := 0
  deriving DecidableEq, Repr

/-- The commands, one constructor per row of spec/opcode_table.json, in its order. -/
inductive Instr where
  /-- PORST_N (R437). `lowNs`: how long the pin was low. -/
  | porstN (lowNs : Nat) (obs : BootObs)
  /-- BOOT_STEP_TIMEOUT (R441). -/
  | bootStepTimeout
  /-- READY (R438). -/
  | ready
  /-- WARM_RESET (R436). `obs`: what the boot that follows meets. -/
  | warmReset (h : Halyard) (obs : BootObs)
  /-- RAIL_DIP (R514). `rail`: the rail that leaves its range, in the order of READ_TELEMETRY; `mv`: its voltage. -/
  | railDip (rail : Nat) (mv : Nat)
  /-- TRST_N (R434). -/
  | trstN
  /-- PORT_ENABLE (R58). `p`: the port. -/
  | portEnable (p : Nat)
  /-- PORT_DISABLE (R58). `p`: the port. -/
  | portDisable (p : Nat)
  /-- PRT_CTRL_RETRAIN (R57). `p`: the port. -/
  | prtCtrlRetrain (p : Nat)
  /-- TEST_EN (R75). `p`: the port; `on`: the value written; `errs`, `checked`: the bit errors and bits of each lane. -/
  | testEn (p : Nat) (on : Bool) (errs : List Nat) (checked : List Nat)
  /-- PRT_SLIP (R60). `p`: the port; `lane`: the lane whose alignment slips; `count`: the bits. -/
  | prtSlip (p : Nat) (lane : Nat) (count : Nat)
  /-- LPLL_LOCK (R54). `k`: the lane PLL; `lockUs`: how long it takes to lock. -/
  | lpllLock (k : Nat) (lockUs : Nat)
  /-- SIGNAL_DETECT (R54). `p`: the port; `m`: the lane. -/
  | signalDetect (p : Nat) (m : Nat)
  /-- LOSS_OF_SIGNAL (R70). `p`: the port; `m`: the lane; `sdLost`: its signal detect goes, else its clock recovery. -/
  | lossOfSignal (p : Nat) (m : Nat) (sdLost : Bool)
  /-- CDR_LOCK (R54). `p`: the port; `m`: the lane. -/
  | cdrLock (p : Nat) (m : Nat)
  /-- SD_WAIT_EXPIRY (R58). `p`: the port; `m`: the lane. -/
  | sdWaitExpiry (p : Nat) (m : Nat)
  /-- TRAIN_LEN_EXPIRY (R58). `p`: the port; `adapted`: the mask of lanes whose coarse adaptation is done. -/
  | trainLenExpiry (p : Nat) (adapted : Nat)
  /-- BIT_SLIP_SEARCH (R61). `p`: the port; `adapted`: the mask of lanes whose coarse adaptation is done. -/
  | bitSlipSearch (p : Nat) (adapted : Nat)
  /-- ALIGNMENT_MARKER (R53). `p`: the port; `m`: the lane; `marker`: the marker received; `parity`: the parity of what the lane received since its last; `place`: where the marker block stands. -/
  | alignmentMarker (p : Nat) (m : Nat) (marker : BitVec 128) (parity : BitVec 32) (place : MarkerPlace)
  /-- MASK_EXCHANGE_TIMEOUT (R64). `p`: the port. -/
  | maskExchangeTimeout (p : Nat)
  /-- MARKER_SEND (R51). `p`: the port. -/
  | markerSend (p : Nat)
  /-- RXREQ_TMO (R71). `p`: the port. -/
  | rxreqTmo (p : Nat)
  /-- LPLL_REREFERENCE (R48). `k`: the lane PLL. -/
  | lpllRereference (k : Nat)
  /-- HOLDOVER_EXPIRY (R48). `k`: the lane PLL. -/
  | holdoverExpiry (k : Nat)
  /-- PARALLEL_ALIGNER_TIMEOUT (R73). `p`: the port. -/
  | parallelAlignerTimeout (p : Nat)
  /-- FLIT_RECEIVE (R86). `p`: the port; `flit`: its 256 bytes as received. -/
  | flitReceive (p : Nat) (flit : List Nat)
  /-- NAK_RESEND (R87). `p`: the port. -/
  | nakResend (p : Nat)
  /-- REPLAY_TIMER (R89). `p`: the port. -/
  | replayTimer (p : Nat)
  /-- CREDIT_RETURN (R98). `p`: the port. -/
  | creditReturn (p : Nat)
  /-- SLOT_RELEASE (R97). `p`: the port. -/
  | slotRelease (p : Nat)
  /-- INIT_TMO (R93). `p`: the port. -/
  | initTmo (p : Nat)
  /-- RD64 (R109). -/
  | rd64 (r : Req)
  /-- RD128 (R110). -/
  | rd128 (r : Req)
  /-- RD256 (R110). -/
  | rd256 (r : Req)
  /-- WR64 (R111). -/
  | wr64 (r : Req)
  /-- WRP (R105). -/
  | wrp (r : Req)
  /-- ATOM (R265). -/
  | atom (r : Req)
  /-- SCAN (R277). -/
  | scan (r : Req)
  /-- FENCE (R122). -/
  | fence (r : Req)
  /-- FENCE_COMPLETE (R122). `p`, `reqId`, `tag`: the fence. -/
  | fenceComplete (p : Nat) (reqId : Nat) (tag : Nat)
  /-- MGMT (R112). -/
  | mgmt (r : Req)
  /-- UNKNOWN_OPCODE (R103). -/
  | unknownOpcode (r : Req)
  /-- STACK_ID_MISMATCH (R116). -/
  | stackIdMismatch (r : Req)
  /-- EVT_SEND (R118). -/
  | evtSend
  /-- IDENTIFY (R141). -/
  | identify (h : Halyard)
  /-- DEV_STATUS (R141). -/
  | devStatus (h : Halyard)
  /-- READ_TELEMETRY (R385). -/
  | readTelemetry (h : Halyard)
  /-- PENDING_STATUS (R142). -/
  | pendingStatus (h : Halyard)
  /-- EVT_READ (R159). -/
  | evtRead (h : Halyard)
  /-- REG_READ (R144). -/
  | regRead (h : Halyard)
  /-- REG_WRITE (R144). `obs`: what its words meet. -/
  | regWrite (h : Halyard) (obs : WriteObs)
  /-- REG_RMW (R146). `obs`: what its word meets. -/
  | regRmw (h : Halyard) (obs : WriteObs)
  /-- REG_READ_LIST (R143). -/
  | regReadList (h : Halyard)
  /-- REGISTER_WRITE (R15). An access of the internal bus: `addr`, `value`, and in `setNow` the bits that hardware sets in the same cycle. -/
  | registerWrite (addr : Nat) (value : Word) (setNow : Word)
  /-- PWR_SET (R404). -/
  | pwrSet (h : Halyard)
  /-- PWR_GET (R406). -/
  | pwrGet (h : Halyard)
  /-- SET_RETENTION (R406). -/
  | setRetention (h : Halyard)
  /-- SET_WAKE (R406). -/
  | setWake (h : Halyard)
  /-- CLEAR_RETLOST (R304). -/
  | clearRetlost (h : Halyard)
  /-- STAGE_CLASS (R183). -/
  | stageClass (h : Halyard)
  /-- STAGE_REQMAP (R183). -/
  | stageReqmap (h : Halyard)
  /-- STAGE_ADDRMAP (R176). -/
  | stageAddrmap (h : Halyard)
  /-- STAGE_GUARD (R176). -/
  | stageGuard (h : Halyard)
  /-- STAGE_EVTCFG (R158). -/
  | stageEvtcfg (h : Halyard)
  /-- COMMIT (R152). -/
  | commit (h : Halyard)
  /-- COMMIT_APPLIED (R153). -/
  | commitApplied
  /-- DISCARD (R150). -/
  | discard (h : Halyard)
  /-- STAGE_TIMEOUT (R151). -/
  | stageTimeout
  /-- QUIESCE (R155). -/
  | quiesce (h : Halyard)
  /-- QUIESCE_DRAINED (R155). -/
  | quiesceDrained
  /-- QUIESCE_TIMEOUT (R155). -/
  | quiesceTimeout
  /-- UNQUIESCE (R155). -/
  | unquiesce (h : Halyard)
  /-- READ_MODEL (R198). -/
  | readModel (h : Halyard)
  /-- TABLE_READ (R156). -/
  | tableRead (h : Halyard)
  /-- BIST_RUN (R342). -/
  | bistRun (h : Halyard)
  /-- BIST_DONE (R342). `fails`: the failing words, as those of a boot test (BootObs). -/
  | bistDone (fails : List (Nat × Nat))
  /-- BIST_RESULT (R343). -/
  | bistResult (h : Halyard)
  /-- ROW_SPARE (R318). -/
  | rowSpare (h : Halyard)
  /-- SOFT_ROW_SPARE (R317). `errs`: the array errors met on each line of the row. -/
  | softRowSpare (errs : List (Nat × List (Nat × Nat)))
  /-- ROW_SPARE_HARD (R319). -/
  | rowSpareHard (h : Halyard)
  /-- EVACUATE (R320). -/
  | evacuate (h : Halyard)
  /-- EVAC_START (R321). `fails`: the failing words of the spare's test, as those of a boot test. -/
  | evacStart (fails : List (Nat × Nat))
  /-- EVAC_COPY_LINE (R322). `errs`: the array errors that the source's word meets, as byte and pattern. -/
  | evacCopyLine (errs : List (Nat × Nat))
  /-- EVAC_DONE (R323). -/
  | evacDone
  /-- FIELD_TEST (R348). `errs`: the errors that the test's slot meets. -/
  | fieldTest (h : Halyard) (errs : List (Nat × Nat))
  /-- ERR_INJECT (R315). -/
  | errInject (h : Halyard)
  /-- SCRUB_CFG (R308). -/
  | scrubCfg (h : Halyard)
  /-- FAST_SCRUB (R309). -/
  | fastScrub (h : Halyard)
  /-- FAST_SCRUB_DONE (R309). -/
  | fastScrubDone
  /-- OTP_READ (R456). -/
  | otpRead (h : Halyard)
  /-- OTP_PROGRAM (R452). -/
  | otpProgram (h : Halyard)
  /-- OTP_REBLOW (R453). -/
  | otpReblow (h : Halyard)
  /-- OTP_LOCK (R454). -/
  | otpLock (h : Halyard)
  /-- OTP_MARGIN (R456). -/
  | otpMargin (h : Halyard)
  /-- FLT_READ (R495). -/
  | fltRead (h : Halyard)
  /-- FLT_INJECT (R495). -/
  | fltInject (h : Halyard)
  /-- BBX_READ (R495). -/
  | bbxRead (h : Halyard)
  /-- BBX_COMMIT (R493). -/
  | bbxCommit (h : Halyard)
  /-- FREEZE (R498). -/
  | freeze (h : Halyard)
  /-- FLT_TABLE (R495). -/
  | fltTable (h : Halyard)
  /-- ALERT_CLEAR (R490). -/
  | alertClear (h : Halyard)
  /-- SCN_RESERVE (R294). -/
  | scnReserve (h : Halyard)
  /-- SCN_RELEASE (R294). -/
  | scnRelease (h : Halyard)
  /-- SCN_LIMITS (R294). -/
  | scnLimits (h : Halyard)
  /-- SCN_CANCEL (R293). -/
  | scnCancel (h : Halyard)
  /-- CAL_RUN (R368). -/
  | calRun (h : Halyard)
  /-- CAL_STATUS (R368). -/
  | calStatus (h : Halyard)
  /-- CAL_CFG (R368). -/
  | calCfg (h : Halyard)
  /-- THM_READ (R385). -/
  | thmRead (h : Halyard)
  /-- THM_SET_WARN (R385). -/
  | thmSetWarn (h : Halyard)
  /-- THM_MODEL (R385). -/
  | thmModel (h : Halyard)
  /-- TRACE_CFG (R496). -/
  | traceCfg (h : Halyard)
  /-- TRACE_READ (R495). -/
  | traceRead (h : Halyard)
  /-- VENDOR_OPCODE (R140). `op`: the opcode. -/
  | vendorOpcode (op : Nat) (h : Halyard)
  /-- BAD_OPCODE (R545). `op`: the opcode. -/
  | badOpcode (op : Nat) (h : Halyard)
  /-- WATCHDOG_RESTART (R128). -/
  | watchdogRestart
  /-- ADMISSION (R186). `n`: the class. -/
  | admission (n : Nat)
  /-- WINDOW_START (R185). `n`: the class. -/
  | windowStart (n : Nat)
  /-- POOL_REFILL (R206). -/
  | poolRefill
  /-- URGENCY_TICK (R192). -/
  | urgencyTick
  /-- PROMOTION (R193). `m`: the engine. -/
  | promotion (m : Nat)
  /-- COMMAND_CHOICE (R194). `m`: the engine; `off`: the eighth of the present nanosecond. -/
  | commandChoice (m : Nat) (off : Nat)
  /-- MODEL_RECOMPUTE (R200). -/
  | modelRecompute
  /-- MODEL_HOLD_EXPIRY (R196). `p`: the port. -/
  | modelHoldExpiry (p : Nat)
  /-- HOUSEKEEPING_ROUND (R383). `obs`: what the round meets. -/
  | housekeepingRound (obs : RoundObs)
  /-- REF_DUE (R226). `m`: the engine; `h`: the half. -/
  | refDue (m : Nat) (h : Nat)
  /-- REF_START (R227). `m`: the engine; `h`: the half. -/
  | refStart (m : Nat) (h : Nat)
  /-- REFRESH_MODE_CHANGE (R229). `d`: the die. -/
  | refreshModeChange (d : Nat)
  /-- REFRESH_SLOT (R232). `m`: the engine. -/
  | refreshSlot (m : Nat)
  /-- IDLE_BOUNDARY (R232). `m`: the engine; `user`: who takes the boundary. -/
  | idleBoundary (m : Nat) (user : Nat)
  /-- POWER_DOWN_ENTRY (R234). `m`: the engine. -/
  | powerDownEntry (m : Nat)
  /-- FILL (R250). `m`: the engine; `errs`: the array errors that the word meets. -/
  | fill (m : Nat) (errs : List (Nat × Nat))
  /-- MISS_FORWARD (R250). `k`: the slice. -/
  | missForward (k : Nat)
  /-- PENDING_OPERATION (R249). `line`: the line. -/
  | pendingOperation (line : Nat)
  /-- TAG_FETCH (R256). `m`: the engine; `errs`: the array errors that the word meets. -/
  | tagFetch (m : Nat) (errs : List (Nat × Nat))
  /-- MERGE_TIMEOUT (R262). `line`: the line. -/
  | mergeTimeout (line : Nat)
  /-- MERGE_CLOSE (R263). `m`: the engine; `errs`: the array errors that the word meets. -/
  | mergeClose (m : Nat) (errs : List (Nat × Nat))
  /-- ATOM_EXECUTE (R267). `line`: the line. -/
  | atomExecute (line : Nat)
  /-- WRITE_BACK (R257). `k`: the slice. -/
  | writeBack (k : Nat)
  /-- SRAM_SCRUB (R255). `k`: the slice; `bad`: the bit errors that strike before it
reads, `bad` modulo 4 of them in the SECDED word `bad` ÷ 4 modulo 9 (8 is the metadata) of way `bad` ÷ 36 − 1, or of the way
that the walker reads where `bad` is below 36. -/
  | sramScrub (k : Nat) (bad : Nat)
  /-- FLUSH (R272). -/
  | flush
  /-- FLUSH_DONE (R272). -/
  | flushDone
  /-- SCAN_START (R286). -/
  | scanStart
  /-- STAGING_LINE (R289). `e`: the scan engine. -/
  | stagingLine (e : Nat)
  /-- SCAN_COMPLETE (R290). `reqId`, `tag`: the scan. -/
  | scanComplete (reqId : Nat) (tag : Nat)
  /-- TIME_LIMIT (R293). `reqId`, `tag`: the scan. -/
  | timeLimit (reqId : Nat) (tag : Nat)
  /-- BUCKET_LEAK (R311). -/
  | bucketLeak
  /-- PATROL_SCRUB_LINE (R307). `errs`: the array errors that the word meets. -/
  | patrolScrubLine (errs : List (Nat × Nat))
  /-- REEF2_SCRUB (R310). `errs`: the array errors met on each line. -/
  | reef2Scrub (errs : List (Nat × List (Nat × Nat)))
  /-- RETENTION_SWEEP (R305). `errs`: the array errors that the word meets. -/
  | retentionSweep (errs : List (Nat × Nat))
  /-- SWEEP_DONE (R304). -/
  | sweepDone
  /-- FIELD_TEST_TICK (R344). `errs`: the errors that the test's slot meets. -/
  | fieldTestTick (errs : List (Nat × Nat))
  /-- FIELD_TEST_RETEST (R346). `m`: the mast; `errs`: the errors that the slot meets. -/
  | fieldTestRetest (m : Nat) (errs : List (Nat × Nat))
  /-- STK_DSEL (R352). `dies`: the selection shifted in. -/
  | stkDsel (dies : Nat)
  /-- STK_DTAP (R352). -/
  | stkDtap
  /-- DTAP_IDCODE (R353). `d`: the die. -/
  | dtapIdcode (d : Nat)
  /-- DTAP_SAMPLE (R353). `d`: the die; `vias`: the levels on its boundary. -/
  | dtapSample (d : Nat) (vias : Nat)
  /-- DTAP_EXTEST (R354). `d`: the die; `vias`: the levels on its boundary; `value`: what is shifted in. -/
  | dtapExtest (d : Nat) (vias : Nat) (value : Nat)
  /-- DTAP_INTEST (R354). `d`: the die; `vias`: the levels on its boundary; `value`: what is shifted in. -/
  | dtapIntest (d : Nat) (vias : Nat) (value : Nat)
  /-- DIE_BIST (R353). `d`: the die; `pass`, `sig`: its outcome and signature. -/
  | dieBist (d : Nat) (pass : Bool) (sig : Nat)
  /-- DTAP_BYPASS (R353). `d`: the die. -/
  | dtapBypass (d : Nat)
  /-- EXTEST (R355). `pins`: the pin levels; `value`: what is shifted in. -/
  | extest (pins : Nat) (value : Nat)
  /-- SAMPLE_PRELOAD (R355). `pins`: the pin levels; `preload`: what is shifted in. -/
  | samplePreload (pins : Nat) (preload : Nat)
  /-- CLAMP (R355). -/
  | clamp
  /-- HIGHZ (R355). -/
  | highz
  /-- IDCODE (R355). -/
  | idcode
  /-- BYPASS (R355). -/
  | bypass
  /-- DEV_STATE_RD (R440). -/
  | devStateRd
  /-- CNS_READ (R501). `shifts`: how many words are shifted. -/
  | cnsRead (shifts : Nat)
  /-- CNS_RESUME (R503). `pin`: the level of FREEZE_N; `update`: the register was updated. -/
  | cnsResume (pin : Bool) (update : Bool)
  /-- BBX_DUMP (R494). -/
  | bbxDump
  /-- LANE_TRACK_WINDOW (R359). `p`: the port; `counts`: lane, threshold, and the samples above and below it. -/
  | laneTrackWindow (p : Nat) (counts : List (Nat × Nat × Nat × Nat))
  /-- CAL_TRIGGER (R362). -/
  | calTrigger
  /-- CAL_HOLD_EXPIRY (R363). -/
  | calHoldExpiry
  /-- DIE_RUN (R360). `m`: the mast; `meas`: of each via its drift, side and window; `errs`: what the reads meet. -/
  | dieRun (m : Nat) (meas : List (Nat × Int × Nat)) (errs : List (Nat × Nat))
  /-- RUN_DONE (R368). -/
  | runDone
  /-- FIO_TRIM_MEASURE (R366). `count`: the FIO cycles counted. -/
  | fioTrimMeasure (count : Nat)
  /-- FIO_TRIM_STEP (R366). -/
  | fioTrimStep
  /-- THM_SAMPLE (R371). `d`: the die, 0 the base; `vals`: the sensors that answered, with their values in 0.25 °C. -/
  | thmSample (d : Nat) (vals : List (Nat × Int))
  /-- THERMAL_CLEAR (R379). `d`: the die. -/
  | thermalClear (d : Nat)
  /-- RESTART (R382). -/
  | restart
  /-- AON_THERMAL_SAMPLE (R381). `temps`: the sensors' values in 0.25 °C. -/
  | aonThermalSample (temps : List Int)
  /-- REEF1_ENTRY (R391). -/
  | reef1Entry
  /-- REEF2_ENTRY (R392). -/
  | reef2Entry
  /-- REEF_EXIT (R391). `ns`: how long the exit took. -/
  | reefExit (ns : Nat)
  /-- ENTRY_UNWIND (R396). -/
  | entryUnwind
  /-- PENDING_POWER_REQUEST (R404). -/
  | pendingPowerRequest
  /-- WAKE_PIN (R393). -/
  | wakePin
  /-- FURL_WAKE_TIMER (R393). -/
  | furlWakeTimer
  /-- CUSTOMER_WAKE_TIMER (R393). -/
  | customerWakeTimer
  /-- SLEEP_ADDRESS_MATCH (R467). -/
  | sleepAddressMatch
  /-- FURL_EXIT (R400). `obs`: what the exit meets. -/
  | furlExit (obs : FurlObs)
  /-- WAKE_FILL_DONE (R401). -/
  | wakeFillDone
  /-- MONITOR_WINDOW (R422). `n`: the monitor; `count`: what it counted. -/
  | monitorWindow (n : Nat) (count : Nat)
  /-- STABILITY_COUNT_END (R413). `n`: the source. -/
  | stabilityCountEnd (n : Nat)
  /-- SOURCE_RESTART (R413). `n`: the source. -/
  | sourceRestart (n : Nat)
  /-- XB_ABSENT (R412). -/
  | xbAbsent
  /-- PLL_UNLOCK (R418). `j`: the PLL. -/
  | pllUnlock (j : Nat)
  /-- PLL_RELOCK (R418). `j`: the PLL; `lockUs`: how long it took. -/
  | pllRelock (j : Nat) (lockUs : Nat)
  /-- DEAD_SOURCE (R427). `sw`: the switch; `old`, `new`: the sources. -/
  | deadSource (sw : Nat) (old : Nat) (new : Nat)
  /-- GATE_UNGATE (R419). `b`: the bit of GATE. -/
  | gateUngate (b : Nat)
  /-- GATE_REQUEST (R419). `b`: the bit of GATE. -/
  | gateRequest (b : Nat)
  /-- GATE_TAKES_EFFECT (R419). `b`: the bit of GATE. -/
  | gateTakesEffect (b : Nat)
  /-- GATED_ACCESS (R420). `addr`: the address; `write`: its direction. -/
  | gatedAccess (addr : Nat) (write : Bool)
  /-- XLATE_LO (R178). `value`: the word written. -/
  | xlateLo (value : Word)
  /-- PROBE_LO (R275). `value`: the word written. -/
  | probeLo (value : Word)
  /-- FLUSH_CTRL_START (R272). `inv`: the INV bit written. -/
  | flushCtrlStart (inv : Bool)
  /-- AON_TIME_LO (R410). -/
  | aonTimeLo
  /-- IMG_WIN (R502). `j`: the word of the window. -/
  | imgWin (j : Nat)
  /-- TW_WRITE_FRAME (R460). `addr`: the address byte with its direction; `bytes`: those that follow; `badStart`: a START or STOP came inside a byte. -/
  | twWriteFrame (addr : Nat) (bytes : List Nat) (badStart : Bool)
  /-- TW_READ_FRAME (R463). `addr`: the address byte with its direction; `count`: the bytes the master reads. -/
  | twReadFrame (addr : Nat) (count : Nat)
  /-- TW_TIMEOUT (R465). `scl`: it was SCL that was held low. -/
  | twTimeout (scl : Bool)
  /-- ATTENTION_PULSE (R466). `collision`: the bus was taken. -/
  | attentionPulse (collision : Bool)
  /-- PM_XFER (R472). `value`: the word written to the command register; `outcome`: how the transaction goes. -/
  | pmXfer (value : Word) (outcome : PmOutcome)
  /-- PMBUS_HANG_RECOVERY (R474). `clocks`: how many clocks freed the bus, if any did. -/
  | pmbusHangRecovery (clocks : Option Nat)
  /-- FAULT_MESSAGE (R480). `arrives`: the source, kind, hint and payload of a message that arrives now, if one does. -/
  | faultMessage (arrives : Option (Nat × Nat × Nat × Nat))
  /-- SHADOW_END (R486). `k`: the shadow's slot. -/
  | shadowEnd (k : Nat)
  /-- FENCE_HOLD_EXPIRY (R488). `k`: the index. -/
  | fenceHoldExpiry (k : Nat)
  /-- FENCE_PERMANENT (R488). `k`: the index. -/
  | fencePermanent (k : Nat)
  /-- INCREMENTAL_COMMIT (R493). -/
  | incrementalCommit
  /-- FREEZE_N (R497). -/
  | freezeN
  /-- FREEZE_ENTRY (R499). -/
  | freezeEntry
  /-- DATA_LOST (R499). -/
  | dataLost
  /-- DRAIN_TIMEOUT (R394). -/
  | drainTimeout
  /-- PROG_DONE (R452). `pulses`: the word's copies as they read after each pulse. -/
  | progDone (pulses : List FuseWord)
  /-- COMMIT_DONE (R493). -/
  | commitDone
  /-- RESET_DONE (R237). `d`: the die; `len`: how long it took, in µs. -/
  | resetDone (d : Nat) (len : Nat)
  /-- RELAY_RESET (R350). `trained`: what training finds on the relay masts, as at boot; none where the relays do not lock or
  train. -/
  | relayReset (trained : Option (List (Nat × List ViaTrain)))
  /-- RAILS_IN_RANGE (R514). `obs`: what the boot that follows meets. -/
  | railsInRange (obs : BootObs)
  /-- SELF_REFRESH_REF (R231). `m`: the engine. -/
  | selfRefreshRef (m : Nat)
  deriving DecidableEq, Repr

end Sys2Proof
end

