-- ==== Sys2Proof/Decode.lean ====
section
/-! DEFINITION. The decoder over the rows of the table that give bits. No row of spec/opcode_table.json
gives a field or a bit, so no word spells a command. -/

namespace Sys2Proof

/-- The command a word spells by the table's bits: none, for every row's list of fields is empty. -/
def decodeTableWord (_nbits _w : Nat) : Option Instr := none

end Sys2Proof
end

