-- ==== Sys2Proof/Config.lean ====
section
/-! DEFINITION. What the spec leaves open, and one constant worked out once. -/

namespace Sys2Proof

/-- The values the spec leaves open: the n-th such value that a run of the part meets. It has no body:
nothing in the model can say what it is. -/
opaque Config.freeValue : Nat → Nat

/-- A word of the freeze image whose layout the spec leaves open (Table 18.12): its place in the image and what the
part holds there. It has no body. -/
opaque Config.imageWord : Nat → List Nat → Nat

/-- A byte of a slot of the nonvolatile store that was never written. It has no body. -/
opaque Config.blankByte : Nat → Nat

/-- The code word of a line as the boot fill leaves it (R442): 66 bytes of zeros, device-state byte 0x01
(R297), a reserved zero and the 12 check symbols of R298. -/
def Config.fillWord : List Nat := 
  List.replicate 66 0 ++ [1, 0, 170, 14, 106, 213, 81, 232, 149, 181, 140, 130, 113, 252]

end Sys2Proof
end

