-- ==== Sys2Proof/Machine/Sparse.lean ====
section
/-! DEFINITION. Reading and writing a table that lists only what differs from a default: the one form in
which the model keeps memory, registers and every per-unit table. -/

namespace Sys2Proof.Machine

/-- The entry of key `k`; `d` where the key is not listed. -/
def SMap.get {α : Type} (d : α) (m : SMap α) (k : Nat) : α :=
  match m with
  | [] => d
  | (j, v) :: r => if j = k then v else SMap.get d r k

/-- The table without key `k`. -/
def SMap.erase {α : Type} (m : SMap α) (k : Nat) : SMap α :=
  match m with
  | [] => []
  | (j, v) :: r => if j = k then r else if k < j then (j, v) :: r else (j, v) :: SMap.erase r k

/-- The table with key `k` listed with `v`, at its place in the order of the keys. -/
def SMap.insert {α : Type} (m : SMap α) (k : Nat) (v : α) : SMap α :=
  match m with
  | [] => [(k, v)]
  | (j, w) :: r => if j = k then (k, v) :: r else if k < j then (k, v) :: (j, w) :: r
                   else (j, w) :: SMap.insert r k v

/-- Write `v` at key `k`. Writing what an unlisted key reads as removes the key, so that equal tables are
equal data. -/
def SMap.set {α : Type} [DecidableEq α] (d : α) (m : SMap α) (k : Nat) (v : α) : SMap α :=
  if v = d then SMap.erase m k else SMap.insert m k v

/-- Every key of `m` is above `b`, and the keys rise strictly. -/
def SMap.above {α : Type} (b : Nat) (m : SMap α) : Bool :=
  match m with
  | [] => true
  | (j, _) :: r => decide (b < j) && SMap.above j r

/-- The keys rise strictly. -/
def SMap.rising {α : Type} : SMap α → Bool
  | [] => true
  | (j, _) :: r => SMap.above j r

/-- The canonical form: the keys rise strictly, and no entry equals the one its key reads as when it is
not listed. -/
def SMap.wf {α : Type} [DecidableEq α] (dflt : Nat → α) (m : SMap α) : Bool :=
  (match m with
   | [] => true
   | (j, _) :: r => SMap.above j r) && m.all (fun e => decide (e.2 ≠ dflt e.1))

end Sys2Proof.Machine
end

