-- ==== Sys2Proof/Machine/Codec.lean ====
section
/-! DEFINITION. The codes the part uses: the field GF(256) and the Reed-Solomon codes of the flit (R79)
and of the stored line (R298), CRC-32 (R78), the SMBus packet error code (R461), and the splitting of
numbers into bytes, most significant first (R13). -/

namespace Sys2Proof.Machine

/-- Bits `lo` to `lo + w - 1` of a number. -/
def bits (x lo w : Nat) : Nat := (x >>> lo) % 2 ^ w

/-- One bit of a number. -/
def bitAt (x i : Nat) : Bool := (x >>> i) % 2 = 1

/-- 1 for true. -/
def b2n (b : Bool) : Nat := if b then 1 else 0

/-- How many of the low `w` bits of a number are 1. -/
def popcount (w x : Nat) : Nat := ((List.range w).filter (bitAt x)).length

/-- The number whose bits are set where the predicate holds, over the first `w` positions. -/
def maskOf (w : Nat) (f : Nat → Bool) : Nat :=
  (List.range w).foldl (fun a i => if f i then a ||| (1 <<< i) else a) 0

/-- Set or clear one bit of a number. -/
def setBit (x i : Nat) (b : Bool) : Nat :=
  if b then x ||| (1 <<< i) else x &&& (x ^^^ (1 <<< i))

/-- The bits of `v` that are not in `m`. -/
def lessBits (v m : Nat) : Nat := v - (v &&& m)

/-- A number of `w` bits read as two's complement. -/
def signed (w x : Nat) : Int :=
  if x < 2 ^ (w - 1) then (x : Int) else (x : Int) - (2 ^ w : Nat)

/-- The low `w` bits of an integer. -/
def toBits (w : Nat) (i : Int) : Nat := (i % ((2 ^ w : Nat) : Int)).toNat

/-- Saturating increment of a counter of `w` bits. -/
def satAdd (w x n : Nat) : Nat := min (x + n) (2 ^ w - 1)

/-- A number as `n` bytes, most significant first (R13). -/
def beBytes : Nat → Nat → List Nat
  | 0, _ => []
  | n + 1, x => (x >>> (8 * n)) % 256 :: beBytes n x

/-- The number that bytes spell, most significant first. -/
def ofBe (l : List Nat) : Nat := l.foldl (fun a b => a * 256 + b) 0

/-- Bytes `i` to `i + n - 1` of a list; a missing byte is 0. -/
def slice (l : List Nat) (i n : Nat) : List Nat :=
  let t := (l.drop i).take n
  t ++ List.replicate (n - t.length) 0

/-- The list with its `i`-th element replaced. -/
def setAt {α : Type} (l : List α) (i : Nat) (v : α) : List α := l.set i v

/-- Element `i` of a list of numbers, 0 past its end. -/
def nth (l : List Nat) (i : Nat) : Nat := l.getD i 0

/-- The groups of `n` elements of a list, in order. -/
def groupsOf {α : Type} (n : Nat) : Nat → List α → List (List α)
  | 0, _ => []
  | fuel + 1, l => if l.isEmpty then [] else l.take n :: groupsOf n fuel (l.drop n)

/-! ### CRC -/

/-- One bit of the CRC-32 register, polynomial 0x04C1_1DB7, no reflection (R78). -/
def crc32Bit (c : Nat) : Nat :=
  let t := (c <<< 1) % 2 ^ 32
  if bitAt c 31 then t ^^^ 0x04C11DB7 else t

/-- One byte into the CRC-32 register. -/
def crc32Byte (c b : Nat) : Nat :=
  crc32Bit (crc32Bit (crc32Bit (crc32Bit (crc32Bit (crc32Bit (crc32Bit (crc32Bit (c ^^^ (b <<< 24)))))))))

/-- CRC-32 of a byte string: initial value all ones, result complemented (R78). -/
def crc32 (l : List Nat) : Nat := (l.foldl crc32Byte 0xFFFFFFFF) ^^^ 0xFFFFFFFF

/-- One bit of the CRC-8 register, polynomial x^8 + x^2 + x + 1 (R461). -/
def crc8Bit (c : Nat) : Nat :=
  let t := (c <<< 1) % 256
  if bitAt c 7 then t ^^^ 0x07 else t

/-- One byte into the CRC-8 register. -/
def crc8Byte (c b : Nat) : Nat :=
  crc8Bit (crc8Bit (crc8Bit (crc8Bit (crc8Bit (crc8Bit (crc8Bit (crc8Bit (c ^^^ b))))))))

/-- The SMBus packet error code of a byte string (R461). -/
def crc8 (l : List Nat) : Nat := l.foldl crc8Byte 0

/-! ### GF(256), polynomial x^8 + x^4 + x^3 + x^2 + 1 (0x11D), primitive element 2 -/

/-- Times the primitive element. -/
def gfX (a : Nat) : Nat := if a < 128 then 2 * a else (2 * a) ^^^ 0x11D

/-- The product of two field elements, over the low `n` bits of `b`. -/
def gfMulAux : Nat → Nat → Nat → Nat
  | 0, _, _ => 0
  | n + 1, a, b => (if b % 2 = 1 then a else 0) ^^^ gfMulAux n (gfX a) (b / 2)

/-- The product of two field elements. -/
def gfMul (a b : Nat) : Nat := gfMulAux 8 a b

/-- A power of a field element, by squaring; `fuel` bounds the bits of the exponent. -/
def gfPowAux : Nat → Nat → Nat → Nat
  | 0, _, _ => 1
  | fuel + 1, a, n => gfMul (if n % 2 = 1 then a else 1) (gfPowAux fuel (gfMul a a) (n / 2))

/-- A power of a field element. -/
def gfPow (a n : Nat) : Nat := gfPowAux 8 a (n % 255)

/-- The inverse of a nonzero field element: its 254th power. -/
def gfInv (a : Nat) : Nat := gfPowAux 8 a 254

/-- The `n`-th power of the primitive element. -/
def alpha (n : Nat) : Nat := gfPow 2 n

/-! ### Polynomials over GF(256), lowest degree first -/

/-- Sum of two polynomials. -/
def polyAdd : List Nat → List Nat → List Nat
  | [], q => q
  | p, [] => p
  | a :: p, b :: q => (a ^^^ b) :: polyAdd p q

/-- A polynomial times a constant. -/
def polyScale (c : Nat) (p : List Nat) : List Nat := p.map (gfMul c)

/-- Product of two polynomials. -/
def polyMul : List Nat → List Nat → List Nat
  | [], _ => []
  | a :: p, q => polyAdd (polyScale a q) (0 :: polyMul p q)

/-- Value of a polynomial at a point. -/
def polyEval (p : List Nat) (x : Nat) : Nat := p.foldr (fun a r => a ^^^ gfMul x r) 0

/-- Formal derivative: the odd coefficients, one degree lower. -/
def polyDerivAux : Bool → List Nat → List Nat
  | _, [] => []
  | keep, a :: p => (if keep then a else 0) :: polyDerivAux (!keep) p

/-- Formal derivative of a polynomial. -/
def polyDeriv (p : List Nat) : List Nat := polyDerivAux true p.tail

/-- The generator with roots alpha^0 to alpha^(2t-1). -/
def rsGen (t2 : Nat) : List Nat :=
  (List.range t2).foldl (fun g i => polyMul g [alpha i, 1]) [1]

/-! ### Reed-Solomon codes, roots alpha^0 to alpha^(2t-1), symbol 0 of a word the highest power -/

/-- One step of the division by the generator: `r` is the remainder, highest power first; `g` the
generator without its leading coefficient, highest power first. -/
def rsStep (g : List Nat) (r : List Nat) (m : Nat) : List Nat :=
  let f := m ^^^ nth r 0
  List.zipWith (fun a c => a ^^^ gfMul f c) (r.tail ++ [0]) g

/-- The check symbols of a message, in the order they follow it. -/
def rsCheck (t2 : Nat) (msg : List Nat) : List Nat :=
  let g := (rsGen t2).reverse.tail
  msg.foldl (rsStep g) (List.replicate t2 0)

/-- A message with its check symbols. -/
def rsEncode (t2 : Nat) (msg : List Nat) : List Nat := msg ++ rsCheck t2 msg

/-- The syndromes of a word: its value at each root. -/
def rsSyndromes (t2 : Nat) (w : List Nat) : List Nat :=
  (List.range t2).map (fun i => w.foldl (fun a b => gfMul a (alpha i) ^^^ b) 0)

/-- The state of the Berlekamp-Massey recursion: the locator, the last locator before a length change,
its discrepancy, the length, and the steps since the change. -/
structure BMState where
  lam : List Nat
  prev : List Nat
  b : Nat
  len : Nat
  m : Nat
  deriving DecidableEq, Repr

/-- One step of the recursion over syndrome `n` of `s`. -/
def bmStep (s : List Nat) (st : BMState) (n : Nat) : BMState :=
  let d := (List.range (st.len + 1)).foldl (fun a i => a ^^^ gfMul (nth st.lam i) (nth s (n - i))) 0
  if d = 0 then { st with m := st.m + 1 }
  else
    let adj := polyScale (gfMul d (gfInv st.b)) (List.replicate st.m 0 ++ st.prev)
    let lam' := polyAdd st.lam adj
    if 2 * st.len ≤ n then { lam := lam', prev := st.lam, b := d, len := n + 1 - st.len, m := 1 }
    else { st with lam := lam', m := st.m + 1 }

/-- What decoding a word answers: the corrected word and the number of symbols changed outside the
erased positions and inside them, or that it is beyond correction. -/
inductive RsResult where
  | ok (word : List Nat) (errors : Nat) (erased : Nat)
  | fail
  deriving DecidableEq, Repr

/-- The degree of a polynomial. -/
def polyDeg (p : List Nat) : Nat := (p.reverse.dropWhile (· = 0)).length - 1

/-- Bounded-distance decoding of a word of `w.length` symbols with `t2` check symbols and the erased
positions given: errors `v` and erasures `e` with 2v + e at most `t2` are corrected (R82, R299). -/
def rsDecode (t2 : Nat) (w : List Nat) (erasures : List Nat) : RsResult :=
  let n := w.length
  let s := rsSyndromes t2 w
  if s.all (· = 0) then .ok w 0 0
  else
    let loc := fun i => alpha (n - 1 - i)
    let gam := erasures.foldl (fun g i => polyMul g [1, loc i]) [1]
    let e := erasures.length
    let ts := ((polyMul s gam).take t2).drop e
    let st := (List.range (t2 - e)).foldl (bmStep ts) { lam := [1], prev := [1], b := 1, len := 0, m := 1 }
    let psi := polyMul st.lam gam
    let pos := (List.range n).filter (fun i => polyEval psi (gfInv (loc i)) = 0)
    if decide (2 * st.len + e > t2) || decide (pos.length ≠ st.len + e) || decide (polyDeg psi ≠ st.len + e) then .fail
    else
      let om := (polyMul s psi).take t2
      let dpsi := polyDeriv psi
      let fix := pos.map (fun i =>
        let xi := gfInv (loc i)
        (i, gfMul (loc i) (gfMul (polyEval om xi) (gfInv (polyEval dpsi xi)))))
      let w' := fix.foldl (fun v f => setAt v f.1 (nth v f.1 ^^^ f.2)) w
      let changed := fix.filter (fun f => f.2 ≠ 0)
      let er := changed.filter (fun f => erasures.contains f.1)
      if (rsSyndromes t2 w').all (· = 0) then .ok w' (changed.length - er.length) er.length else .fail

end Sys2Proof.Machine
end

