-- ==== Sys2Proof/Machine/RegMap.lean ====
section
/-! DEFINITION. The register map of the part, block by block, as the register tables of spec/ give it
(R14, R15, R148, Table 4.9): for each register its offset, how many instances it has and their stride,
the bits of each access type and its value after PORST_N; and a name for each register's address and
for each of its fields. A field whose Reset column says "fuse" or "pin" is 0 here: boot loads it
(assumption 4). Registers shown through a selector register (SCH.CLS_SEL, SCH.PC_SEL, DCH.ENG_SEL,
LCH.SLICE_SEL, ECC.PC_SEL, STK.MAST_SEL) have one home per unit, at the bank of that unit. -/

namespace Sys2Proof.Machine

/-- One register of a block: `count` instances `stride` bytes apart from `off`; the masks say which
bits have which access type of Table 0.5 (a bit in no mask is RSV). `bank` is the number of units
that share the address through a selector register, 0 for none; `owned` marks a firmware-owned
register (R147). -/
structure RegRow where
  off : Nat
  count : Nat
  stride : Nat
  reset : Nat
  rw : Nat
  ro : Nat
  w1c : Nat
  w1s : Nat
  rwl : Nat
  wo : Nat
  bank : Nat
  owned : Bool
  deriving DecidableEq, Repr


/-- Registers of block DEV (R457), part 1. Columns: off, count, stride, reset, RW, RO, W1C, W1S, RWL, WO, bank, owned. -/
def devRows1 : List RegRow := [
  ⟨0x0, 1, 4, 0x5A6B0000, 0x0, 0xFFFFFFFF, 0x0, 0x0, 0x0, 0x0, 0, false⟩,  -- ID
  ⟨0x4, 1, 4, 0x0, 0x0, 0xFFFFFFFF, 0x0, 0x0, 0x0, 0x0, 0, false⟩,  -- UID_HI
  ⟨0x8, 1, 4, 0x0, 0x0, 0xFFFFFFFF, 0x0, 0x0, 0x0, 0x0, 0, false⟩,  -- UID_LO
  ⟨0xC, 1, 4, 0x0, 0x0, 0xFFFFFF00, 0x0, 0x0, 0x0, 0x0, 0, false⟩,  -- STATE
  ⟨0x10, 1, 4, 0x10000000, 0x0, 0xFE000000, 0x0, 0x0, 0x0, 0x0, 0, false⟩,  -- BOOT
  ⟨0x14, 1, 4, 0x0, 0x0, 0xFFFFFFFF, 0x0, 0x0, 0x0, 0x0, 0, false⟩,  -- BOOT_TIME
  ⟨0x18, 1, 4, 0x0, 0x0, 0xF000FFFF, 0x0, 0x0, 0x0, 0x0, 0, false⟩,  -- RESET_STAT
  ⟨0x1C, 1, 4, 0x0, 0x0, 0xFFFFFFFF, 0x0, 0x0, 0x0, 0x0, 0, false⟩,  -- FW_STAT
  ⟨0x20, 1, 4, 0x0, 0x0, 0xFFFF, 0x0, 0x0, 0x0, 0x0, 0, false⟩,  -- READY_CFG
  ⟨0x24, 1, 4, 0x0, 0x0, 0xFF, 0x0, 0x0, 0x0, 0x0, 0, false⟩,  -- PORT_BOOT
  ⟨0x28, 1, 4, 0x0, 0xFFFFFFFF, 0x0, 0x0, 0x0, 0x0, 0x0, 0, false⟩,  -- SCRATCH0
  ⟨0x2C, 1, 4, 0x0, 0xFFFFFFFF, 0x0, 0x0, 0x0, 0x0, 0x0, 0, false⟩]  -- SCRATCH1

/-- Block DEV. -/
def devRows : List RegRow := devRows1

/-- Registers of block MGC (R149), part 1. Columns: off, count, stride, reset, RW, RO, W1C, W1S, RWL, WO, bank, owned. -/
def mgcRows1 : List RegRow := [
  ⟨0x0, 1, 4, 0x0, 0x0, 0xF000FFFF, 0x0, 0x0, 0x0, 0x0, 0, false⟩,  -- STATUS
  ⟨0x4, 1, 4, 0x6000, 0x0, 0x0, 0x0, 0x80000000, 0x7FFF, 0x0, 0, false⟩,  -- SRC_CTRL
  ⟨0x8, 1, 4, 0x0, 0x0, 0xFFFF001F, 0x0, 0x0, 0x0, 0x0, 0, false⟩,  -- COMMIT
  ⟨0xC, 1, 4, 0x0, 0x0, 0x3FFF, 0x0, 0x0, 0x0, 0x0, 0, false⟩,  -- STAGE_OWNER
  ⟨0x10, 1, 4, 0x0, 0x0, 0x1F, 0x0, 0x0, 0x0, 0x0, 0, false⟩,  -- PEND
  ⟨0x14, 1, 4, 0x64, 0x0, 0x0, 0x0, 0x0, 0xFFFF, 0x0, 0, false⟩,  -- WDOG
  ⟨0x18, 1, 4, 0x0, 0x0, 0xFF, 0x0, 0x0, 0x0, 0x0, 0, false⟩,  -- QUIESCE
  ⟨0x1C, 1, 4, 0x0, 0x0, 0x0, 0x8000000F, 0x0, 0x0, 0x0, 0, false⟩,  -- INT_STAT
  ⟨0x20, 1, 4, 0x8, 0x8000000F, 0x0, 0x0, 0x0, 0x0, 0x0, 0, false⟩]  -- INT_EN

/-- Block MGC. -/
def mgcRows : List RegRow := mgcRows1

/-- Registers of block PRT (R76), part 1. Columns: off, count, stride, reset, RW, RO, W1C, W1S, RWL, WO, bank, owned. -/
def prtRows1 : List RegRow := [
  ⟨0x0, 1, 4, 0xFC00, 0xE01, 0x0, 0x0, 0x80000000, 0xF000, 0x2, 0, false⟩,  -- CTRL
  ⟨0x4, 1, 4, 0x0, 0x0, 0xFFF0FF07, 0x0, 0x0, 0x0, 0x0, 0, false⟩,  -- STATE
  ⟨0x8, 1, 4, 0x0, 0x0, 0x0, 0x800001FF, 0x0, 0x0, 0x0, 0, false⟩,  -- INT_STAT
  ⟨0xC, 1, 4, 0x1FE, 0x800001FF, 0x0, 0x0, 0x0, 0x0, 0x0, 0, false⟩,  -- INT_EN
  ⟨0x10, 1, 4, 0x3E8FA070, 0x0, 0x0, 0x0, 0x0, 0xFFFFFFFF, 0x0, 0, false⟩,  -- TIMING
  ⟨0x14, 1, 4, 0x400400, 0xFFFFFF00, 0x0, 0x0, 0x0, 0x0, 0x0, 0, false⟩,  -- DROP_CFG
  ⟨0x18, 1, 4, 0x0, 0x0, 0x0, 0x0, 0x0, 0x0, 0xFF, 0, false⟩,  -- SLIP
  ⟨0x1C, 1, 4, 0x0, 0x0, 0xFFFFF000, 0x0, 0x0, 0x0, 0x0, 0, false⟩,  -- PARTNER
  ⟨0x20, 1, 4, 0x0, 0x0, 0xFFFFFFFF, 0x0, 0x0, 0x0, 0x0, 0, false⟩,  -- EXIT_TIME
  ⟨0x24, 1, 4, 0xF00, 0xFFF, 0x0, 0x0, 0x0, 0x0, 0x0, 0, false⟩,  -- TEST_CFG
  ⟨0x28, 1, 4, 0x0, 0x0, 0xFFFFFFFF, 0x0, 0x0, 0x0, 0x0, 0, false⟩,  -- COUNTS
  ⟨0x100, 4, 64, 0x0, 0x0, 0xFFFFFF00, 0x0, 0x0, 0x0, 0x0, 0, false⟩,  -- LANE_STAT
  ⟨0x104, 4, 64, 0xEB6F40, 0x0, 0x0, 0x0, 0x0, 0x3FFFFFFF, 0x0, 0, false⟩,  -- TX_FIR
  ⟨0x108, 4, 64, 0x90800000, 0xFFFFF000, 0x0, 0x0, 0x0, 0x0, 0x0, 0, false⟩,  -- RX_EQ
  ⟨0x10C, 4, 64, 0x0, 0xF0000000, 0xFF, 0x0, 0x0, 0x0, 0x0, 0, false⟩,  -- RX_FFE
  ⟨0x110, 4, 64, 0x20080200, 0x0, 0x3FFFFFFF, 0x0, 0x0, 0x0, 0x0, 0, false⟩,  -- SLICER
  ⟨0x114, 4, 64, 0x0, 0x0, 0xFFFFFFFF, 0x0, 0x0, 0x0, 0x0, 0, false⟩,  -- BIP_CNT
  ⟨0x118, 4, 64, 0x0, 0x0, 0xFFFFFFFF, 0x0, 0x0, 0x0, 0x0, 0, false⟩,  -- PRBS_ERR
  ⟨0x11C, 4, 64, 0x0, 0x0, 0xFFFFFFFF, 0x0, 0x0, 0x0, 0x0, 0, false⟩,  -- PRBS_BITS
  ⟨0x120, 4, 64, 0x0, 0x0, 0xFFFF, 0x0, 0x0, 0x0, 0x0, 0, false⟩]  -- EYE

/-- Block PRT. -/
def prtRows : List RegRow := prtRows1

/-- Registers of block LNK (R126), part 1. Columns: off, count, stride, reset, RW, RO, W1C, W1S, RWL, WO, bank, owned. -/
def lnkRows1 : List RegRow := [
  ⟨0x0, 1, 4, 0xA0000, 0x200, 0x0, 0x0, 0x80000000, 0xFF0000, 0x0, 0, false⟩,  -- CTRL
  ⟨0x4, 1, 4, 0xFFF, 0x0, 0x0, 0x0, 0x0, 0xFFF, 0x0, 0, false⟩,  -- STACK_ID
  ⟨0x8, 1, 4, 0x8098060, 0x0, 0x0, 0x0, 0x0, 0xFFFFFFFF, 0x0, 0, false⟩,  -- CREDIT_INIT
  ⟨0xC, 1, 4, 0x803E8, 0xFFFFFF, 0x0, 0x0, 0x0, 0x0, 0x0, 0, false⟩,  -- REPLAY_CFG
  ⟨0x10, 1, 4, 0x400003E8, 0xFFFFFFFF, 0x0, 0x0, 0x0, 0x0, 0x0, 0, false⟩,  -- CORR_CFG
  ⟨0x14, 1, 4, 0x0, 0x0, 0x0, 0x800000FF, 0x0, 0x0, 0x0, 0, false⟩,  -- INT_STAT
  ⟨0x18, 1, 4, 0xFC, 0x800000FF, 0x0, 0x0, 0x0, 0x0, 0x0, 0, false⟩,  -- INT_EN
  ⟨0x1C, 1, 4, 0x0, 0x0, 0x1FFF, 0x0, 0x0, 0x0, 0x0, 0, false⟩,  -- OUTSTANDING
  ⟨0x20, 1, 4, 0x0, 0x0, 0xFFFF007F, 0x0, 0x0, 0x0, 0x0, 0, false⟩,  -- EVT_STAT
  ⟨0x100, 8, 64, 0x0, 0x0, 0xF8FFFFFF, 0x0, 0x0, 0x0, 0x0, 0, false⟩,  -- PSTAT
  ⟨0x104, 8, 64, 0x0, 0x0, 0xFFFFFFFF, 0x0, 0x0, 0x0, 0x0, 0, false⟩,  -- TX_CREDIT
  ⟨0x108, 8, 64, 0x0, 0x0, 0x1FF, 0x0, 0x0, 0x0, 0x0, 0, false⟩,  -- UNACKED
  ⟨0x10C, 8, 64, 0x0, 0x0, 0xFFFFFFFF, 0x0, 0x0, 0x0, 0x0, 0, false⟩,  -- CORR_FLITS
  ⟨0x110, 8, 64, 0x0, 0x0, 0xFFFFFFFF, 0x0, 0x0, 0x0, 0x0, 0, false⟩,  -- CORR_12
  ⟨0x114, 8, 64, 0x0, 0x0, 0xFFFFFFFF, 0x0, 0x0, 0x0, 0x0, 0, false⟩,  -- CORR_34
  ⟨0x118, 8, 64, 0x0, 0x0, 0xFFFFFFFF, 0x0, 0x0, 0x0, 0x0, 0, false⟩,  -- CRC_FAIL
  ⟨0x11C, 8, 64, 0x0, 0x0, 0xFFFFFFFF, 0x0, 0x0, 0x0, 0x0, 0, false⟩,  -- NAK
  ⟨0x120, 8, 64, 0x0, 0x0, 0xFFFFFFFF, 0x0, 0x0, 0x0, 0x0, 0, false⟩,  -- REPLAY
  ⟨0x124, 8, 64, 0x0, 0x0, 0xFFFFFFFF, 0x0, 0x0, 0x0, 0x0, 0, false⟩,  -- DROPS
  ⟨0x128, 8, 64, 0x0, 0x0, 0xFFFFFFFF, 0x0, 0x0, 0x0, 0x0, 0, false⟩,  -- FLITS_RX
  ⟨0x4000, 4096, 4, 0x0, 0xFF, 0x0, 0x0, 0x0, 0x0, 0x0, 0, false⟩]  -- ROUTE

/-- Block LNK. -/
def lnkRows : List RegRow := lnkRows1

/-- Registers of block AMP (R178), part 1. Columns: off, count, stride, reset, RW, RO, W1C, W1S, RWL, WO, bank, owned. -/
def ampRows1 : List RegRow := [
  ⟨0x0, 1, 4, 0x23, 0x0, 0x73, 0x0, 0x0, 0x0, 0x0, 0, true⟩,  -- MAP
  ⟨0x4, 1, 4, 0x0, 0x0, 0xFF07, 0x0, 0x0, 0x0, 0x0, 0, false⟩,  -- CAP
  ⟨0x8, 1, 4, 0x0, 0x0, 0x0, 0x80000003, 0x0, 0x0, 0x0, 0, false⟩,  -- INT_STAT
  ⟨0xC, 1, 4, 0x0, 0x80000003, 0x0, 0x0, 0x0, 0x0, 0x0, 0, false⟩,  -- INT_EN
  ⟨0x10, 1, 4, 0x0, 0x0, 0xFFFFFFFF, 0x0, 0x0, 0x0, 0x0, 0, false⟩,  -- RANGE_CNT
  ⟨0x14, 1, 4, 0x0, 0xFF, 0x0, 0x0, 0x0, 0x0, 0x0, 0, false⟩,  -- XLATE_HI
  ⟨0x18, 1, 4, 0x0, 0xFFFFFFFF, 0x0, 0x0, 0x0, 0x0, 0x0, 0, false⟩,  -- XLATE_LO
  ⟨0x1C, 1, 4, 0x0, 0x0, 0xFFFFFFFF, 0x0, 0x0, 0x0, 0x0, 0, false⟩,  -- XLATE_OUT
  ⟨0x100, 32, 4, 0x0, 0x0, 0xFFFFFFFF, 0x0, 0x0, 0x0, 0x0, 0, false⟩]  -- PC_STATE

/-- Block AMP. -/
def ampRows : List RegRow := ampRows1

/-- Registers of block RGD (R179), part 1. Columns: off, count, stride, reset, RW, RO, W1C, W1S, RWL, WO, bank, owned. -/
def rgdRows1 : List RegRow := [
  ⟨0x0, 1, 4, 0x1, 0x0, 0x3FF, 0x0, 0x0, 0x0, 0x0, 0, true⟩,  -- CTRL
  ⟨0x4, 1, 4, 0x0, 0x0, 0x0, 0x80000007, 0x0, 0x0, 0x0, 0, false⟩,  -- INT_STAT
  ⟨0x8, 1, 4, 0x0, 0x80000007, 0x0, 0x0, 0x0, 0x0, 0x0, 0, false⟩,  -- INT_EN
  ⟨0xC, 1, 4, 0x0, 0x0, 0xFFFFFFFF, 0x0, 0x0, 0x0, 0x0, 0, false⟩,  -- DENY_CNT
  ⟨0x10, 1, 4, 0x0, 0x0, 0xFFFFF0FF, 0x0, 0x0, 0x0, 0x0, 0, false⟩,  -- DENY_INFO
  ⟨0x14, 1, 4, 0x0, 0x0, 0xFF, 0x0, 0x0, 0x0, 0x0, 0, false⟩,  -- DENY_ADDR_HI
  ⟨0x18, 1, 4, 0x0, 0x0, 0xFFFFFFFF, 0x0, 0x0, 0x0, 0x0, 0, false⟩,  -- DENY_ADDR_LO
  ⟨0x1C, 1, 4, 0x0, 0x0, 0xFFFFFFFF, 0x0, 0x0, 0x0, 0x0, 0, false⟩,  -- FENCE_CNT
  ⟨0x100, 16, 8, 0x0, 0x0, 0xFFFFFFFF, 0x0, 0x0, 0x0, 0x0, 0, true⟩,  -- MASK_LO
  ⟨0x104, 16, 8, 0x0, 0x0, 0xFFFFFFF, 0x0, 0x0, 0x0, 0x0, 0, true⟩,  -- MASK_HI
  ⟨0x400, 256, 4, 0x0, 0x0, 0xFFFFFFFF, 0x0, 0x0, 0x0, 0x0, 0, true⟩]  -- WIN

/-- Block RGD. -/
def rgdRows : List RegRow := rgdRows1

/-- Registers of block SCH (R209), part 1. Columns: off, count, stride, reset, RW, RO, W1C, W1S, RWL, WO, bank, owned. -/
def schRows1 : List RegRow := [
  ⟨0x0, 1, 4, 0xFF6400, 0x0, 0x0, 0x0, 0x80000000, 0xFFFF00, 0x0, 0, false⟩,  -- CTRL
  ⟨0x4, 1, 4, 0x0, 0x0, 0x0, 0x8000001F, 0x0, 0x0, 0x0, 0, false⟩,  -- INT_STAT
  ⟨0x8, 1, 4, 0x14, 0x8000001F, 0x0, 0x0, 0x0, 0x0, 0x0, 0, false⟩,  -- INT_EN
  ⟨0xC, 1, 4, 0x0, 0x0, 0xFFFFFFFF, 0x0, 0x0, 0x0, 0x0, 0, false⟩,  -- TIMEBASE
  ⟨0x10, 1, 4, 0x1000060, 0xFFFFFFFF, 0x0, 0x0, 0x0, 0x0, 0x0, 0, false⟩,  -- DL_CFG
  ⟨0x14, 1, 4, 0x50, 0xFF, 0x0, 0x0, 0x0, 0x0, 0x0, 0, false⟩,  -- WB_CFG
  ⟨0x18, 1, 4, 0x0, 0x0, 0xFFFFFFFF, 0x0, 0x0, 0x0, 0x0, 0, false⟩,  -- MODEL_LINK
  ⟨0x1C, 1, 4, 0x0, 0x0, 0xFFFFFFFF, 0x0, 0x0, 0x0, 0x0, 0, false⟩,  -- MODEL_ACT
  ⟨0x20, 1, 4, 0x0, 0x0, 0xFFFFFFFF, 0x0, 0x0, 0x0, 0x0, 0, false⟩,  -- MODEL_BURST
  ⟨0x24, 1, 4, 0x0, 0x0, 0xFFFFFFFF, 0x0, 0x0, 0x0, 0x0, 0, false⟩,  -- DEM_LINK
  ⟨0x28, 1, 4, 0x0, 0x0, 0xFFFFFFFF, 0x0, 0x0, 0x0, 0x0, 0, false⟩,  -- DEM_ACT
  ⟨0x2C, 1, 4, 0x0, 0x0, 0xFFFFFFFF, 0x0, 0x0, 0x0, 0x0, 0, false⟩,  -- DEM_BURST
  ⟨0x30, 1, 4, 0x0, 0x0, 0xFFFFFFFF, 0x0, 0x0, 0x0, 0x0, 0, false⟩,  -- INT_ACT
  ⟨0x34, 1, 4, 0x0, 0x0, 0xFFFFFFFF, 0x0, 0x0, 0x0, 0x0, 0, false⟩,  -- INT_BURST
  ⟨0x38, 1, 4, 0x1A400514, 0x0, 0xFFFFFFFF, 0x0, 0x0, 0x0, 0x0, 0, false⟩,  -- GOV_CEIL
  ⟨0x3C, 1, 4, 0x0, 0x0, 0x7F, 0x0, 0x0, 0x0, 0x0, 0, false⟩,  -- DERATE
  ⟨0x40, 1, 4, 0x0, 0x0, 0xC000077F, 0x0, 0x0, 0x0, 0x0, 0, false⟩,  -- SHORT_STAT
  ⟨0x44, 1, 4, 0x0, 0x0, 0xFFFFFFFF, 0x0, 0x0, 0x0, 0x0, 0, false⟩,  -- SHORT_CNT
  ⟨0x48, 1, 4, 0x0, 0x3F, 0x0, 0x0, 0x0, 0x0, 0x0, 0, false⟩,  -- CLS_SEL
  ⟨0x4C, 1, 4, 0x0, 0x0, 0xFFFF, 0x0, 0x0, 0x0, 0x0, 64, false⟩,  -- CLS_AVG
  ⟨0x50, 1, 4, 0x0, 0x0, 0xFFFFFFFF, 0x0, 0x0, 0x0, 0x0, 64, false⟩,  -- CLS_ADMIT
  ⟨0x54, 1, 4, 0x0, 0x0, 0xFFFF1FFF, 0x0, 0x0, 0x0, 0x0, 64, false⟩,  -- CLS_HOLD
  ⟨0x58, 1, 4, 0x0, 0x0, 0xFFFFFFFF, 0x0, 0x0, 0x0, 0x0, 64, false⟩,  -- CLS_LATE
  ⟨0x5C, 1, 4, 0x0, 0x0, 0xFFFFFFFF, 0x0, 0x0, 0x0, 0x0, 64, false⟩]  -- CLS_PROMO

/-- Registers of block SCH (R209), part 2. Columns: off, count, stride, reset, RW, RO, W1C, W1S, RWL, WO, bank, owned. -/
def schRows2 : List RegRow := [
  ⟨0x60, 1, 4, 0x0, 0x7F, 0x0, 0x0, 0x0, 0x0, 0x0, 0, false⟩,  -- PC_SEL
  ⟨0x64, 1, 4, 0x0, 0x0, 0xFFFFFFFF, 0x0, 0x0, 0x0, 0x0, 128, false⟩,  -- PC_QUEUE
  ⟨0x68, 1, 4, 0x0, 0x0, 0xFF00FFFF, 0x0, 0x0, 0x0, 0x0, 128, false⟩,  -- PC_PROMO
  ⟨0x6C, 1, 4, 0x0, 0x0, 0xFF, 0x0, 0x0, 0x0, 0x0, 0, false⟩,  -- REF_DOUBLE
  ⟨0x70, 1, 4, 0x0, 0x0, 0x8000007F, 0x0, 0x0, 0x0, 0x0, 0, false⟩,  -- EVAC
  ⟨0x74, 1, 4, 0x0, 0x0, 0xFFFFFFFF, 0x0, 0x0, 0x0, 0x0, 0, false⟩,  -- POOL_STALLS
  ⟨0x78, 1, 4, 0x0, 0x0, 0x1FFF, 0x0, 0x0, 0x0, 0x0, 0, false⟩,  -- HOLD_TOTAL
  ⟨0x7C, 1, 4, 0x0, 0x0, 0xFFFFFFFF, 0x0, 0x0, 0x0, 0x0, 0, false⟩,  -- PROMO_TOTAL
  ⟨0x100, 64, 16, 0x6004000, 0x0, 0xFFFFF000, 0x0, 0x0, 0x0, 0x0, 0, true⟩,  -- CLS_CFG
  ⟨0x104, 64, 16, 0x0, 0x0, 0xFFFFFF, 0x0, 0x0, 0x0, 0x0, 0, true⟩,  -- CLS_BUDGET
  ⟨0x108, 64, 16, 0x0, 0x0, 0xFFFFFFFF, 0x0, 0x0, 0x0, 0x0, 0, true⟩,  -- CLS_LAT
  ⟨0x10C, 64, 16, 0x0, 0x0, 0xF0FFFFFF, 0x0, 0x0, 0x0, 0x0, 0, false⟩]  -- CLS_STAT

/-- Block SCH. -/
def schRows : List RegRow := schRows1 ++ schRows2

/-- Registers of block DCH (R244), part 1. Columns: off, count, stride, reset, RW, RO, W1C, W1S, RWL, WO, bank, owned. -/
def dchRows1 : List RegRow := [
  ⟨0x0, 1, 4, 0xA, 0x0, 0x0, 0x0, 0x80000000, 0xFF, 0x0, 0, false⟩,  -- CTRL
  ⟨0x4, 1, 4, 0x0, 0x0, 0xF0000000, 0x0, 0x0, 0x0, 0x0, 0, false⟩,  -- STATUS
  ⟨0x8, 1, 4, 0x0, 0x0, 0x0, 0x8000003F, 0x0, 0x0, 0x0, 0, false⟩,  -- INT_STAT
  ⟨0xC, 1, 4, 0x2D, 0x8000003F, 0x0, 0x0, 0x0, 0x0, 0x0, 0, false⟩,  -- INT_EN
  ⟨0x10, 1, 4, 0x0, 0x0, 0xFFFFFFFF, 0x0, 0x0, 0x0, 0x0, 0, false⟩,  -- TIM_ROW
  ⟨0x14, 1, 4, 0x0, 0x0, 0xFFFFFF00, 0x0, 0x0, 0x0, 0x0, 0, false⟩,  -- TIM_WIN
  ⟨0x18, 1, 4, 0x0, 0x0, 0xFFFFFFFF, 0x0, 0x0, 0x0, 0x0, 0, false⟩,  -- TIM_COL
  ⟨0x1C, 1, 4, 0x0, 0x0, 0xFFFFFFFF, 0x0, 0x0, 0x0, 0x0, 0, false⟩,  -- TIM_TURN
  ⟨0x20, 1, 4, 0x0, 0x0, 0xFFFFFF00, 0x0, 0x0, 0x0, 0x0, 0, false⟩,  -- TIM_REF
  ⟨0x24, 1, 4, 0x0, 0x0, 0xFFFFF000, 0x0, 0x0, 0x0, 0x0, 0, false⟩,  -- TIM_PD
  ⟨0x28, 1, 4, 0x0, 0x0, 0x3FF, 0x0, 0x0, 0x0, 0x0, 0, false⟩,  -- TEMP
  ⟨0x2C, 1, 4, 0x0, 0x0, 0x80FF01FF, 0x0, 0x0, 0x0, 0x0, 0, false⟩,  -- REF_STAT
  ⟨0x30, 1, 4, 0x0, 0x0, 0xFFFFFFFF, 0x0, 0x0, 0x0, 0x0, 0, false⟩,  -- REF_LATE_CNT
  ⟨0x34, 1, 4, 0x0, 0x0, 0xFFFFFF, 0x0, 0x0, 0x0, 0x0, 0, false⟩,  -- BNDRY_STAT
  ⟨0x38, 1, 4, 0x0, 0x0, 0x1FFFF, 0x0, 0x0, 0x0, 0x0, 0, false⟩,  -- FENCE
  ⟨0x3C, 1, 4, 0x0, 0x0, 0x1FFFF, 0x0, 0x0, 0x0, 0x0, 0, false⟩,  -- FENCE_PERM
  ⟨0x40, 1, 4, 0x0, 0x0, 0x1FFFF, 0x0, 0x0, 0x0, 0x0, 0, false⟩,  -- SR_STATE
  ⟨0x44, 1, 4, 0x0, 0x0, 0x1FFFF, 0x0, 0x0, 0x0, 0x0, 0, false⟩,  -- PD_STATE
  ⟨0x48, 1, 4, 0x0, 0x0, 0xFFFFFFFF, 0x0, 0x0, 0x0, 0x0, 0, false⟩,  -- RESET_STAT
  ⟨0x4C, 1, 4, 0x0, 0x1F, 0x0, 0x0, 0x0, 0x0, 0x0, 0, false⟩,  -- ENG_SEL
  ⟨0x50, 1, 4, 0x0, 0x0, 0xFFFFFC7F, 0x0, 0x0, 0x0, 0x0, 17, false⟩,  -- ENG_STAT
  ⟨0x54, 1, 4, 0x0, 0x0, 0xFFFFFFFF, 0x0, 0x0, 0x0, 0x0, 17, false⟩,  -- ENG_ACT
  ⟨0x58, 1, 4, 0x0, 0x0, 0xFFFFFFFF, 0x0, 0x0, 0x0, 0x0, 17, false⟩,  -- ENG_RD
  ⟨0x5C, 1, 4, 0x0, 0x0, 0xFFFFFFFF, 0x0, 0x0, 0x0, 0x0, 17, false⟩]  -- ENG_WR

/-- Registers of block DCH (R244), part 2. Columns: off, count, stride, reset, RW, RO, W1C, W1S, RWL, WO, bank, owned. -/
def dchRows2 : List RegRow := [
  ⟨0x60, 1, 4, 0x0, 0x0, 0xFFFFFFFF, 0x0, 0x0, 0x0, 0x0, 17, false⟩,  -- ENG_HIT
  ⟨0x64, 1, 4, 0x0, 0x0, 0xFFFFFFFF, 0x0, 0x0, 0x0, 0x0, 17, false⟩,  -- ENG_CONFLICT
  ⟨0x68, 1, 4, 0x0, 0x0, 0xFFFFFFFF, 0x0, 0x0, 0x0, 0x0, 17, false⟩,  -- ENG_REF
  ⟨0x6C, 1, 4, 0x0, 0x0, 0xFFFFFFFF, 0x0, 0x0, 0x0, 0x0, 17, false⟩,  -- ENG_WB_DROP
  ⟨0x70, 1, 4, 0x0, 0x0, 0xFFFFFFFF, 0x0, 0x0, 0x0, 0x0, 17, false⟩,  -- ENG_FENCED
  ⟨0x74, 1, 4, 0x0, 0x0, 0xFFFFFFFF, 0x0, 0x0, 0x0, 0x0, 17, false⟩,  -- ENG_PD_CNT
  ⟨0x78, 1, 4, 0x0, 0x0, 0xFFFFFFFF, 0x0, 0x0, 0x0, 0x0, 17, false⟩,  -- ENG_BNDRY
  ⟨0x100, 17, 4, 0x0, 0x0, 0xFFFFFFFF, 0x0, 0x0, 0x0, 0x0, 0, false⟩]  -- AUDIT

/-- Block DCH. -/
def dchRows : List RegRow := dchRows1 ++ dchRows2

/-- Registers of block LCH (R275), part 1. Columns: off, count, stride, reset, RW, RO, W1C, W1S, RWL, WO, bank, owned. -/
def lchRows1 : List RegRow := [
  ⟨0x0, 1, 4, 0x1, 0x0, 0x0, 0x0, 0x80000000, 0x1, 0x0, 0, false⟩,  -- CTRL
  ⟨0x4, 1, 4, 0x0, 0x0, 0xC001FFFF, 0x0, 0x0, 0x0, 0x0, 0, false⟩,  -- STATUS
  ⟨0x8, 1, 4, 0x0, 0x0, 0x0, 0x8000003F, 0x0, 0x0, 0x0, 0, false⟩,  -- INT_STAT
  ⟨0xC, 1, 4, 0x1A, 0x8000003F, 0x0, 0x0, 0x0, 0x0, 0x0, 0, false⟩,  -- INT_EN
  ⟨0x10, 1, 4, 0x3E8, 0xFFFF, 0x0, 0x0, 0x0, 0x0, 0x0, 0, false⟩,  -- MERGE_CFG
  ⟨0x14, 1, 4, 0x1800, 0x1FFF, 0x0, 0x0, 0x0, 0x0, 0x0, 0, false⟩,  -- DIRTY_CFG
  ⟨0x18, 1, 4, 0x0, 0x0, 0x80000000, 0x0, 0x0, 0x0, 0x3, 0, true⟩,  -- FLUSH_CTRL
  ⟨0x1C, 1, 4, 0x0, 0x0, 0xFFFFFFFF, 0x0, 0x0, 0x0, 0x0, 0, false⟩,  -- FLUSH_STAT
  ⟨0x20, 1, 4, 0x0, 0x1F, 0x0, 0x0, 0x0, 0x0, 0x0, 0, false⟩,  -- SLICE_SEL
  ⟨0x24, 1, 4, 0x0, 0xFF, 0x0, 0x0, 0x0, 0x0, 0x0, 0, false⟩,  -- PROBE_HI
  ⟨0x28, 1, 4, 0x0, 0xFFFFFFFF, 0x0, 0x0, 0x0, 0x0, 0x0, 0, false⟩,  -- PROBE_LO
  ⟨0x2C, 1, 4, 0x0, 0x0, 0xFFFFFFE0, 0x0, 0x0, 0x0, 0x0, 0, false⟩,  -- PROBE_OUT
  ⟨0x30, 1, 4, 0x0, 0x0, 0xFFFFFFFF, 0x0, 0x0, 0x0, 0x0, 0, false⟩,  -- SRAM_CE_CNT
  ⟨0x34, 1, 4, 0x0, 0x0, 0xFFFFFFFF, 0x0, 0x0, 0x0, 0x0, 0, false⟩,  -- SRAM_UE_CNT
  ⟨0x38, 1, 4, 0x0, 0x0, 0xFFFFFFFF, 0x0, 0x0, 0x0, 0x0, 0, false⟩,  -- TAG_LOST_CNT
  ⟨0x3C, 1, 4, 0x0, 0x0, 0xFFFFFFFF, 0x0, 0x0, 0x0, 0x0, 0, false⟩,  -- DROP_CNT
  ⟨0x40, 1, 4, 0x0, 0x0, 0xFFFFFFDF, 0x0, 0x0, 0x0, 0x0, 32, false⟩,  -- S_OCC
  ⟨0x44, 1, 4, 0x0, 0x0, 0xFFF007F, 0x0, 0x0, 0x0, 0x0, 32, false⟩,  -- S_MERGE
  ⟨0x48, 1, 4, 0x0, 0x0, 0xFFFFFFFF, 0x0, 0x0, 0x0, 0x0, 32, false⟩,  -- S_RD_HIT
  ⟨0x4C, 1, 4, 0x0, 0x0, 0xFFFFFFFF, 0x0, 0x0, 0x0, 0x0, 32, false⟩,  -- S_RD_MISS
  ⟨0x50, 1, 4, 0x0, 0x0, 0xFFFFFFFF, 0x0, 0x0, 0x0, 0x0, 32, false⟩,  -- S_WR_HIT
  ⟨0x54, 1, 4, 0x0, 0x0, 0xFFFFFFFF, 0x0, 0x0, 0x0, 0x0, 32, false⟩,  -- S_WR_MISS
  ⟨0x58, 1, 4, 0x0, 0x0, 0xFFFFFFFF, 0x0, 0x0, 0x0, 0x0, 32, false⟩,  -- S_WRP
  ⟨0x5C, 1, 4, 0x0, 0x0, 0xFFFFFFFF, 0x0, 0x0, 0x0, 0x0, 32, false⟩]  -- S_MERGE_CLOSE

/-- Registers of block LCH (R275), part 2. Columns: off, count, stride, reset, RW, RO, W1C, W1S, RWL, WO, bank, owned. -/
def lchRows2 : List RegRow := [
  ⟨0x60, 1, 4, 0x0, 0x0, 0xFFFFFFFF, 0x0, 0x0, 0x0, 0x0, 32, false⟩,  -- S_MERGE_TMO
  ⟨0x64, 1, 4, 0x0, 0x0, 0xFFFFFFFF, 0x0, 0x0, 0x0, 0x0, 32, false⟩,  -- S_ATOM
  ⟨0x68, 1, 4, 0x0, 0x0, 0xFFFFFFFF, 0x0, 0x0, 0x0, 0x0, 32, false⟩,  -- S_ATOM_WAIT
  ⟨0x6C, 1, 4, 0x0, 0x0, 0xFFFFFFFF, 0x0, 0x0, 0x0, 0x0, 32, false⟩,  -- S_EVICT
  ⟨0x70, 1, 4, 0x0, 0x0, 0xFFFFFFFF, 0x0, 0x0, 0x0, 0x0, 32, false⟩,  -- S_WB
  ⟨0x74, 1, 4, 0x0, 0x0, 0xFFFFFFFF, 0x0, 0x0, 0x0, 0x0, 32, false⟩,  -- S_DIRTY_STALL
  ⟨0x78, 1, 4, 0x0, 0x0, 0xFFFFFFFF, 0x0, 0x0, 0x0, 0x0, 32, false⟩,  -- S_WAY_STALL
  ⟨0x7C, 1, 4, 0x0, 0x0, 0xFFFFFFFF, 0x0, 0x0, 0x0, 0x0, 32, false⟩,  -- S_STAGE_WAIT
  ⟨0x100, 32, 4, 0x0, 0x0, 0xFFFFFFFF, 0x0, 0x0, 0x0, 0x0, 0, false⟩]  -- SLICE_ACC

/-- Block LCH. -/
def lchRows : List RegRow := lchRows1 ++ lchRows2

/-- Registers of block SCN (R295), part 1. Columns: off, count, stride, reset, RW, RO, W1C, W1S, RWL, WO, bank, owned. -/
def scnRows1 : List RegRow := [
  ⟨0x0, 1, 4, 0x1FFFF, 0x0, 0x0, 0x0, 0x80000000, 0x1FFFF, 0x0, 0, false⟩,  -- CTRL
  ⟨0x4, 1, 4, 0x0, 0x0, 0xFFFF007F, 0x0, 0x0, 0x0, 0x0, 0, false⟩,  -- STATUS
  ⟨0x8, 1, 4, 0x0, 0x0, 0x0, 0x8000003F, 0x0, 0x0, 0x0, 0, false⟩,  -- INT_STAT
  ⟨0xC, 1, 4, 0x10, 0x8000003F, 0x0, 0x0, 0x0, 0x0, 0x0, 0, false⟩,  -- INT_EN
  ⟨0x10, 1, 4, 0x10004F59, 0x0, 0x1FFFFFFF, 0x0, 0x0, 0x0, 0x0, 0, false⟩,  -- LIMITS
  ⟨0x14, 4, 8, 0x0, 0x0, 0x803FFFFF, 0x0, 0x0, 0x0, 0x0, 0, false⟩,  -- RES_ENG
  ⟨0x18, 4, 8, 0x0, 0x0, 0xFFFFFF, 0x0, 0x0, 0x0, 0x0, 0, false⟩,  -- RES_RATE
  ⟨0x34, 1, 4, 0x0, 0x0, 0xFFFFFFFF, 0x0, 0x0, 0x0, 0x0, 0, false⟩,  -- DONE_CNT
  ⟨0x38, 1, 4, 0x0, 0x0, 0xFFFFFFFF, 0x0, 0x0, 0x0, 0x0, 0, false⟩,  -- ABORT_CNT
  ⟨0x3C, 1, 4, 0x0, 0x0, 0xFFFFFFFF, 0x0, 0x0, 0x0, 0x0, 0, false⟩,  -- LINES_CNT
  ⟨0x100, 16, 16, 0xF000000, 0x0, 0xCFFFFFFF, 0x0, 0x0, 0x0, 0x0, 0, false⟩,  -- ENG_STAT
  ⟨0x104, 16, 16, 0x0, 0x0, 0xFFFFFFFF, 0x0, 0x0, 0x0, 0x0, 0, false⟩,  -- ENG_PROG
  ⟨0x108, 16, 16, 0x0, 0x0, 0xFFFFFFFF, 0x0, 0x0, 0x0, 0x0, 0, false⟩,  -- ENG_LINES
  ⟨0x10C, 16, 16, 0x0, 0x0, 0xFFFFFFFF, 0x0, 0x0, 0x0, 0x0, 0, false⟩]  -- ENG_SCANS

/-- Block SCN. -/
def scnRows : List RegRow := scnRows1

/-- Registers of block ECC (R327), part 1. Columns: off, count, stride, reset, RW, RO, W1C, W1S, RWL, WO, bank, owned. -/
def eccRows1 : List RegRow := [
  ⟨0x0, 1, 4, 0x20F, 0x0, 0x0, 0x0, 0x80000000, 0xF0F, 0x0, 0, false⟩,  -- CTRL
  ⟨0x4, 1, 4, 0x0, 0x0, 0xF07FFF0F, 0x0, 0x0, 0x0, 0x0, 0, false⟩,  -- STATUS
  ⟨0x8, 1, 4, 0x0, 0x0, 0x0, 0x800003FF, 0x0, 0x0, 0x0, 0, false⟩,  -- INT_STAT
  ⟨0xC, 1, 4, 0x8E, 0x800003FF, 0x0, 0x0, 0x0, 0x0, 0x0, 0, false⟩,  -- INT_EN
  ⟨0x10, 1, 4, 0x18, 0x0, 0x8000FFFF, 0x0, 0x0, 0x0, 0x0, 0, false⟩,  -- SCRUB_CFG
  ⟨0x14, 1, 4, 0x0, 0x0, 0xFF, 0x0, 0x0, 0x0, 0x0, 0, false⟩,  -- SCRUB_PTR_HI
  ⟨0x18, 1, 4, 0x0, 0x0, 0xFFFFFFFF, 0x0, 0x0, 0x0, 0x0, 0, false⟩,  -- SCRUB_PTR_LO
  ⟨0x1C, 1, 4, 0x0, 0x0, 0xFFFFFFFF, 0x0, 0x0, 0x0, 0x0, 0, false⟩,  -- SCRUB_PASS
  ⟨0x20, 1, 4, 0x4008000A, 0xFFFFFF, 0xFF000000, 0x0, 0x0, 0x0, 0x0, 0, false⟩,  -- BUCKET_CFG
  ⟨0x24, 1, 4, 0x4101003, 0xFFFFFFFF, 0x0, 0x0, 0x0, 0x0, 0x0, 0, false⟩,  -- HEAL_CFG
  ⟨0x28, 1, 4, 0x0, 0x0, 0xFFFFFFFF, 0x0, 0x0, 0x0, 0x0, 0, false⟩,  -- INJ_CTRL
  ⟨0x2C, 1, 4, 0x0, 0x0, 0xFFFFFFFF, 0x0, 0x0, 0x0, 0x0, 0, false⟩,  -- INJ_PAT
  ⟨0x30, 1, 4, 0x0, 0x0, 0xFF, 0x0, 0x0, 0x0, 0x0, 0, false⟩,  -- INJ_ADDR_HI
  ⟨0x34, 1, 4, 0x0, 0x0, 0xFFFFFFFF, 0x0, 0x0, 0x0, 0x0, 0, false⟩,  -- INJ_ADDR_LO
  ⟨0x38, 1, 4, 0x0, 0x0, 0xFF, 0x0, 0x0, 0x0, 0x0, 0, false⟩,  -- UE_ADDR_HI
  ⟨0x3C, 1, 4, 0x0, 0x0, 0xFFFFFFFF, 0x0, 0x0, 0x0, 0x0, 0, false⟩,  -- UE_ADDR_LO
  ⟨0x40, 1, 4, 0x0, 0x7F, 0x0, 0x0, 0x0, 0x0, 0x0, 0, false⟩,  -- PC_SEL
  ⟨0x44, 1, 4, 0x0, 0x0, 0xFFFFFFFF, 0x0, 0x0, 0x0, 0x0, 128, false⟩,  -- PC_BUCKET
  ⟨0x48, 1, 4, 0x0, 0x0, 0xFFFFFFFF, 0x0, 0x0, 0x0, 0x0, 128, false⟩,  -- PC_CE
  ⟨0x4C, 1, 4, 0x0, 0x0, 0xFFFFFFFF, 0x0, 0x0, 0x0, 0x0, 128, false⟩,  -- PC_CE_HIST
  ⟨0x50, 1, 4, 0x0, 0x0, 0xFFFF801F, 0x0, 0x0, 0x0, 0x0, 128, false⟩,  -- PC_MAT
  ⟨0x54, 1, 4, 0x0, 0x0, 0xFFFFFFFF, 0x0, 0x0, 0x0, 0x0, 128, false⟩,  -- PC_UE
  ⟨0x58, 1, 4, 0x0, 0x0, 0xFFFFFFFF, 0x0, 0x0, 0x0, 0x0, 128, false⟩,  -- PC_POISON
  ⟨0x5C, 1, 4, 0x0, 0x0, 0xFFFFFFFF, 0x0, 0x0, 0x0, 0x0, 128, false⟩]  -- PC_REWRITE

/-- Registers of block ECC (R327), part 2. Columns: off, count, stride, reset, RW, RO, W1C, W1S, RWL, WO, bank, owned. -/
def eccRows2 : List RegRow := [
  ⟨0x60, 1, 4, 0x0, 0x0, 0xFFFFFFFF, 0x0, 0x0, 0x0, 0x0, 128, false⟩,  -- PC_SCRUB_CE
  ⟨0x64, 1, 4, 0x0, 0x0, 0xFFFFFFFF, 0x0, 0x0, 0x0, 0x0, 128, false⟩,  -- PC_SCRUB_UE
  ⟨0x68, 1, 4, 0x0, 0x0, 0xFF807F00, 0x0, 0x0, 0x0, 0x0, 128, false⟩,  -- PC_SPARE
  ⟨0x6C, 1, 4, 0x0, 0x0, 0xFFFFFFF0, 0x0, 0x0, 0x0, 0x0, 128, false⟩,  -- PC_LAST_CE
  ⟨0x70, 1, 4, 0x0, 0x0, 0xFFFFFFFF, 0x0, 0x0, 0x0, 0x0, 128, false⟩,  -- PC_LAST_UE
  ⟨0x74, 1, 4, 0x0, 0x0, 0xFFFFFFFF, 0x0, 0x0, 0x0, 0x0, 128, false⟩,  -- PC_INJ
  ⟨0x78, 1, 4, 0x0, 0x0, 0xF000001F, 0x0, 0x0, 0x0, 0x0, 128, false⟩,  -- PC_HEAL
  ⟨0x7C, 1, 4, 0x0, 0x0, 0xFFFFFFFF, 0x0, 0x0, 0x0, 0x0, 128, false⟩,  -- PC_SCRUB_LINES
  ⟨0x100, 8, 16, 0x7F0000, 0x0, 0xE07F0000, 0x0, 0x0, 0x0, 0x0, 0, false⟩,  -- SPARE_STAT
  ⟨0x104, 8, 16, 0x0, 0x0, 0x1FFFFFF, 0x0, 0x0, 0x0, 0x0, 0, false⟩,  -- EVAC_PROG
  ⟨0x108, 8, 16, 0x0, 0x0, 0xF00FFFFF, 0x0, 0x0, 0x0, 0x0, 0, false⟩,  -- EVAC_STAT
  ⟨0x10C, 8, 16, 0x0, 0x0, 0x1FFFF, 0x0, 0x0, 0x0, 0x0, 0, false⟩,  -- CAP_LOSS
  ⟨0x200, 16, 4, 0x0, 0x0, 0xFFFFFFFE, 0x0, 0x0, 0x0, 0x0, 0, false⟩]  -- ROW_TRK

/-- Block ECC. -/
def eccRows : List RegRow := eccRows1 ++ eccRows2

/-- Registers of block STK (R356), part 1. Columns: off, count, stride, reset, RW, RO, W1C, W1S, RWL, WO, bank, owned. -/
def stkRows1 : List RegRow := [
  ⟨0x0, 1, 4, 0x0, 0x0, 0xFFF0F0, 0x0, 0x0, 0x0, 0x0, 0, false⟩,  -- ORG
  ⟨0x4, 1, 4, 0xE, 0x1, 0x0, 0x0, 0x80000000, 0xE, 0x0, 0, false⟩,  -- CTRL
  ⟨0x8, 1, 4, 0x0, 0x0, 0xFF8000FF, 0x0, 0x0, 0x0, 0x0, 0, false⟩,  -- STATUS
  ⟨0xC, 1, 4, 0x0, 0x0, 0x0, 0x800001FF, 0x0, 0x0, 0x0, 0, false⟩,  -- INT_STAT
  ⟨0x10, 1, 4, 0xA6, 0x800001FF, 0x0, 0x0, 0x0, 0x0, 0x0, 0, false⟩,  -- INT_EN
  ⟨0x14, 1, 4, 0x0, 0x0, 0xFFFFFFFF, 0x0, 0x0, 0x0, 0x0, 0, false⟩,  -- BIST_SUM
  ⟨0x18, 1, 4, 0x0, 0x0, 0xFFFFFFFF, 0x0, 0x0, 0x0, 0x0, 0, false⟩,  -- BIST_TIME
  ⟨0x1C, 1, 4, 0x0, 0x0, 0xFFFFFFFF, 0x0, 0x0, 0x0, 0x0, 0, false⟩,  -- FAIL_CNT
  ⟨0x20, 1, 4, 0xA3E800, 0xFFFFFF00, 0x0, 0x0, 0x0, 0x0, 0x0, 0, false⟩,  -- FT_CFG
  ⟨0x24, 1, 4, 0x0, 0x0, 0xFFFFFFFF, 0x0, 0x0, 0x0, 0x0, 0, false⟩,  -- FT_STAT
  ⟨0x28, 1, 4, 0x0, 0x0, 0xFFFFFFFF, 0x0, 0x0, 0x0, 0x0, 0, false⟩,  -- VIA_STAT
  ⟨0x2C, 1, 4, 0x0, 0x0, 0xFFFFFFC0, 0x0, 0x0, 0x0, 0x0, 0, false⟩,  -- KOZ_TIM
  ⟨0x30, 1, 4, 0x0, 0x0, 0xFFFFFFFF, 0x0, 0x0, 0x0, 0x0, 0, false⟩,  -- RELAY_STAT
  ⟨0x34, 1, 4, 0x0, 0x0, 0xC00000FF, 0x0, 0x0, 0x0, 0x0, 0, false⟩,  -- RELAY_DIAG
  ⟨0x38, 1, 4, 0x0, 0x0, 0xFF800000, 0x0, 0x0, 0x0, 0x0, 0, false⟩,  -- T1838_STAT
  ⟨0x3C, 1, 4, 0x0, 0xFF, 0x0, 0x0, 0x0, 0x0, 0x0, 0, false⟩,  -- MAST_SEL
  ⟨0x40, 1, 4, 0x7F0000, 0x0, 0xFF7FFFFF, 0x0, 0x0, 0x0, 0x0, 136, false⟩,  -- MAST_STAT
  ⟨0x44, 1, 4, 0x0, 0x0, 0xFFFFF, 0x0, 0x0, 0x0, 0x0, 136, false⟩,  -- MAST_REMAP
  ⟨0x48, 1, 4, 0x0, 0x0, 0xFFFFFFFF, 0x0, 0x0, 0x0, 0x0, 136, false⟩,  -- VIA_BAD_LO
  ⟨0x4C, 1, 4, 0x0, 0x0, 0xFFFFFFFF, 0x0, 0x0, 0x0, 0x0, 136, false⟩,  -- VIA_BAD_HI
  ⟨0x50, 1, 4, 0x0, 0x0, 0xFFFFFFFF, 0x0, 0x0, 0x0, 0x0, 136, false⟩,  -- MAST_ERR
  ⟨0x54, 1, 4, 0x0, 0x0, 0xFFFFFFFF, 0x0, 0x0, 0x0, 0x0, 136, false⟩,  -- MAST_FT_TIME
  ⟨0x58, 1, 4, 0x0, 0x0, 0xFFFF0000, 0x0, 0x0, 0x0, 0x0, 136, false⟩,  -- MAST_TRAIN
  ⟨0x5C, 1, 4, 0xF0000000, 0x0, 0xFFFFFFFF, 0x0, 0x0, 0x0, 0x0, 136, false⟩]  -- MAST_BIST

/-- Registers of block STK (R356), part 2. Columns: off, count, stride, reset, RW, RO, W1C, W1S, RWL, WO, bank, owned. -/
def stkRows2 : List RegRow := [
  ⟨0x100, 8, 16, 0x0, 0x0, 0x8001FFFF, 0x0, 0x0, 0x0, 0x0, 0, false⟩,  -- DIE_BIST
  ⟨0x104, 8, 16, 0x0, 0x0, 0xFFFFF000, 0x0, 0x0, 0x0, 0x0, 0, false⟩,  -- DIE_REPAIR
  ⟨0x108, 8, 16, 0x0, 0x0, 0x1FFFF, 0x0, 0x0, 0x0, 0x0, 0, false⟩,  -- DIE_LOST
  ⟨0x10C, 8, 16, 0x0, 0x0, 0x1FFFF, 0x0, 0x0, 0x0, 0x0, 0, false⟩,  -- DIE_REMAP
  ⟨0x200, 8, 8, 0x0, 0x0, 0xFFFFFFFF, 0x0, 0x0, 0x0, 0x0, 0, false⟩,  -- FAIL_LOC
  ⟨0x204, 8, 8, 0x0, 0x0, 0xFFFFFFFF, 0x0, 0x0, 0x0, 0x0, 0, false⟩]  -- FAIL_BIT

/-- Block STK. -/
def stkRows : List RegRow := stkRows1 ++ stkRows2

/-- Registers of block CAL (R369), part 1. Columns: off, count, stride, reset, RW, RO, W1C, W1S, RWL, WO, bank, owned. -/
def calRows1 : List RegRow := [
  ⟨0x0, 1, 4, 0xF, 0x0, 0x0, 0x0, 0x80000000, 0xF, 0x0, 0, false⟩,  -- CTRL
  ⟨0x4, 1, 4, 0x0, 0x0, 0xFFF80000, 0x0, 0x0, 0x0, 0x0, 0, false⟩,  -- STATUS
  ⟨0x8, 1, 4, 0x0, 0x0, 0x0, 0x8000000F, 0x0, 0x0, 0x0, 0, false⟩,  -- INT_STAT
  ⟨0xC, 1, 4, 0xE, 0x8000000F, 0x0, 0x0, 0x0, 0x0, 0x0, 0, false⟩,  -- INT_EN
  ⟨0x10, 1, 4, 0x800643C, 0x0, 0xFFFFFFFF, 0x0, 0x0, 0x0, 0x0, 0, false⟩,  -- TRIG_CFG
  ⟨0x14, 1, 4, 0x0, 0x0, 0xFF00FFFF, 0x0, 0x0, 0x0, 0x0, 0, false⟩,  -- FIO_STAT
  ⟨0x18, 1, 4, 0x0, 0x0, 0xFFFFFFFF, 0x0, 0x0, 0x0, 0x0, 0, false⟩,  -- FIO_TIME
  ⟨0x1C, 1, 4, 0x810, 0x0, 0x0, 0x0, 0x0, 0xFFFF, 0x0, 0, false⟩,  -- LANE_CFG
  ⟨0x40, 8, 4, 0x0, 0x0, 0xFFFFFFFF, 0x0, 0x0, 0x0, 0x0, 0, false⟩,  -- LANE_CAL
  ⟨0x100, 8, 16, 0x0, 0x0, 0xFFFFFFFF, 0x0, 0x0, 0x0, 0x0, 0, false⟩,  -- DIE_CAL
  ⟨0x104, 8, 16, 0x0, 0x0, 0xFFFFFFFF, 0x0, 0x0, 0x0, 0x0, 0, false⟩,  -- DIE_TIME
  ⟨0x108, 8, 16, 0x0, 0x0, 0xE0003FF, 0x0, 0x0, 0x0, 0x0, 0, false⟩]  -- DIE_TEMP

/-- Block CAL. -/
def calRows : List RegRow := calRows1

/-- Registers of block THM (R387), part 1. Columns: off, count, stride, reset, RW, RO, W1C, W1S, RWL, WO, bank, owned. -/
def thmRows1 : List RegRow := [
  ⟨0x0, 1, 4, 0x5, 0x0, 0x0, 0x0, 0x80000000, 0x5, 0x0, 0, false⟩,  -- CTRL
  ⟨0x4, 1, 4, 0x0, 0x0, 0xF801FFFF, 0x0, 0x0, 0x0, 0x0, 0, false⟩,  -- STATUS
  ⟨0x8, 1, 4, 0x0, 0x0, 0x0, 0x8000007F, 0x0, 0x0, 0x0, 0, false⟩,  -- INT_STAT
  ⟨0xC, 1, 4, 0x39, 0x8000007F, 0x0, 0x0, 0x0, 0x0, 0x0, 0, false⟩,  -- INT_EN
  ⟨0x10, 1, 4, 0x17C000C, 0x3FF00FF, 0x0, 0x0, 0x0, 0x0, 0x0, 0, false⟩,  -- WARN_CFG
  ⟨0x14, 1, 4, 0x1700008, 0x3FF00FF, 0x0, 0x0, 0x0, 0x0, 0x0, 0, false⟩,  -- THR_CFG
  ⟨0x18, 1, 4, 0x0, 0x0, 0xFFF803FF, 0x0, 0x0, 0x0, 0x0, 0, false⟩,  -- TRIP_STAT
  ⟨0x1C, 4, 4, 0x0, 0x0, 0x3FF03FF, 0x0, 0x0, 0x0, 0x0, 0, false⟩,  -- BASE_SENS
  ⟨0x2C, 1, 4, 0x0, 0x0, 0x3FF03FF, 0x0, 0x0, 0x0, 0x0, 0, false⟩,  -- BASE_EST
  ⟨0x30, 1, 4, 0x6400, 0x0, 0xFF, 0x0, 0x0, 0xFF00, 0x0, 0, false⟩,  -- MODEL_CFG
  ⟨0x34, 1, 4, 0x0, 0x0, 0x3FF3FFF, 0x0, 0x0, 0x0, 0x0, 0, false⟩,  -- MAX_TJ
  ⟨0x38, 1, 4, 0x0, 0x0, 0xFFFFFFFF, 0x0, 0x0, 0x0, 0x0, 0, false⟩,  -- POWER
  ⟨0x3C, 1, 4, 0x0, 0x0, 0xFFFFFFFF, 0x0, 0x0, 0x0, 0x0, 0, false⟩,  -- ROUND
  ⟨0x100, 8, 16, 0x0, 0x0, 0x3FF03FF, 0x0, 0x0, 0x0, 0x0, 0, false⟩,  -- SENS_A
  ⟨0x104, 8, 16, 0x0, 0x0, 0x3FF03FF, 0x0, 0x0, 0x0, 0x0, 0, false⟩,  -- SENS_B
  ⟨0x108, 8, 16, 0x0, 0x0, 0x3FF03FF, 0x0, 0x0, 0x0, 0x0, 0, false⟩,  -- DIE_EST
  ⟨0x10C, 8, 16, 0x0, 0x0, 0xFF0FFFFF, 0x0, 0x0, 0x0, 0x0, 0, false⟩]  -- DIE_STAT

/-- Block THM. -/
def thmRows : List RegRow := thmRows1

/-- Registers of block PWR (R410), part 1. Columns: off, count, stride, reset, RW, RO, W1C, W1S, RWL, WO, bank, owned. -/
def pwrRows1 : List RegRow := [
  ⟨0x0, 1, 4, 0x3, 0x0, 0x4, 0x0, 0x80000000, 0x3, 0x0, 0, false⟩,  -- CTRL
  ⟨0x4, 1, 4, 0x0, 0x0, 0xFFFF8000, 0x0, 0x0, 0x0, 0x0, 0, false⟩,  -- STATE
  ⟨0x8, 1, 4, 0x0, 0x0, 0x0, 0x8000003F, 0x0, 0x0, 0x0, 0, false⟩,  -- INT_STAT
  ⟨0xC, 1, 4, 0x18, 0x8000003F, 0x0, 0x0, 0x0, 0x0, 0x0, 0, false⟩,  -- INT_EN
  ⟨0x10, 1, 4, 0xA0014, 0x0, 0x0, 0x0, 0x0, 0xFFFF00FF, 0x0, 0, false⟩,  -- IDLE_CFG
  ⟨0x14, 1, 4, 0xFF19, 0x0, 0xFF1F, 0x0, 0x0, 0x0, 0x0, 0, false⟩,  -- WAKE_CFG
  ⟨0x18, 1, 4, 0x0, 0x0, 0xFFFFFFFF, 0x0, 0x0, 0x0, 0x0, 0, false⟩,  -- FURL_TIMER
  ⟨0x1C, 1, 4, 0x0, 0xFFFFFFFF, 0x0, 0x0, 0x0, 0x0, 0x0, 0, false⟩,  -- CUST_WAKE
  ⟨0x20, 1, 4, 0x0, 0x0, 0xFFFFFFFF, 0x0, 0x0, 0x0, 0x0, 0, false⟩,  -- AON_TIME_HI
  ⟨0x24, 1, 4, 0x0, 0x0, 0xFFFFFFFF, 0x0, 0x0, 0x0, 0x0, 0, false⟩,  -- AON_TIME_LO
  ⟨0x28, 1, 4, 0x12C, 0xFFFF, 0x0, 0x0, 0x0, 0x0, 0x0, 0, false⟩,  -- GOV_CFG
  ⟨0x2C, 1, 4, 0x0, 0x0, 0xFFFFF800, 0x0, 0x0, 0x0, 0x0, 0, false⟩,  -- GOV_STAT
  ⟨0x30, 1, 4, 0x0, 0x0, 0xFFC0FFFF, 0x0, 0x0, 0x0, 0x0, 0, false⟩,  -- WAKE_STAT
  ⟨0x34, 1, 4, 0x0, 0x0, 0xFFFFFFFF, 0x0, 0x0, 0x0, 0x0, 0, false⟩,  -- SEAL_SEQ
  ⟨0x38, 1, 4, 0x0, 0x0, 0xFFFFFFFF, 0x0, 0x0, 0x0, 0x0, 0, false⟩,  -- LAST_RESULT
  ⟨0x3C, 1, 4, 0x0, 0x0, 0xFFFFFFFF, 0x0, 0x0, 0x0, 0x0, 0, false⟩,  -- STATE_CNT
  ⟨0x40, 4, 4, 0x0, 0x0, 0xFFFFFFFF, 0x0, 0x0, 0x0, 0x0, 0, false⟩,  -- RET_MASK
  ⟨0x50, 4, 4, 0x0, 0x0, 0xFFFFFFFF, 0x0, 0x0, 0x0, 0x0, 0, false⟩,  -- RET_LOST
  ⟨0x100, 8, 8, 0x0, 0x0, 0xFFFFFFFF, 0x0, 0x0, 0x0, 0x0, 0, false⟩,  -- AUDIT_EXP
  ⟨0x104, 8, 8, 0x0, 0x0, 0xF8FFFFFF, 0x0, 0x0, 0x0, 0x0, 0, false⟩]  -- AUDIT_WORST

/-- Block PWR. -/
def pwrRows : List RegRow := pwrRows1

/-- Registers of block CLK (R433), part 1. Columns: off, count, stride, reset, RW, RO, W1C, W1S, RWL, WO, bank, owned. -/
def clkRows1 : List RegRow := [
  ⟨0x0, 1, 4, 0x1, 0x0, 0x0, 0x0, 0x80000000, 0x1, 0x0, 0, false⟩,  -- CTRL
  ⟨0x4, 1, 4, 0x400000, 0x0, 0xFFE00000, 0x0, 0x0, 0x0, 0x0, 0, false⟩,  -- STATUS
  ⟨0x8, 1, 4, 0x0, 0x0, 0x0, 0x8000007F, 0x0, 0x0, 0x0, 0, false⟩,  -- INT_STAT
  ⟨0xC, 1, 4, 0x20, 0x8000007F, 0x0, 0x0, 0x0, 0x0, 0x0, 0, false⟩,  -- INT_EN
  ⟨0x10, 1, 4, 0x2FF, 0x3FF, 0x0, 0x0, 0x0, 0x0, 0x0, 0, false⟩,  -- GATE
  ⟨0x14, 1, 4, 0x0, 0x0, 0x3FF03FF, 0x0, 0x0, 0x0, 0x0, 0, false⟩,  -- GATE_STAT
  ⟨0x18, 1, 4, 0x0, 0x0, 0xFFFFFFFF, 0x0, 0x0, 0x0, 0x0, 0, false⟩,  -- GATED_ACCESS_CNT
  ⟨0x1C, 1, 4, 0x0, 0x0, 0x80FFFFFF, 0x0, 0x0, 0x0, 0x0, 0, false⟩,  -- GATED_LAST
  ⟨0x20, 1, 4, 0x0, 0x0, 0xFFFFFFFF, 0x0, 0x0, 0x0, 0x0, 0, false⟩,  -- TAKEOVER
  ⟨0x24, 1, 4, 0x0, 0x0, 0xFFFFFFFF, 0x0, 0x0, 0x0, 0x0, 0, false⟩,  -- FAIL_CNT
  ⟨0x28, 1, 4, 0x0, 0x0, 0xFFFFFFFF, 0x0, 0x0, 0x0, 0x0, 0, false⟩,  -- DOM_RUN_LO
  ⟨0x2C, 1, 4, 0x0, 0x0, 0xFF, 0x0, 0x0, 0x0, 0x0, 0, false⟩,  -- DOM_RUN_HI
  ⟨0x30, 1, 4, 0x0, 0x0, 0xFFFFFFFF, 0x0, 0x0, 0x0, 0x0, 0, false⟩,  -- DOM_FIO_LO
  ⟨0x34, 1, 4, 0x0, 0x0, 0xFF, 0x0, 0x0, 0x0, 0x0, 0, false⟩,  -- DOM_FIO_HI
  ⟨0x38, 1, 4, 0x0, 0x0, 0xFFFFFFFF, 0x0, 0x0, 0x0, 0x0, 0, false⟩,  -- STARTUP_A
  ⟨0x3C, 1, 4, 0x0, 0x0, 0xFFFFFFFF, 0x0, 0x0, 0x0, 0x0, 0, false⟩,  -- STARTUP_B
  ⟨0x40, 5, 8, 0x0, 0x0, 0xFC00FFFF, 0x0, 0x0, 0x0, 0x0, 0, false⟩,  -- MON_STAT
  ⟨0x44, 5, 8, 0x0, 0x0, 0xFFFFFFFF, 0x0, 0x0, 0x0, 0x0, 0, false⟩,  -- MON_CNT
  ⟨0x80, 6, 4, 0x0, 0x0, 0xFE00FFFF, 0x0, 0x0, 0x0, 0x0, 0, false⟩]  -- PLL_STAT

/-- Block CLK. -/
def clkRows : List RegRow := clkRows1

/-- Registers of block OTP (R458), part 1. Columns: off, count, stride, reset, RW, RO, W1C, W1S, RWL, WO, bank, owned. -/
def otpRows1 : List RegRow := [
  ⟨0x0, 1, 4, 0x1, 0x0, 0x0, 0x0, 0x80000000, 0x1, 0x0, 0, false⟩,  -- CTRL
  ⟨0x4, 1, 4, 0x0, 0x0, 0xF800007F, 0x0, 0x0, 0x0, 0x0, 0, false⟩,  -- STATUS
  ⟨0x8, 1, 4, 0x0, 0x0, 0x0, 0x8000001F, 0x0, 0x0, 0x0, 0, false⟩,  -- INT_STAT
  ⟨0xC, 1, 4, 0x1C, 0x8000001F, 0x0, 0x0, 0x0, 0x0, 0x0, 0, false⟩,  -- INT_EN
  ⟨0x10, 1, 4, 0x0, 0x0, 0x3FFF, 0x0, 0x0, 0x0, 0x0, 0, false⟩,  -- REGION_MARGIN
  ⟨0x14, 1, 4, 0x0, 0x0, 0xFF, 0x0, 0x0, 0x0, 0x0, 0, false⟩,  -- LOCK_STAT
  ⟨0x18, 1, 4, 0x0, 0x0, 0xFFFFFFFF, 0x0, 0x0, 0x0, 0x0, 0, false⟩,  -- LEN_A
  ⟨0x1C, 1, 4, 0x0, 0x0, 0xFFFFFFFF, 0x0, 0x0, 0x0, 0x0, 0, false⟩,  -- LEN_B
  ⟨0x20, 1, 4, 0x0, 0x0, 0xFFFFFFFF, 0x0, 0x0, 0x0, 0x0, 0, false⟩,  -- LEN_C
  ⟨0x24, 1, 4, 0x0, 0x0, 0xFFFF, 0x0, 0x0, 0x0, 0x0, 0, false⟩,  -- MARG_CNT
  ⟨0x28, 1, 4, 0x0, 0x0, 0xFFFFFFFC, 0x0, 0x0, 0x0, 0x0, 0, false⟩,  -- REPAIR_STAT
  ⟨0x2C, 1, 4, 0x0, 0x0, 0xFFFFFFF0, 0x0, 0x0, 0x0, 0x0, 0, false⟩,  -- PROG_STAT
  ⟨0x30, 1, 4, 0x0, 0x0, 0xFFFFFFFF, 0x0, 0x0, 0x0, 0x0, 0, false⟩,  -- PROG_CNT
  ⟨0x34, 1, 4, 0x0, 0x0, 0xFF000000, 0x0, 0x0, 0x0, 0x0, 0, false⟩,  -- PATCH_STAT
  ⟨0x38, 1, 4, 0x0, 0x0, 0x3FF, 0x0, 0x0, 0x0, 0x0, 0, false⟩,  -- ENTRY_ERR
  ⟨0x3C, 1, 4, 0x0, 0x0, 0xFFFFFFFF, 0x0, 0x0, 0x0, 0x0, 0, false⟩,  -- CUST_CFG
  ⟨0x40, 16, 4, 0x0, 0x0, 0xFF0003FF, 0x0, 0x0, 0x0, 0x0, 0, false⟩]  -- MARG_LIST

/-- Block OTP. -/
def otpRows : List RegRow := otpRows1

/-- Registers of block TWB (R476), part 1. Columns: off, count, stride, reset, RW, RO, W1C, W1S, RWL, WO, bank, owned. -/
def twbRows1 : List RegRow := [
  ⟨0x0, 1, 4, 0x5, 0x1, 0x0, 0x0, 0x80000000, 0x6, 0x0, 0, false⟩,  -- CTRL
  ⟨0x4, 1, 4, 0x0, 0x0, 0xFFC0FE00, 0x0, 0x0, 0x0, 0x0, 0, false⟩,  -- STATUS
  ⟨0x8, 1, 4, 0x0, 0x0, 0x0, 0x8000007F, 0x0, 0x0, 0x0, 0, false⟩,  -- INT_STAT
  ⟨0xC, 1, 4, 0x48, 0x8000007F, 0x0, 0x0, 0x0, 0x0, 0x0, 0, false⟩,  -- INT_EN
  ⟨0x10, 1, 4, 0x640A00, 0xFFFFFF01, 0x0, 0x0, 0x0, 0x0, 0x0, 0, false⟩,  -- TGT_CFG
  ⟨0x14, 1, 4, 0x0, 0x0, 0xFFFFFFFF, 0x0, 0x0, 0x0, 0x0, 0, false⟩,  -- PROTO_ERR_CNT
  ⟨0x18, 1, 4, 0x0, 0x0, 0xFFFFFFFF, 0x0, 0x0, 0x0, 0x0, 0, false⟩,  -- PEC_ERR_CNT
  ⟨0x1C, 1, 4, 0x0, 0x0, 0xFFFFFFFF, 0x0, 0x0, 0x0, 0x0, 0, false⟩,  -- TO_CNT
  ⟨0x20, 1, 4, 0x0, 0x0, 0xFFFFFFFF, 0x0, 0x0, 0x0, 0x0, 0, false⟩,  -- ATTN_CNT
  ⟨0x24, 1, 4, 0x0, 0x0, 0xFFFFFFFF, 0x0, 0x0, 0x0, 0x0, 0, false⟩,  -- TGT_XFER_CNT
  ⟨0x28, 1, 4, 0x290123, 0xFFFF, 0x0, 0x0, 0x0, 0xFF0000, 0x0, 0, false⟩,  -- PM_CFG
  ⟨0x2C, 1, 4, 0x800000, 0x0, 0xFFFFFF00, 0x0, 0x0, 0x0, 0x0, 0, false⟩,  -- PM_STAT
  ⟨0x30, 1, 4, 0x0, 0x0, 0xFFFFFFFF, 0x0, 0x0, 0x0, 0x0, 0, false⟩,  -- ARB_LOST_CNT
  ⟨0x34, 1, 4, 0x0, 0x0, 0xFFFFFFFF, 0x0, 0x0, 0x0, 0x0, 0, false⟩,  -- PM_HANG_CNT
  ⟨0x38, 1, 4, 0x0, 0x7FFFFFF, 0x0, 0x0, 0x0, 0x0, 0x80000000, 0, false⟩,  -- PM_XFER
  ⟨0x3C, 1, 4, 0x0, 0x0, 0x8F00FFFF, 0x0, 0x0, 0x0, 0x0, 0, false⟩,  -- PM_XFER_STAT
  ⟨0x40, 8, 4, 0x0, 0xFFFFE000, 0x0, 0x0, 0x0, 0x0, 0x0, 0, false⟩]  -- PM_DEV

/-- Block TWB. -/
def twbRows : List RegRow := twbRows1

/-- Registers of block FLT (R504), part 1. Columns: off, count, stride, reset, RW, RO, W1C, W1S, RWL, WO, bank, owned. -/
def fltRows1 : List RegRow := [
  ⟨0x0, 1, 4, 0xA21, 0x0, 0x0, 0x0, 0x80000000, 0xFF31, 0x0, 0, false⟩,  -- CTRL
  ⟨0x4, 1, 4, 0x0, 0x0, 0xFFFF001F, 0x0, 0x0, 0x0, 0x0, 0, false⟩,  -- STATUS
  ⟨0x8, 1, 4, 0x0, 0x0, 0x0, 0x8000000F, 0x0, 0x0, 0x0, 0, false⟩,  -- INT_STAT
  ⟨0xC, 1, 4, 0xC, 0x8000000F, 0x0, 0x0, 0x0, 0x0, 0x0, 0, false⟩,  -- INT_EN
  ⟨0x10, 1, 4, 0x0, 0x0, 0x8000000F, 0x0, 0x0, 0x0, 0x0, 0, false⟩,  -- ALERT_CAUSE
  ⟨0x14, 1, 4, 0x0, 0x0, 0xFFFFFFFF, 0x0, 0x0, 0x0, 0x0, 0, false⟩,  -- MSG_CNT
  ⟨0x18, 1, 4, 0x0, 0x0, 0xFFFFFFFF, 0x0, 0x0, 0x0, 0x0, 0, false⟩,  -- CONSEQ_CNT
  ⟨0x1C, 1, 4, 0x0, 0x0, 0xFFFFFFFF, 0x0, 0x0, 0x0, 0x0, 0, false⟩,  -- REACT_CNT
  ⟨0x20, 1, 4, 0x0, 0x0, 0xFFFFFFFF, 0x0, 0x0, 0x0, 0x0, 0, false⟩,  -- NOTIFY_CNT
  ⟨0x24, 1, 4, 0x0, 0x0, 0xFFFFFFFF, 0x0, 0x0, 0x0, 0x0, 0, false⟩,  -- DROP_CNT
  ⟨0x28, 1, 4, 0x0, 0x0, 0xFFFF, 0x0, 0x0, 0x0, 0x0, 0, false⟩,  -- LAST_MSG_HI
  ⟨0x2C, 1, 4, 0x0, 0x0, 0xFFFFFFFF, 0x0, 0x0, 0x0, 0x0, 0, false⟩,  -- LAST_MSG_LO
  ⟨0x30, 1, 4, 0x0, 0x0, 0xFFFFFE00, 0x0, 0x0, 0x0, 0x0, 0, false⟩,  -- LAST_NOTIFY
  ⟨0x34, 1, 4, 0x0, 0x3FF, 0x0, 0x0, 0x0, 0x0, 0x0, 0, false⟩,  -- TBL_SEL
  ⟨0x38, 1, 4, 0xC81C0100, 0x0, 0xFFFFFFFF, 0x0, 0x0, 0x0, 0x0, 0, false⟩,  -- TBL_CFG
  ⟨0x3C, 1, 4, 0x0, 0x0, 0xFFFFFFFF, 0x0, 0x0, 0x0, 0x0, 0, false⟩,  -- TBL_STATE
  ⟨0x40, 16, 4, 0x0, 0x0, 0xFFFFFFFF, 0x0, 0x0, 0x0, 0x0, 0, false⟩,  -- SHADOW
  ⟨0x100, 32, 4, 0xA, 0xFFFF, 0xFFFF0000, 0x0, 0x0, 0x0, 0x0, 0, false⟩]  -- REACT_CFG

/-- Block FLT. -/
def fltRows : List RegRow := fltRows1

/-- Registers of block BBX (R505), part 1. Columns: off, count, stride, reset, RW, RO, W1C, W1S, RWL, WO, bank, owned. -/
def bbxRows1 : List RegRow := [
  ⟨0x0, 1, 4, 0x2, 0x0, 0x0, 0x0, 0x80000000, 0x3, 0x0, 0, false⟩,  -- CTRL
  ⟨0x4, 1, 4, 0x0, 0x0, 0xE0000FFF, 0x0, 0x0, 0x0, 0x0, 0, false⟩,  -- STATUS
  ⟨0x8, 1, 4, 0x0, 0x0, 0x0, 0x80000007, 0x0, 0x0, 0x0, 0, false⟩,  -- INT_STAT
  ⟨0xC, 1, 4, 0x4, 0x80000007, 0x0, 0x0, 0x0, 0x0, 0x0, 0, false⟩,  -- INT_EN
  ⟨0x10, 1, 4, 0xA0100, 0x0, 0x0, 0x0, 0x0, 0xFFFFFFFF, 0x0, 0, false⟩,  -- INC_CFG
  ⟨0x14, 1, 4, 0x64, 0x0, 0x0, 0x0, 0x0, 0xFFFF, 0x0, 0, false⟩,  -- NV_RATE
  ⟨0x18, 1, 4, 0x0, 0x0, 0xFFFF, 0x0, 0x0, 0x0, 0x0, 0, false⟩,  -- BOOT_CNT
  ⟨0x1C, 1, 4, 0x0, 0x0, 0xFFFFFFFF, 0x0, 0x0, 0x0, 0x0, 0, false⟩,  -- VOL_NEWEST
  ⟨0x20, 1, 4, 0x0, 0x0, 0xFFFFFFFF, 0x0, 0x0, 0x0, 0x0, 0, false⟩,  -- VOL_OLDEST
  ⟨0x24, 1, 4, 0x0, 0x0, 0xFFFFFFFF, 0x0, 0x0, 0x0, 0x0, 0, false⟩,  -- COMMITTED
  ⟨0x28, 1, 4, 0x0, 0x0, 0xFFFFFFFF, 0x0, 0x0, 0x0, 0x0, 0, false⟩,  -- LOST_VOL
  ⟨0x2C, 1, 4, 0x0, 0x0, 0xFFFFFFFF, 0x0, 0x0, 0x0, 0x0, 0, false⟩,  -- NV_WRITES
  ⟨0x30, 1, 4, 0x0, 0x0, 0xFFFFFFFF, 0x0, 0x0, 0x0, 0x0, 0, false⟩,  -- NV_ERR_CNT
  ⟨0x34, 1, 4, 0x0, 0x0, 0x7FFF, 0x0, 0x0, 0x0, 0x0, 0, false⟩,  -- UNCOMMITTED
  ⟨0x38, 1, 4, 0x0, 0x0, 0xFFF, 0x0, 0x0, 0x0, 0x0, 0, false⟩,  -- NV_OLDEST
  ⟨0x3C, 1, 4, 0x0, 0x0, 0x1FFF, 0x0, 0x0, 0x0, 0x0, 0, false⟩]  -- NV_VALID

/-- Block BBX. -/
def bbxRows : List RegRow := bbxRows1

/-- Registers of block CNS (R506), part 1. Columns: off, count, stride, reset, RW, RO, W1C, W1S, RWL, WO, bank, owned. -/
def cnsRows1 : List RegRow := [
  ⟨0x0, 1, 4, 0x2, 0x1, 0x0, 0x0, 0x80000000, 0x2, 0x0, 0, false⟩,  -- CTRL
  ⟨0x4, 1, 4, 0x0, 0x0, 0xF8000000, 0x0, 0x0, 0x0, 0x0, 0, false⟩,  -- STATUS
  ⟨0x8, 1, 4, 0x0, 0x0, 0x0, 0x80000003, 0x0, 0x0, 0x0, 0, false⟩,  -- INT_STAT
  ⟨0xC, 1, 4, 0x0, 0x80000003, 0x0, 0x0, 0x0, 0x0, 0x0, 0, false⟩,  -- INT_EN
  ⟨0x10, 1, 4, 0x0, 0x0, 0xFFFFFFFF, 0x0, 0x0, 0x0, 0x0, 0, false⟩,  -- FREEZE_MS
  ⟨0x14, 1, 4, 0x0, 0x0, 0x1FFFFF, 0x0, 0x0, 0x0, 0x0, 0, false⟩,  -- IMG_PTR
  ⟨0x18, 1, 4, 0x1FC060, 0x0, 0x1FFFFF, 0x0, 0x0, 0x0, 0x0, 0, false⟩,  -- IMG_LEN
  ⟨0x1C, 1, 4, 0x0, 0x0, 0xFFFFFFFF, 0x0, 0x0, 0x0, 0x0, 0, false⟩,  -- COUNTS
  ⟨0x20, 8, 4, 0x0, 0x0, 0xFFFFFFFF, 0x0, 0x0, 0x0, 0x0, 0, false⟩]  -- IMG_WIN

/-- Block CNS. -/
def cnsRows : List RegRow := cnsRows1

/-- The registers of a block number (Table 4.9); none for an unassigned number. -/
def blockRows (blk : Nat) : Option (List RegRow) :=
  if blk = 0x00 then some devRows
  else if blk = 0x01 then some mgcRows
  else if 0x10 ≤ blk ∧ blk ≤ 0x17 then some prtRows
  else if blk = 0x18 then some lnkRows
  else if blk = 0x20 then some ampRows
  else if blk = 0x21 then some rgdRows
  else if blk = 0x28 then some schRows
  else if 0x30 ≤ blk ∧ blk ≤ 0x37 then some dchRows
  else if blk = 0x40 then some lchRows
  else if blk = 0x48 then some scnRows
  else if blk = 0x50 then some eccRows
  else if blk = 0x58 then some stkRows
  else if blk = 0x60 then some calRows
  else if blk = 0x68 then some thmRows
  else if blk = 0x70 then some pwrRows
  else if blk = 0x78 then some clkRows
  else if blk = 0x80 then some otpRows
  else if blk = 0x88 then some twbRows
  else if blk = 0x90 then some fltRows
  else if blk = 0x91 then some bbxRows
  else if blk = 0x92 then some cnsRows
  else none

end Sys2Proof.Machine

namespace Sys2Proof.Reg

open Sys2Proof.Machine

/-- DEV.ID, Table 16.8. -/
abbrev DEV.ID : Nat := 0x000000
abbrev DEV.ID_DEVICE_CODE : Fld := ⟨DEV.ID, 16, 16⟩
abbrev DEV.ID_PART : Fld := ⟨DEV.ID, 8, 8⟩
abbrev DEV.ID_STEP_MAJOR : Fld := ⟨DEV.ID, 4, 4⟩
abbrev DEV.ID_STEP_MINOR : Fld := ⟨DEV.ID, 0, 4⟩
/-- DEV.UID_HI, Table 16.8. -/
abbrev DEV.UID_HI : Nat := 0x000004
abbrev DEV.UID_HI_UID : Fld := ⟨DEV.UID_HI, 0, 32⟩
/-- DEV.UID_LO, Table 16.8. -/
abbrev DEV.UID_LO : Nat := 0x000008
abbrev DEV.UID_LO_UID : Fld := ⟨DEV.UID_LO, 0, 32⟩
/-- DEV.STATE, Table 16.8. -/
abbrev DEV.STATE : Nat := 0x00000C
abbrev DEV.STATE_DEV_STATE : Fld := ⟨DEV.STATE, 24, 8⟩
abbrev DEV.STATE_REASON : Fld := ⟨DEV.STATE, 8, 16⟩
/-- DEV.BOOT, Table 16.8. -/
abbrev DEV.BOOT : Nat := 0x000010
abbrev DEV.BOOT_STEP : Fld := ⟨DEV.BOOT, 28, 4⟩
abbrev DEV.BOOT_READY : Fld := ⟨DEV.BOOT, 27, 1⟩
abbrev DEV.BOOT_CUST_VALID : Fld := ⟨DEV.BOOT, 26, 1⟩
abbrev DEV.BOOT_CUST_EMPTY : Fld := ⟨DEV.BOOT, 25, 1⟩
/-- DEV.BOOT_TIME, Table 16.8. -/
abbrev DEV.BOOT_TIME : Nat := 0x000014
abbrev DEV.BOOT_TIME_READY_MS : Fld := ⟨DEV.BOOT_TIME, 16, 16⟩
abbrev DEV.BOOT_TIME_FILL_MS : Fld := ⟨DEV.BOOT_TIME, 0, 16⟩
/-- DEV.RESET_STAT, Table 16.8. -/
abbrev DEV.RESET_STAT : Nat := 0x000018
abbrev DEV.RESET_STAT_LAST : Fld := ⟨DEV.RESET_STAT, 28, 4⟩
abbrev DEV.RESET_STAT_WARM_CNT : Fld := ⟨DEV.RESET_STAT, 0, 16⟩
/-- DEV.FW_STAT, Table 16.8. -/
abbrev DEV.FW_STAT : Nat := 0x00001C
abbrev DEV.FW_STAT_FW_VERSION : Fld := ⟨DEV.FW_STAT, 16, 16⟩
abbrev DEV.FW_STAT_PATCHES : Fld := ⟨DEV.FW_STAT, 8, 8⟩
abbrev DEV.FW_STAT_BOOT_RESTARTS : Fld := ⟨DEV.FW_STAT, 0, 8⟩
/-- DEV.READY_CFG, Table 16.8. -/
abbrev DEV.READY_CFG : Nat := 0x000020
abbrev DEV.READY_CFG_READY_WAIT_MS : Fld := ⟨DEV.READY_CFG, 0, 16⟩
/-- DEV.PORT_BOOT, Table 16.8. -/
abbrev DEV.PORT_BOOT : Nat := 0x000024
abbrev DEV.PORT_BOOT_PORTS : Fld := ⟨DEV.PORT_BOOT, 0, 8⟩
/-- DEV.SCRATCH0, Table 16.8. -/
abbrev DEV.SCRATCH0 : Nat := 0x000028
abbrev DEV.SCRATCH0_DATA : Fld := ⟨DEV.SCRATCH0, 0, 32⟩
/-- DEV.SCRATCH1, Table 16.8. -/
abbrev DEV.SCRATCH1 : Nat := 0x00002C
abbrev DEV.SCRATCH1_DATA : Fld := ⟨DEV.SCRATCH1, 0, 32⟩

/-- MGC.STATUS, Table 4.10. -/
abbrev MGC.STATUS : Nat := 0x010000
abbrev MGC.STATUS_FW_STATE : Fld := ⟨MGC.STATUS, 28, 4⟩
abbrev MGC.STATUS_RESTART_CNT : Fld := ⟨MGC.STATUS, 0, 16⟩
/-- MGC.SRC_CTRL, Table 4.10. -/
abbrev MGC.SRC_CTRL : Nat := 0x010004
abbrev MGC.SRC_CTRL_CFG_LOCK : Fld := ⟨MGC.SRC_CTRL, 31, 1⟩
abbrev MGC.SRC_CTRL_TW_WR_EN : Fld := ⟨MGC.SRC_CTRL, 14, 1⟩
abbrev MGC.SRC_CTRL_INB_WR_EN : Fld := ⟨MGC.SRC_CTRL, 13, 1⟩
abbrev MGC.SRC_CTRL_OWNER_EN : Fld := ⟨MGC.SRC_CTRL, 12, 1⟩
abbrev MGC.SRC_CTRL_OWNER_REQ_ID : Fld := ⟨MGC.SRC_CTRL, 0, 12⟩
/-- MGC.COMMIT, Table 4.10. -/
abbrev MGC.COMMIT : Nat := 0x010008
abbrev MGC.COMMIT_COMMIT_GEN : Fld := ⟨MGC.COMMIT, 16, 16⟩
abbrev MGC.COMMIT_STAGE_DIRTY : Fld := ⟨MGC.COMMIT, 0, 5⟩
/-- MGC.STAGE_OWNER, Table 4.10. -/
abbrev MGC.STAGE_OWNER : Nat := 0x01000C
abbrev MGC.STAGE_OWNER_SRC : Fld := ⟨MGC.STAGE_OWNER, 12, 2⟩
abbrev MGC.STAGE_OWNER_REQ_ID : Fld := ⟨MGC.STAGE_OWNER, 0, 12⟩
/-- MGC.PEND, Table 4.10. -/
abbrev MGC.PEND : Nat := 0x010010
abbrev MGC.PEND_COUNT : Fld := ⟨MGC.PEND, 0, 5⟩
/-- MGC.WDOG, Table 4.10. -/
abbrev MGC.WDOG : Nat := 0x010014
abbrev MGC.WDOG_TIMEOUT_MS : Fld := ⟨MGC.WDOG, 0, 16⟩
/-- MGC.QUIESCE, Table 4.10. -/
abbrev MGC.QUIESCE : Nat := 0x010018
abbrev MGC.QUIESCE_PORTS : Fld := ⟨MGC.QUIESCE, 0, 8⟩
/-- MGC.INT_STAT, Table 4.11. -/
abbrev MGC.INT_STAT : Nat := 0x01001C
abbrev MGC.INT_STAT_SETAGAIN : Fld := ⟨MGC.INT_STAT, 31, 1⟩
abbrev MGC.INT_STAT_WDOG_RESET : Fld := ⟨MGC.INT_STAT, 3, 1⟩
abbrev MGC.INT_STAT_STAGE_TIMEOUT : Fld := ⟨MGC.INT_STAT, 2, 1⟩
abbrev MGC.INT_STAT_DUP_REPLY : Fld := ⟨MGC.INT_STAT, 1, 1⟩
abbrev MGC.INT_STAT_BAD_PKT : Fld := ⟨MGC.INT_STAT, 0, 1⟩
/-- MGC.INT_EN, Table 4.11. -/
abbrev MGC.INT_EN : Nat := 0x010020

/-- PRT.CTRL, Table 2.10. -/
abbrev PRT.CTRL (p : Nat) : Nat := 0x100000 + 0x10000 * p
abbrev PRT.CTRL_CFG_LOCK (p : Nat) : Fld := ⟨PRT.CTRL p, 31, 1⟩
abbrev PRT.CTRL_LANE_EN (p : Nat) : Fld := ⟨PRT.CTRL p, 12, 4⟩
abbrev PRT.CTRL_HW_ALIGN (p : Nat) : Fld := ⟨PRT.CTRL p, 11, 1⟩
abbrev PRT.CTRL_DROP_EN (p : Nat) : Fld := ⟨PRT.CTRL p, 10, 1⟩
abbrev PRT.CTRL_TEST_EN (p : Nat) : Fld := ⟨PRT.CTRL p, 9, 1⟩
abbrev PRT.CTRL_RETRAIN (p : Nat) : Fld := ⟨PRT.CTRL p, 1, 1⟩
abbrev PRT.CTRL_EN (p : Nat) : Fld := ⟨PRT.CTRL p, 0, 1⟩
/-- PRT.STATE, Table 2.11. -/
abbrev PRT.STATE (p : Nat) : Nat := 0x100004 + 0x10000 * p
abbrev PRT.STATE_PORT_STATE (p : Nat) : Fld := ⟨PRT.STATE p, 28, 4⟩
abbrev PRT.STATE_TX_MASK (p : Nat) : Fld := ⟨PRT.STATE p, 24, 4⟩
abbrev PRT.STATE_RX_MASK (p : Nat) : Fld := ⟨PRT.STATE p, 20, 4⟩
abbrev PRT.STATE_DOWN_REASON (p : Nat) : Fld := ⟨PRT.STATE p, 8, 8⟩
abbrev PRT.STATE_HOLDOVER (p : Nat) : Fld := ⟨PRT.STATE p, 2, 1⟩
abbrev PRT.STATE_ATTEMPT (p : Nat) : Fld := ⟨PRT.STATE p, 0, 2⟩
/-- PRT.INT_STAT, Table 2.12. -/
abbrev PRT.INT_STAT (p : Nat) : Nat := 0x100008 + 0x10000 * p
abbrev PRT.INT_STAT_SETAGAIN (p : Nat) : Fld := ⟨PRT.INT_STAT p, 31, 1⟩
abbrev PRT.INT_STAT_PRBS_ERR (p : Nat) : Fld := ⟨PRT.INT_STAT p, 8, 1⟩
abbrev PRT.INT_STAT_SLIP_REJ (p : Nat) : Fld := ⟨PRT.INT_STAT p, 7, 1⟩
abbrev PRT.INT_STAT_HOLDOVER (p : Nat) : Fld := ⟨PRT.INT_STAT p, 6, 1⟩
abbrev PRT.INT_STAT_SD_LOST (p : Nat) : Fld := ⟨PRT.INT_STAT p, 5, 1⟩
abbrev PRT.INT_STAT_DESKEW_FAIL (p : Nat) : Fld := ⟨PRT.INT_STAT p, 4, 1⟩
abbrev PRT.INT_STAT_LANE_DROP (p : Nat) : Fld := ⟨PRT.INT_STAT p, 3, 1⟩
abbrev PRT.INT_STAT_RETRAIN (p : Nat) : Fld := ⟨PRT.INT_STAT p, 2, 1⟩
abbrev PRT.INT_STAT_PORT_DOWN (p : Nat) : Fld := ⟨PRT.INT_STAT p, 1, 1⟩
abbrev PRT.INT_STAT_PORT_UP (p : Nat) : Fld := ⟨PRT.INT_STAT p, 0, 1⟩
/-- PRT.INT_EN, Table 2.12. -/
abbrev PRT.INT_EN (p : Nat) : Nat := 0x10000C + 0x10000 * p
/-- PRT.TIMING, Table 2.13. -/
abbrev PRT.TIMING (p : Nat) : Nat := 0x100010 + 0x10000 * p
abbrev PRT.TIMING_SD_WAIT (p : Nat) : Fld := ⟨PRT.TIMING p, 20, 12⟩
abbrev PRT.TIMING_TRAIN_LEN (p : Nat) : Fld := ⟨PRT.TIMING p, 8, 12⟩
abbrev PRT.TIMING_DESKEW_MAX (p : Nat) : Fld := ⟨PRT.TIMING p, 0, 8⟩
/-- PRT.DROP_CFG, Table 2.14. -/
abbrev PRT.DROP_CFG (p : Nat) : Nat := 0x100014 + 0x10000 * p
abbrev PRT.DROP_CFG_BIP_THR (p : Nat) : Fld := ⟨PRT.DROP_CFG p, 16, 16⟩
abbrev PRT.DROP_CFG_WIN (p : Nat) : Fld := ⟨PRT.DROP_CFG p, 8, 8⟩
/-- PRT.SLIP, Table 2.15. -/
abbrev PRT.SLIP (p : Nat) : Nat := 0x100018 + 0x10000 * p
abbrev PRT.SLIP_LANE (p : Nat) : Fld := ⟨PRT.SLIP p, 6, 2⟩
abbrev PRT.SLIP_COUNT (p : Nat) : Fld := ⟨PRT.SLIP p, 0, 6⟩
/-- PRT.PARTNER, Table 2.16. -/
abbrev PRT.PARTNER (p : Nat) : Nat := 0x10001C + 0x10000 * p
abbrev PRT.PARTNER_PORT_ID (p : Nat) : Fld := ⟨PRT.PARTNER p, 29, 3⟩
abbrev PRT.PARTNER_VALID (p : Nat) : Fld := ⟨PRT.PARTNER p, 28, 1⟩
abbrev PRT.PARTNER_TX_MASK (p : Nat) : Fld := ⟨PRT.PARTNER p, 24, 4⟩
abbrev PRT.PARTNER_RX_REQ (p : Nat) : Fld := ⟨PRT.PARTNER p, 20, 4⟩
abbrev PRT.PARTNER_STATE (p : Nat) : Fld := ⟨PRT.PARTNER p, 12, 8⟩
/-- PRT.EXIT_TIME, Table 2.17. -/
abbrev PRT.EXIT_TIME (p : Nat) : Nat := 0x100020 + 0x10000 * p
abbrev PRT.EXIT_TIME_DEEP_EXIT (p : Nat) : Fld := ⟨PRT.EXIT_TIME p, 16, 16⟩
abbrev PRT.EXIT_TIME_LIGHT_EXIT (p : Nat) : Fld := ⟨PRT.EXIT_TIME p, 0, 16⟩
/-- PRT.TEST_CFG, Table 2.17. -/
abbrev PRT.TEST_CFG (p : Nat) : Nat := 0x100024 + 0x10000 * p
abbrev PRT.TEST_CFG_LANE_SEL (p : Nat) : Fld := ⟨PRT.TEST_CFG p, 8, 4⟩
abbrev PRT.TEST_CFG_TX_PAT (p : Nat) : Fld := ⟨PRT.TEST_CFG p, 5, 3⟩
abbrev PRT.TEST_CFG_RX_CHK (p : Nat) : Fld := ⟨PRT.TEST_CFG p, 2, 3⟩
abbrev PRT.TEST_CFG_LOOP (p : Nat) : Fld := ⟨PRT.TEST_CFG p, 0, 2⟩
/-- PRT.COUNTS, Table 2.17. -/
abbrev PRT.COUNTS (p : Nat) : Nat := 0x100028 + 0x10000 * p
abbrev PRT.COUNTS_RETRAIN_CNT (p : Nat) : Fld := ⟨PRT.COUNTS p, 16, 16⟩
abbrev PRT.COUNTS_DROP_CNT (p : Nat) : Fld := ⟨PRT.COUNTS p, 0, 16⟩
/-- PRT.LANE_STAT, Table 2.18. -/
abbrev PRT.LANE_STAT (p m : Nat) : Nat := 0x100100 + 0x10000 * p + 0x40 * m
abbrev PRT.LANE_STAT_LANE_STATE (p m : Nat) : Fld := ⟨PRT.LANE_STAT p m, 28, 4⟩
abbrev PRT.LANE_STAT_SD (p m : Nat) : Fld := ⟨PRT.LANE_STAT p m, 27, 1⟩
abbrev PRT.LANE_STAT_CDR_LOCK (p m : Nat) : Fld := ⟨PRT.LANE_STAT p m, 26, 1⟩
abbrev PRT.LANE_STAT_AM_LOCK (p m : Nat) : Fld := ⟨PRT.LANE_STAT p m, 25, 1⟩
abbrev PRT.LANE_STAT_DROPPED (p m : Nat) : Fld := ⟨PRT.LANE_STAT p m, 24, 1⟩
abbrev PRT.LANE_STAT_SLIP_POS (p m : Nat) : Fld := ⟨PRT.LANE_STAT p m, 18, 6⟩
abbrev PRT.LANE_STAT_SKEW (p m : Nat) : Fld := ⟨PRT.LANE_STAT p m, 8, 10⟩
/-- PRT.TX_FIR, Table 2.18. -/
abbrev PRT.TX_FIR (p m : Nat) : Nat := 0x100104 + 0x10000 * p + 0x40 * m
abbrev PRT.TX_FIR_PRE2 (p m : Nat) : Fld := ⟨PRT.TX_FIR p m, 24, 6⟩
abbrev PRT.TX_FIR_PRE1 (p m : Nat) : Fld := ⟨PRT.TX_FIR p m, 18, 6⟩
abbrev PRT.TX_FIR_MAIN (p m : Nat) : Fld := ⟨PRT.TX_FIR p m, 12, 6⟩
abbrev PRT.TX_FIR_POST1 (p m : Nat) : Fld := ⟨PRT.TX_FIR p m, 6, 6⟩
abbrev PRT.TX_FIR_POST2 (p m : Nat) : Fld := ⟨PRT.TX_FIR p m, 0, 6⟩
/-- PRT.RX_EQ, Table 2.19. -/
abbrev PRT.RX_EQ (p m : Nat) : Nat := 0x100108 + 0x10000 * p + 0x40 * m
abbrev PRT.RX_EQ_ADAPT_EN (p m : Nat) : Fld := ⟨PRT.RX_EQ p m, 31, 1⟩
abbrev PRT.RX_EQ_FREEZE (p m : Nat) : Fld := ⟨PRT.RX_EQ p m, 30, 1⟩
abbrev PRT.RX_EQ_OVERRIDE (p m : Nat) : Fld := ⟨PRT.RX_EQ p m, 29, 1⟩
abbrev PRT.RX_EQ_CTLE (p m : Nat) : Fld := ⟨PRT.RX_EQ p m, 24, 5⟩
abbrev PRT.RX_EQ_VGA (p m : Nat) : Fld := ⟨PRT.RX_EQ p m, 18, 6⟩
abbrev PRT.RX_EQ_DFE1 (p m : Nat) : Fld := ⟨PRT.RX_EQ p m, 12, 6⟩
/-- PRT.RX_FFE, Table 2.19. -/
abbrev PRT.RX_FFE (p m : Nat) : Nat := 0x10010C + 0x10000 * p + 0x40 * m
abbrev PRT.RX_FFE_TAP (p m : Nat) : Fld := ⟨PRT.RX_FFE p m, 28, 4⟩
abbrev PRT.RX_FFE_VALUE (p m : Nat) : Fld := ⟨PRT.RX_FFE p m, 0, 8⟩
/-- PRT.SLICER, Table 2.19. -/
abbrev PRT.SLICER (p m : Nat) : Nat := 0x100110 + 0x10000 * p + 0x40 * m
abbrev PRT.SLICER_THR_HI (p m : Nat) : Fld := ⟨PRT.SLICER p m, 20, 10⟩
abbrev PRT.SLICER_THR_MID (p m : Nat) : Fld := ⟨PRT.SLICER p m, 10, 10⟩
abbrev PRT.SLICER_THR_LO (p m : Nat) : Fld := ⟨PRT.SLICER p m, 0, 10⟩
/-- PRT.BIP_CNT, Table 2.19. -/
abbrev PRT.BIP_CNT (p m : Nat) : Nat := 0x100114 + 0x10000 * p + 0x40 * m
abbrev PRT.BIP_CNT_COUNT (p m : Nat) : Fld := ⟨PRT.BIP_CNT p m, 0, 32⟩
/-- PRT.PRBS_ERR, Table 2.19. -/
abbrev PRT.PRBS_ERR (p m : Nat) : Nat := 0x100118 + 0x10000 * p + 0x40 * m
abbrev PRT.PRBS_ERR_COUNT (p m : Nat) : Fld := ⟨PRT.PRBS_ERR p m, 0, 32⟩
/-- PRT.PRBS_BITS, Table 2.19. -/
abbrev PRT.PRBS_BITS (p m : Nat) : Nat := 0x10011C + 0x10000 * p + 0x40 * m
abbrev PRT.PRBS_BITS_COUNT (p m : Nat) : Fld := ⟨PRT.PRBS_BITS p m, 0, 32⟩
/-- PRT.EYE, Table 2.19. -/
abbrev PRT.EYE (p m : Nat) : Nat := 0x100120 + 0x10000 * p + 0x40 * m
abbrev PRT.EYE_H_MARGIN (p m : Nat) : Fld := ⟨PRT.EYE p m, 8, 8⟩
abbrev PRT.EYE_V_MARGIN (p m : Nat) : Fld := ⟨PRT.EYE p m, 0, 8⟩

/-- LNK.CTRL, Table 3.18. -/
abbrev LNK.CTRL : Nat := 0x180000
abbrev LNK.CTRL_CFG_LOCK : Fld := ⟨LNK.CTRL, 31, 1⟩
abbrev LNK.CTRL_INIT_TMO : Fld := ⟨LNK.CTRL, 16, 8⟩
abbrev LNK.CTRL_SID_NAK : Fld := ⟨LNK.CTRL, 9, 1⟩
/-- LNK.STACK_ID, Table 3.18. -/
abbrev LNK.STACK_ID : Nat := 0x180004
abbrev LNK.STACK_ID_STACK_ID : Fld := ⟨LNK.STACK_ID, 0, 12⟩
/-- LNK.CREDIT_INIT, Table 3.18. -/
abbrev LNK.CREDIT_INIT : Nat := 0x180008
abbrev LNK.CREDIT_INIT_MGQ : Fld := ⟨LNK.CREDIT_INIT, 24, 8⟩
abbrev LNK.CREDIT_INIT_RQD : Fld := ⟨LNK.CREDIT_INIT, 12, 12⟩
abbrev LNK.CREDIT_INIT_RQH : Fld := ⟨LNK.CREDIT_INIT, 0, 12⟩
/-- LNK.REPLAY_CFG, Table 3.19. -/
abbrev LNK.REPLAY_CFG : Nat := 0x18000C
abbrev LNK.REPLAY_CFG_REPLAY_MAX : Fld := ⟨LNK.REPLAY_CFG, 16, 8⟩
abbrev LNK.REPLAY_CFG_REPLAY_TMO : Fld := ⟨LNK.REPLAY_CFG, 0, 16⟩
/-- LNK.CORR_CFG, Table 3.19. -/
abbrev LNK.CORR_CFG : Nat := 0x180010
abbrev LNK.CORR_CFG_CORR_THR : Fld := ⟨LNK.CORR_CFG, 16, 16⟩
abbrev LNK.CORR_CFG_CORR_WIN : Fld := ⟨LNK.CORR_CFG, 0, 16⟩
/-- LNK.INT_STAT, Table 3.20. -/
abbrev LNK.INT_STAT : Nat := 0x180014
abbrev LNK.INT_STAT_SETAGAIN : Fld := ⟨LNK.INT_STAT, 31, 1⟩
abbrev LNK.INT_STAT_EVT_DROP : Fld := ⟨LNK.INT_STAT, 7, 1⟩
abbrev LNK.INT_STAT_FRESH_LOSS : Fld := ⟨LNK.INT_STAT, 6, 1⟩
abbrev LNK.INT_STAT_RSP_DROP : Fld := ⟨LNK.INT_STAT, 5, 1⟩
abbrev LNK.INT_STAT_PROTO_ERR : Fld := ⟨LNK.INT_STAT, 4, 1⟩
abbrev LNK.INT_STAT_REPLAY_EXH : Fld := ⟨LNK.INT_STAT, 3, 1⟩
abbrev LNK.INT_STAT_CORR_HIGH : Fld := ⟨LNK.INT_STAT, 2, 1⟩
abbrev LNK.INT_STAT_SID_DROP : Fld := ⟨LNK.INT_STAT, 1, 1⟩
abbrev LNK.INT_STAT_LINK_UP : Fld := ⟨LNK.INT_STAT, 0, 1⟩
/-- LNK.INT_EN, Table 3.20. -/
abbrev LNK.INT_EN : Nat := 0x180018
/-- LNK.OUTSTANDING, Table 3.19. -/
abbrev LNK.OUTSTANDING : Nat := 0x18001C
abbrev LNK.OUTSTANDING_COUNT : Fld := ⟨LNK.OUTSTANDING, 0, 13⟩
/-- LNK.EVT_STAT, Table 3.19. -/
abbrev LNK.EVT_STAT : Nat := 0x180020
abbrev LNK.EVT_STAT_DROP_CNT : Fld := ⟨LNK.EVT_STAT, 16, 16⟩
abbrev LNK.EVT_STAT_DEPTH : Fld := ⟨LNK.EVT_STAT, 0, 7⟩
/-- LNK.PSTAT, Table 3.21. -/
abbrev LNK.PSTAT (n : Nat) : Nat := 0x180100 + 0x40 * n
abbrev LNK.PSTAT_LINK_STATE (n : Nat) : Fld := ⟨LNK.PSTAT n, 28, 4⟩
abbrev LNK.PSTAT_RESUMED (n : Nat) : Fld := ⟨LNK.PSTAT n, 27, 1⟩
abbrev LNK.PSTAT_TX_NEXT_SEQ (n : Nat) : Fld := ⟨LNK.PSTAT n, 12, 12⟩
abbrev LNK.PSTAT_RX_EXPECT (n : Nat) : Fld := ⟨LNK.PSTAT n, 0, 12⟩
/-- LNK.TX_CREDIT, Table 3.21. -/
abbrev LNK.TX_CREDIT (n : Nat) : Nat := 0x180104 + 0x40 * n
abbrev LNK.TX_CREDIT_MGR (n : Nat) : Fld := ⟨LNK.TX_CREDIT n, 24, 8⟩
abbrev LNK.TX_CREDIT_CPD (n : Nat) : Fld := ⟨LNK.TX_CREDIT n, 12, 12⟩
abbrev LNK.TX_CREDIT_CPH (n : Nat) : Fld := ⟨LNK.TX_CREDIT n, 0, 12⟩
/-- LNK.UNACKED, Table 3.21. -/
abbrev LNK.UNACKED (n : Nat) : Nat := 0x180108 + 0x40 * n
abbrev LNK.UNACKED_COUNT (n : Nat) : Fld := ⟨LNK.UNACKED n, 0, 9⟩
/-- LNK.CORR_FLITS, Table 3.21. -/
abbrev LNK.CORR_FLITS (n : Nat) : Nat := 0x18010C + 0x40 * n
abbrev LNK.CORR_FLITS_COUNT (n : Nat) : Fld := ⟨LNK.CORR_FLITS n, 0, 32⟩
/-- LNK.CORR_12, Table 3.21. -/
abbrev LNK.CORR_12 (n : Nat) : Nat := 0x180110 + 0x40 * n
abbrev LNK.CORR_12_CNT2 (n : Nat) : Fld := ⟨LNK.CORR_12 n, 16, 16⟩
abbrev LNK.CORR_12_CNT1 (n : Nat) : Fld := ⟨LNK.CORR_12 n, 0, 16⟩
/-- LNK.CORR_34, Table 3.21. -/
abbrev LNK.CORR_34 (n : Nat) : Nat := 0x180114 + 0x40 * n
abbrev LNK.CORR_34_CNT4 (n : Nat) : Fld := ⟨LNK.CORR_34 n, 16, 16⟩
abbrev LNK.CORR_34_CNT3 (n : Nat) : Fld := ⟨LNK.CORR_34 n, 0, 16⟩
/-- LNK.CRC_FAIL, Table 3.21. -/
abbrev LNK.CRC_FAIL (n : Nat) : Nat := 0x180118 + 0x40 * n
abbrev LNK.CRC_FAIL_COUNT (n : Nat) : Fld := ⟨LNK.CRC_FAIL n, 0, 32⟩
/-- LNK.NAK, Table 3.21. -/
abbrev LNK.NAK (n : Nat) : Nat := 0x18011C + 0x40 * n
abbrev LNK.NAK_NAK_RX (n : Nat) : Fld := ⟨LNK.NAK n, 16, 16⟩
abbrev LNK.NAK_NAK_TX (n : Nat) : Fld := ⟨LNK.NAK n, 0, 16⟩
/-- LNK.REPLAY, Table 3.21. -/
abbrev LNK.REPLAY (n : Nat) : Nat := 0x180120 + 0x40 * n
abbrev LNK.REPLAY_TMO_REPLAY (n : Nat) : Fld := ⟨LNK.REPLAY n, 16, 16⟩
abbrev LNK.REPLAY_BUF_FULL (n : Nat) : Fld := ⟨LNK.REPLAY n, 0, 16⟩
/-- LNK.DROPS, Table 3.21. -/
abbrev LNK.DROPS (n : Nat) : Nat := 0x180124 + 0x40 * n
abbrev LNK.DROPS_PROTO (n : Nat) : Fld := ⟨LNK.DROPS n, 24, 8⟩
abbrev LNK.DROPS_RSP_DROP (n : Nat) : Fld := ⟨LNK.DROPS n, 16, 8⟩
abbrev LNK.DROPS_SID_DROP (n : Nat) : Fld := ⟨LNK.DROPS n, 0, 16⟩
/-- LNK.FLITS_RX, Table 3.21. -/
abbrev LNK.FLITS_RX (n : Nat) : Nat := 0x180128 + 0x40 * n
abbrev LNK.FLITS_RX_COUNT (n : Nat) : Fld := ⟨LNK.FLITS_RX n, 0, 32⟩
/-- LNK.ROUTE, Table 3.21. -/
abbrev LNK.ROUTE (r : Nat) : Nat := 0x184000 + 0x4 * r
abbrev LNK.ROUTE_MODE (r : Nat) : Fld := ⟨LNK.ROUTE r, 6, 2⟩
abbrev LNK.ROUTE_ALT (r : Nat) : Fld := ⟨LNK.ROUTE r, 3, 3⟩
abbrev LNK.ROUTE_PRIMARY (r : Nat) : Fld := ⟨LNK.ROUTE r, 0, 3⟩

/-- AMP.MAP, Table 5.5. -/
abbrev AMP.MAP : Nat := 0x200000
abbrev AMP.MAP_GRAIN : Fld := ⟨AMP.MAP, 4, 3⟩
abbrev AMP.MAP_BANK_HASH : Fld := ⟨AMP.MAP, 1, 1⟩
abbrev AMP.MAP_PC_HASH : Fld := ⟨AMP.MAP, 0, 1⟩
/-- AMP.CAP, Table 5.5. -/
abbrev AMP.CAP : Nat := 0x200004
abbrev AMP.CAP_CAP_GIB : Fld := ⟨AMP.CAP, 8, 8⟩
abbrev AMP.CAP_PC_BITS : Fld := ⟨AMP.CAP, 0, 3⟩
/-- AMP.INT_STAT, Table 5.5. -/
abbrev AMP.INT_STAT : Nat := 0x200008
abbrev AMP.INT_STAT_SETAGAIN : Fld := ⟨AMP.INT_STAT, 31, 1⟩
abbrev AMP.INT_STAT_MAP_APPLIED : Fld := ⟨AMP.INT_STAT, 1, 1⟩
abbrev AMP.INT_STAT_RANGE : Fld := ⟨AMP.INT_STAT, 0, 1⟩
/-- AMP.INT_EN, Table 5.5. -/
abbrev AMP.INT_EN : Nat := 0x20000C
/-- AMP.RANGE_CNT, Table 5.5. -/
abbrev AMP.RANGE_CNT : Nat := 0x200010
abbrev AMP.RANGE_CNT_COUNT : Fld := ⟨AMP.RANGE_CNT, 0, 32⟩
/-- AMP.XLATE_HI, Table 5.5. -/
abbrev AMP.XLATE_HI : Nat := 0x200014
abbrev AMP.XLATE_HI_ADDR_HI : Fld := ⟨AMP.XLATE_HI, 0, 8⟩
/-- AMP.XLATE_LO, Table 5.5. -/
abbrev AMP.XLATE_LO : Nat := 0x200018
abbrev AMP.XLATE_LO_ADDR_LO : Fld := ⟨AMP.XLATE_LO, 0, 32⟩
/-- AMP.XLATE_OUT, Table 5.5. -/
abbrev AMP.XLATE_OUT : Nat := 0x20001C
abbrev AMP.XLATE_OUT_VALID : Fld := ⟨AMP.XLATE_OUT, 31, 1⟩
abbrev AMP.XLATE_OUT_PC : Fld := ⟨AMP.XLATE_OUT, 24, 7⟩
abbrev AMP.XLATE_OUT_BG : Fld := ⟨AMP.XLATE_OUT, 22, 2⟩
abbrev AMP.XLATE_OUT_BANK : Fld := ⟨AMP.XLATE_OUT, 18, 4⟩
abbrev AMP.XLATE_OUT_ROW : Fld := ⟨AMP.XLATE_OUT, 5, 13⟩
abbrev AMP.XLATE_OUT_SEG : Fld := ⟨AMP.XLATE_OUT, 2, 3⟩
abbrev AMP.XLATE_OUT_COL : Fld := ⟨AMP.XLATE_OUT, 0, 2⟩
/-- AMP.PC_STATE, Table 5.6. -/
abbrev AMP.PC_STATE (k : Nat) : Nat := 0x200100 + 0x4 * k
abbrev AMP.PC_STATE_S3 (k : Nat) : Fld := ⟨AMP.PC_STATE k, 24, 8⟩
abbrev AMP.PC_STATE_S2 (k : Nat) : Fld := ⟨AMP.PC_STATE k, 16, 8⟩
abbrev AMP.PC_STATE_S1 (k : Nat) : Fld := ⟨AMP.PC_STATE k, 8, 8⟩
abbrev AMP.PC_STATE_S0 (k : Nat) : Fld := ⟨AMP.PC_STATE k, 0, 8⟩

/-- RGD.CTRL, Table 5.7. -/
abbrev RGD.CTRL : Nat := 0x210000
abbrev RGD.CTRL_WIN_COUNT : Fld := ⟨RGD.CTRL, 1, 9⟩
abbrev RGD.CTRL_DEFAULT_ALLOW : Fld := ⟨RGD.CTRL, 0, 1⟩
/-- RGD.INT_STAT, Table 5.7. -/
abbrev RGD.INT_STAT : Nat := 0x210004
abbrev RGD.INT_STAT_SETAGAIN : Fld := ⟨RGD.INT_STAT, 31, 1⟩
abbrev RGD.INT_STAT_GUARD_APPLIED : Fld := ⟨RGD.INT_STAT, 2, 1⟩
abbrev RGD.INT_STAT_FENCE_SET : Fld := ⟨RGD.INT_STAT, 1, 1⟩
abbrev RGD.INT_STAT_DENY : Fld := ⟨RGD.INT_STAT, 0, 1⟩
/-- RGD.INT_EN, Table 5.7. -/
abbrev RGD.INT_EN : Nat := 0x210008
/-- RGD.DENY_CNT, Table 5.7. -/
abbrev RGD.DENY_CNT : Nat := 0x21000C
abbrev RGD.DENY_CNT_COUNT : Fld := ⟨RGD.DENY_CNT, 0, 32⟩
/-- RGD.DENY_INFO, Table 5.7. -/
abbrev RGD.DENY_INFO : Nat := 0x210010
abbrev RGD.DENY_INFO_REQ_ID : Fld := ⟨RGD.DENY_INFO, 20, 12⟩
abbrev RGD.DENY_INFO_CLASS : Fld := ⟨RGD.DENY_INFO, 14, 6⟩
abbrev RGD.DENY_INFO_WRITE : Fld := ⟨RGD.DENY_INFO, 13, 1⟩
abbrev RGD.DENY_INFO_NOWIN : Fld := ⟨RGD.DENY_INFO, 12, 1⟩
abbrev RGD.DENY_INFO_WINDOW : Fld := ⟨RGD.DENY_INFO, 0, 8⟩
/-- RGD.DENY_ADDR_HI, Table 5.7. -/
abbrev RGD.DENY_ADDR_HI : Nat := 0x210014
abbrev RGD.DENY_ADDR_HI_ADDR_HI : Fld := ⟨RGD.DENY_ADDR_HI, 0, 8⟩
/-- RGD.DENY_ADDR_LO, Table 5.7. -/
abbrev RGD.DENY_ADDR_LO : Nat := 0x210018
abbrev RGD.DENY_ADDR_LO_ADDR_LO : Fld := ⟨RGD.DENY_ADDR_LO, 0, 32⟩
/-- RGD.FENCE_CNT, Table 5.7. -/
abbrev RGD.FENCE_CNT : Nat := 0x21001C
abbrev RGD.FENCE_CNT_COUNT : Fld := ⟨RGD.FENCE_CNT, 0, 32⟩
/-- RGD.MASK_LO, Table 5.8. -/
abbrev RGD.MASK_LO (k : Nat) : Nat := 0x210100 + 0x8 * k
abbrev RGD.MASK_LO_CLS_LO (k : Nat) : Fld := ⟨RGD.MASK_LO k, 0, 32⟩
/-- RGD.MASK_HI, Table 5.8. -/
abbrev RGD.MASK_HI (k : Nat) : Nat := 0x210104 + 0x8 * k
abbrev RGD.MASK_HI_CLS_HI (k : Nat) : Fld := ⟨RGD.MASK_HI k, 0, 28⟩
/-- RGD.WIN, Table 5.8. -/
abbrev RGD.WIN (w : Nat) : Nat := 0x210400 + 0x4 * w
abbrev RGD.WIN_FENCE (w : Nat) : Fld := ⟨RGD.WIN w, 31, 1⟩
abbrev RGD.WIN_BASE (w : Nat) : Fld := ⟨RGD.WIN w, 14, 17⟩
abbrev RGD.WIN_SIZE (w : Nat) : Fld := ⟨RGD.WIN w, 9, 5⟩
abbrev RGD.WIN_EN (w : Nat) : Fld := ⟨RGD.WIN w, 8, 1⟩
abbrev RGD.WIN_RSET (w : Nat) : Fld := ⟨RGD.WIN w, 4, 4⟩
abbrev RGD.WIN_WSET (w : Nat) : Fld := ⟨RGD.WIN w, 0, 4⟩

/-- SCH.CTRL, Table 6.13. -/
abbrev SCH.CTRL : Nat := 0x280000
abbrev SCH.CTRL_CFG_LOCK : Fld := ⟨SCH.CTRL, 31, 1⟩
abbrev SCH.CTRL_PORT_MASK : Fld := ⟨SCH.CTRL, 16, 8⟩
abbrev SCH.CTRL_MODEL_HOLD : Fld := ⟨SCH.CTRL, 8, 8⟩
/-- SCH.INT_STAT, Table 6.13. -/
abbrev SCH.INT_STAT : Nat := 0x280004
abbrev SCH.INT_STAT_SETAGAIN : Fld := ⟨SCH.INT_STAT, 31, 1⟩
abbrev SCH.INT_STAT_UNMET : Fld := ⟨SCH.INT_STAT, 4, 1⟩
abbrev SCH.INT_STAT_SHORT_EXIT : Fld := ⟨SCH.INT_STAT, 3, 1⟩
abbrev SCH.INT_STAT_SHORT_ENTER : Fld := ⟨SCH.INT_STAT, 2, 1⟩
abbrev SCH.INT_STAT_PROMO_WAIT : Fld := ⟨SCH.INT_STAT, 1, 1⟩
abbrev SCH.INT_STAT_LATE : Fld := ⟨SCH.INT_STAT, 0, 1⟩
/-- SCH.INT_EN, Table 6.13. -/
abbrev SCH.INT_EN : Nat := 0x280008
/-- SCH.TIMEBASE, Table 6.13. -/
abbrev SCH.TIMEBASE : Nat := 0x28000C
abbrev SCH.TIMEBASE_US : Fld := ⟨SCH.TIMEBASE, 0, 32⟩
/-- SCH.DL_CFG, Table 6.13. -/
abbrev SCH.DL_CFG : Nat := 0x280010
abbrev SCH.DL_CFG_SLACK_NEAR : Fld := ⟨SCH.DL_CFG, 16, 16⟩
abbrev SCH.DL_CFG_EST_NS : Fld := ⟨SCH.DL_CFG, 0, 16⟩
/-- SCH.WB_CFG, Table 6.13. -/
abbrev SCH.WB_CFG : Nat := 0x280014
abbrev SCH.WB_CFG_WB_AGE : Fld := ⟨SCH.WB_CFG, 0, 8⟩
/-- SCH.MODEL_LINK, Table 6.13. -/
abbrev SCH.MODEL_LINK : Nat := 0x280018
abbrev SCH.MODEL_LINK_VALUE : Fld := ⟨SCH.MODEL_LINK, 0, 32⟩
/-- SCH.MODEL_ACT, Table 6.13. -/
abbrev SCH.MODEL_ACT : Nat := 0x28001C
abbrev SCH.MODEL_ACT_VALUE : Fld := ⟨SCH.MODEL_ACT, 0, 32⟩
/-- SCH.MODEL_BURST, Table 6.13. -/
abbrev SCH.MODEL_BURST : Nat := 0x280020
abbrev SCH.MODEL_BURST_VALUE : Fld := ⟨SCH.MODEL_BURST, 0, 32⟩
/-- SCH.DEM_LINK, Table 6.13. -/
abbrev SCH.DEM_LINK : Nat := 0x280024
abbrev SCH.DEM_LINK_VALUE : Fld := ⟨SCH.DEM_LINK, 0, 32⟩
/-- SCH.DEM_ACT, Table 6.13. -/
abbrev SCH.DEM_ACT : Nat := 0x280028
abbrev SCH.DEM_ACT_VALUE : Fld := ⟨SCH.DEM_ACT, 0, 32⟩
/-- SCH.DEM_BURST, Table 6.13. -/
abbrev SCH.DEM_BURST : Nat := 0x28002C
abbrev SCH.DEM_BURST_VALUE : Fld := ⟨SCH.DEM_BURST, 0, 32⟩
/-- SCH.INT_ACT, Table 6.13. -/
abbrev SCH.INT_ACT : Nat := 0x280030
abbrev SCH.INT_ACT_VALUE : Fld := ⟨SCH.INT_ACT, 0, 32⟩
/-- SCH.INT_BURST, Table 6.13. -/
abbrev SCH.INT_BURST : Nat := 0x280034
abbrev SCH.INT_BURST_VALUE : Fld := ⟨SCH.INT_BURST, 0, 32⟩
/-- SCH.GOV_CEIL, Table 6.13. -/
abbrev SCH.GOV_CEIL : Nat := 0x280038
abbrev SCH.GOV_CEIL_LINK_CEIL : Fld := ⟨SCH.GOV_CEIL, 16, 16⟩
abbrev SCH.GOV_CEIL_SCAN_CEIL : Fld := ⟨SCH.GOV_CEIL, 0, 16⟩
/-- SCH.DERATE, Table 6.13. -/
abbrev SCH.DERATE : Nat := 0x28003C
abbrev SCH.DERATE_CAUSES : Fld := ⟨SCH.DERATE, 0, 7⟩
/-- SCH.SHORT_STAT, Table 6.14. -/
abbrev SCH.SHORT_STAT : Nat := 0x280040
abbrev SCH.SHORT_STAT_ACTIVE : Fld := ⟨SCH.SHORT_STAT, 31, 1⟩
abbrev SCH.SHORT_STAT_UNMET : Fld := ⟨SCH.SHORT_STAT, 30, 1⟩
abbrev SCH.SHORT_STAT_TRIM_RANK : Fld := ⟨SCH.SHORT_STAT, 8, 3⟩
abbrev SCH.SHORT_STAT_TRIM_CNT : Fld := ⟨SCH.SHORT_STAT, 0, 7⟩
/-- SCH.SHORT_CNT, Table 6.14. -/
abbrev SCH.SHORT_CNT : Nat := 0x280044
abbrev SCH.SHORT_CNT_ENTER_CNT : Fld := ⟨SCH.SHORT_CNT, 16, 16⟩
abbrev SCH.SHORT_CNT_LAST_MS : Fld := ⟨SCH.SHORT_CNT, 0, 16⟩
/-- SCH.CLS_SEL, Table 6.14. -/
abbrev SCH.CLS_SEL : Nat := 0x280048
abbrev SCH.CLS_SEL_CLASS : Fld := ⟨SCH.CLS_SEL, 0, 6⟩
/-- SCH.CLS_AVG, Table 6.14. -/
abbrev SCH.CLS_AVG (c : Nat) : Nat := 0x28004C + 0x1000000 * (c + 1)
abbrev SCH.CLS_AVG_AVG_NS (c : Nat) : Fld := ⟨SCH.CLS_AVG c, 0, 16⟩
/-- SCH.CLS_ADMIT, Table 6.14. -/
abbrev SCH.CLS_ADMIT (c : Nat) : Nat := 0x280050 + 0x1000000 * (c + 1)
abbrev SCH.CLS_ADMIT_COUNT (c : Nat) : Fld := ⟨SCH.CLS_ADMIT c, 0, 32⟩
/-- SCH.CLS_HOLD, Table 6.14. -/
abbrev SCH.CLS_HOLD (c : Nat) : Nat := 0x280054 + 0x1000000 * (c + 1)
abbrev SCH.CLS_HOLD_HOLD_CNT (c : Nat) : Fld := ⟨SCH.CLS_HOLD c, 16, 16⟩
abbrev SCH.CLS_HOLD_HELD_NOW (c : Nat) : Fld := ⟨SCH.CLS_HOLD c, 0, 13⟩
/-- SCH.CLS_LATE, Table 6.14. -/
abbrev SCH.CLS_LATE (c : Nat) : Nat := 0x280058 + 0x1000000 * (c + 1)
abbrev SCH.CLS_LATE_COUNT (c : Nat) : Fld := ⟨SCH.CLS_LATE c, 0, 32⟩
/-- SCH.CLS_PROMO, Table 6.14. -/
abbrev SCH.CLS_PROMO (c : Nat) : Nat := 0x28005C + 0x1000000 * (c + 1)
abbrev SCH.CLS_PROMO_COUNT (c : Nat) : Fld := ⟨SCH.CLS_PROMO c, 0, 32⟩
/-- SCH.PC_SEL, Table 6.14. -/
abbrev SCH.PC_SEL : Nat := 0x280060
abbrev SCH.PC_SEL_PC : Fld := ⟨SCH.PC_SEL, 0, 7⟩
/-- SCH.PC_QUEUE, Table 6.14. -/
abbrev SCH.PC_QUEUE (c : Nat) : Nat := 0x280064 + 0x1000000 * (c + 1)
abbrev SCH.PC_QUEUE_U3 (c : Nat) : Fld := ⟨SCH.PC_QUEUE c, 24, 8⟩
abbrev SCH.PC_QUEUE_U2 (c : Nat) : Fld := ⟨SCH.PC_QUEUE c, 16, 8⟩
abbrev SCH.PC_QUEUE_U1 (c : Nat) : Fld := ⟨SCH.PC_QUEUE c, 8, 8⟩
abbrev SCH.PC_QUEUE_U0 (c : Nat) : Fld := ⟨SCH.PC_QUEUE c, 0, 8⟩
/-- SCH.PC_PROMO, Table 6.14. -/
abbrev SCH.PC_PROMO (c : Nat) : Nat := 0x280068 + 0x1000000 * (c + 1)
abbrev SCH.PC_PROMO_WAITING (c : Nat) : Fld := ⟨SCH.PC_PROMO c, 24, 8⟩
abbrev SCH.PC_PROMO_MAX_WAIT_NS (c : Nat) : Fld := ⟨SCH.PC_PROMO c, 0, 16⟩
/-- SCH.REF_DOUBLE, Table 6.14. -/
abbrev SCH.REF_DOUBLE : Nat := 0x28006C
abbrev SCH.REF_DOUBLE_DIES : Fld := ⟨SCH.REF_DOUBLE, 0, 8⟩
/-- SCH.EVAC, Table 6.14. -/
abbrev SCH.EVAC : Nat := 0x280070
abbrev SCH.EVAC_ACTIVE : Fld := ⟨SCH.EVAC, 31, 1⟩
abbrev SCH.EVAC_PC : Fld := ⟨SCH.EVAC, 0, 7⟩
/-- SCH.POOL_STALLS, Table 6.14. -/
abbrev SCH.POOL_STALLS : Nat := 0x280074
abbrev SCH.POOL_STALLS_COUNT : Fld := ⟨SCH.POOL_STALLS, 0, 32⟩
/-- SCH.HOLD_TOTAL, Table 6.14. -/
abbrev SCH.HOLD_TOTAL : Nat := 0x280078
abbrev SCH.HOLD_TOTAL_COUNT : Fld := ⟨SCH.HOLD_TOTAL, 0, 13⟩
/-- SCH.PROMO_TOTAL, Table 6.14. -/
abbrev SCH.PROMO_TOTAL : Nat := 0x28007C
abbrev SCH.PROMO_TOTAL_COUNT : Fld := ⟨SCH.PROMO_TOTAL, 0, 32⟩
/-- SCH.CLS_CFG, Table 6.15. -/
abbrev SCH.CLS_CFG (n : Nat) : Nat := 0x280100 + 0x10 * n
abbrev SCH.CLS_CFG_RANK (n : Nat) : Fld := ⟨SCH.CLS_CFG n, 29, 3⟩
abbrev SCH.CLS_CFG_ALLOC (n : Nat) : Fld := ⟨SCH.CLS_CFG n, 27, 2⟩
abbrev SCH.CLS_CFG_SCAN_OK (n : Nat) : Fld := ⟨SCH.CLS_CFG n, 26, 1⟩
abbrev SCH.CLS_CFG_ATOM_OK (n : Nat) : Fld := ⟨SCH.CLS_CFG n, 25, 1⟩
abbrev SCH.CLS_CFG_RSV (n : Nat) : Fld := ⟨SCH.CLS_CFG n, 24, 1⟩
abbrev SCH.CLS_CFG_WINDOW (n : Nat) : Fld := ⟨SCH.CLS_CFG n, 12, 12⟩
/-- SCH.CLS_BUDGET, Table 6.15. -/
abbrev SCH.CLS_BUDGET (n : Nat) : Nat := 0x280104 + 0x10 * n
abbrev SCH.CLS_BUDGET_BUDGET (n : Nat) : Fld := ⟨SCH.CLS_BUDGET n, 0, 24⟩
/-- SCH.CLS_LAT, Table 6.15. -/
abbrev SCH.CLS_LAT (n : Nat) : Nat := 0x280108 + 0x10 * n
abbrev SCH.CLS_LAT_LAT_TARGET (n : Nat) : Fld := ⟨SCH.CLS_LAT n, 16, 16⟩
abbrev SCH.CLS_LAT_AGE_LIMIT (n : Nat) : Fld := ⟨SCH.CLS_LAT n, 0, 16⟩
/-- SCH.CLS_STAT, Table 6.15. -/
abbrev SCH.CLS_STAT (n : Nat) : Nat := 0x28010C + 0x10 * n
abbrev SCH.CLS_STAT_TRACK (n : Nat) : Fld := ⟨SCH.CLS_STAT n, 30, 2⟩
abbrev SCH.CLS_STAT_TRIMMED (n : Nat) : Fld := ⟨SCH.CLS_STAT n, 29, 1⟩
abbrev SCH.CLS_STAT_HELD (n : Nat) : Fld := ⟨SCH.CLS_STAT n, 28, 1⟩
abbrev SCH.CLS_STAT_EFF_BUDGET (n : Nat) : Fld := ⟨SCH.CLS_STAT n, 0, 24⟩

/-- DCH.CTRL, Table 7.6. -/
abbrev DCH.CTRL (d : Nat) : Nat := 0x2F0000 + 0x10000 * d
abbrev DCH.CTRL_CFG_LOCK (d : Nat) : Fld := ⟨DCH.CTRL d, 31, 1⟩
abbrev DCH.CTRL_PD_IDLE (d : Nat) : Fld := ⟨DCH.CTRL d, 0, 8⟩
/-- DCH.STATUS, Table 7.6. -/
abbrev DCH.STATUS (d : Nat) : Nat := 0x2F0004 + 0x10000 * d
abbrev DCH.STATUS_DIE_STATE (d : Nat) : Fld := ⟨DCH.STATUS d, 30, 2⟩
abbrev DCH.STATUS_REF_DOUBLE (d : Nat) : Fld := ⟨DCH.STATUS d, 29, 1⟩
abbrev DCH.STATUS_SUBST (d : Nat) : Fld := ⟨DCH.STATUS d, 28, 1⟩
/-- DCH.INT_STAT, Table 7.6. -/
abbrev DCH.INT_STAT (d : Nat) : Nat := 0x2F0008 + 0x10000 * d
abbrev DCH.INT_STAT_SETAGAIN (d : Nat) : Fld := ⟨DCH.INT_STAT d, 31, 1⟩
abbrev DCH.INT_STAT_REF_LATE (d : Nat) : Fld := ⟨DCH.INT_STAT d, 5, 1⟩
abbrev DCH.INT_STAT_RESET_DONE (d : Nat) : Fld := ⟨DCH.INT_STAT d, 4, 1⟩
abbrev DCH.INT_STAT_FENCE_SET (d : Nat) : Fld := ⟨DCH.INT_STAT d, 3, 1⟩
abbrev DCH.INT_STAT_WB_DROP (d : Nat) : Fld := ⟨DCH.INT_STAT d, 2, 1⟩
abbrev DCH.INT_STAT_REF_MODE (d : Nat) : Fld := ⟨DCH.INT_STAT d, 1, 1⟩
abbrev DCH.INT_STAT_AUDIT_MISMATCH (d : Nat) : Fld := ⟨DCH.INT_STAT d, 0, 1⟩
/-- DCH.INT_EN, Table 7.6. -/
abbrev DCH.INT_EN (d : Nat) : Nat := 0x2F000C + 0x10000 * d
/-- DCH.TIM_ROW, Table 7.6. -/
abbrev DCH.TIM_ROW (d : Nat) : Nat := 0x2F0010 + 0x10000 * d
abbrev DCH.TIM_ROW_TRCD (d : Nat) : Fld := ⟨DCH.TIM_ROW d, 24, 8⟩
abbrev DCH.TIM_ROW_TRP (d : Nat) : Fld := ⟨DCH.TIM_ROW d, 16, 8⟩
abbrev DCH.TIM_ROW_TRAS (d : Nat) : Fld := ⟨DCH.TIM_ROW d, 8, 8⟩
abbrev DCH.TIM_ROW_TRRD (d : Nat) : Fld := ⟨DCH.TIM_ROW d, 0, 8⟩
/-- DCH.TIM_WIN, Table 7.6. -/
abbrev DCH.TIM_WIN (d : Nat) : Nat := 0x2F0014 + 0x10000 * d
abbrev DCH.TIM_WIN_TRC (d : Nat) : Fld := ⟨DCH.TIM_WIN d, 20, 12⟩
abbrev DCH.TIM_WIN_TFAW (d : Nat) : Fld := ⟨DCH.TIM_WIN d, 8, 12⟩
/-- DCH.TIM_COL, Table 7.6. -/
abbrev DCH.TIM_COL (d : Nat) : Nat := 0x2F0018 + 0x10000 * d
abbrev DCH.TIM_COL_CL (d : Nat) : Fld := ⟨DCH.TIM_COL d, 24, 8⟩
abbrev DCH.TIM_COL_CWL (d : Nat) : Fld := ⟨DCH.TIM_COL d, 16, 8⟩
abbrev DCH.TIM_COL_TCCD_S (d : Nat) : Fld := ⟨DCH.TIM_COL d, 8, 8⟩
abbrev DCH.TIM_COL_TCCD_L (d : Nat) : Fld := ⟨DCH.TIM_COL d, 0, 8⟩
/-- DCH.TIM_TURN, Table 7.6. -/
abbrev DCH.TIM_TURN (d : Nat) : Nat := 0x2F001C + 0x10000 * d
abbrev DCH.TIM_TURN_TRTP (d : Nat) : Fld := ⟨DCH.TIM_TURN d, 24, 8⟩
abbrev DCH.TIM_TURN_TWR (d : Nat) : Fld := ⟨DCH.TIM_TURN d, 16, 8⟩
abbrev DCH.TIM_TURN_TWTR (d : Nat) : Fld := ⟨DCH.TIM_TURN d, 8, 8⟩
abbrev DCH.TIM_TURN_TRTW (d : Nat) : Fld := ⟨DCH.TIM_TURN d, 0, 8⟩
/-- DCH.TIM_REF, Table 7.6. -/
abbrev DCH.TIM_REF (d : Nat) : Nat := 0x2F0020 + 0x10000 * d
abbrev DCH.TIM_REF_TRFC (d : Nat) : Fld := ⟨DCH.TIM_REF d, 20, 12⟩
abbrev DCH.TIM_REF_TREFI_NS (d : Nat) : Fld := ⟨DCH.TIM_REF d, 8, 12⟩
/-- DCH.TIM_PD, Table 7.6. -/
abbrev DCH.TIM_PD (d : Nat) : Nat := 0x2F0024 + 0x10000 * d
abbrev DCH.TIM_PD_TXP (d : Nat) : Fld := ⟨DCH.TIM_PD d, 24, 8⟩
abbrev DCH.TIM_PD_TXS (d : Nat) : Fld := ⟨DCH.TIM_PD d, 12, 12⟩
/-- DCH.TEMP, Table 7.7. -/
abbrev DCH.TEMP (d : Nat) : Nat := 0x2F0028 + 0x10000 * d
abbrev DCH.TEMP_TJ (d : Nat) : Fld := ⟨DCH.TEMP d, 0, 10⟩
/-- DCH.REF_STAT, Table 7.7. -/
abbrev DCH.REF_STAT (d : Nat) : Nat := 0x2F002C + 0x10000 * d
abbrev DCH.REF_STAT_MODE (d : Nat) : Fld := ⟨DCH.REF_STAT d, 31, 1⟩
abbrev DCH.REF_STAT_STACK_INFLIGHT (d : Nat) : Fld := ⟨DCH.REF_STAT d, 16, 8⟩
abbrev DCH.REF_STAT_LATE_MAX (d : Nat) : Fld := ⟨DCH.REF_STAT d, 0, 9⟩
/-- DCH.REF_LATE_CNT, Table 7.7. -/
abbrev DCH.REF_LATE_CNT (d : Nat) : Nat := 0x2F0030 + 0x10000 * d
abbrev DCH.REF_LATE_CNT_COUNT (d : Nat) : Fld := ⟨DCH.REF_LATE_CNT d, 0, 32⟩
/-- DCH.BNDRY_STAT, Table 7.7. -/
abbrev DCH.BNDRY_STAT (d : Nat) : Nat := 0x2F0034 + 0x10000 * d
abbrev DCH.BNDRY_STAT_LAST_KIND (d : Nat) : Fld := ⟨DCH.BNDRY_STAT d, 22, 2⟩
abbrev DCH.BNDRY_STAT_LAST_USER (d : Nat) : Fld := ⟨DCH.BNDRY_STAT d, 21, 1⟩
abbrev DCH.BNDRY_STAT_LAST_ENG (d : Nat) : Fld := ⟨DCH.BNDRY_STAT d, 16, 5⟩
abbrev DCH.BNDRY_STAT_LAST_LEN (d : Nat) : Fld := ⟨DCH.BNDRY_STAT d, 0, 16⟩
/-- DCH.FENCE, Table 7.7. -/
abbrev DCH.FENCE (d : Nat) : Nat := 0x2F0038 + 0x10000 * d
abbrev DCH.FENCE_ENG (d : Nat) : Fld := ⟨DCH.FENCE d, 0, 17⟩
/-- DCH.FENCE_PERM, Table 7.7. -/
abbrev DCH.FENCE_PERM (d : Nat) : Nat := 0x2F003C + 0x10000 * d
abbrev DCH.FENCE_PERM_ENG (d : Nat) : Fld := ⟨DCH.FENCE_PERM d, 0, 17⟩
/-- DCH.SR_STATE, Table 7.7. -/
abbrev DCH.SR_STATE (d : Nat) : Nat := 0x2F0040 + 0x10000 * d
abbrev DCH.SR_STATE_ENG (d : Nat) : Fld := ⟨DCH.SR_STATE d, 0, 17⟩
/-- DCH.PD_STATE, Table 7.7. -/
abbrev DCH.PD_STATE (d : Nat) : Nat := 0x2F0044 + 0x10000 * d
abbrev DCH.PD_STATE_ENG (d : Nat) : Fld := ⟨DCH.PD_STATE d, 0, 17⟩
/-- DCH.RESET_STAT, Table 7.7. -/
abbrev DCH.RESET_STAT (d : Nat) : Nat := 0x2F0048 + 0x10000 * d
abbrev DCH.RESET_STAT_COUNT (d : Nat) : Fld := ⟨DCH.RESET_STAT d, 16, 16⟩
abbrev DCH.RESET_STAT_LAST_US (d : Nat) : Fld := ⟨DCH.RESET_STAT d, 0, 16⟩
/-- DCH.ENG_SEL, Table 7.8. -/
abbrev DCH.ENG_SEL (d : Nat) : Nat := 0x2F004C + 0x10000 * d
abbrev DCH.ENG_SEL_ENGINE (d : Nat) : Fld := ⟨DCH.ENG_SEL d, 0, 5⟩
/-- DCH.ENG_STAT, Table 7.8. -/
abbrev DCH.ENG_STAT (d e : Nat) : Nat := 0x2F0050 + 0x10000 * d + 0x1000000 * (e + 1)
abbrev DCH.ENG_STAT_RDQ (d e : Nat) : Fld := ⟨DCH.ENG_STAT d e, 26, 6⟩
abbrev DCH.ENG_STAT_WRQ (d e : Nat) : Fld := ⟨DCH.ENG_STAT d e, 21, 5⟩
abbrev DCH.ENG_STAT_OPEN (d e : Nat) : Fld := ⟨DCH.ENG_STAT d e, 14, 7⟩
abbrev DCH.ENG_STAT_SR (d e : Nat) : Fld := ⟨DCH.ENG_STAT d e, 13, 1⟩
abbrev DCH.ENG_STAT_PD (d e : Nat) : Fld := ⟨DCH.ENG_STAT d e, 12, 1⟩
abbrev DCH.ENG_STAT_FENCED (d e : Nat) : Fld := ⟨DCH.ENG_STAT d e, 11, 1⟩
abbrev DCH.ENG_STAT_SPARE_ACTIVE (d e : Nat) : Fld := ⟨DCH.ENG_STAT d e, 10, 1⟩
abbrev DCH.ENG_STAT_INDEX (d e : Nat) : Fld := ⟨DCH.ENG_STAT d e, 0, 7⟩
/-- DCH.ENG_ACT, Table 7.8. -/
abbrev DCH.ENG_ACT (d e : Nat) : Nat := 0x2F0054 + 0x10000 * d + 0x1000000 * (e + 1)
abbrev DCH.ENG_ACT_COUNT (d e : Nat) : Fld := ⟨DCH.ENG_ACT d e, 0, 32⟩
/-- DCH.ENG_RD, Table 7.8. -/
abbrev DCH.ENG_RD (d e : Nat) : Nat := 0x2F0058 + 0x10000 * d + 0x1000000 * (e + 1)
abbrev DCH.ENG_RD_COUNT (d e : Nat) : Fld := ⟨DCH.ENG_RD d e, 0, 32⟩
/-- DCH.ENG_WR, Table 7.8. -/
abbrev DCH.ENG_WR (d e : Nat) : Nat := 0x2F005C + 0x10000 * d + 0x1000000 * (e + 1)
abbrev DCH.ENG_WR_COUNT (d e : Nat) : Fld := ⟨DCH.ENG_WR d e, 0, 32⟩
/-- DCH.ENG_HIT, Table 7.8. -/
abbrev DCH.ENG_HIT (d e : Nat) : Nat := 0x2F0060 + 0x10000 * d + 0x1000000 * (e + 1)
abbrev DCH.ENG_HIT_COUNT (d e : Nat) : Fld := ⟨DCH.ENG_HIT d e, 0, 32⟩
/-- DCH.ENG_CONFLICT, Table 7.8. -/
abbrev DCH.ENG_CONFLICT (d e : Nat) : Nat := 0x2F0064 + 0x10000 * d + 0x1000000 * (e + 1)
abbrev DCH.ENG_CONFLICT_COUNT (d e : Nat) : Fld := ⟨DCH.ENG_CONFLICT d e, 0, 32⟩
/-- DCH.ENG_REF, Table 7.8. -/
abbrev DCH.ENG_REF (d e : Nat) : Nat := 0x2F0068 + 0x10000 * d + 0x1000000 * (e + 1)
abbrev DCH.ENG_REF_COUNT (d e : Nat) : Fld := ⟨DCH.ENG_REF d e, 0, 32⟩
/-- DCH.ENG_WB_DROP, Table 7.8. -/
abbrev DCH.ENG_WB_DROP (d e : Nat) : Nat := 0x2F006C + 0x10000 * d + 0x1000000 * (e + 1)
abbrev DCH.ENG_WB_DROP_COUNT (d e : Nat) : Fld := ⟨DCH.ENG_WB_DROP d e, 0, 32⟩
/-- DCH.ENG_FENCED, Table 7.8. -/
abbrev DCH.ENG_FENCED (d e : Nat) : Nat := 0x2F0070 + 0x10000 * d + 0x1000000 * (e + 1)
abbrev DCH.ENG_FENCED_COUNT (d e : Nat) : Fld := ⟨DCH.ENG_FENCED d e, 0, 32⟩
/-- DCH.ENG_PD_CNT, Table 7.8. -/
abbrev DCH.ENG_PD_CNT (d e : Nat) : Nat := 0x2F0074 + 0x10000 * d + 0x1000000 * (e + 1)
abbrev DCH.ENG_PD_CNT_COUNT (d e : Nat) : Fld := ⟨DCH.ENG_PD_CNT d e, 0, 32⟩
/-- DCH.ENG_BNDRY, Table 7.8. -/
abbrev DCH.ENG_BNDRY (d e : Nat) : Nat := 0x2F0078 + 0x10000 * d + 0x1000000 * (e + 1)
abbrev DCH.ENG_BNDRY_COUNT (d e : Nat) : Fld := ⟨DCH.ENG_BNDRY d e, 0, 32⟩
/-- DCH.AUDIT, Table 7.9. -/
abbrev DCH.AUDIT (d e : Nat) : Nat := 0x2F0100 + 0x10000 * d + 0x4 * e
abbrev DCH.AUDIT_COUNT (d e : Nat) : Fld := ⟨DCH.AUDIT d e, 0, 32⟩

/-- LCH.CTRL, Table 8.8. -/
abbrev LCH.CTRL : Nat := 0x400000
abbrev LCH.CTRL_CFG_LOCK : Fld := ⟨LCH.CTRL, 31, 1⟩
abbrev LCH.CTRL_SRAM_SCRUB : Fld := ⟨LCH.CTRL, 0, 1⟩
/-- LCH.STATUS, Table 8.8. -/
abbrev LCH.STATUS : Nat := 0x400004
abbrev LCH.STATUS_FLUSH_STATE : Fld := ⟨LCH.STATUS, 30, 2⟩
abbrev LCH.STATUS_MERGE_OPEN : Fld := ⟨LCH.STATUS, 0, 17⟩
/-- LCH.INT_STAT, Table 8.8. -/
abbrev LCH.INT_STAT : Nat := 0x400008
abbrev LCH.INT_STAT_SETAGAIN : Fld := ⟨LCH.INT_STAT, 31, 1⟩
abbrev LCH.INT_STAT_FLUSH_DONE : Fld := ⟨LCH.INT_STAT, 5, 1⟩
abbrev LCH.INT_STAT_DROP : Fld := ⟨LCH.INT_STAT, 4, 1⟩
abbrev LCH.INT_STAT_TAG_LOST : Fld := ⟨LCH.INT_STAT, 3, 1⟩
abbrev LCH.INT_STAT_DIRTY_STALL : Fld := ⟨LCH.INT_STAT, 2, 1⟩
abbrev LCH.INT_STAT_SRAM_UE : Fld := ⟨LCH.INT_STAT, 1, 1⟩
abbrev LCH.INT_STAT_SRAM_CE : Fld := ⟨LCH.INT_STAT, 0, 1⟩
/-- LCH.INT_EN, Table 8.8. -/
abbrev LCH.INT_EN : Nat := 0x40000C
/-- LCH.MERGE_CFG, Table 8.8. -/
abbrev LCH.MERGE_CFG : Nat := 0x400010
abbrev LCH.MERGE_CFG_TIMEOUT_NS : Fld := ⟨LCH.MERGE_CFG, 0, 16⟩
/-- LCH.DIRTY_CFG, Table 8.8. -/
abbrev LCH.DIRTY_CFG : Nat := 0x400014
abbrev LCH.DIRTY_CFG_PC_MAX : Fld := ⟨LCH.DIRTY_CFG, 0, 13⟩
/-- LCH.FLUSH_CTRL, Table 8.8. -/
abbrev LCH.FLUSH_CTRL : Nat := 0x400018
abbrev LCH.FLUSH_CTRL_BUSY : Fld := ⟨LCH.FLUSH_CTRL, 31, 1⟩
abbrev LCH.FLUSH_CTRL_INV : Fld := ⟨LCH.FLUSH_CTRL, 1, 1⟩
abbrev LCH.FLUSH_CTRL_START : Fld := ⟨LCH.FLUSH_CTRL, 0, 1⟩
/-- LCH.FLUSH_STAT, Table 8.8. -/
abbrev LCH.FLUSH_STAT : Nat := 0x40001C
abbrev LCH.FLUSH_STAT_LAST_US : Fld := ⟨LCH.FLUSH_STAT, 16, 16⟩
abbrev LCH.FLUSH_STAT_COUNT : Fld := ⟨LCH.FLUSH_STAT, 0, 16⟩
/-- LCH.SLICE_SEL, Table 8.8. -/
abbrev LCH.SLICE_SEL : Nat := 0x400020
abbrev LCH.SLICE_SEL_SLICE : Fld := ⟨LCH.SLICE_SEL, 0, 5⟩
/-- LCH.PROBE_HI, Table 8.8. -/
abbrev LCH.PROBE_HI : Nat := 0x400024
abbrev LCH.PROBE_HI_ADDR_HI : Fld := ⟨LCH.PROBE_HI, 0, 8⟩
/-- LCH.PROBE_LO, Table 8.8. -/
abbrev LCH.PROBE_LO : Nat := 0x400028
abbrev LCH.PROBE_LO_ADDR_LO : Fld := ⟨LCH.PROBE_LO, 0, 32⟩
/-- LCH.PROBE_OUT, Table 8.8. -/
abbrev LCH.PROBE_OUT : Nat := 0x40002C
abbrev LCH.PROBE_OUT_VALID : Fld := ⟨LCH.PROBE_OUT, 31, 1⟩
abbrev LCH.PROBE_OUT_SLICE : Fld := ⟨LCH.PROBE_OUT, 26, 5⟩
abbrev LCH.PROBE_OUT_SET : Fld := ⟨LCH.PROBE_OUT, 16, 10⟩
abbrev LCH.PROBE_OUT_WAY : Fld := ⟨LCH.PROBE_OUT, 12, 4⟩
abbrev LCH.PROBE_OUT_STATE : Fld := ⟨LCH.PROBE_OUT, 9, 3⟩
abbrev LCH.PROBE_OUT_TAG_PEND : Fld := ⟨LCH.PROBE_OUT, 8, 1⟩
abbrev LCH.PROBE_OUT_POISON : Fld := ⟨LCH.PROBE_OUT, 7, 1⟩
abbrev LCH.PROBE_OUT_RRV : Fld := ⟨LCH.PROBE_OUT, 5, 2⟩
/-- LCH.SRAM_CE_CNT, Table 8.8. -/
abbrev LCH.SRAM_CE_CNT : Nat := 0x400030
abbrev LCH.SRAM_CE_CNT_COUNT : Fld := ⟨LCH.SRAM_CE_CNT, 0, 32⟩
/-- LCH.SRAM_UE_CNT, Table 8.8. -/
abbrev LCH.SRAM_UE_CNT : Nat := 0x400034
abbrev LCH.SRAM_UE_CNT_COUNT : Fld := ⟨LCH.SRAM_UE_CNT, 0, 32⟩
/-- LCH.TAG_LOST_CNT, Table 8.8. -/
abbrev LCH.TAG_LOST_CNT : Nat := 0x400038
abbrev LCH.TAG_LOST_CNT_COUNT : Fld := ⟨LCH.TAG_LOST_CNT, 0, 32⟩
/-- LCH.DROP_CNT, Table 8.8. -/
abbrev LCH.DROP_CNT : Nat := 0x40003C
abbrev LCH.DROP_CNT_COUNT : Fld := ⟨LCH.DROP_CNT, 0, 32⟩
/-- LCH.S_OCC, Table 8.9. -/
abbrev LCH.S_OCC (x : Nat) : Nat := 0x400040 + 0x1000000 * (x + 1)
abbrev LCH.S_OCC_MODIFIED (x : Nat) : Fld := ⟨LCH.S_OCC x, 18, 14⟩
abbrev LCH.S_OCC_STAGING (x : Nat) : Fld := ⟨LCH.S_OCC x, 6, 12⟩
abbrev LCH.S_OCC_WB_BUF (x : Nat) : Fld := ⟨LCH.S_OCC x, 0, 5⟩
/-- LCH.S_MERGE, Table 8.9. -/
abbrev LCH.S_MERGE (x : Nat) : Nat := 0x400044 + 0x1000000 * (x + 1)
abbrev LCH.S_MERGE_MERGE_OPEN (x : Nat) : Fld := ⟨LCH.S_MERGE x, 16, 12⟩
abbrev LCH.S_MERGE_PEND (x : Nat) : Fld := ⟨LCH.S_MERGE x, 0, 7⟩
/-- LCH.S_RD_HIT, Table 8.9. -/
abbrev LCH.S_RD_HIT (x : Nat) : Nat := 0x400048 + 0x1000000 * (x + 1)
abbrev LCH.S_RD_HIT_COUNT (x : Nat) : Fld := ⟨LCH.S_RD_HIT x, 0, 32⟩
/-- LCH.S_RD_MISS, Table 8.9. -/
abbrev LCH.S_RD_MISS (x : Nat) : Nat := 0x40004C + 0x1000000 * (x + 1)
abbrev LCH.S_RD_MISS_COUNT (x : Nat) : Fld := ⟨LCH.S_RD_MISS x, 0, 32⟩
/-- LCH.S_WR_HIT, Table 8.9. -/
abbrev LCH.S_WR_HIT (x : Nat) : Nat := 0x400050 + 0x1000000 * (x + 1)
abbrev LCH.S_WR_HIT_COUNT (x : Nat) : Fld := ⟨LCH.S_WR_HIT x, 0, 32⟩
/-- LCH.S_WR_MISS, Table 8.9. -/
abbrev LCH.S_WR_MISS (x : Nat) : Nat := 0x400054 + 0x1000000 * (x + 1)
abbrev LCH.S_WR_MISS_COUNT (x : Nat) : Fld := ⟨LCH.S_WR_MISS x, 0, 32⟩
/-- LCH.S_WRP, Table 8.9. -/
abbrev LCH.S_WRP (x : Nat) : Nat := 0x400058 + 0x1000000 * (x + 1)
abbrev LCH.S_WRP_COUNT (x : Nat) : Fld := ⟨LCH.S_WRP x, 0, 32⟩
/-- LCH.S_MERGE_CLOSE, Table 8.9. -/
abbrev LCH.S_MERGE_CLOSE (x : Nat) : Nat := 0x40005C + 0x1000000 * (x + 1)
abbrev LCH.S_MERGE_CLOSE_COUNT (x : Nat) : Fld := ⟨LCH.S_MERGE_CLOSE x, 0, 32⟩
/-- LCH.S_MERGE_TMO, Table 8.9. -/
abbrev LCH.S_MERGE_TMO (x : Nat) : Nat := 0x400060 + 0x1000000 * (x + 1)
abbrev LCH.S_MERGE_TMO_COUNT (x : Nat) : Fld := ⟨LCH.S_MERGE_TMO x, 0, 32⟩
/-- LCH.S_ATOM, Table 8.9. -/
abbrev LCH.S_ATOM (x : Nat) : Nat := 0x400064 + 0x1000000 * (x + 1)
abbrev LCH.S_ATOM_COUNT (x : Nat) : Fld := ⟨LCH.S_ATOM x, 0, 32⟩
/-- LCH.S_ATOM_WAIT, Table 8.9. -/
abbrev LCH.S_ATOM_WAIT (x : Nat) : Nat := 0x400068 + 0x1000000 * (x + 1)
abbrev LCH.S_ATOM_WAIT_COUNT (x : Nat) : Fld := ⟨LCH.S_ATOM_WAIT x, 0, 32⟩
/-- LCH.S_EVICT, Table 8.9. -/
abbrev LCH.S_EVICT (x : Nat) : Nat := 0x40006C + 0x1000000 * (x + 1)
abbrev LCH.S_EVICT_COUNT (x : Nat) : Fld := ⟨LCH.S_EVICT x, 0, 32⟩
/-- LCH.S_WB, Table 8.9. -/
abbrev LCH.S_WB (x : Nat) : Nat := 0x400070 + 0x1000000 * (x + 1)
abbrev LCH.S_WB_COUNT (x : Nat) : Fld := ⟨LCH.S_WB x, 0, 32⟩
/-- LCH.S_DIRTY_STALL, Table 8.9. -/
abbrev LCH.S_DIRTY_STALL (x : Nat) : Nat := 0x400074 + 0x1000000 * (x + 1)
abbrev LCH.S_DIRTY_STALL_COUNT (x : Nat) : Fld := ⟨LCH.S_DIRTY_STALL x, 0, 32⟩
/-- LCH.S_WAY_STALL, Table 8.9. -/
abbrev LCH.S_WAY_STALL (x : Nat) : Nat := 0x400078 + 0x1000000 * (x + 1)
abbrev LCH.S_WAY_STALL_COUNT (x : Nat) : Fld := ⟨LCH.S_WAY_STALL x, 0, 32⟩
/-- LCH.S_STAGE_WAIT, Table 8.9. -/
abbrev LCH.S_STAGE_WAIT (x : Nat) : Nat := 0x40007C + 0x1000000 * (x + 1)
abbrev LCH.S_STAGE_WAIT_COUNT (x : Nat) : Fld := ⟨LCH.S_STAGE_WAIT x, 0, 32⟩
/-- LCH.SLICE_ACC, Table 8.10. -/
abbrev LCH.SLICE_ACC (x : Nat) : Nat := 0x400100 + 0x4 * x
abbrev LCH.SLICE_ACC_COUNT (x : Nat) : Fld := ⟨LCH.SLICE_ACC x, 0, 32⟩

/-- SCN.CTRL, Table 9.10. -/
abbrev SCN.CTRL : Nat := 0x480000
abbrev SCN.CTRL_CFG_LOCK : Fld := ⟨SCN.CTRL, 31, 1⟩
abbrev SCN.CTRL_CLK_AUTO : Fld := ⟨SCN.CTRL, 16, 1⟩
abbrev SCN.CTRL_ENG_EN : Fld := ⟨SCN.CTRL, 0, 16⟩
/-- SCN.STATUS, Table 9.10. -/
abbrev SCN.STATUS : Nat := 0x480004
abbrev SCN.STATUS_ENG_BUSY : Fld := ⟨SCN.STATUS, 16, 16⟩
abbrev SCN.STATUS_QUEUED : Fld := ⟨SCN.STATUS, 0, 7⟩
/-- SCN.INT_STAT, Table 9.10. -/
abbrev SCN.INT_STAT : Nat := 0x480008
abbrev SCN.INT_STAT_SETAGAIN : Fld := ⟨SCN.INT_STAT, 31, 1⟩
abbrev SCN.INT_STAT_QUEUE_FULL : Fld := ⟨SCN.INT_STAT, 5, 1⟩
abbrev SCN.INT_STAT_ENG_FAULT : Fld := ⟨SCN.INT_STAT, 4, 1⟩
abbrev SCN.INT_STAT_ABORTED : Fld := ⟨SCN.INT_STAT, 3, 1⟩
abbrev SCN.INT_STAT_OUT_FULL : Fld := ⟨SCN.INT_STAT, 2, 1⟩
abbrev SCN.INT_STAT_SKIPPED : Fld := ⟨SCN.INT_STAT, 1, 1⟩
abbrev SCN.INT_STAT_DONE : Fld := ⟨SCN.INT_STAT, 0, 1⟩
/-- SCN.INT_EN, Table 9.10. -/
abbrev SCN.INT_EN : Nat := 0x48000C
/-- SCN.LIMITS, Table 9.10. -/
abbrev SCN.LIMITS : Nat := 0x480010
abbrev SCN.LIMITS_MAX_ENG : Fld := ⟨SCN.LIMITS, 24, 5⟩
abbrev SCN.LIMITS_CAP : Fld := ⟨SCN.LIMITS, 0, 24⟩
/-- SCN.RES_ENG, Table 9.10. -/
abbrev SCN.RES_ENG (i : Nat) : Nat := 0x480014 + 0x8 * i
abbrev SCN.RES_ENG_VALID (i : Nat) : Fld := ⟨SCN.RES_ENG i, 31, 1⟩
abbrev SCN.RES_ENG_CLASS (i : Nat) : Fld := ⟨SCN.RES_ENG i, 16, 6⟩
abbrev SCN.RES_ENG_ENG (i : Nat) : Fld := ⟨SCN.RES_ENG i, 0, 16⟩
/-- SCN.RES_RATE, Table 9.10. -/
abbrev SCN.RES_RATE (i : Nat) : Nat := 0x480018 + 0x8 * i
abbrev SCN.RES_RATE_RATE (i : Nat) : Fld := ⟨SCN.RES_RATE i, 0, 24⟩
/-- SCN.DONE_CNT, Table 9.10. -/
abbrev SCN.DONE_CNT : Nat := 0x480034
abbrev SCN.DONE_CNT_COUNT : Fld := ⟨SCN.DONE_CNT, 0, 32⟩
/-- SCN.ABORT_CNT, Table 9.10. -/
abbrev SCN.ABORT_CNT : Nat := 0x480038
abbrev SCN.ABORT_CNT_COUNT : Fld := ⟨SCN.ABORT_CNT, 0, 32⟩
/-- SCN.LINES_CNT, Table 9.10. -/
abbrev SCN.LINES_CNT : Nat := 0x48003C
abbrev SCN.LINES_CNT_COUNT : Fld := ⟨SCN.LINES_CNT, 0, 32⟩
/-- SCN.ENG_STAT, Table 9.11. -/
abbrev SCN.ENG_STAT (e : Nat) : Nat := 0x480100 + 0x10 * e
abbrev SCN.ENG_STAT_STATE (e : Nat) : Fld := ⟨SCN.ENG_STAT e, 30, 2⟩
abbrev SCN.ENG_STAT_RES_IDX (e : Nat) : Fld := ⟨SCN.ENG_STAT e, 24, 4⟩
abbrev SCN.ENG_STAT_REQ_ID (e : Nat) : Fld := ⟨SCN.ENG_STAT e, 12, 12⟩
abbrev SCN.ENG_STAT_TAG (e : Nat) : Fld := ⟨SCN.ENG_STAT e, 0, 12⟩
/-- SCN.ENG_PROG, Table 9.11. -/
abbrev SCN.ENG_PROG (e : Nat) : Nat := 0x480104 + 0x10 * e
abbrev SCN.ENG_PROG_COUNT (e : Nat) : Fld := ⟨SCN.ENG_PROG e, 0, 32⟩
/-- SCN.ENG_LINES, Table 9.11. -/
abbrev SCN.ENG_LINES (e : Nat) : Nat := 0x480108 + 0x10 * e
abbrev SCN.ENG_LINES_COUNT (e : Nat) : Fld := ⟨SCN.ENG_LINES e, 0, 32⟩
/-- SCN.ENG_SCANS, Table 9.11. -/
abbrev SCN.ENG_SCANS (e : Nat) : Nat := 0x48010C + 0x10 * e
abbrev SCN.ENG_SCANS_SCANS (e : Nat) : Fld := ⟨SCN.ENG_SCANS e, 16, 16⟩
abbrev SCN.ENG_SCANS_ABORTS (e : Nat) : Fld := ⟨SCN.ENG_SCANS e, 0, 16⟩

/-- ECC.CTRL, Table 10.9. -/
abbrev ECC.CTRL : Nat := 0x500000
abbrev ECC.CTRL_CFG_LOCK : Fld := ⟨ECC.CTRL, 31, 1⟩
abbrev ECC.CTRL_REWRITE_THR : Fld := ⟨ECC.CTRL, 8, 4⟩
abbrev ECC.CTRL_AUTO_HARD : Fld := ⟨ECC.CTRL, 3, 1⟩
abbrev ECC.CTRL_AUTO_EVAC : Fld := ⟨ECC.CTRL, 2, 1⟩
abbrev ECC.CTRL_AUTO_SPARE : Fld := ⟨ECC.CTRL, 1, 1⟩
abbrev ECC.CTRL_ERASE_EN : Fld := ⟨ECC.CTRL, 0, 1⟩
/-- ECC.STATUS, Table 10.9. -/
abbrev ECC.STATUS : Nat := 0x500004
abbrev ECC.STATUS_SCRUB_STATE : Fld := ⟨ECC.STATUS, 30, 2⟩
abbrev ECC.STATUS_EVAC_BUSY : Fld := ⟨ECC.STATUS, 29, 1⟩
abbrev ECC.STATUS_SWEEP_BUSY : Fld := ⟨ECC.STATUS, 28, 1⟩
abbrev ECC.STATUS_EVAC_PC : Fld := ⟨ECC.STATUS, 16, 7⟩
abbrev ECC.STATUS_SPARING : Fld := ⟨ECC.STATUS, 8, 8⟩
abbrev ECC.STATUS_INJ_ARMED : Fld := ⟨ECC.STATUS, 0, 4⟩
/-- ECC.INT_STAT, Table 10.9. -/
abbrev ECC.INT_STAT : Nat := 0x500008
abbrev ECC.INT_STAT_SETAGAIN : Fld := ⟨ECC.INT_STAT, 31, 1⟩
abbrev ECC.INT_STAT_INJ_FIRED : Fld := ⟨ECC.INT_STAT, 9, 1⟩
abbrev ECC.INT_STAT_SWEEP_DONE : Fld := ⟨ECC.INT_STAT, 8, 1⟩
abbrev ECC.INT_STAT_CAP_LOSS : Fld := ⟨ECC.INT_STAT, 7, 1⟩
abbrev ECC.INT_STAT_EVAC_DONE : Fld := ⟨ECC.INT_STAT, 6, 1⟩
abbrev ECC.INT_STAT_EVAC_START : Fld := ⟨ECC.INT_STAT, 5, 1⟩
abbrev ECC.INT_STAT_ROW_SPARED : Fld := ⟨ECC.INT_STAT, 4, 1⟩
abbrev ECC.INT_STAT_MAT_ERASED : Fld := ⟨ECC.INT_STAT, 3, 1⟩
abbrev ECC.INT_STAT_CE_OVERFLOW : Fld := ⟨ECC.INT_STAT, 2, 1⟩
abbrev ECC.INT_STAT_UE : Fld := ⟨ECC.INT_STAT, 1, 1⟩
abbrev ECC.INT_STAT_CE : Fld := ⟨ECC.INT_STAT, 0, 1⟩
/-- ECC.INT_EN, Table 10.9. -/
abbrev ECC.INT_EN : Nat := 0x50000C
/-- ECC.SCRUB_CFG, Table 10.9. -/
abbrev ECC.SCRUB_CFG : Nat := 0x500010
abbrev ECC.SCRUB_CFG_REEF2 : Fld := ⟨ECC.SCRUB_CFG, 31, 1⟩
abbrev ECC.SCRUB_CFG_PERIOD_H : Fld := ⟨ECC.SCRUB_CFG, 0, 16⟩
/-- ECC.SCRUB_PTR_HI, Table 10.9. -/
abbrev ECC.SCRUB_PTR_HI : Nat := 0x500014
abbrev ECC.SCRUB_PTR_HI_ADDR_HI : Fld := ⟨ECC.SCRUB_PTR_HI, 0, 8⟩
/-- ECC.SCRUB_PTR_LO, Table 10.9. -/
abbrev ECC.SCRUB_PTR_LO : Nat := 0x500018
abbrev ECC.SCRUB_PTR_LO_ADDR_LO : Fld := ⟨ECC.SCRUB_PTR_LO, 0, 32⟩
/-- ECC.SCRUB_PASS, Table 10.9. -/
abbrev ECC.SCRUB_PASS : Nat := 0x50001C
abbrev ECC.SCRUB_PASS_PASS_CNT : Fld := ⟨ECC.SCRUB_PASS, 16, 16⟩
abbrev ECC.SCRUB_PASS_LAST_MIN : Fld := ⟨ECC.SCRUB_PASS, 0, 16⟩
/-- ECC.BUCKET_CFG, Table 10.9. -/
abbrev ECC.BUCKET_CFG : Nat := 0x500020
abbrev ECC.BUCKET_CFG_CAPACITY : Fld := ⟨ECC.BUCKET_CFG, 24, 8⟩
abbrev ECC.BUCKET_CFG_MAT_WEIGHT : Fld := ⟨ECC.BUCKET_CFG, 16, 8⟩
abbrev ECC.BUCKET_CFG_LEAK_S : Fld := ⟨ECC.BUCKET_CFG, 0, 16⟩
/-- ECC.HEAL_CFG, Table 10.9. -/
abbrev ECC.HEAL_CFG : Nat := 0x500024
abbrev ECC.HEAL_CFG_ROW_THR : Fld := ⟨ECC.HEAL_CFG, 24, 8⟩
abbrev ECC.HEAL_CFG_MAT_THR : Fld := ⟨ECC.HEAL_CFG, 16, 8⟩
abbrev ECC.HEAL_CFG_UE_FENCE_THR : Fld := ⟨ECC.HEAL_CFG, 8, 8⟩
abbrev ECC.HEAL_CFG_OVF_EVAC : Fld := ⟨ECC.HEAL_CFG, 0, 8⟩
/-- ECC.INJ_CTRL, Table 10.9. -/
abbrev ECC.INJ_CTRL : Nat := 0x500028
/-- ECC.INJ_PAT, Table 10.9. -/
abbrev ECC.INJ_PAT : Nat := 0x50002C
/-- ECC.INJ_ADDR_HI, Table 10.9. -/
abbrev ECC.INJ_ADDR_HI : Nat := 0x500030
abbrev ECC.INJ_ADDR_HI_ADDR_HI : Fld := ⟨ECC.INJ_ADDR_HI, 0, 8⟩
/-- ECC.INJ_ADDR_LO, Table 10.9. -/
abbrev ECC.INJ_ADDR_LO : Nat := 0x500034
abbrev ECC.INJ_ADDR_LO_ADDR_LO : Fld := ⟨ECC.INJ_ADDR_LO, 0, 32⟩
/-- ECC.UE_ADDR_HI, Table 10.9. -/
abbrev ECC.UE_ADDR_HI : Nat := 0x500038
abbrev ECC.UE_ADDR_HI_ADDR_HI : Fld := ⟨ECC.UE_ADDR_HI, 0, 8⟩
/-- ECC.UE_ADDR_LO, Table 10.9. -/
abbrev ECC.UE_ADDR_LO : Nat := 0x50003C
abbrev ECC.UE_ADDR_LO_ADDR_LO : Fld := ⟨ECC.UE_ADDR_LO, 0, 32⟩
/-- ECC.PC_SEL, Table 10.10. -/
abbrev ECC.PC_SEL : Nat := 0x500040
abbrev ECC.PC_SEL_PC : Fld := ⟨ECC.PC_SEL, 0, 7⟩
/-- ECC.PC_BUCKET, Table 10.10. -/
abbrev ECC.PC_BUCKET (c : Nat) : Nat := 0x500044 + 0x1000000 * (c + 1)
abbrev ECC.PC_BUCKET_LEVEL (c : Nat) : Fld := ⟨ECC.PC_BUCKET c, 24, 8⟩
abbrev ECC.PC_BUCKET_OVF_24H (c : Nat) : Fld := ⟨ECC.PC_BUCKET c, 16, 8⟩
abbrev ECC.PC_BUCKET_OVF_TOTAL (c : Nat) : Fld := ⟨ECC.PC_BUCKET c, 0, 16⟩
/-- ECC.PC_CE, Table 10.10. -/
abbrev ECC.PC_CE (c : Nat) : Nat := 0x500048 + 0x1000000 * (c + 1)
abbrev ECC.PC_CE_COUNT (c : Nat) : Fld := ⟨ECC.PC_CE c, 0, 32⟩
/-- ECC.PC_CE_HIST, Table 10.10. -/
abbrev ECC.PC_CE_HIST (c : Nat) : Nat := 0x50004C + 0x1000000 * (c + 1)
abbrev ECC.PC_CE_HIST_CNT_HI (c : Nat) : Fld := ⟨ECC.PC_CE_HIST c, 16, 16⟩
abbrev ECC.PC_CE_HIST_CNT_LO (c : Nat) : Fld := ⟨ECC.PC_CE_HIST c, 0, 16⟩
/-- ECC.PC_MAT, Table 10.10. -/
abbrev ECC.PC_MAT (c : Nat) : Nat := 0x500050 + 0x1000000 * (c + 1)
abbrev ECC.PC_MAT_EVENTS (c : Nat) : Fld := ⟨ECC.PC_MAT c, 16, 16⟩
abbrev ECC.PC_MAT_ERASED (c : Nat) : Fld := ⟨ECC.PC_MAT c, 15, 1⟩
abbrev ECC.PC_MAT_MAT (c : Nat) : Fld := ⟨ECC.PC_MAT c, 0, 5⟩
/-- ECC.PC_UE, Table 10.10. -/
abbrev ECC.PC_UE (c : Nat) : Nat := 0x500054 + 0x1000000 * (c + 1)
abbrev ECC.PC_UE_COUNT (c : Nat) : Fld := ⟨ECC.PC_UE c, 0, 32⟩
/-- ECC.PC_POISON, Table 10.10. -/
abbrev ECC.PC_POISON (c : Nat) : Nat := 0x500058 + 0x1000000 * (c + 1)
abbrev ECC.PC_POISON_COUNT (c : Nat) : Fld := ⟨ECC.PC_POISON c, 0, 32⟩
/-- ECC.PC_REWRITE, Table 10.10. -/
abbrev ECC.PC_REWRITE (c : Nat) : Nat := 0x50005C + 0x1000000 * (c + 1)
abbrev ECC.PC_REWRITE_COUNT (c : Nat) : Fld := ⟨ECC.PC_REWRITE c, 0, 32⟩
/-- ECC.PC_SCRUB_CE, Table 10.10. -/
abbrev ECC.PC_SCRUB_CE (c : Nat) : Nat := 0x500060 + 0x1000000 * (c + 1)
abbrev ECC.PC_SCRUB_CE_COUNT (c : Nat) : Fld := ⟨ECC.PC_SCRUB_CE c, 0, 32⟩
/-- ECC.PC_SCRUB_UE, Table 10.10. -/
abbrev ECC.PC_SCRUB_UE (c : Nat) : Nat := 0x500064 + 0x1000000 * (c + 1)
abbrev ECC.PC_SCRUB_UE_COUNT (c : Nat) : Fld := ⟨ECC.PC_SCRUB_UE c, 0, 32⟩
/-- ECC.PC_SPARE, Table 10.10. -/
abbrev ECC.PC_SPARE (c : Nat) : Nat := 0x500068 + 0x1000000 * (c + 1)
abbrev ECC.PC_SPARE_USED (c : Nat) : Fld := ⟨ECC.PC_SPARE c, 23, 9⟩
abbrev ECC.PC_SPARE_MIN_FREE (c : Nat) : Fld := ⟨ECC.PC_SPARE c, 8, 7⟩
/-- ECC.PC_LAST_CE, Table 10.10. -/
abbrev ECC.PC_LAST_CE (c : Nat) : Nat := 0x50006C + 0x1000000 * (c + 1)
abbrev ECC.PC_LAST_CE_BG (c : Nat) : Fld := ⟨ECC.PC_LAST_CE c, 30, 2⟩
abbrev ECC.PC_LAST_CE_BANK (c : Nat) : Fld := ⟨ECC.PC_LAST_CE c, 26, 4⟩
abbrev ECC.PC_LAST_CE_ROW (c : Nat) : Fld := ⟨ECC.PC_LAST_CE c, 13, 13⟩
abbrev ECC.PC_LAST_CE_SEG (c : Nat) : Fld := ⟨ECC.PC_LAST_CE c, 10, 3⟩
abbrev ECC.PC_LAST_CE_COL (c : Nat) : Fld := ⟨ECC.PC_LAST_CE c, 8, 2⟩
abbrev ECC.PC_LAST_CE_SYMS (c : Nat) : Fld := ⟨ECC.PC_LAST_CE c, 4, 4⟩
/-- ECC.PC_LAST_UE, Table 10.10. -/
abbrev ECC.PC_LAST_UE (c : Nat) : Nat := 0x500070 + 0x1000000 * (c + 1)
/-- ECC.PC_INJ, Table 10.10. -/
abbrev ECC.PC_INJ (c : Nat) : Nat := 0x500074 + 0x1000000 * (c + 1)
abbrev ECC.PC_INJ_COUNT (c : Nat) : Fld := ⟨ECC.PC_INJ c, 0, 32⟩
/-- ECC.PC_HEAL, Table 10.10. -/
abbrev ECC.PC_HEAL (c : Nat) : Nat := 0x500078 + 0x1000000 * (c + 1)
abbrev ECC.PC_HEAL_AT_RISK (c : Nat) : Fld := ⟨ECC.PC_HEAL c, 31, 1⟩
abbrev ECC.PC_HEAL_RL_ACTIVE (c : Nat) : Fld := ⟨ECC.PC_HEAL c, 30, 1⟩
abbrev ECC.PC_HEAL_RL_IGNORE (c : Nat) : Fld := ⟨ECC.PC_HEAL c, 29, 1⟩
abbrev ECC.PC_HEAL_EPOCH (c : Nat) : Fld := ⟨ECC.PC_HEAL c, 28, 1⟩
abbrev ECC.PC_HEAL_TRK (c : Nat) : Fld := ⟨ECC.PC_HEAL c, 0, 5⟩
/-- ECC.PC_SCRUB_LINES, Table 10.10. -/
abbrev ECC.PC_SCRUB_LINES (c : Nat) : Nat := 0x50007C + 0x1000000 * (c + 1)
abbrev ECC.PC_SCRUB_LINES_COUNT (c : Nat) : Fld := ⟨ECC.PC_SCRUB_LINES c, 0, 32⟩
/-- ECC.SPARE_STAT, Table 10.11. -/
abbrev ECC.SPARE_STAT (d : Nat) : Nat := 0x5000F0 + 0x10 * d
abbrev ECC.SPARE_STAT_STATE (d : Nat) : Fld := ⟨ECC.SPARE_STAT d, 29, 3⟩
abbrev ECC.SPARE_STAT_INDEX (d : Nat) : Fld := ⟨ECC.SPARE_STAT d, 16, 7⟩
/-- ECC.EVAC_PROG, Table 10.11. -/
abbrev ECC.EVAC_PROG (d : Nat) : Nat := 0x5000F4 + 0x10 * d
abbrev ECC.EVAC_PROG_LINES (d : Nat) : Fld := ⟨ECC.EVAC_PROG d, 0, 25⟩
/-- ECC.EVAC_STAT, Table 10.11. -/
abbrev ECC.EVAC_STAT (d : Nat) : Nat := 0x5000F8 + 0x10 * d
abbrev ECC.EVAC_STAT_RESULT (d : Nat) : Fld := ⟨ECC.EVAC_STAT d, 28, 4⟩
abbrev ECC.EVAC_STAT_POISONED (d : Nat) : Fld := ⟨ECC.EVAC_STAT d, 0, 20⟩
/-- ECC.CAP_LOSS, Table 10.11. -/
abbrev ECC.CAP_LOSS (d : Nat) : Nat := 0x5000FC + 0x10 * d
abbrev ECC.CAP_LOSS_SPARE_LOST (d : Nat) : Fld := ⟨ECC.CAP_LOSS d, 16, 1⟩
abbrev ECC.CAP_LOSS_LOST (d : Nat) : Fld := ⟨ECC.CAP_LOSS d, 0, 16⟩
/-- ECC.ROW_TRK, Table 10.12. -/
abbrev ECC.ROW_TRK (k : Nat) : Nat := 0x500200 + 0x4 * k
abbrev ECC.ROW_TRK_VALID (k : Nat) : Fld := ⟨ECC.ROW_TRK k, 31, 1⟩
abbrev ECC.ROW_TRK_PC (k : Nat) : Fld := ⟨ECC.ROW_TRK k, 24, 7⟩
abbrev ECC.ROW_TRK_BG (k : Nat) : Fld := ⟨ECC.ROW_TRK k, 22, 2⟩
abbrev ECC.ROW_TRK_BANK (k : Nat) : Fld := ⟨ECC.ROW_TRK k, 18, 4⟩
abbrev ECC.ROW_TRK_ROW (k : Nat) : Fld := ⟨ECC.ROW_TRK k, 5, 13⟩
abbrev ECC.ROW_TRK_CE (k : Nat) : Fld := ⟨ECC.ROW_TRK k, 2, 3⟩
abbrev ECC.ROW_TRK_UE (k : Nat) : Fld := ⟨ECC.ROW_TRK k, 1, 1⟩

/-- STK.ORG, Table 1.2. -/
abbrev STK.ORG : Nat := 0x580000
abbrev STK.ORG_DIE_PRESENT : Fld := ⟨STK.ORG, 16, 8⟩
abbrev STK.ORG_DIE_COUNT : Fld := ⟨STK.ORG, 12, 4⟩
abbrev STK.ORG_RELAY_PRESENT : Fld := ⟨STK.ORG, 7, 1⟩
abbrev STK.ORG_RELAY_PWR : Fld := ⟨STK.ORG, 6, 1⟩
abbrev STK.ORG_RELAY_STATE : Fld := ⟨STK.ORG, 4, 2⟩
/-- STK.CTRL, Table 11.8. -/
abbrev STK.CTRL : Nat := 0x580004
abbrev STK.CTRL_CFG_LOCK : Fld := ⟨STK.CTRL, 31, 1⟩
abbrev STK.CTRL_AUTO_HARD_VIA : Fld := ⟨STK.CTRL, 3, 1⟩
abbrev STK.CTRL_FT_REMAP : Fld := ⟨STK.CTRL, 2, 1⟩
abbrev STK.CTRL_FT_EN : Fld := ⟨STK.CTRL, 1, 1⟩
abbrev STK.CTRL_T1838_EN : Fld := ⟨STK.CTRL, 0, 1⟩
/-- STK.STATUS, Table 11.8. -/
abbrev STK.STATUS : Nat := 0x580008
abbrev STK.STATUS_BOOT_PHASE : Fld := ⟨STK.STATUS, 28, 4⟩
abbrev STK.STATUS_ROUND : Fld := ⟨STK.STATUS, 26, 2⟩
abbrev STK.STATUS_FT_BUSY : Fld := ⟨STK.STATUS, 25, 1⟩
abbrev STK.STATUS_BIST_BUSY : Fld := ⟨STK.STATUS, 24, 1⟩
abbrev STK.STATUS_RELAY_BUSY : Fld := ⟨STK.STATUS, 23, 1⟩
abbrev STK.STATUS_FT_NEXT : Fld := ⟨STK.STATUS, 0, 8⟩
/-- STK.INT_STAT, Table 11.8. -/
abbrev STK.INT_STAT : Nat := 0x58000C
abbrev STK.INT_STAT_SETAGAIN : Fld := ⟨STK.INT_STAT, 31, 1⟩
abbrev STK.INT_STAT_T1838_BLOCKED : Fld := ⟨STK.INT_STAT, 8, 1⟩
abbrev STK.INT_STAT_RELAY_FAIL : Fld := ⟨STK.INT_STAT, 7, 1⟩
abbrev STK.INT_STAT_RELAY_RESET : Fld := ⟨STK.INT_STAT, 6, 1⟩
abbrev STK.INT_STAT_MAST_LOST : Fld := ⟨STK.INT_STAT, 5, 1⟩
abbrev STK.INT_STAT_MAT_ERASE_REQ : Fld := ⟨STK.INT_STAT, 4, 1⟩
abbrev STK.INT_STAT_VIA_REMAP : Fld := ⟨STK.INT_STAT, 3, 1⟩
abbrev STK.INT_STAT_FT_ERR : Fld := ⟨STK.INT_STAT, 2, 1⟩
abbrev STK.INT_STAT_BIST_FAIL : Fld := ⟨STK.INT_STAT, 1, 1⟩
abbrev STK.INT_STAT_BIST_DONE : Fld := ⟨STK.INT_STAT, 0, 1⟩
/-- STK.INT_EN, Table 11.8. -/
abbrev STK.INT_EN : Nat := 0x580010
/-- STK.BIST_SUM, Table 11.8. -/
abbrev STK.BIST_SUM : Nat := 0x580014
abbrev STK.BIST_SUM_LOGIC_FAIL : Fld := ⟨STK.BIST_SUM, 31, 1⟩
abbrev STK.BIST_SUM_SRAM_FAIL : Fld := ⟨STK.BIST_SUM, 30, 1⟩
abbrev STK.BIST_SUM_SAFE : Fld := ⟨STK.BIST_SUM, 29, 1⟩
abbrev STK.BIST_SUM_SAFE_CAUSE : Fld := ⟨STK.BIST_SUM, 24, 5⟩
abbrev STK.BIST_SUM_SRAM_COLS : Fld := ⟨STK.BIST_SUM, 16, 8⟩
abbrev STK.BIST_SUM_PC_SUBST : Fld := ⟨STK.BIST_SUM, 8, 8⟩
abbrev STK.BIST_SUM_PC_FENCED : Fld := ⟨STK.BIST_SUM, 0, 8⟩
/-- STK.BIST_TIME, Table 11.8. -/
abbrev STK.BIST_TIME : Nat := 0x580018
abbrev STK.BIST_TIME_LOGIC_MS : Fld := ⟨STK.BIST_TIME, 24, 8⟩
abbrev STK.BIST_TIME_SRAM_MS : Fld := ⟨STK.BIST_TIME, 16, 8⟩
abbrev STK.BIST_TIME_TRAIN_MS : Fld := ⟨STK.BIST_TIME, 8, 8⟩
abbrev STK.BIST_TIME_DRAM_MS : Fld := ⟨STK.BIST_TIME, 0, 8⟩
/-- STK.FAIL_CNT, Table 11.8. -/
abbrev STK.FAIL_CNT : Nat := 0x58001C
abbrev STK.FAIL_CNT_ROWS_SPARED : Fld := ⟨STK.FAIL_CNT, 16, 16⟩
abbrev STK.FAIL_CNT_WORDS : Fld := ⟨STK.FAIL_CNT, 0, 16⟩
/-- STK.FT_CFG, Table 11.8. -/
abbrev STK.FT_CFG : Nat := 0x580020
abbrev STK.FT_CFG_PERIOD_MIN : Fld := ⟨STK.FT_CFG, 20, 12⟩
abbrev STK.FT_CFG_SLOT_NS : Fld := ⟨STK.FT_CFG, 8, 12⟩
/-- STK.FT_STAT, Table 11.8. -/
abbrev STK.FT_STAT : Nat := 0x580024
abbrev STK.FT_STAT_TESTS : Fld := ⟨STK.FT_STAT, 16, 16⟩
abbrev STK.FT_STAT_FAILS : Fld := ⟨STK.FT_STAT, 0, 16⟩
/-- STK.VIA_STAT, Table 11.8. -/
abbrev STK.VIA_STAT : Nat := 0x580028
abbrev STK.VIA_STAT_REMAPS : Fld := ⟨STK.VIA_STAT, 16, 16⟩
abbrev STK.VIA_STAT_DEGRADED : Fld := ⟨STK.VIA_STAT, 8, 8⟩
abbrev STK.VIA_STAT_LOST : Fld := ⟨STK.VIA_STAT, 0, 8⟩
/-- STK.KOZ_TIM, Table 11.8. -/
abbrev STK.KOZ_TIM : Nat := 0x58002C
abbrev STK.KOZ_TIM_KOZ_LO : Fld := ⟨STK.KOZ_TIM, 19, 13⟩
abbrev STK.KOZ_TIM_KOZ_SIZE : Fld := ⟨STK.KOZ_TIM, 15, 4⟩
abbrev STK.KOZ_TIM_TRCD_ADD : Fld := ⟨STK.KOZ_TIM, 12, 3⟩
abbrev STK.KOZ_TIM_TRAS_ADD : Fld := ⟨STK.KOZ_TIM, 9, 3⟩
abbrev STK.KOZ_TIM_TWR_ADD : Fld := ⟨STK.KOZ_TIM, 6, 3⟩
/-- STK.RELAY_STAT, Table 11.8. -/
abbrev STK.RELAY_STAT : Nat := 0x580030
abbrev STK.RELAY_STAT_RESETS : Fld := ⟨STK.RELAY_STAT, 16, 16⟩
abbrev STK.RELAY_STAT_LAST_US : Fld := ⟨STK.RELAY_STAT, 0, 16⟩
/-- STK.RELAY_DIAG, Table 11.8. -/
abbrev STK.RELAY_DIAG : Nat := 0x580034
abbrev STK.RELAY_DIAG_ATTEMPTS : Fld := ⟨STK.RELAY_DIAG, 30, 2⟩
abbrev STK.RELAY_DIAG_LAST_CAUSE : Fld := ⟨STK.RELAY_DIAG, 0, 8⟩
/-- STK.T1838_STAT, Table 11.8. -/
abbrev STK.T1838_STAT : Nat := 0x580038
abbrev STK.T1838_STAT_DIES_SEL : Fld := ⟨STK.T1838_STAT, 24, 8⟩
abbrev STK.T1838_STAT_BLOCKED : Fld := ⟨STK.T1838_STAT, 23, 1⟩
/-- STK.MAST_SEL, Table 11.8. -/
abbrev STK.MAST_SEL : Nat := 0x58003C
abbrev STK.MAST_SEL_MAST : Fld := ⟨STK.MAST_SEL, 0, 8⟩
/-- STK.MAST_STAT, Table 11.9. -/
abbrev STK.MAST_STAT (m : Nat) : Nat := 0x580040 + 0x1000000 * (m + 1)
abbrev STK.MAST_STAT_STATE (m : Nat) : Fld := ⟨STK.MAST_STAT m, 29, 3⟩
abbrev STK.MAST_STAT_MAT (m : Nat) : Fld := ⟨STK.MAST_STAT m, 24, 5⟩
abbrev STK.MAST_STAT_INDEX (m : Nat) : Fld := ⟨STK.MAST_STAT m, 16, 7⟩
abbrev STK.MAST_STAT_FT_RUNS (m : Nat) : Fld := ⟨STK.MAST_STAT m, 0, 16⟩
/-- STK.MAST_REMAP, Table 11.9. -/
abbrev STK.MAST_REMAP (m : Nat) : Nat := 0x580044 + 0x1000000 * (m + 1)
abbrev STK.MAST_REMAP_G3 (m : Nat) : Fld := ⟨STK.MAST_REMAP m, 15, 5⟩
abbrev STK.MAST_REMAP_G2 (m : Nat) : Fld := ⟨STK.MAST_REMAP m, 10, 5⟩
abbrev STK.MAST_REMAP_G1 (m : Nat) : Fld := ⟨STK.MAST_REMAP m, 5, 5⟩
abbrev STK.MAST_REMAP_G0 (m : Nat) : Fld := ⟨STK.MAST_REMAP m, 0, 5⟩
/-- STK.VIA_BAD_LO, Table 11.9. -/
abbrev STK.VIA_BAD_LO (m : Nat) : Nat := 0x580048 + 0x1000000 * (m + 1)
abbrev STK.VIA_BAD_LO_VIAS (m : Nat) : Fld := ⟨STK.VIA_BAD_LO m, 0, 32⟩
/-- STK.VIA_BAD_HI, Table 11.9. -/
abbrev STK.VIA_BAD_HI (m : Nat) : Nat := 0x58004C + 0x1000000 * (m + 1)
abbrev STK.VIA_BAD_HI_VIAS (m : Nat) : Fld := ⟨STK.VIA_BAD_HI m, 0, 32⟩
/-- STK.MAST_ERR, Table 11.9. -/
abbrev STK.MAST_ERR (m : Nat) : Nat := 0x580050 + 0x1000000 * (m + 1)
abbrev STK.MAST_ERR_LAST_BITS (m : Nat) : Fld := ⟨STK.MAST_ERR m, 16, 16⟩
abbrev STK.MAST_ERR_FAILS (m : Nat) : Fld := ⟨STK.MAST_ERR m, 0, 16⟩
/-- STK.MAST_FT_TIME, Table 11.9. -/
abbrev STK.MAST_FT_TIME (m : Nat) : Nat := 0x580054 + 0x1000000 * (m + 1)
abbrev STK.MAST_FT_TIME_SEC (m : Nat) : Fld := ⟨STK.MAST_FT_TIME m, 0, 32⟩
/-- STK.MAST_TRAIN, Table 11.9. -/
abbrev STK.MAST_TRAIN (m : Nat) : Nat := 0x580058 + 0x1000000 * (m + 1)
abbrev STK.MAST_TRAIN_DQ_MIN (m : Nat) : Fld := ⟨STK.MAST_TRAIN m, 24, 8⟩
abbrev STK.MAST_TRAIN_CA_MIN (m : Nat) : Fld := ⟨STK.MAST_TRAIN m, 16, 8⟩
/-- STK.MAST_BIST, Table 11.9. -/
abbrev STK.MAST_BIST (m : Nat) : Nat := 0x58005C + 0x1000000 * (m + 1)
abbrev STK.MAST_BIST_LAST_SET (m : Nat) : Fld := ⟨STK.MAST_BIST m, 28, 4⟩
abbrev STK.MAST_BIST_OUTCOME (m : Nat) : Fld := ⟨STK.MAST_BIST m, 24, 4⟩
abbrev STK.MAST_BIST_FAIL_WORDS (m : Nat) : Fld := ⟨STK.MAST_BIST m, 0, 24⟩
/-- STK.DIE_BIST, Table 11.10. -/
abbrev STK.DIE_BIST (d : Nat) : Nat := 0x5800F0 + 0x10 * d
abbrev STK.DIE_BIST_ENGINE_FAIL (d : Nat) : Fld := ⟨STK.DIE_BIST d, 31, 1⟩
abbrev STK.DIE_BIST_ENG_FAIL (d : Nat) : Fld := ⟨STK.DIE_BIST d, 0, 17⟩
/-- STK.DIE_REPAIR, Table 11.10. -/
abbrev STK.DIE_REPAIR (d : Nat) : Nat := 0x5800F4 + 0x10 * d
abbrev STK.DIE_REPAIR_ROWS_BOOT (d : Nat) : Fld := ⟨STK.DIE_REPAIR d, 24, 8⟩
abbrev STK.DIE_REPAIR_SUBST_VALID (d : Nat) : Fld := ⟨STK.DIE_REPAIR d, 23, 1⟩
abbrev STK.DIE_REPAIR_SUBST_ENG (d : Nat) : Fld := ⟨STK.DIE_REPAIR d, 18, 5⟩
abbrev STK.DIE_REPAIR_FENCE_VALID (d : Nat) : Fld := ⟨STK.DIE_REPAIR d, 17, 1⟩
abbrev STK.DIE_REPAIR_FENCE_ENG (d : Nat) : Fld := ⟨STK.DIE_REPAIR d, 12, 5⟩
/-- STK.DIE_LOST, Table 11.10. -/
abbrev STK.DIE_LOST (d : Nat) : Nat := 0x5800F8 + 0x10 * d
abbrev STK.DIE_LOST_MASTS (d : Nat) : Fld := ⟨STK.DIE_LOST d, 0, 17⟩
/-- STK.DIE_REMAP, Table 11.10. -/
abbrev STK.DIE_REMAP (d : Nat) : Nat := 0x5800FC + 0x10 * d
abbrev STK.DIE_REMAP_MASTS (d : Nat) : Fld := ⟨STK.DIE_REMAP d, 0, 17⟩
/-- STK.FAIL_LOC, Table 11.2. -/
abbrev STK.FAIL_LOC (k : Nat) : Nat := 0x580200 + 0x8 * k
/-- STK.FAIL_BIT, Table 11.2. -/
abbrev STK.FAIL_BIT (k : Nat) : Nat := 0x580204 + 0x8 * k

/-- CAL.CTRL, Table 12.6. -/
abbrev CAL.CTRL : Nat := 0x600000
abbrev CAL.CTRL_CFG_LOCK : Fld := ⟨CAL.CTRL, 31, 1⟩
abbrev CAL.CTRL_FIO_EN : Fld := ⟨CAL.CTRL, 3, 1⟩
abbrev CAL.CTRL_DRAM_EN : Fld := ⟨CAL.CTRL, 2, 1⟩
abbrev CAL.CTRL_MAST_EN : Fld := ⟨CAL.CTRL, 1, 1⟩
abbrev CAL.CTRL_LANE_EN : Fld := ⟨CAL.CTRL, 0, 1⟩
/-- CAL.STATUS, Table 12.6. -/
abbrev CAL.STATUS : Nat := 0x600004
abbrev CAL.STATUS_ACTIVE : Fld := ⟨CAL.STATUS, 28, 4⟩
abbrev CAL.STATUS_DIE : Fld := ⟨CAL.STATUS, 25, 3⟩
abbrev CAL.STATUS_CLK_WAIT : Fld := ⟨CAL.STATUS, 24, 1⟩
abbrev CAL.STATUS_QUEUED : Fld := ⟨CAL.STATUS, 19, 5⟩
/-- CAL.INT_STAT, Table 12.6. -/
abbrev CAL.INT_STAT : Nat := 0x600008
abbrev CAL.INT_STAT_SETAGAIN : Fld := ⟨CAL.INT_STAT, 31, 1⟩
abbrev CAL.INT_STAT_FIO_NOREF : Fld := ⟨CAL.INT_STAT, 3, 1⟩
abbrev CAL.INT_STAT_RANGE_END : Fld := ⟨CAL.INT_STAT, 2, 1⟩
abbrev CAL.INT_STAT_EYE_LOW : Fld := ⟨CAL.INT_STAT, 1, 1⟩
abbrev CAL.INT_STAT_RUN_DONE : Fld := ⟨CAL.INT_STAT, 0, 1⟩
/-- CAL.INT_EN, Table 12.6. -/
abbrev CAL.INT_EN : Nat := 0x60000C
/-- CAL.TRIG_CFG, Table 12.6. -/
abbrev CAL.TRIG_CFG : Nat := 0x600010
abbrev CAL.TRIG_CFG_TEMP_DELTA : Fld := ⟨CAL.TRIG_CFG, 24, 8⟩
abbrev CAL.TRIG_CFG_MIN_MS : Fld := ⟨CAL.TRIG_CFG, 8, 16⟩
abbrev CAL.TRIG_CFG_PERIOD_MIN : Fld := ⟨CAL.TRIG_CFG, 0, 8⟩
/-- CAL.FIO_STAT, Table 12.6. -/
abbrev CAL.FIO_STAT : Nat := 0x600014
abbrev CAL.FIO_STAT_TRIM : Fld := ⟨CAL.FIO_STAT, 24, 8⟩
abbrev CAL.FIO_STAT_COUNT : Fld := ⟨CAL.FIO_STAT, 0, 16⟩
/-- CAL.FIO_TIME, Table 12.6. -/
abbrev CAL.FIO_TIME : Nat := 0x600018
abbrev CAL.FIO_TIME_LAST_MS : Fld := ⟨CAL.FIO_TIME, 0, 32⟩
/-- CAL.LANE_CFG, Table 12.6. -/
abbrev CAL.LANE_CFG : Nat := 0x60001C
abbrev CAL.LANE_CFG_OFFSET : Fld := ⟨CAL.LANE_CFG, 8, 8⟩
abbrev CAL.LANE_CFG_HYST : Fld := ⟨CAL.LANE_CFG, 0, 8⟩
/-- CAL.LANE_CAL, Table 12.6. -/
abbrev CAL.LANE_CAL (n : Nat) : Nat := 0x600040 + 0x4 * n
abbrev CAL.LANE_CAL_STEP_CNT (n : Nat) : Fld := ⟨CAL.LANE_CAL n, 0, 32⟩
/-- CAL.DIE_CAL, Table 12.6. -/
abbrev CAL.DIE_CAL (d : Nat) : Nat := 0x6000F0 + 0x10 * d
abbrev CAL.DIE_CAL_RUN_CNT (d : Nat) : Fld := ⟨CAL.DIE_CAL d, 16, 16⟩
abbrev CAL.DIE_CAL_MAX_STEP (d : Nat) : Fld := ⟨CAL.DIE_CAL d, 8, 8⟩
abbrev CAL.DIE_CAL_EYE_MIN (d : Nat) : Fld := ⟨CAL.DIE_CAL d, 0, 8⟩
/-- CAL.DIE_TIME, Table 12.6. -/
abbrev CAL.DIE_TIME (d : Nat) : Nat := 0x6000F4 + 0x10 * d
abbrev CAL.DIE_TIME_LAST_MS (d : Nat) : Fld := ⟨CAL.DIE_TIME d, 0, 32⟩
/-- CAL.DIE_TEMP, Table 12.6. -/
abbrev CAL.DIE_TEMP (d : Nat) : Nat := 0x6000F8 + 0x10 * d
abbrev CAL.DIE_TEMP_LAST_CAUSE (d : Nat) : Fld := ⟨CAL.DIE_TEMP d, 25, 3⟩
abbrev CAL.DIE_TEMP_TJ (d : Nat) : Fld := ⟨CAL.DIE_TEMP d, 0, 10⟩

/-- THM.CTRL, Table 13.8. -/
abbrev THM.CTRL : Nat := 0x680000
abbrev THM.CTRL_CFG_LOCK : Fld := ⟨THM.CTRL, 31, 1⟩
abbrev THM.CTRL_AUTO_RESTART : Fld := ⟨THM.CTRL, 2, 1⟩
abbrev THM.CTRL_FIO_COMP_EN : Fld := ⟨THM.CTRL, 0, 1⟩
/-- THM.STATUS, Table 13.8. -/
abbrev THM.STATUS : Nat := 0x680004
abbrev THM.STATUS_TRIPPED : Fld := ⟨THM.STATUS, 31, 1⟩
abbrev THM.STATUS_RESTART_HOLD : Fld := ⟨THM.STATUS, 30, 1⟩
abbrev THM.STATUS_THROTTLE : Fld := ⟨THM.STATUS, 29, 1⟩
abbrev THM.STATUS_WARN : Fld := ⟨THM.STATUS, 28, 1⟩
abbrev THM.STATUS_MODEL_ARMED : Fld := ⟨THM.STATUS, 27, 1⟩
abbrev THM.STATUS_FAST : Fld := ⟨THM.STATUS, 8, 9⟩
abbrev THM.STATUS_SUBST : Fld := ⟨THM.STATUS, 0, 8⟩
/-- THM.INT_STAT, Table 13.8. -/
abbrev THM.INT_STAT : Nat := 0x680008
abbrev THM.INT_STAT_SETAGAIN : Fld := ⟨THM.INT_STAT, 31, 1⟩
abbrev THM.INT_STAT_RESTART : Fld := ⟨THM.INT_STAT, 6, 1⟩
abbrev THM.INT_STAT_TRIP : Fld := ⟨THM.INT_STAT, 5, 1⟩
abbrev THM.INT_STAT_SENSOR_FAIL : Fld := ⟨THM.INT_STAT, 4, 1⟩
abbrev THM.INT_STAT_SUSPECT : Fld := ⟨THM.INT_STAT, 3, 1⟩
abbrev THM.INT_STAT_THROTTLE : Fld := ⟨THM.INT_STAT, 2, 1⟩
abbrev THM.INT_STAT_WARN_CLEAR : Fld := ⟨THM.INT_STAT, 1, 1⟩
abbrev THM.INT_STAT_WARN : Fld := ⟨THM.INT_STAT, 0, 1⟩
/-- THM.INT_EN, Table 13.8. -/
abbrev THM.INT_EN : Nat := 0x68000C
/-- THM.WARN_CFG, Table 13.8. -/
abbrev THM.WARN_CFG : Nat := 0x680010
abbrev THM.WARN_CFG_WARN_TJ : Fld := ⟨THM.WARN_CFG, 16, 10⟩
abbrev THM.WARN_CFG_WARN_HYST : Fld := ⟨THM.WARN_CFG, 0, 8⟩
/-- THM.THR_CFG, Table 13.8. -/
abbrev THM.THR_CFG : Nat := 0x680014
abbrev THM.THR_CFG_THROTTLE_TJ : Fld := ⟨THM.THR_CFG, 16, 10⟩
abbrev THM.THR_CFG_THROTTLE_HYST : Fld := ⟨THM.THR_CFG, 0, 8⟩
/-- THM.TRIP_STAT, Table 13.8. -/
abbrev THM.TRIP_STAT : Nat := 0x680018
abbrev THM.TRIP_STAT_COUNT : Fld := ⟨THM.TRIP_STAT, 24, 8⟩
abbrev THM.TRIP_STAT_DIE : Fld := ⟨THM.TRIP_STAT, 20, 4⟩
abbrev THM.TRIP_STAT_SOURCE : Fld := ⟨THM.TRIP_STAT, 19, 1⟩
abbrev THM.TRIP_STAT_TJ : Fld := ⟨THM.TRIP_STAT, 0, 10⟩
/-- THM.BASE_SENS, Table 13.8. -/
abbrev THM.BASE_SENS (k : Nat) : Nat := 0x68001C + 0x4 * k
abbrev THM.BASE_SENS_S_ODD (k : Nat) : Fld := ⟨THM.BASE_SENS k, 16, 10⟩
abbrev THM.BASE_SENS_S_EVEN (k : Nat) : Fld := ⟨THM.BASE_SENS k, 0, 10⟩
/-- THM.BASE_EST, Table 13.8. -/
abbrev THM.BASE_EST : Nat := 0x68002C
abbrev THM.BASE_EST_MODEL : Fld := ⟨THM.BASE_EST, 16, 10⟩
abbrev THM.BASE_EST_USED : Fld := ⟨THM.BASE_EST, 0, 10⟩
/-- THM.MODEL_CFG, Table 13.8. -/
abbrev THM.MODEL_CFG : Nat := 0x680030
abbrev THM.MODEL_CFG_ARM_ROUNDS : Fld := ⟨THM.MODEL_CFG, 8, 8⟩
abbrev THM.MODEL_CFG_FIO_TC : Fld := ⟨THM.MODEL_CFG, 0, 8⟩
/-- THM.MAX_TJ, Table 13.8. -/
abbrev THM.MAX_TJ : Nat := 0x680034
abbrev THM.MAX_TJ_PEAK : Fld := ⟨THM.MAX_TJ, 16, 10⟩
abbrev THM.MAX_TJ_NOW_DIE : Fld := ⟨THM.MAX_TJ, 10, 4⟩
abbrev THM.MAX_TJ_NOW : Fld := ⟨THM.MAX_TJ, 0, 10⟩
/-- THM.POWER, Table 13.8. -/
abbrev THM.POWER : Nat := 0x680038
abbrev THM.POWER_PKG_MW : Fld := ⟨THM.POWER, 16, 16⟩
abbrev THM.POWER_ARRAY_MW : Fld := ⟨THM.POWER, 0, 16⟩
/-- THM.ROUND, Table 13.8. -/
abbrev THM.ROUND : Nat := 0x68003C
abbrev THM.ROUND_COUNT : Fld := ⟨THM.ROUND, 0, 32⟩
/-- THM.SENS_A, Table 13.9. -/
abbrev THM.SENS_A (d : Nat) : Nat := 0x6800F0 + 0x10 * d
abbrev THM.SENS_A_S1 (d : Nat) : Fld := ⟨THM.SENS_A d, 16, 10⟩
abbrev THM.SENS_A_S0 (d : Nat) : Fld := ⟨THM.SENS_A d, 0, 10⟩
/-- THM.SENS_B, Table 13.9. -/
abbrev THM.SENS_B (d : Nat) : Nat := 0x6800F4 + 0x10 * d
abbrev THM.SENS_B_S3 (d : Nat) : Fld := ⟨THM.SENS_B d, 16, 10⟩
abbrev THM.SENS_B_S2 (d : Nat) : Fld := ⟨THM.SENS_B d, 0, 10⟩
/-- THM.DIE_EST, Table 13.9. -/
abbrev THM.DIE_EST (d : Nat) : Nat := 0x6800F8 + 0x10 * d
abbrev THM.DIE_EST_MODEL (d : Nat) : Fld := ⟨THM.DIE_EST d, 16, 10⟩
abbrev THM.DIE_EST_NEIGHBOUR (d : Nat) : Fld := ⟨THM.DIE_EST d, 0, 10⟩
/-- THM.DIE_STAT, Table 13.9. -/
abbrev THM.DIE_STAT (d : Nat) : Nat := 0x6800FC + 0x10 * d
abbrev THM.DIE_STAT_SUBST (d : Nat) : Fld := ⟨THM.DIE_STAT d, 31, 1⟩
abbrev THM.DIE_STAT_SUSPECT (d : Nat) : Fld := ⟨THM.DIE_STAT d, 30, 1⟩
abbrev THM.DIE_STAT_FAST (d : Nat) : Fld := ⟨THM.DIE_STAT d, 29, 1⟩
abbrev THM.DIE_STAT_DOUBLE (d : Nat) : Fld := ⟨THM.DIE_STAT d, 28, 1⟩
abbrev THM.DIE_STAT_FAILED (d : Nat) : Fld := ⟨THM.DIE_STAT d, 24, 4⟩
abbrev THM.DIE_STAT_PEAK (d : Nat) : Fld := ⟨THM.DIE_STAT d, 10, 10⟩
abbrev THM.DIE_STAT_USED (d : Nat) : Fld := ⟨THM.DIE_STAT d, 0, 10⟩

/-- PWR.CTRL, Table 14.14. -/
abbrev PWR.CTRL : Nat := 0x700000
abbrev PWR.CTRL_CFG_LOCK : Fld := ⟨PWR.CTRL, 31, 1⟩
abbrev PWR.CTRL_WAKE_SCRUB : Fld := ⟨PWR.CTRL, 2, 1⟩
abbrev PWR.CTRL_REEF2_EN : Fld := ⟨PWR.CTRL, 1, 1⟩
abbrev PWR.CTRL_REEF1_EN : Fld := ⟨PWR.CTRL, 0, 1⟩
/-- PWR.STATE, Table 14.14. -/
abbrev PWR.STATE : Nat := 0x700004
abbrev PWR.STATE_CUR : Fld := ⟨PWR.STATE, 29, 3⟩
abbrev PWR.STATE_TARGET : Fld := ⟨PWR.STATE, 26, 3⟩
abbrev PWR.STATE_PEND_VALID : Fld := ⟨PWR.STATE, 25, 1⟩
abbrev PWR.STATE_PEND_TARGET : Fld := ⟨PWR.STATE, 22, 3⟩
abbrev PWR.STATE_STEP : Fld := ⟨PWR.STATE, 18, 4⟩
abbrev PWR.STATE_NEXT_ABORT : Fld := ⟨PWR.STATE, 15, 3⟩
/-- PWR.INT_STAT, Table 14.14. -/
abbrev PWR.INT_STAT : Nat := 0x700008
abbrev PWR.INT_STAT_SETAGAIN : Fld := ⟨PWR.INT_STAT, 31, 1⟩
abbrev PWR.INT_STAT_FILL_DONE : Fld := ⟨PWR.INT_STAT, 5, 1⟩
abbrev PWR.INT_STAT_RETLOST : Fld := ⟨PWR.INT_STAT, 4, 1⟩
abbrev PWR.INT_STAT_UNWOUND : Fld := ⟨PWR.INT_STAT, 3, 1⟩
abbrev PWR.INT_STAT_SUPERSEDED : Fld := ⟨PWR.INT_STAT, 2, 1⟩
abbrev PWR.INT_STAT_WAKE : Fld := ⟨PWR.INT_STAT, 1, 1⟩
abbrev PWR.INT_STAT_ENTERED : Fld := ⟨PWR.INT_STAT, 0, 1⟩
/-- PWR.INT_EN, Table 14.14. -/
abbrev PWR.INT_EN : Nat := 0x70000C
/-- PWR.IDLE_CFG, Table 14.14. -/
abbrev PWR.IDLE_CFG : Nat := 0x700010
abbrev PWR.IDLE_CFG_REEF2_MS : Fld := ⟨PWR.IDLE_CFG, 16, 16⟩
abbrev PWR.IDLE_CFG_REEF1_IDLE : Fld := ⟨PWR.IDLE_CFG, 0, 8⟩
/-- PWR.WAKE_CFG, Table 14.14. -/
abbrev PWR.WAKE_CFG : Nat := 0x700014
abbrev PWR.WAKE_CFG_PORTS : Fld := ⟨PWR.WAKE_CFG, 8, 8⟩
abbrev PWR.WAKE_CFG_PIN : Fld := ⟨PWR.WAKE_CFG, 4, 1⟩
abbrev PWR.WAKE_CFG_ADDR : Fld := ⟨PWR.WAKE_CFG, 3, 1⟩
abbrev PWR.WAKE_CFG_FURL_TMR : Fld := ⟨PWR.WAKE_CFG, 2, 1⟩
abbrev PWR.WAKE_CFG_CUST_TMR : Fld := ⟨PWR.WAKE_CFG, 1, 1⟩
abbrev PWR.WAKE_CFG_SIGDET : Fld := ⟨PWR.WAKE_CFG, 0, 1⟩
/-- PWR.FURL_TIMER, Table 14.14. -/
abbrev PWR.FURL_TIMER : Nat := 0x700018
abbrev PWR.FURL_TIMER_SEC : Fld := ⟨PWR.FURL_TIMER, 0, 32⟩
/-- PWR.CUST_WAKE, Table 14.14. -/
abbrev PWR.CUST_WAKE : Nat := 0x70001C
abbrev PWR.CUST_WAKE_SEC : Fld := ⟨PWR.CUST_WAKE, 0, 32⟩
/-- PWR.AON_TIME_HI, Table 14.14. -/
abbrev PWR.AON_TIME_HI : Nat := 0x700020
abbrev PWR.AON_TIME_HI_HI : Fld := ⟨PWR.AON_TIME_HI, 0, 32⟩
/-- PWR.AON_TIME_LO, Table 14.14. -/
abbrev PWR.AON_TIME_LO : Nat := 0x700024
abbrev PWR.AON_TIME_LO_LO : Fld := ⟨PWR.AON_TIME_LO, 0, 32⟩
/-- PWR.GOV_CFG, Table 14.14. -/
abbrev PWR.GOV_CFG : Nat := 0x700028
abbrev PWR.GOV_CFG_LIMIT : Fld := ⟨PWR.GOV_CFG, 0, 16⟩
/-- PWR.GOV_STAT, Table 14.14. -/
abbrev PWR.GOV_STAT : Nat := 0x70002C
abbrev PWR.GOV_STAT_HEADROOM : Fld := ⟨PWR.GOV_STAT, 16, 16⟩
abbrev PWR.GOV_STAT_LAST_ACTION : Fld := ⟨PWR.GOV_STAT, 12, 4⟩
abbrev PWR.GOV_STAT_C60_HALF : Fld := ⟨PWR.GOV_STAT, 11, 1⟩
/-- PWR.WAKE_STAT, Table 14.14. -/
abbrev PWR.WAKE_STAT : Nat := 0x700030
abbrev PWR.WAKE_STAT_SOURCE : Fld := ⟨PWR.WAKE_STAT, 28, 4⟩
abbrev PWR.WAKE_STAT_PORT : Fld := ⟨PWR.WAKE_STAT, 25, 3⟩
abbrev PWR.WAKE_STAT_AUDIT_SKIP : Fld := ⟨PWR.WAKE_STAT, 24, 1⟩
abbrev PWR.WAKE_STAT_FILL_BUSY : Fld := ⟨PWR.WAKE_STAT, 23, 1⟩
abbrev PWR.WAKE_STAT_SCRUB_BUSY : Fld := ⟨PWR.WAKE_STAT, 22, 1⟩
abbrev PWR.WAKE_STAT_EXIT_US : Fld := ⟨PWR.WAKE_STAT, 0, 16⟩
/-- PWR.SEAL_SEQ, Table 14.14. -/
abbrev PWR.SEAL_SEQ : Nat := 0x700034
abbrev PWR.SEAL_SEQ_SEQ : Fld := ⟨PWR.SEAL_SEQ, 0, 32⟩
/-- PWR.LAST_RESULT, Table 14.14. -/
abbrev PWR.LAST_RESULT : Nat := 0x700038
abbrev PWR.LAST_RESULT_STATUS : Fld := ⟨PWR.LAST_RESULT, 24, 8⟩
abbrev PWR.LAST_RESULT_RESULT : Fld := ⟨PWR.LAST_RESULT, 0, 24⟩
/-- PWR.STATE_CNT, Table 14.14. -/
abbrev PWR.STATE_CNT : Nat := 0x70003C
abbrev PWR.STATE_CNT_FURL : Fld := ⟨PWR.STATE_CNT, 24, 8⟩
abbrev PWR.STATE_CNT_REEF2 : Fld := ⟨PWR.STATE_CNT, 12, 12⟩
abbrev PWR.STATE_CNT_REEF1 : Fld := ⟨PWR.STATE_CNT, 0, 12⟩
/-- PWR.RET_MASK, Table 14.14. -/
abbrev PWR.RET_MASK (k : Nat) : Nat := 0x700040 + 0x4 * k
abbrev PWR.RET_MASK_PCS (k : Nat) : Fld := ⟨PWR.RET_MASK k, 0, 32⟩
/-- PWR.RET_LOST, Table 14.14. -/
abbrev PWR.RET_LOST (k : Nat) : Nat := 0x700050 + 0x4 * k
abbrev PWR.RET_LOST_PCS (k : Nat) : Fld := ⟨PWR.RET_LOST k, 0, 32⟩
/-- PWR.AUDIT_EXP, Table 14.15. -/
abbrev PWR.AUDIT_EXP (d : Nat) : Nat := 0x7000F8 + 0x8 * d
abbrev PWR.AUDIT_EXP_COUNT (d : Nat) : Fld := ⟨PWR.AUDIT_EXP d, 0, 32⟩
/-- PWR.AUDIT_WORST, Table 14.15. -/
abbrev PWR.AUDIT_WORST (d : Nat) : Nat := 0x7000FC + 0x8 * d
abbrev PWR.AUDIT_WORST_ENGINE (d : Nat) : Fld := ⟨PWR.AUDIT_WORST d, 27, 5⟩
abbrev PWR.AUDIT_WORST_SHORT_PPM (d : Nat) : Fld := ⟨PWR.AUDIT_WORST d, 0, 24⟩

/-- CLK.CTRL, Table 15.10. -/
abbrev CLK.CTRL : Nat := 0x780000
abbrev CLK.CTRL_CFG_LOCK : Fld := ⟨CLK.CTRL, 31, 1⟩
abbrev CLK.CTRL_XB_USE : Fld := ⟨CLK.CTRL, 0, 1⟩
/-- CLK.STATUS, Table 15.10. -/
abbrev CLK.STATUS : Nat := 0x780004
abbrev CLK.STATUS_PLL_READY : Fld := ⟨CLK.STATUS, 31, 1⟩
abbrev CLK.STATUS_REF_FIO : Fld := ⟨CLK.STATUS, 30, 1⟩
abbrev CLK.STATUS_STRETCH : Fld := ⟨CLK.STATUS, 29, 1⟩
abbrev CLK.STATUS_XA_VALID : Fld := ⟨CLK.STATUS, 28, 1⟩
abbrev CLK.STATUS_XB_VALID : Fld := ⟨CLK.STATUS, 27, 1⟩
abbrev CLK.STATUS_FIO_ARMED : Fld := ⟨CLK.STATUS, 26, 1⟩
abbrev CLK.STATUS_REFCLK0_VALID : Fld := ⟨CLK.STATUS, 25, 1⟩
abbrev CLK.STATUS_REFCLK1_VALID : Fld := ⟨CLK.STATUS, 24, 1⟩
abbrev CLK.STATUS_ACLK_XB : Fld := ⟨CLK.STATUS, 23, 1⟩
abbrev CLK.STATUS_AON_SIO : Fld := ⟨CLK.STATUS, 22, 1⟩
abbrev CLK.STATUS_SIO_FAILED : Fld := ⟨CLK.STATUS, 21, 1⟩
/-- CLK.INT_STAT, Table 15.10. -/
abbrev CLK.INT_STAT : Nat := 0x780008
abbrev CLK.INT_STAT_SETAGAIN : Fld := ⟨CLK.INT_STAT, 31, 1⟩
abbrev CLK.INT_STAT_RECOVERED : Fld := ⟨CLK.INT_STAT, 6, 1⟩
abbrev CLK.INT_STAT_XB_ABSENT : Fld := ⟨CLK.INT_STAT, 5, 1⟩
abbrev CLK.INT_STAT_PLL_UNLOCK : Fld := ⟨CLK.INT_STAT, 4, 1⟩
abbrev CLK.INT_STAT_TAKEOVER : Fld := ⟨CLK.INT_STAT, 3, 1⟩
abbrev CLK.INT_STAT_GATED_ACCESS : Fld := ⟨CLK.INT_STAT, 2, 1⟩
abbrev CLK.INT_STAT_REFCLK_FAIL : Fld := ⟨CLK.INT_STAT, 1, 1⟩
abbrev CLK.INT_STAT_SRC_FAIL : Fld := ⟨CLK.INT_STAT, 0, 1⟩
/-- CLK.INT_EN, Table 15.10. -/
abbrev CLK.INT_EN : Nat := 0x78000C
/-- CLK.GATE, Table 15.10. -/
abbrev CLK.GATE : Nat := 0x780010
abbrev CLK.GATE_CAL : Fld := ⟨CLK.GATE, 9, 1⟩
abbrev CLK.GATE_SCN : Fld := ⟨CLK.GATE, 8, 1⟩
abbrev CLK.GATE_PRT : Fld := ⟨CLK.GATE, 0, 8⟩
/-- CLK.GATE_STAT, Table 15.10. -/
abbrev CLK.GATE_STAT : Nat := 0x780014
abbrev CLK.GATE_STAT_GATED : Fld := ⟨CLK.GATE_STAT, 16, 10⟩
abbrev CLK.GATE_STAT_PEND : Fld := ⟨CLK.GATE_STAT, 0, 10⟩
/-- CLK.GATED_ACCESS_CNT, Table 15.10. -/
abbrev CLK.GATED_ACCESS_CNT : Nat := 0x780018
abbrev CLK.GATED_ACCESS_CNT_COUNT : Fld := ⟨CLK.GATED_ACCESS_CNT, 0, 32⟩
/-- CLK.GATED_LAST, Table 15.10. -/
abbrev CLK.GATED_LAST : Nat := 0x78001C
abbrev CLK.GATED_LAST_WRITE : Fld := ⟨CLK.GATED_LAST, 31, 1⟩
abbrev CLK.GATED_LAST_ADDR : Fld := ⟨CLK.GATED_LAST, 0, 24⟩
/-- CLK.TAKEOVER, Table 15.10. -/
abbrev CLK.TAKEOVER : Nat := 0x780020
abbrev CLK.TAKEOVER_COUNT : Fld := ⟨CLK.TAKEOVER, 24, 8⟩
abbrev CLK.TAKEOVER_SWITCH : Fld := ⟨CLK.TAKEOVER, 16, 8⟩
abbrev CLK.TAKEOVER_OLD : Fld := ⟨CLK.TAKEOVER, 8, 8⟩
abbrev CLK.TAKEOVER_NEW : Fld := ⟨CLK.TAKEOVER, 0, 8⟩
/-- CLK.FAIL_CNT, Table 15.10. -/
abbrev CLK.FAIL_CNT : Nat := 0x780024
abbrev CLK.FAIL_CNT_XA : Fld := ⟨CLK.FAIL_CNT, 24, 8⟩
abbrev CLK.FAIL_CNT_XB : Fld := ⟨CLK.FAIL_CNT, 16, 8⟩
abbrev CLK.FAIL_CNT_REFCLK0 : Fld := ⟨CLK.FAIL_CNT, 8, 8⟩
abbrev CLK.FAIL_CNT_REFCLK1 : Fld := ⟨CLK.FAIL_CNT, 0, 8⟩
/-- CLK.DOM_RUN_LO, Table 15.10. -/
abbrev CLK.DOM_RUN_LO : Nat := 0x780028
abbrev CLK.DOM_RUN_LO_DOM : Fld := ⟨CLK.DOM_RUN_LO, 0, 32⟩
/-- CLK.DOM_RUN_HI, Table 15.10. -/
abbrev CLK.DOM_RUN_HI : Nat := 0x78002C
abbrev CLK.DOM_RUN_HI_DOM : Fld := ⟨CLK.DOM_RUN_HI, 0, 8⟩
/-- CLK.DOM_FIO_LO, Table 15.10. -/
abbrev CLK.DOM_FIO_LO : Nat := 0x780030
abbrev CLK.DOM_FIO_LO_DOM : Fld := ⟨CLK.DOM_FIO_LO, 0, 32⟩
/-- CLK.DOM_FIO_HI, Table 15.10. -/
abbrev CLK.DOM_FIO_HI : Nat := 0x780034
abbrev CLK.DOM_FIO_HI_DOM : Fld := ⟨CLK.DOM_FIO_HI, 0, 8⟩
/-- CLK.STARTUP_A, Table 15.10. -/
abbrev CLK.STARTUP_A : Nat := 0x780038
abbrev CLK.STARTUP_A_XA_STABLE_US : Fld := ⟨CLK.STARTUP_A, 16, 16⟩
abbrev CLK.STARTUP_A_FIO_START_US : Fld := ⟨CLK.STARTUP_A, 0, 16⟩
/-- CLK.STARTUP_B, Table 15.10. -/
abbrev CLK.STARTUP_B : Nat := 0x78003C
abbrev CLK.STARTUP_B_XB_STABLE_MS : Fld := ⟨CLK.STARTUP_B, 16, 16⟩
abbrev CLK.STARTUP_B_PLL_LOCK_US : Fld := ⟨CLK.STARTUP_B, 0, 16⟩
/-- CLK.MON_STAT, Table 15.11. -/
abbrev CLK.MON_STAT (i : Nat) : Nat := 0x780040 + 0x8 * i
abbrev CLK.MON_STAT_ARMED (i : Nat) : Fld := ⟨CLK.MON_STAT i, 31, 1⟩
abbrev CLK.MON_STAT_VALID (i : Nat) : Fld := ⟨CLK.MON_STAT i, 30, 1⟩
abbrev CLK.MON_STAT_FAILED (i : Nat) : Fld := ⟨CLK.MON_STAT i, 29, 1⟩
abbrev CLK.MON_STAT_LAST_REASON (i : Nat) : Fld := ⟨CLK.MON_STAT i, 27, 2⟩
abbrev CLK.MON_STAT_ALT_REF (i : Nat) : Fld := ⟨CLK.MON_STAT i, 26, 1⟩
abbrev CLK.MON_STAT_BAD_WINDOWS (i : Nat) : Fld := ⟨CLK.MON_STAT i, 0, 16⟩
/-- CLK.MON_CNT, Table 15.11. -/
abbrev CLK.MON_CNT (i : Nat) : Nat := 0x780044 + 0x8 * i
abbrev CLK.MON_CNT_NOMINAL (i : Nat) : Fld := ⟨CLK.MON_CNT i, 16, 16⟩
abbrev CLK.MON_CNT_LAST (i : Nat) : Fld := ⟨CLK.MON_CNT i, 0, 16⟩
/-- CLK.PLL_STAT, Table 15.11. -/
abbrev CLK.PLL_STAT (j : Nat) : Nat := 0x780080 + 0x4 * j
abbrev CLK.PLL_STAT_EN (j : Nat) : Fld := ⟨CLK.PLL_STAT j, 31, 1⟩
abbrev CLK.PLL_STAT_LOCKED (j : Nat) : Fld := ⟨CLK.PLL_STAT j, 30, 1⟩
abbrev CLK.PLL_STAT_HOLDOVER (j : Nat) : Fld := ⟨CLK.PLL_STAT j, 29, 1⟩
abbrev CLK.PLL_STAT_REF (j : Nat) : Fld := ⟨CLK.PLL_STAT j, 25, 4⟩
abbrev CLK.PLL_STAT_UNLOCK_CNT (j : Nat) : Fld := ⟨CLK.PLL_STAT j, 8, 8⟩
abbrev CLK.PLL_STAT_LOCK_US (j : Nat) : Fld := ⟨CLK.PLL_STAT j, 0, 8⟩

/-- OTP.CTRL, Table 16.9. -/
abbrev OTP.CTRL : Nat := 0x800000
abbrev OTP.CTRL_CFG_LOCK : Fld := ⟨OTP.CTRL, 31, 1⟩
abbrev OTP.CTRL_PROG_EN : Fld := ⟨OTP.CTRL, 0, 1⟩
/-- OTP.STATUS, Table 16.9. -/
abbrev OTP.STATUS : Nat := 0x800004
abbrev OTP.STATUS_BUSY : Fld := ⟨OTP.STATUS, 31, 1⟩
abbrev OTP.STATUS_OP : Fld := ⟨OTP.STATUS, 28, 3⟩
abbrev OTP.STATUS_VTM : Fld := ⟨OTP.STATUS, 27, 1⟩
abbrev OTP.STATUS_REGION_OK : Fld := ⟨OTP.STATUS, 0, 7⟩
/-- OTP.INT_STAT, Table 16.9. -/
abbrev OTP.INT_STAT : Nat := 0x800008
abbrev OTP.INT_STAT_SETAGAIN : Fld := ⟨OTP.INT_STAT, 31, 1⟩
abbrev OTP.INT_STAT_ENTRY_BAD : Fld := ⟨OTP.INT_STAT, 4, 1⟩
abbrev OTP.INT_STAT_MARGINAL : Fld := ⟨OTP.INT_STAT, 3, 1⟩
abbrev OTP.INT_STAT_VERIFY_FAIL : Fld := ⟨OTP.INT_STAT, 2, 1⟩
abbrev OTP.INT_STAT_LOCKED : Fld := ⟨OTP.INT_STAT, 1, 1⟩
abbrev OTP.INT_STAT_PROG_DONE : Fld := ⟨OTP.INT_STAT, 0, 1⟩
/-- OTP.INT_EN, Table 16.9. -/
abbrev OTP.INT_EN : Nat := 0x80000C
/-- OTP.REGION_MARGIN, Table 16.9. -/
abbrev OTP.REGION_MARGIN : Nat := 0x800010
abbrev OTP.REGION_MARGIN_MARGIN : Fld := ⟨OTP.REGION_MARGIN, 0, 14⟩
/-- OTP.LOCK_STAT, Table 16.9. -/
abbrev OTP.LOCK_STAT : Nat := 0x800014
abbrev OTP.LOCK_STAT_VTM_DIS : Fld := ⟨OTP.LOCK_STAT, 7, 1⟩
abbrev OTP.LOCK_STAT_LOCKED : Fld := ⟨OTP.LOCK_STAT, 0, 7⟩
/-- OTP.LEN_A, Table 16.9. -/
abbrev OTP.LEN_A : Nat := 0x800018
abbrev OTP.LEN_A_ID_LEN : Fld := ⟨OTP.LEN_A, 16, 16⟩
abbrev OTP.LEN_A_FEATURE_LEN : Fld := ⟨OTP.LEN_A, 0, 16⟩
/-- OTP.LEN_B, Table 16.9. -/
abbrev OTP.LEN_B : Nat := 0x80001C
abbrev OTP.LEN_B_TRIM_LEN : Fld := ⟨OTP.LEN_B, 16, 16⟩
abbrev OTP.LEN_B_PATCH_LEN : Fld := ⟨OTP.LEN_B, 0, 16⟩
/-- OTP.LEN_C, Table 16.9. -/
abbrev OTP.LEN_C : Nat := 0x800020
abbrev OTP.LEN_C_REPAIR_VLEN : Fld := ⟨OTP.LEN_C, 16, 16⟩
abbrev OTP.LEN_C_CUST_LEN : Fld := ⟨OTP.LEN_C, 0, 16⟩
/-- OTP.MARG_CNT, Table 16.9. -/
abbrev OTP.MARG_CNT : Nat := 0x800024
abbrev OTP.MARG_CNT_COUNT : Fld := ⟨OTP.MARG_CNT, 0, 16⟩
/-- OTP.REPAIR_STAT, Table 16.9. -/
abbrev OTP.REPAIR_STAT : Nat := 0x800028
abbrev OTP.REPAIR_STAT_USED : Fld := ⟨OTP.REPAIR_STAT, 22, 10⟩
abbrev OTP.REPAIR_STAT_FREE : Fld := ⟨OTP.REPAIR_STAT, 12, 10⟩
abbrev OTP.REPAIR_STAT_BAD : Fld := ⟨OTP.REPAIR_STAT, 2, 10⟩
/-- OTP.PROG_STAT, Table 16.9. -/
abbrev OTP.PROG_STAT : Nat := 0x80002C
abbrev OTP.PROG_STAT_WORD : Fld := ⟨OTP.PROG_STAT, 22, 10⟩
abbrev OTP.PROG_STAT_PULSES : Fld := ⟨OTP.PROG_STAT, 18, 4⟩
abbrev OTP.PROG_STAT_WEAK : Fld := ⟨OTP.PROG_STAT, 12, 6⟩
abbrev OTP.PROG_STAT_FAILED : Fld := ⟨OTP.PROG_STAT, 6, 6⟩
abbrev OTP.PROG_STAT_RESULT : Fld := ⟨OTP.PROG_STAT, 4, 2⟩
/-- OTP.PROG_CNT, Table 16.9. -/
abbrev OTP.PROG_CNT : Nat := 0x800030
abbrev OTP.PROG_CNT_COUNT : Fld := ⟨OTP.PROG_CNT, 0, 32⟩
/-- OTP.PATCH_STAT, Table 16.9. -/
abbrev OTP.PATCH_STAT : Nat := 0x800034
abbrev OTP.PATCH_STAT_APPLIED : Fld := ⟨OTP.PATCH_STAT, 24, 8⟩
/-- OTP.ENTRY_ERR, Table 16.9. -/
abbrev OTP.ENTRY_ERR : Nat := 0x800038
abbrev OTP.ENTRY_ERR_WORD : Fld := ⟨OTP.ENTRY_ERR, 0, 10⟩
/-- OTP.CUST_CFG, Table 16.9. -/
abbrev OTP.CUST_CFG : Nat := 0x80003C
abbrev OTP.CUST_CFG_VALUE : Fld := ⟨OTP.CUST_CFG, 0, 32⟩
/-- OTP.MARG_LIST, Table 16.9. -/
abbrev OTP.MARG_LIST (k : Nat) : Nat := 0x800040 + 0x4 * k
abbrev OTP.MARG_LIST_VALID (k : Nat) : Fld := ⟨OTP.MARG_LIST k, 31, 1⟩
abbrev OTP.MARG_LIST_REGION (k : Nat) : Fld := ⟨OTP.MARG_LIST k, 28, 3⟩
abbrev OTP.MARG_LIST_USED (k : Nat) : Fld := ⟨OTP.MARG_LIST k, 26, 2⟩
abbrev OTP.MARG_LIST_DIFF (k : Nat) : Fld := ⟨OTP.MARG_LIST k, 24, 2⟩
abbrev OTP.MARG_LIST_WORD (k : Nat) : Fld := ⟨OTP.MARG_LIST k, 0, 10⟩

/-- TWB.CTRL, Table 17.6. -/
abbrev TWB.CTRL : Nat := 0x880000
abbrev TWB.CTRL_CFG_LOCK : Fld := ⟨TWB.CTRL, 31, 1⟩
abbrev TWB.CTRL_PM_EN : Fld := ⟨TWB.CTRL, 2, 1⟩
abbrev TWB.CTRL_PEC_REQ : Fld := ⟨TWB.CTRL, 1, 1⟩
abbrev TWB.CTRL_ATTN_EN : Fld := ⟨TWB.CTRL, 0, 1⟩
/-- TWB.STATUS, Table 17.6. -/
abbrev TWB.STATUS : Nat := 0x880004
abbrev TWB.STATUS_TGT_STATE : Fld := ⟨TWB.STATUS, 30, 2⟩
abbrev TWB.STATUS_RESP : Fld := ⟨TWB.STATUS, 29, 1⟩
abbrev TWB.STATUS_EVT : Fld := ⟨TWB.STATUS, 28, 1⟩
abbrev TWB.STATUS_BUSY : Fld := ⟨TWB.STATUS, 27, 1⟩
abbrev TWB.STATUS_HW_RESP : Fld := ⟨TWB.STATUS, 26, 1⟩
abbrev TWB.STATUS_LAST_ERR : Fld := ⟨TWB.STATUS, 22, 4⟩
abbrev TWB.STATUS_ADDR : Fld := ⟨TWB.STATUS, 9, 7⟩
/-- TWB.INT_STAT, Table 17.6. -/
abbrev TWB.INT_STAT : Nat := 0x880008
abbrev TWB.INT_STAT_SETAGAIN : Fld := ⟨TWB.INT_STAT, 31, 1⟩
abbrev TWB.INT_STAT_PM_FAIL : Fld := ⟨TWB.INT_STAT, 6, 1⟩
abbrev TWB.INT_STAT_PM_ARB : Fld := ⟨TWB.INT_STAT, 5, 1⟩
abbrev TWB.INT_STAT_PM_DONE : Fld := ⟨TWB.INT_STAT, 4, 1⟩
abbrev TWB.INT_STAT_TGT_TIMEOUT : Fld := ⟨TWB.INT_STAT, 3, 1⟩
abbrev TWB.INT_STAT_PEC_ERR : Fld := ⟨TWB.INT_STAT, 2, 1⟩
abbrev TWB.INT_STAT_PROTO_ERR : Fld := ⟨TWB.INT_STAT, 1, 1⟩
abbrev TWB.INT_STAT_ATTN : Fld := ⟨TWB.INT_STAT, 0, 1⟩
/-- TWB.INT_EN, Table 17.6. -/
abbrev TWB.INT_EN : Nat := 0x88000C
/-- TWB.TGT_CFG, Table 17.6. -/
abbrev TWB.TGT_CFG : Nat := 0x880010
abbrev TWB.TGT_CFG_ATTN_REPEAT_MS : Fld := ⟨TWB.TGT_CFG, 16, 16⟩
abbrev TWB.TGT_CFG_IDLE_US : Fld := ⟨TWB.TGT_CFG, 8, 8⟩
abbrev TWB.TGT_CFG_ATTN_RESP : Fld := ⟨TWB.TGT_CFG, 0, 1⟩
/-- TWB.PROTO_ERR_CNT, Table 17.6. -/
abbrev TWB.PROTO_ERR_CNT : Nat := 0x880014
abbrev TWB.PROTO_ERR_CNT_COUNT : Fld := ⟨TWB.PROTO_ERR_CNT, 0, 32⟩
/-- TWB.PEC_ERR_CNT, Table 17.6. -/
abbrev TWB.PEC_ERR_CNT : Nat := 0x880018
abbrev TWB.PEC_ERR_CNT_COUNT : Fld := ⟨TWB.PEC_ERR_CNT, 0, 32⟩
/-- TWB.TO_CNT, Table 17.6. -/
abbrev TWB.TO_CNT : Nat := 0x88001C
abbrev TWB.TO_CNT_SCL_LOW : Fld := ⟨TWB.TO_CNT, 16, 16⟩
abbrev TWB.TO_CNT_SDA_LOW : Fld := ⟨TWB.TO_CNT, 0, 16⟩
/-- TWB.ATTN_CNT, Table 17.6. -/
abbrev TWB.ATTN_CNT : Nat := 0x880020
abbrev TWB.ATTN_CNT_PULSES : Fld := ⟨TWB.ATTN_CNT, 16, 16⟩
abbrev TWB.ATTN_CNT_COLLISIONS : Fld := ⟨TWB.ATTN_CNT, 0, 16⟩
/-- TWB.TGT_XFER_CNT, Table 17.6. -/
abbrev TWB.TGT_XFER_CNT : Nat := 0x880024
abbrev TWB.TGT_XFER_CNT_FRAMES : Fld := ⟨TWB.TGT_XFER_CNT, 16, 16⟩
abbrev TWB.TGT_XFER_CNT_NACKED : Fld := ⟨TWB.TGT_XFER_CNT, 0, 16⟩
/-- TWB.PM_CFG, Table 17.6. -/
abbrev TWB.PM_CFG : Nat := 0x880028
abbrev TWB.PM_CFG_DIV : Fld := ⟨TWB.PM_CFG, 16, 8⟩
abbrev TWB.PM_CFG_HANG_MS : Fld := ⟨TWB.PM_CFG, 8, 8⟩
abbrev TWB.PM_CFG_EXT_MS : Fld := ⟨TWB.PM_CFG, 0, 8⟩
/-- TWB.PM_STAT, Table 17.6. -/
abbrev TWB.PM_STAT : Nat := 0x88002C
abbrev TWB.PM_STAT_STATE : Fld := ⟨TWB.PM_STAT, 30, 2⟩
abbrev TWB.PM_STAT_ATTEMPT : Fld := ⟨TWB.PM_STAT, 28, 2⟩
abbrev TWB.PM_STAT_LAST_RESULT : Fld := ⟨TWB.PM_STAT, 24, 4⟩
abbrev TWB.PM_STAT_SLOW_DIV : Fld := ⟨TWB.PM_STAT, 23, 1⟩
abbrev TWB.PM_STAT_LAST_ADDR : Fld := ⟨TWB.PM_STAT, 16, 7⟩
abbrev TWB.PM_STAT_LAST_CMD : Fld := ⟨TWB.PM_STAT, 8, 8⟩
/-- TWB.ARB_LOST_CNT, Table 17.6. -/
abbrev TWB.ARB_LOST_CNT : Nat := 0x880030
abbrev TWB.ARB_LOST_CNT_COUNT : Fld := ⟨TWB.ARB_LOST_CNT, 0, 32⟩
/-- TWB.PM_HANG_CNT, Table 17.6. -/
abbrev TWB.PM_HANG_CNT : Nat := 0x880034
abbrev TWB.PM_HANG_CNT_RECOVERED : Fld := ⟨TWB.PM_HANG_CNT, 16, 16⟩
abbrev TWB.PM_HANG_CNT_FAILED : Fld := ⟨TWB.PM_HANG_CNT, 0, 16⟩
/-- TWB.PM_XFER, Table 17.6. -/
abbrev TWB.PM_XFER : Nat := 0x880038
abbrev TWB.PM_XFER_START : Fld := ⟨TWB.PM_XFER, 31, 1⟩
abbrev TWB.PM_XFER_ENTRY : Fld := ⟨TWB.PM_XFER, 24, 3⟩
abbrev TWB.PM_XFER_CMD : Fld := ⟨TWB.PM_XFER, 16, 8⟩
abbrev TWB.PM_XFER_DATA : Fld := ⟨TWB.PM_XFER, 0, 16⟩
/-- TWB.PM_XFER_STAT, Table 17.6. -/
abbrev TWB.PM_XFER_STAT : Nat := 0x88003C
abbrev TWB.PM_XFER_STAT_BUSY : Fld := ⟨TWB.PM_XFER_STAT, 31, 1⟩
abbrev TWB.PM_XFER_STAT_RESULT : Fld := ⟨TWB.PM_XFER_STAT, 24, 4⟩
abbrev TWB.PM_XFER_STAT_RDATA : Fld := ⟨TWB.PM_XFER_STAT, 0, 16⟩
/-- TWB.PM_DEV, Table 17.7. -/
abbrev TWB.PM_DEV (k : Nat) : Nat := 0x880040 + 0x4 * k
abbrev TWB.PM_DEV_EN (k : Nat) : Fld := ⟨TWB.PM_DEV k, 31, 1⟩
abbrev TWB.PM_DEV_ADDR (k : Nat) : Fld := ⟨TWB.PM_DEV k, 24, 7⟩
abbrev TWB.PM_DEV_RAIL (k : Nat) : Fld := ⟨TWB.PM_DEV k, 20, 4⟩
abbrev TWB.PM_DEV_VOUT_EXP (k : Nat) : Fld := ⟨TWB.PM_DEV k, 15, 5⟩
abbrev TWB.PM_DEV_PEC (k : Nat) : Fld := ⟨TWB.PM_DEV k, 14, 1⟩
abbrev TWB.PM_DEV_POLL (k : Nat) : Fld := ⟨TWB.PM_DEV k, 13, 1⟩

/-- FLT.CTRL, Table 18.13. -/
abbrev FLT.CTRL : Nat := 0x900000
abbrev FLT.CTRL_CFG_LOCK : Fld := ⟨FLT.CTRL, 31, 1⟩
abbrev FLT.CTRL_FENCE_HOLD : Fld := ⟨FLT.CTRL, 8, 8⟩
abbrev FLT.CTRL_NOTIFY_MIN : Fld := ⟨FLT.CTRL, 4, 2⟩
abbrev FLT.CTRL_REACT_EN : Fld := ⟨FLT.CTRL, 0, 1⟩
/-- FLT.STATUS, Table 18.13. -/
abbrev FLT.STATUS : Nat := 0x900004
abbrev FLT.STATUS_LAST_ID : Fld := ⟨FLT.STATUS, 16, 16⟩
abbrev FLT.STATUS_SHADOWS : Fld := ⟨FLT.STATUS, 0, 5⟩
/-- FLT.INT_STAT, Table 18.13. -/
abbrev FLT.INT_STAT : Nat := 0x900008
abbrev FLT.INT_STAT_SETAGAIN : Fld := ⟨FLT.INT_STAT, 31, 1⟩
abbrev FLT.INT_STAT_SHADOW_OVF : Fld := ⟨FLT.INT_STAT, 3, 1⟩
abbrev FLT.INT_STAT_MSG_DROP : Fld := ⟨FLT.INT_STAT, 2, 1⟩
abbrev FLT.INT_STAT_REACTION : Fld := ⟨FLT.INT_STAT, 1, 1⟩
abbrev FLT.INT_STAT_NOTIFY : Fld := ⟨FLT.INT_STAT, 0, 1⟩
/-- FLT.INT_EN, Table 18.13. -/
abbrev FLT.INT_EN : Nat := 0x90000C
/-- FLT.ALERT_CAUSE, Table 18.13. -/
abbrev FLT.ALERT_CAUSE : Nat := 0x900010
abbrev FLT.ALERT_CAUSE_PIN : Fld := ⟨FLT.ALERT_CAUSE, 31, 1⟩
abbrev FLT.ALERT_CAUSE_CAUSE : Fld := ⟨FLT.ALERT_CAUSE, 0, 4⟩
/-- FLT.MSG_CNT, Table 18.13. -/
abbrev FLT.MSG_CNT : Nat := 0x900014
abbrev FLT.MSG_CNT_COUNT : Fld := ⟨FLT.MSG_CNT, 0, 32⟩
/-- FLT.CONSEQ_CNT, Table 18.13. -/
abbrev FLT.CONSEQ_CNT : Nat := 0x900018
abbrev FLT.CONSEQ_CNT_COUNT : Fld := ⟨FLT.CONSEQ_CNT, 0, 32⟩
/-- FLT.REACT_CNT, Table 18.13. -/
abbrev FLT.REACT_CNT : Nat := 0x90001C
abbrev FLT.REACT_CNT_COUNT : Fld := ⟨FLT.REACT_CNT, 0, 32⟩
/-- FLT.NOTIFY_CNT, Table 18.13. -/
abbrev FLT.NOTIFY_CNT : Nat := 0x900020
abbrev FLT.NOTIFY_CNT_COUNT : Fld := ⟨FLT.NOTIFY_CNT, 0, 32⟩
/-- FLT.DROP_CNT, Table 18.13. -/
abbrev FLT.DROP_CNT : Nat := 0x900024
abbrev FLT.DROP_CNT_COUNT : Fld := ⟨FLT.DROP_CNT, 0, 32⟩
/-- FLT.LAST_MSG_HI, Table 18.13. -/
abbrev FLT.LAST_MSG_HI : Nat := 0x900028
abbrev FLT.LAST_MSG_HI_MSG : Fld := ⟨FLT.LAST_MSG_HI, 0, 16⟩
/-- FLT.LAST_MSG_LO, Table 18.13. -/
abbrev FLT.LAST_MSG_LO : Nat := 0x90002C
abbrev FLT.LAST_MSG_LO_MSG : Fld := ⟨FLT.LAST_MSG_LO, 0, 32⟩
/-- FLT.LAST_NOTIFY, Table 18.13. -/
abbrev FLT.LAST_NOTIFY : Nat := 0x900030
abbrev FLT.LAST_NOTIFY_SOURCE : Fld := ⟨FLT.LAST_NOTIFY, 22, 10⟩
abbrev FLT.LAST_NOTIFY_KIND : Fld := ⟨FLT.LAST_NOTIFY, 16, 6⟩
abbrev FLT.LAST_NOTIFY_SEVERITY : Fld := ⟨FLT.LAST_NOTIFY, 14, 2⟩
abbrev FLT.LAST_NOTIFY_REACT : Fld := ⟨FLT.LAST_NOTIFY, 9, 5⟩
/-- FLT.TBL_SEL, Table 18.13. -/
abbrev FLT.TBL_SEL : Nat := 0x900034
abbrev FLT.TBL_SEL_SOURCE : Fld := ⟨FLT.TBL_SEL, 0, 10⟩
/-- FLT.TBL_CFG, Table 18.13. -/
abbrev FLT.TBL_CFG : Nat := 0x900038
/-- FLT.TBL_STATE, Table 18.13. -/
abbrev FLT.TBL_STATE : Nat := 0x90003C
/-- FLT.SHADOW, Table 18.14. -/
abbrev FLT.SHADOW (k : Nat) : Nat := 0x900040 + 0x4 * k
abbrev FLT.SHADOW_VALID (k : Nat) : Fld := ⟨FLT.SHADOW k, 31, 1⟩
abbrev FLT.SHADOW_REACT (k : Nat) : Fld := ⟨FLT.SHADOW k, 26, 5⟩
abbrev FLT.SHADOW_TARGET (k : Nat) : Fld := ⟨FLT.SHADOW k, 16, 10⟩
abbrev FLT.SHADOW_ID (k : Nat) : Fld := ⟨FLT.SHADOW k, 0, 16⟩
/-- FLT.REACT_CFG, Table 18.14. -/
abbrev FLT.REACT_CFG (r : Nat) : Nat := 0x900100 + 0x4 * r
abbrev FLT.REACT_CFG_COUNT (r : Nat) : Fld := ⟨FLT.REACT_CFG r, 16, 16⟩
abbrev FLT.REACT_CFG_SHADOW_US (r : Nat) : Fld := ⟨FLT.REACT_CFG r, 0, 16⟩

/-- BBX.CTRL, Table 18.15. -/
abbrev BBX.CTRL : Nat := 0x910000
abbrev BBX.CTRL_CFG_LOCK : Fld := ⟨BBX.CTRL, 31, 1⟩
abbrev BBX.CTRL_NV_MIN : Fld := ⟨BBX.CTRL, 0, 2⟩
/-- BBX.STATUS, Table 18.15. -/
abbrev BBX.STATUS : Nat := 0x910004
abbrev BBX.STATUS_SCAN_DONE : Fld := ⟨BBX.STATUS, 31, 1⟩
abbrev BBX.STATUS_COMMIT_BUSY : Fld := ⟨BBX.STATUS, 30, 1⟩
abbrev BBX.STATUS_VOL_VALID : Fld := ⟨BBX.STATUS, 29, 1⟩
abbrev BBX.STATUS_NV_HEAD : Fld := ⟨BBX.STATUS, 0, 12⟩
/-- BBX.INT_STAT, Table 18.15. -/
abbrev BBX.INT_STAT : Nat := 0x910008
abbrev BBX.INT_STAT_SETAGAIN : Fld := ⟨BBX.INT_STAT, 31, 1⟩
abbrev BBX.INT_STAT_NV_ERR : Fld := ⟨BBX.INT_STAT, 2, 1⟩
abbrev BBX.INT_STAT_LOST : Fld := ⟨BBX.INT_STAT, 1, 1⟩
abbrev BBX.INT_STAT_COMMIT_DONE : Fld := ⟨BBX.INT_STAT, 0, 1⟩
/-- BBX.INT_EN, Table 18.15. -/
abbrev BBX.INT_EN : Nat := 0x91000C
/-- BBX.INC_CFG, Table 18.15. -/
abbrev BBX.INC_CFG : Nat := 0x910010
abbrev BBX.INC_CFG_INC_S : Fld := ⟨BBX.INC_CFG, 16, 16⟩
abbrev BBX.INC_CFG_INC_MAX : Fld := ⟨BBX.INC_CFG, 0, 16⟩
/-- BBX.NV_RATE, Table 18.15. -/
abbrev BBX.NV_RATE : Nat := 0x910014
abbrev BBX.NV_RATE_RATE : Fld := ⟨BBX.NV_RATE, 0, 16⟩
/-- BBX.BOOT_CNT, Table 18.15. -/
abbrev BBX.BOOT_CNT : Nat := 0x910018
abbrev BBX.BOOT_CNT_BOOT : Fld := ⟨BBX.BOOT_CNT, 0, 16⟩
/-- BBX.VOL_NEWEST, Table 18.15. -/
abbrev BBX.VOL_NEWEST : Nat := 0x91001C
abbrev BBX.VOL_NEWEST_RSEQ : Fld := ⟨BBX.VOL_NEWEST, 0, 32⟩
/-- BBX.VOL_OLDEST, Table 18.15. -/
abbrev BBX.VOL_OLDEST : Nat := 0x910020
abbrev BBX.VOL_OLDEST_RSEQ : Fld := ⟨BBX.VOL_OLDEST, 0, 32⟩
/-- BBX.COMMITTED, Table 18.15. -/
abbrev BBX.COMMITTED : Nat := 0x910024
abbrev BBX.COMMITTED_RSEQ : Fld := ⟨BBX.COMMITTED, 0, 32⟩
/-- BBX.LOST_VOL, Table 18.15. -/
abbrev BBX.LOST_VOL : Nat := 0x910028
abbrev BBX.LOST_VOL_COUNT : Fld := ⟨BBX.LOST_VOL, 0, 32⟩
/-- BBX.NV_WRITES, Table 18.15. -/
abbrev BBX.NV_WRITES : Nat := 0x91002C
abbrev BBX.NV_WRITES_COUNT : Fld := ⟨BBX.NV_WRITES, 0, 32⟩
/-- BBX.NV_ERR_CNT, Table 18.15. -/
abbrev BBX.NV_ERR_CNT : Nat := 0x910030
abbrev BBX.NV_ERR_CNT_COUNT : Fld := ⟨BBX.NV_ERR_CNT, 0, 32⟩
/-- BBX.UNCOMMITTED, Table 18.15. -/
abbrev BBX.UNCOMMITTED : Nat := 0x910034
abbrev BBX.UNCOMMITTED_COUNT : Fld := ⟨BBX.UNCOMMITTED, 0, 15⟩
/-- BBX.NV_OLDEST, Table 18.15. -/
abbrev BBX.NV_OLDEST : Nat := 0x910038
abbrev BBX.NV_OLDEST_SLOT : Fld := ⟨BBX.NV_OLDEST, 0, 12⟩
/-- BBX.NV_VALID, Table 18.15. -/
abbrev BBX.NV_VALID : Nat := 0x91003C
abbrev BBX.NV_VALID_COUNT : Fld := ⟨BBX.NV_VALID, 0, 13⟩

/-- CNS.CTRL, Table 18.16. -/
abbrev CNS.CTRL : Nat := 0x920000
abbrev CNS.CTRL_CFG_LOCK : Fld := ⟨CNS.CTRL, 31, 1⟩
abbrev CNS.CTRL_PIN_EN : Fld := ⟨CNS.CTRL, 1, 1⟩
abbrev CNS.CTRL_KEEP_REFRESH : Fld := ⟨CNS.CTRL, 0, 1⟩
/-- CNS.STATUS, Table 18.16. -/
abbrev CNS.STATUS : Nat := 0x920004
abbrev CNS.STATUS_FROZEN : Fld := ⟨CNS.STATUS, 31, 1⟩
abbrev CNS.STATUS_CAUSE : Fld := ⟨CNS.STATUS, 30, 1⟩
abbrev CNS.STATUS_REFRESH_KEPT : Fld := ⟨CNS.STATUS, 29, 1⟩
abbrev CNS.STATUS_DATA_LOST : Fld := ⟨CNS.STATUS, 28, 1⟩
abbrev CNS.STATUS_RESUME_DENIED : Fld := ⟨CNS.STATUS, 27, 1⟩
/-- CNS.INT_STAT, Table 18.16. -/
abbrev CNS.INT_STAT : Nat := 0x920008
abbrev CNS.INT_STAT_SETAGAIN : Fld := ⟨CNS.INT_STAT, 31, 1⟩
abbrev CNS.INT_STAT_RESUMED : Fld := ⟨CNS.INT_STAT, 1, 1⟩
abbrev CNS.INT_STAT_IGNORED : Fld := ⟨CNS.INT_STAT, 0, 1⟩
/-- CNS.INT_EN, Table 18.16. -/
abbrev CNS.INT_EN : Nat := 0x92000C
/-- CNS.FREEZE_MS, Table 18.16. -/
abbrev CNS.FREEZE_MS : Nat := 0x920010
abbrev CNS.FREEZE_MS_MS : Fld := ⟨CNS.FREEZE_MS, 0, 32⟩
/-- CNS.IMG_PTR, Table 18.16. -/
abbrev CNS.IMG_PTR : Nat := 0x920014
abbrev CNS.IMG_PTR_BIT : Fld := ⟨CNS.IMG_PTR, 0, 21⟩
/-- CNS.IMG_LEN, Table 18.16. -/
abbrev CNS.IMG_LEN : Nat := 0x920018
abbrev CNS.IMG_LEN_BITS : Fld := ⟨CNS.IMG_LEN, 0, 21⟩
/-- CNS.COUNTS, Table 18.16. -/
abbrev CNS.COUNTS : Nat := 0x92001C
abbrev CNS.COUNTS_FREEZES : Fld := ⟨CNS.COUNTS, 16, 16⟩
abbrev CNS.COUNTS_RESUMES : Fld := ⟨CNS.COUNTS, 8, 8⟩
abbrev CNS.COUNTS_IGNORED : Fld := ⟨CNS.COUNTS, 0, 8⟩
/-- CNS.IMG_WIN, Table 18.16. -/
abbrev CNS.IMG_WIN (j : Nat) : Nat := 0x920020 + 0x4 * j
abbrev CNS.IMG_WIN_WORD (j : Nat) : Fld := ⟨CNS.IMG_WIN j, 0, 32⟩

end Sys2Proof.Reg
end

