-- ==== Sys2Proof/Machine/State.lean ====
section
/-! DEFINITION. The state of the part, as plain data: the register file (every register of the register
tables, by address), the memory arrays, and what each block holds beyond its registers, with the queue of
waiting commands; the reasons a step can stop; and the state right after reset. -/

namespace Sys2Proof.Machine

/-! ### The part (spec/00_scope.md) -/

/-- The six parts of Table 0.1. -/
inductive Part where
  | sk2_032
  | sk2_032S
  | sk4_064
  | sk4_064S
  | sk8_128
  | sk8_128S
  deriving DecidableEq, Repr

/-- Core dies of the part (Table 0.1). -/
def Part.dies (p : Part) : Nat :=
  match p with
  | .sk2_032 | .sk2_032S => 2
  | .sk4_064 | .sk4_064S => 4
  | .sk8_128 | .sk8_128S => 8

/-- Does the part carry scan engines (R2)? -/
def Part.scan (p : Part) : Bool :=
  match p with
  | .sk2_032S | .sk4_064S | .sk8_128S => true
  | .sk2_032 | .sk4_064 | .sk8_128 => false

/-! ### Lane ports (spec/02_lane_ports.md) -/

/-- What a lane holds beyond its registers: the slip search of R61 (`searching`, `tries`), the marker held in
the deskew buffer with its LANE_ID (R62, R63), whether SYNC matched at the last marker position of the
present boundary (`matched`), the run of marker intervals above BIP_THR (R70), the mark of R74, a TX_FIR
write that waits for a marker boundary (R69), and the slicer steps that wait for one (R68, R359): for each
the threshold (0 high, 1 middle, 2 low) and whether it rises; whether the lane has been ACTIVE for all of the present tracking
window (R359); the taps of the feed-forward equaliser (R66); and the
word position at which the parallel aligner found the last marker (R73). -/
structure LaneSt where
  searching : Bool := false
  tries : Nat := 0
  seq : Option Nat := none
  laneId : Nat := 0
  matched : Bool := false
  bipRun : Nat := 0
  marked : Bool := false
  fir : Option Nat := none
  steps : List (Nat × Bool) := []
  tracked : Bool := false
  ffe : SMap Nat := []
  found : Option Nat := none
  deriving DecidableEq, Repr

/-- What a port holds beyond its registers: whether its transmitters still send training (Table 2.6 step
2), the marker sequence number (Table 2.3), the RX_REQ it sends, how many markers have carried it (R64,
R71), the STATE code it announces, a TX_MASK that waits for the next marker, the receive lanes being
dropped (R70), an ordered idle entry (light = false, deep = true; R72) and whether it was announced,
whether the parallel aligner searches (R73), and when the idle exit was ordered; the MKR_SEQ of the last marker
boundary received; the idle entry of the receive direction that the partner announced there (R72), and the boundary at
which it entered idle last (Table 2.9 L3); and whether traffic waits for a drop that an idle exit began (R74). -/
structure PortSt where
  lanes : SMap LaneSt := []
  training : Bool := false
  mkrSeq : Nat := 0
  rxReq : Nat := 0
  reqMarkers : Option Nat := none
  announce : Nat := 0
  txPend : Option Nat := none
  dropMask : Nat := 0
  idleWant : Option Bool := none
  idleAnnounced : Bool := false
  aligner : Bool := false
  exitFrom : Nat := 0
  rxSeq : Option Nat := none
  rxNext : Option Bool := none
  rxIdleSeq : Option Nat := none
  holdTx : Bool := false
  deriving DecidableEq, Repr

/-! ### Link layer (spec/03_link_layer.md) -/

/-- The credit class of an answer (Table 3.7, device to partner). -/
inductive AnsClass where
  | cph
  | cpd
  | mgr
  deriving DecidableEq, Repr

/-- The credit class of a received slot (Table 3.7, partner to device). -/
inductive ReqClass where
  | rqh
  | rqd
  | mgq
  deriving DecidableEq, Repr

/-- An answer that waits on a port: its credit class, its 128-bit header, its data slots' 64-byte
contents (none for CPL and CPL_E), and what R118 and R119 need to route it again. -/
structure Answer where
  cls : AnsClass
  header : Nat
  data : List (List Nat)
  reqId : Nat
  arrivalPort : Nat
  arrivalOnly : Bool
  deriving DecidableEq, Repr

/-- A sequenced flit kept in the replay buffer (R84): SEQ, the three slots as sent and the credit update
it carries, how many answers begin in it, and whether its first slot goes on with an answer that began before it. -/
structure TxFlit where
  seq : Nat
  slots : List (List Nat)
  crSel : Nat
  crCnt : Nat
  answers : Nat
  cont : Bool := false
  deriving DecidableEq, Repr

/-- A flit on the lanes (Tables 3.1 and 3.2): the fields of its header, its three slots, and the pattern of an injection
that complements check bytes (Table 10.4). -/
structure WireFlit where
  seq : Nat
  ack : Nat
  crSel : Nat
  crCnt : Nat
  slots : List (List Nat)
  flip : Nat := 0
  deriving DecidableEq, Repr

/-- A slot the parser still owes to an earlier header (R82): its credit class, whether it is the
descriptor of a SCAN, and whether its request has been discarded (R99). `idx` is the place of its request
among the requests being assembled. -/
structure Owed where
  cls : ReqClass
  isDesc : Bool
  idx : Nat
  deriving DecidableEq, Repr

/-- A received request: its receive number (R122) and its arrival, the instant at which the flit with its header
passed its checks (R101). -/
structure RxReq where
  num : Nat
  at_ : Nat
  req : Req
  deriving DecidableEq, Repr

/-- A unit of the receive buffer: the slots of one header slot or one data slot with its continuations,
by credit class, and the requests they carry (R97, R122). -/
structure RxUnit where
  rqh : Nat
  rqd : Nat
  mgq : Nat
  reqs : List RxReq
  deriving DecidableEq, Repr

/-- A request being assembled from its slots: as received, and whether it was discarded (R99). -/
structure AsmReq where
  got : RxReq
  dropped : Bool
  deriving DecidableEq, Repr

/-- What the link layer of a port holds beyond its registers. `fresh` is the mode of its own INIT and
`ackSeen` its ACK_SEEN (R93); `acked` is the last SEQ acknowledged and `tries` the replays in a row without
progress (R89); `suspend` the marker intervals for which the replay timer stays suspended (R90); `ackTx` the
ACK its headers carry; `rxCred*` the credits the partner holds, `owe*` those it is owed, `rotate` the class
that goes next (R98); `owed`, `asm`, `unit` the parser (R82, R99); `rx` the receive buffer, `tx` the answers
not yet sent, `part` the slots still to send of an answer that has begun, `replay` the replay buffer, `stalled` whether the
present stall on it has been counted (R84); `wire` the flits that went out at the present instant, in
order; `inits` the INIT flits sent since ACK_SEEN was set, `ackGot` whether the partner's came (R93); `ackSent` the ACK that
the last flit to leave carried (R91); `protoRun` whether a run of INITs is in
progress (R93);
`dropTxns` that a FRESH start discards the outstanding requests (R503); `corrFrom`, `corrIn` the window of
CORR_CFG. -/
structure LinkSt where
  fresh : Bool := true
  ackSeen : Bool := false
  acked : Nat := 4095
  tries : Nat := 0
  suspend : Nat := 0
  ackTx : Nat := 4095
  rxCredRqh : Nat := 0
  rxCredRqd : Nat := 0
  rxCredMgq : Nat := 0
  oweRqh : Nat := 0
  oweRqd : Nat := 0
  oweMgq : Nat := 0
  rotate : Nat := 0
  owed : List Owed := []
  asm : List AsmReq := []
  unit : RxUnit := ⟨0, 0, 0, []⟩
  rx : List RxUnit := []
  tx : List Answer := []
  part : List (List Nat) := []
  replay : List TxFlit := []
  stalled : Bool := false
  wire : List WireFlit := []
  inits : Nat := 0
  ackSent : Nat := 4095
  ackGot : Bool := false
  protoRun : Bool := false
  dropTxns : Bool := false
  corrFrom : Nat := 0
  corrIn : Nat := 0
  deriving DecidableEq, Repr

/-! ### Management controller (spec/04_command_interface.md) -/

/-- A halyard packet that waits in a queue of the interpreter (R134). -/
structure QPacket where
  opcode : Nat
  pkt : Halyard
  deriving DecidableEq, Repr

/-- An operation that was answered ACCEPTED_PENDING (R136, R142). `state` is 0 queued, 1 running,
2 finished; `order` numbers the operations that finished, by when. -/
structure PendOp where
  id : Nat
  opcode : Nat
  state : Nat
  final : Nat
  result : Nat
  notify : Bool
  order : Nat
  arg : Nat
  deriving DecidableEq, Repr

/-- The event configuration (R157): four sinks as (type, REQ_ID), and for each event code that differs
from "enabled, sink 0" its (enable, sink). -/
structure EvtCfg where
  sinks : SMap (Nat × Nat) := []
  codes : SMap (Bool × Nat) := []
  deriving DecidableEq, Repr

/-- An event (R113, R160): code, severity, running count, time in microseconds, the fault message that
raised it, its DETAIL bytes, and the REQ_ID of its in-band sink under the configuration that held when it was raised (R153). -/
structure Event where
  code : Nat
  severity : Nat
  eflags : Nat
  seq : Nat
  timeUs : Nat
  faultMsg : Nat
  detail : List Nat
  reqId : Nat
  deriving DecidableEq, Repr

/-- What is staged over the live tables (R150): the words of each class staged (CLS_CFG, CLS_BUDGET, CLS_LAT), of each
requester, the address map, guard windows, mask sets (C31 to C0, C59 to C32) and DEFAULT_ALLOW, and the sinks and codes of
the event configuration. An entry that no packet has staged is the live one. -/
structure Staged where
  cls : SMap (List Nat) := []
  reqmap : SMap Nat := []
  addrmap : Option Nat := none
  win : SMap Nat := []
  masks : SMap (Nat × Nat) := []
  allow : Option Nat := none
  sinks : SMap (Nat × Nat) := []
  codes : SMap (Bool × Nat) := []
  deriving DecidableEq, Repr

/-- A configuration commit that passed its first checks (R152, R153): its areas, its packet, and whether the flush under the
old address map still runs before its admission test (R174). It then waits for its instant T. `held`: it waits for a mast-domain
reset to end before either (R351). -/
structure CommitSt where
  mask : Nat
  pkt : Halyard
  flushing : Bool
  held : Bool := false
  deriving DecidableEq, Repr

/-- A QUIESCE whose requests still drain (R155), with its packet. -/
structure QuiesceSt where
  mask : Nat
  pkt : Halyard
  deriving DecidableEq, Repr

/-- The management controller beyond its registers: the two queues of R134 in arrival order, how many
in-band packets ran in a row, the pending operations in the order they were accepted, the next PEND_ID and
finishing number, the live requester map and event configuration, what is staged, the running commit and QUIESCE, the kept two-wire answer (R137), the in-band event queue
(R114) and the two-wire one (R159), the running event count, whether the next event of a queue carries
LOST, whether the internal traffic is paused (R155), when firmware enabled the boot ports (R438), and the comparators of the
ROM patches: the address and the word of each (R449). -/
structure MgcSt where
  inq : List QPacket := []
  twq : Option QPacket := none
  inRow : Nat := 0
  ops : List PendOp := []
  nextId : Nat := 1
  nextOrder : Nat := 0
  reqmap : SMap Nat := []
  evt : EvtCfg := {}
  staged : Staged := {}
  commit : Option CommitSt := none
  quiesce : List QuiesceSt := []
  paused : Bool := false
  lastTw : Option (QPacket × List Nat) := none
  evq : List Event := []
  evLost : Bool := false
  twEvq : List Event := []
  twLost : Bool := false
  evSeq : Nat := 0
  portsAt : Nat := 0
  patches : List (Nat × Nat) := []
  deriving DecidableEq, Repr

/-! ### Faults, black box, trace and crow's nest (spec/18_faults_black_box_freeze.md) -/

/-- A fault message (R477) in the ingress queue of FLT: its fields, when it arrived and its number in
the order of arrival, whether FLT_INJECT placed it and with NOREACT, and whether BBX logged it unclassified while MCLK was stopped (R480). -/
structure FaultMsg where
  source : Nat
  kind : Nat
  hint : Nat
  locator : Nat
  arrival : Nat := 0
  num : Nat := 0
  injected : Bool := false
  noReact : Bool := false
  logged : Bool := false
  deriving DecidableEq, Repr

/-- A classifier entry (Table 18.4): the config word, COUNT, FIRED and the end of its window. -/
structure ClassEntry where
  cfg : Nat
  count : Nat
  fired : Bool
  winEnd : Nat
  deriving DecidableEq, Repr

/-- A reaction ordered by FLT (R484) that is in progress, or whose shadow messages that have arrived may still meet:
its code, target and reaction ID, the number of the first message that arrived after the order, whether it has ended
and when, the SHADOW[k] that it opened, and the number of the first message that arrived after the shadow closed. -/
structure Reaction where
  code : Nat
  target : Nat
  id : Nat
  since : Nat
  ended : Bool := false
  endAt : Nat := 0
  slot : Option Nat := none
  closed : Option Nat := none
  deriving DecidableEq, Repr

/-- A temporary fence that FLT holds (R488): its index, when it was set and when a counted message of its
blast set last restarted the hold. -/
structure FenceHold where
  index : Nat
  since : Nat
  lastMsg : Nat
  deriving DecidableEq, Repr

/-- FLT beyond its registers: the ingress queue and how many messages have arrived; the classifier entries; the
reactions; those that wait for another to end (R485), as code and die, or as code 7 and the cause; the die-logic resets
whose step 7 has still to come, as die and length (R237); the temporary fences it holds. -/
structure FltSt where
  ingress : List FaultMsg := []
  posted : Nat := 0
  table : SMap ClassEntry := []
  reactions : List Reaction := []
  waiting : List (Nat × Nat) := []
  resuming : List (Nat × Nat) := []
  holds : List FenceHold := []
  deriving DecidableEq, Repr

/-- A black-box record (Table 18.8) in the volatile ring; `body` is bytes 24 to 59, `committed` whether
the store holds it. -/
structure BbxRec where
  rtype : Nat
  flags : Nat
  boot : Nat
  rseq : Nat
  aon : Nat
  timeUs : Nat
  shadowId : Nat
  source : Nat
  body : List Nat
  committed : Bool
  deriving DecidableEq, Repr

/-- BBX beyond its registers: the volatile ring, oldest first; the nonvolatile store, each slot its 64
bytes as written (an unlisted slot was never written); the slots that fail their verify; the window of
NV_RATE; whether the next record carries LOST; the next RSEQ; the running full commit, with its pending
operation where BBX_COMMIT started it and the records it has to write. -/
structure BbxSt where
  ring : List BbxRec := []
  ringLost : Bool := false
  nv : SMap (List Nat) := []
  nvBad : List Nat := []
  rateFrom : Nat := 0
  rateIn : Nat := 0
  lost : Bool := false
  nextRseq : Nat := 0
  commit : Option Nat := none
  deriving DecidableEq, Repr

/-- The debug trace (R496): its configuration, its buffer, and the words on their way out at DBG0. -/
structure TraceSt where
  src : Nat := 0
  sel : Nat := 0
  pins : Bool := false
  buf : List Nat := []
  dbg : List Nat := []
  deriving DecidableEq, Repr

/-- The crow's nest beyond its registers: a FREEZE that was answered and waits to take effect (R498), and
the AON time at freeze (R501), whether the entry of Table 18.11 has passed its step 4, whether refresh runs, the
engines that were in self-refresh before the freeze, and whether the next round skips the audit comparison (R503). -/
structure CnsSt where
  pending : Bool := false
  entered : Bool := false
  aonAt : Nat := 0
  refreshRuns : Bool := true
  sr : List Nat := []
  skipAudit : Bool := false
  deriving DecidableEq, Repr

/-! ### Fuses (spec/16_reset_boot_and_fuses.md) -/

/-- A fuse word that reads one value from both copies at every margin. -/
def fuseStrong (v : Nat) : FuseWord := ⟨v, v, v, v, v, v⟩

/-- The fuse words of an SK8-128S of stepping A0 as the model takes it to leave the factory: the ID, lock, length and
FEATURE words with their region CRCs; TRIM, PATCH, REPAIR and CUST empty. -/
def fuseImage : SMap FuseWord :=
  [(0x000, fuseStrong 0x5A6B0600), (0x010, fuseStrong 0xE07FFF), (0x011, fuseStrong 0x00010001),
   (0x018, fuseStrong 0x06880000), (0x3F0, fuseStrong 0xFF48B096), (0x3F1, fuseStrong 0x8C6836CD),
   (0x3F2, fuseStrong 0x1A8761E0)]

/-- What the TRIM region spells for the registers that it loads, as (address, value): the nominal timing of Table 7.6
of Table 11.8, the middle FIO trim and the typical FIO_TC of R384. -/
def trimImage : List (Nat × Nat) :=
  (List.range 8).flatMap (fun i =>
    [(Reg.DCH.TIM_ROW (i + 1), 0x7070E010), (Reg.DCH.TIM_WIN (i + 1), 0x14006000), (Reg.DCH.TIM_COL (i + 1), 0x80401428),
     (Reg.DCH.TIM_TURN (i + 1), 0x28604030), (Reg.DCH.TIM_REF (i + 1), 0x3C0F3C00), (Reg.DCH.TIM_PD (i + 1), 0x30410000)]) ++
  [(Reg.STK.KOZ_TIM, 0x78042900), (Reg.CAL.FIO_STAT, 0x80000000), (Reg.THM.MODEL_CFG, 0x640A)]

/-- A fuse operation: its word and value, its kind (1 program, 2 reblow, 3 lock, 4 hardening of a repair), its pending
operation, and the packet of an OTP_LOCK that still executes. -/
structure FuseJob where
  word : Nat
  value : Nat
  kind : Nat
  op : Option Nat
  ans : Option Halyard
  deriving DecidableEq, Repr

/-- The fuse array beyond the OTP registers: the words; the margin in use of each region and, at 8 + word, of each
REPAIR word judged alone (0 normal, 1 program-verify, 2 blank-verify, 3 failed); the values that the TRIM region spells
for registers (address, value); the running fuse operation; the entries of ROW_SPARE_HARD that wait to be programmed,
each with its pending operation; and vendor test mode. -/
structure OtpSt where
  words : SMap FuseWord := fuseImage
  used : SMap Nat := []
  trim : List (Nat × Nat) := trimImage
  job : Option FuseJob := none
  wait : List (Nat × Nat) := []
  vtm : Bool := false
  deriving DecidableEq, Repr

/-! ### Requests (spec/03_link_layer.md, spec/06_service_classes.md) -/

/-- What became of one line of a request: still on its way, done (with the data read), poisoned or fenced
(R110). -/
inductive LineRes where
  | open_
  | good (data : List Nat)
  | poison
  | fenced
  deriving DecidableEq, Repr

/-- A request in the table of outstanding requests (R97): its receive number, when it arrived and was
admitted, how far it is (0 received, 1 waiting in its class queue, 2 admitted, 3 a SCAN in its queue or
running, 4 a FENCE), its service class, its lines in address order, the user tag read, and the receive
numbers a FENCE waits for; and whether its wait for the device pool has been counted (R206). -/
structure Txn where
  num : Nat
  req : Req
  arrival : Nat
  stage : Nat := 0
  cls : Nat := 0
  admitAt : Nat := 0
  lines : List LineRes := []
  userTag : Nat := 0
  waits : List Nat := []
  poolHeld : Bool := false
  deriving DecidableEq, Repr

/-- The scheduler beyond its registers (spec/06_service_classes.md): the signed token count of each class
(R185); a committed BUDGET and RSV
that wait for the class's next window start (R188); the device pool (R206); when each port's retrain took it out of UP and at how many lanes
(R196); whether MODEL_HOLD has run out for it; when the present shortfall began (milliseconds); and whether C60
pacing is halved (R205, R207). -/
structure SchSt where
  tokens : SMap Int := []
  nextBudget : SMap (Option (Nat × Bool)) := []
  pool : Int := 0
  lastLanes : SMap Nat := []
  hold : SMap Bool := []
  shortFrom : Nat := 0
  half : Bool := false
  deriving DecidableEq, Repr

/-! ### Line cache (spec/08_line_cache_and_atomics.md) -/

/-- Whose read of C60 to C63 a probe is (R211, R269): patrol scrub, fast scrub, a retention sweep, the evacuation copy,
calibration, or engine `e` of the scan with a receive number. -/
inductive Reader where
  | patrol
  | fast
  | sweep
  | copy
  | cal
  | scan (num e : Nat)
  deriving DecidableEq, Repr

/-- What an operation on one line does at its home slice (R249): a read (allocating or not, with the user
tag or not), a full write (with POISON_WR, with the user tag where UTAG is set), a partial write of the
bytes of a mask, an atomic at a byte offset, a probe by internal traffic. -/
inductive OpKind where
  | rd (noalloc utag : Bool)
  | wr (poison : Bool) (tag : Option Nat)
  | wrp (mask : Nat)
  | atom (sub off : Nat)
  | probe (who : Reader)
  deriving DecidableEq, Repr

/-- An operation at a slice: the request (receive number) and which of its lines it is (of a scan's probe the 256-byte
block and the line's place in its unit), the line's device address divided by 64, its bytes, when it reached the slice,
whether a wait of it for a way (R253) and one under R259 have been counted, and whether it brought its line in (R265). -/
structure SOp where
  txn : Nat
  idx : Nat
  line : Nat
  cls : Nat
  kind : OpKind
  data : List Nat
  at_ : Nat := 0
  wayWait : Bool := false
  dirtyWait : Bool := false
  missed : Bool := false
  deriving DecidableEq, Repr

/-- The state of a way in use (R247): CLEAN, MODIFIED, FILL_PENDING, or an open merge entry (R261). -/
inductive WaySt where
  | clean
  | modified
  | fill
  | merge
  deriving DecidableEq, Repr

/-- A way in use (R247): its line, state, bytes, user tag, device-state byte and re-reference value;
TAG_PENDING; whether it holds scan staging; of a merge entry the byte-valid mask, when it opened and the
class that opened it, the receive number of the WRP that did (R222), whether its read-modify-write is in flight, whether
the timeout started it, whether its read waits for the lift of a fence (R264) or for room (R250) and whether its wait for a
way has been counted (R263); whether its write-back waits for buffer space; the bit errors that stand in each of its SECDED
words, 0 to 7 the 8-byte groups of its data and 8 its metadata (R247); when its last atomic started (R267). -/
structure Way where
  line : Nat
  st : WaySt
  data : List Nat
  utag : Nat := 0
  dev : Nat := 1
  rrv : Nat := 0
  tagPend : Bool := false
  staging : Bool := false
  mask : Nat := 0
  openAt : Nat := 0
  cls : Nat := 0
  opener : Nat := 0
  closing : Bool := false
  byTimeout : Bool := false
  retry : Bool := false
  wayWait : Bool := false
  wbWait : Bool := false
  errs : SMap Nat := []
  atomAt : Option Nat := none
  deriving DecidableEq, Repr

/-- A line in a write-back buffer (R257); `staged` where it is the staged data of a line that its way still holds as
staging (R289). -/
structure WbLine where
  line : Nat
  data : List Nat
  utag : Nat
  dev : Nat
  staged : Bool := false
  deriving DecidableEq, Repr

/-- What an engine entry is for: a fill, the read of a merge's read-modify-write, a tag fetch, a read of C60 to C63, a
write-back or a rewrite of a corrected word. -/
inductive EntKind where
  | fill
  | merge
  | tag
  | probe (who : Reader)
  | write
  | rewrite
  deriving DecidableEq, Repr

/-- One line of an engine entry: the line, its column, the request line it answers (of a merge read the WRP that opened
the entry, of a scan's read its block and place), and whether its column command has been sent. -/
structure ELine where
  line : Nat
  col : Nat
  op : Option (Nat × Nat)
  sent : Bool := false
  deriving DecidableEq, Repr

/-- An entry of an engine's queue (R211, R222): its lines in address order, all in one segment of one row of
one bank (bank group × 16 + bank); the code word of a write; its class (64 for an uncharged entry, R195), when
its age starts and, of a request with a deadline, its arrival and deadline in 16 ns units (R192); its urgency;
and its promotion, with when (R193, R194), and whether it has sent a command. -/
structure QEnt where
  kind : EntKind
  lines : List ELine
  bank : Nat
  row : Nat
  seg : Nat
  word : List Nat := []
  cls : Nat
  age : Nat
  arrival : Nat := 0
  deadline : Nat := 0
  u : Nat := 0
  promoted : Bool := false
  promotedAt : Nat := 0
  started : Bool := false
  deriving DecidableEq, Repr

/-- A slice (R246): ways by set × 16 + way, the pending table, operations at its input that it does not take
yet (R249), the miss buffer (R250), the write-back buffer (R257), the clean pointer (R259) and the place of
the SRAM walker (R255). -/
structure SliceSt where
  ways : SMap Way := []
  pend : List SOp := []
  input : List SOp := []
  miss : List QEnt := []
  wb : List WbLine := []
  cleanPtr : Nat := 0
  walk : Nat := 0
  deriving DecidableEq, Repr

/-- A running flush (Table 8.7): whether it invalidates, when it started, and who ordered it: 0 firmware, 1
the power controller, 2 an ADDRMAP commit. -/
structure FlushSt where
  inv : Bool
  since : Nat
  by_ : Nat
  deriving DecidableEq, Repr

/-! ### Channel controllers (spec/07_channel_controllers.md) -/

/-- A line read on its way through ECC: what it is for, the line, the request line it answers, its class, the
code word, whether it came from a write queue, a write-back buffer or (a probe) a way, so that ECC does not decode it
(R212, R269), and whether the read was answered fenced (R239). -/
structure Ret where
  kind : EntKind
  line : Nat
  op : Option (Nat × Nat)
  cls : Nat
  word : List Nat
  fwd : Bool
  fenced : Bool := false
  deriving DecidableEq, Repr

/-- The earliest times, in 0.125 ns units, of a column command, a PRE, an ACT and a REF to a bank, from the commands
sent to it (Table 7.2). -/
structure BankTim where
  colOk : Nat := 0
  preOk : Nat := 0
  actOk : Nat := 0
  refOk : Nat := 0
  deriving DecidableEq, Repr

/-- An engine (R210): its queues; the open segment of each bank as (row, segment); the limits of Table 7.2 that
its commands leave, in 0.125 ns units: per bank, the last ACTs (tFAW), the last column command as (time, bank
group), the last command's time, the DCLK cycles taken by commands still to go out (PREH), and the earliest next ACT to
any bank (tRRD), RD (tWTR), WR (tRTW) and command of any kind; for each refresh half the due time, in nanoseconds, of a
REF it closes for, the last due time it took, when its running REF ends, when its last REF began, whether its next due
REF is skipped (R232) and whether its slot falls due at the doubled rate (R229); whether both halves close for a full
slot; the slots requested by CAL (0) or STK (1) with their lengths in nanoseconds (R232), when the last long slot was granted
(R233), until when the mast is silent and, of an idle boundary, when it began and its user; the last promoted start
(R194); since when its queues have been empty (R234); the lines read; its audit count, and the ENG_REF and audit counts
of the last housekeeping round, with the REFs that the core die executed on its own since (R230); the time of its last
REF in self-refresh (R231); what AUDIT read and the instant by which it must have advanced after a temporary fence
(R241); whether a temporary fence's lift waits for a die-logic reset, and whether it is being lifted (R241). -/
structure EngSt where
  rdq : List QEnt := []
  wrq : List QEnt := []
  segs : SMap (Option (Nat × Nat)) := []
  tim : SMap BankTim := []
  acts : List Nat := []
  col : Option (Nat × Nat) := none
  lastCmd : Option Nat := none
  booked : List Nat := []
  rrdOk : Nat := 0
  rdOk : Nat := 0
  wrOk : Nat := 0
  ready : Nat := 0
  due0 : Option Nat := none
  due1 : Option Nat := none
  last0 : Option Nat := none
  last1 : Option Nat := none
  ref0 : Nat := 0
  ref1 : Nat := 0
  began0 : Option Nat := none
  began1 : Option Nat := none
  skip0 : Bool := false
  skip1 : Bool := false
  dbl0 : Bool := false
  dbl1 : Bool := false
  full : Bool := false
  slots : List (Nat × Nat) := []
  longAt : Option Nat := none
  silent : Nat := 0
  idleHold : Option (Nat × Nat) := none
  lastPromo : Option Nat := none
  idleFrom : Nat := 0
  ret : List Ret := []
  audit : Nat := 0
  lastRef : Nat := 0
  lastAudit : Nat := 0
  srRefs : Nat := 0
  srAt : Option Nat := none
  srCheck : Option (Nat × Nat) := none
  liftWaits : Bool := false
  lifting : Bool := false
  deriving DecidableEq, Repr

/-- A REF in progress (R227): engine number 17 (d - 1) + e, half, and when it ends in 0.125 ns units. -/
structure RefRun where
  eng : Nat
  half : Nat
  until_ : Nat
  deriving DecidableEq, Repr
/-! ### Scan engines (spec/09_scan_engines.md) -/

/-- An output line that an engine has finished: the engine, the line (device address divided by 64), its
bytes, whether a staging wait of it has been counted (R268), and whether one for a way has (R253). -/
structure OutLine where
  eng : Nat
  line : Nat
  data : List Nat
  waited : Bool := false
  wayWait : Bool := false
  deriving DecidableEq, Repr

/-- What a scan read of a line brings (R292). -/
inductive ScanRead where
  | data (b : List Nat)
  | poison
  | fenced
  deriving DecidableEq, Repr

/-- What an engine of a running scan does (R287, R288): the work unit it has taken, the next line of it to read, the
lines in flight and those that have arrived, by their place in it, the records of it that have been evaluated, the bitmap
so far; the tokens it holds; and whether it waits for tokens. -/
structure ScanEng where
  unit : Option Nat := none
  next : Nat := 0
  flying : List Nat := []
  got : SMap ScanRead := []
  recs : Nat := 0
  bm : Nat := 0
  tokens : Nat := 0
  dry : Bool := false
  deriving DecidableEq, Repr

/-- A running scan (R286, R287): its request, the engines it took and what each does, and the reservation whose pool it
runs in; the next work unit, and what it found so far: records, matches, the sum, the best aggregate value with its
record, input lines skipped as poisoned and as fenced; the output lines that wait to be staged, each engine's index
entries not yet a line, how many output lines it has formed and staged, lost to a fence, and whether the output range is
full. -/
structure ScanRun where
  num : Nat
  engs : List Nat
  work : SMap ScanEng := []
  res : Option Nat
  unit : Nat := 0
  records : Nat := 0
  found : Nat := 0
  sum : Int := 0
  best : Option (Int × Nat) := none
  poison : Nat := 0
  fenced : Nat := 0
  outq : List OutLine := []
  entries : SMap (List Nat) := []
  formed : Nat := 0
  staged : Nat := 0
  outFenced : Nat := 0
  full : Bool := false
  deriving DecidableEq, Repr

/-- SCN beyond its registers: the scan queue as receive numbers, the running scans among them, the admitted
scans that wait for a place in the queue (R278), and the tokens that each reservation has taken in the present C62 window
(R288). -/
structure ScnSt where
  queue : List Nat := []
  spill : List Nat := []
  runs : List ScanRun := []
  dealt : SMap Nat := []
  deriving DecidableEq, Repr

/-! ### Data integrity (spec/10_data_integrity.md) -/

/-- An armed injection (Table 10.4): words 0 and 1 and the MATCH address. -/
structure Inj where
  ctrl : Nat
  pat : Nat
  addr : Nat
  deriving DecidableEq, Repr

/-- A row spare in progress (R317): index, bank group, bank, row, the pending operation of a ROW_SPARE, and when it was
asked for, since it waits for the next REF of the row's half; once it holds its bank locked, how many of its commands have
been sent, the spare row that it fills, and the errors that strike the words of the row, by their place in it. -/
structure SpareJob where
  pc : Nat
  bg : Nat
  bank : Nat
  row : Nat
  op : Option Nat
  since : Nat := 0
  sent : Option Nat := none
  spare : Nat := 0
  errs : List (Nat × List (Nat × Nat)) := []
  deriving DecidableEq, Repr

/-- The running evacuation (R320 to R323): the index, the pending operation of its EVACUATE, whether the copy
has started, the next line to copy, whether STK has reported the source mast lost (R324), and the lines to read again
because a fence answered their reads (R239); what words of the spare read in the copy have shown: corrected words by row,
mat events by mat, its bucket and the overflows of it, and whether it has reached a trigger of Table 10.3 (R324). -/
structure Evac where
  pc : Nat
  op : Option Nat
  copying : Bool
  next : Nat
  lost : Bool
  again : List Nat := []
  rows : SMap Nat := []
  mats : SMap Nat := []
  level : Nat := 0
  ovf : Nat := 0
  failing : Bool := false
  deriving DecidableEq, Repr

/-- A retention sweep (R304): the index, the next line, and the lines to read again because a fence answered their
reads (R239). -/
structure Sweep where
  pc : Nat
  next : Nat
  again : List Nat := []
  deriving DecidableEq, Repr

/-- A fast scrub (R309): the indices still to scrub, the next line of the lowest, the pending operation (none
for a wake scrub), the lines found uncorrectable, and those to read again because a fence answered their reads (R239). -/
structure FastScrub where
  mask : Nat
  next : Nat
  op : Option Nat
  ue : Nat
  again : List Nat := []
  deriving DecidableEq, Repr

/-- The scrub of one second in Reef-2 (R310): the lines still owed, how many were sent, the errors that strike lines by
their place among those owed, the lines in flight with theirs, and the engines brought out of self-refresh. -/
structure Reef2Run where
  left : Nat
  place : Nat := 0
  errs : List (Nat × List (Nat × Nat)) := []
  flying : List (Nat × List (Nat × Nat)) := []
  woken : List Nat := []
  deriving DecidableEq, Repr

/-- ECC beyond its registers: the armed injections by checker and which was armed last (R316); mat events by
index × 32 + mat (R312); of each index the lines found uncorrectable in the last second, the times of its
bucket overflows in the last 24 hours and when it last raised POISON_CREATED; of each row-tracker entry its
count, and the entries from the least recently updated on (R313); the spare rows in use by array × 64 + bank;
the rows that soft spares replace, as array × 524,288 + bank × 8,192 + row (R319); the row spares in progress; the evacuation, and the indices queued for one (R320); the indices whose sweep is
due, the sweep and the fast scrub; the scrub that runs in Reef-2; the seal line that the patrol reads next (index × 32 + line), once it has read the
last address; when the pass began; and the REPAIR entries that wait to be programmed (R314), each as its word and
the index or row it is for. -/
structure EccSt where
  inj : SMap (Option Inj) := []
  lastInj : Nat := 0
  matCnt : SMap Nat := []
  ueLines : SMap (List (Nat × Nat)) := []
  ovf : SMap (List Nat) := []
  poisonAt : SMap (Option Nat) := []
  trkCnt : SMap Nat := []
  trkOrder : List Nat := List.range 16
  spareUsed : SMap Nat := []
  soft : List Nat := []
  spares : List SpareJob := []
  evac : Option Evac := none
  evacQ : List Nat := []
  sweepQ : List Nat := []
  sweep : Option Sweep := none
  fast : Option FastScrub := none
  reef2 : Option Reef2Run := none
  sealAt : Option Nat := none
  passFrom : Nat := 0
  hardQ : List Nat := []
  deriving DecidableEq, Repr

/-! ### Stack test (spec/11_stack_test_and_repair.md) -/

/-- A field test of a mast in progress (R345, R346): its mast, the pending operation of a FIELD_TEST, its slot
(0 the first, 1 the retest, 2 the remap), when the slot before was, the vias that erred in the first slot, and those that
erred in both; whether its slot has been asked for, and the bit errors per via that the slot will show. -/
structure FieldTest where
  mast : Nat
  op : Option Nat
  slot : Nat := 0
  at_ : Nat := 0
  erred : List Nat := []
  failed : List Nat := []
  asked : Bool := false
  errs : List (Nat × Nat) := []
  found : SMap Nat := []
  deriving DecidableEq, Repr

/-- A mast-domain reset of D4 in progress (Table 11.5): its cause, when it began, the step it is at, and the training
attempts. -/
structure RelaySt where
  cause : Nat
  since : Nat
  step : Nat
  attempts : Nat
  deriving DecidableEq, Repr

/-- What the last DRAM test of a mast left (R343): its set, its failing words, and its first 16 failure records as (FAIL_LOC,
FAIL_BIT). -/
structure BistRes where
  set : Nat
  words : Nat
  recs : List (Nat × Nat)
  deriving DecidableEq, Repr

/-- STK beyond its registers: what the last DRAM test of each mast left (R343); the columns of line-cache data that spare
columns replace, as sub-array and column (R331); the
BIST_RUN in progress as (mast, set, pending operation); the field tests in progress; the masts whose test fell due
while it could not run, each with what its vias show (R347); the via positions that failed field tests, as (position, mast, when) (R350); the
mast-domain reset. -/
structure StkSt where
  last : SMap BistRes := []
  sramCols : List (Nat × Nat) := []
  bist : Option (Nat × Nat × Nat) := none
  tests : List FieldTest := []
  due : List (Nat × List (Nat × Nat)) := []
  vias : List (Nat × Nat × Nat) := []
  relay : Option RelaySt := none
  deriving DecidableEq, Repr

/-! ### Test access (spec/11_stack_test_and_repair.md, spec/18_faults_black_box_freeze.md) -/

/-- What a TAP shifts out on TDO: bits of a register, its lowest first, or the records of the nonvolatile store by
slot (R494). -/
inductive TdoOut where
  | word (width bits : Nat)
  | store (slots : List (List Nat))
  deriving DecidableEq, Repr

/-- The base die's TAP (R352 to R355): its instruction register, what that shifted out as it was last loaded, what its data
register shifts out, the boundary
register; of each die's DTAP the instruction and its data register (width, bits); and the wrapper registers DWR. -/
structure TapSt where
  ir : Nat := 1
  irOut : Option Nat := none
  tdo : TdoOut := .word 32 0
  bsr : Nat := 0
  dtap : SMap (Nat × Nat × Nat) := []
  dwr : SMap Nat := []
  deriving DecidableEq, Repr

/-! ### Calibration (spec/12_calibration.md) -/

/-- A calibration target that waits or runs (R365): its kind (0 a die, 1 a port, 2 FIO, 3 one mast), the die index
d − 1, the port or the mast, the cause code of Table 12.2 and the pending operation of a CAL_RUN. -/
structure CalJob where
  kind : Nat
  idx : Nat
  cause : Nat
  op : Option Nat
  deriving DecidableEq, Repr

/-- A mast at work in a die run (R360): its engine, whether its long slot has been measured, and the steps it still
owes by setting. -/
structure CalMast where
  eng : Nat
  measured : Bool
  owed : SMap Int
  deriving DecidableEq, Repr

/-- The active run (R360): its target, its phase (0 masts, 1 DRAM, 2 done; FIO 0 until it is within 0.1%, a port 0 until its window), the next engine number of the phase, the masts at
work, the lines of the pseudo-channel being measured whose reads were sent and those that came back, its largest step count and narrowest eye so far, and its
outcome (Table 12.5). -/
structure CalRun where
  job : CalJob
  phase : Nat := 0
  next : Nat := 0
  masts : List CalMast := []
  sent : Nat := 0
  lines : Nat := 0
  maxStep : Nat := 0
  eyeMin : Option Nat := none
  outcome : Nat := 0
  deriving DecidableEq, Repr

/-- CAL beyond its registers: the queue, the ports whose full tracking window a CAL_RUN began, each with its pending operation
(R368), the active run, the targets whose trigger is held for the minimum interval
(R363), when each die's last run began (milliseconds), the read pointer of each array (R361), the delays of each mast
(mast × 256 + setting), the FIO trim before compensation, the FIO step that waits for MCLK idle, the temperature compensation offset of FIO and its
step that waits (R384), the base-die temperature and time of the last FIO run (0 °C before the first; DESIGN CHOICE,
assumption 82), and what the targets of a pending
operation have shown so far. -/
structure CalSt where
  queue : List CalJob := []
  windows : SMap Nat := []
  run : Option CalRun := none
  held : List CalJob := []
  starts : SMap Nat := []
  ptr : SMap Nat := []
  dly : SMap Nat := []
  trim : Nat := 0
  trimStep : Option Bool := none
  comp : Int := 0
  compStep : Option Bool := none
  fioTemp : Int := 0
  fioAt : Nat := 0
  res : SMap (Nat × Nat × Nat) := []
  deriving DecidableEq, Repr


/-! ### Power (spec/14_power_states.md) -/

/-- A power-state transition in progress (R391, R392, R394, R397): its target, the state it began in, the
pending operation of its PWR_SET (none for Reef) and the step it is at. -/
structure PwrEntry where
  target : Nat
  origin : Nat
  op : Option Nat
  step : Nat
  deriving DecidableEq, Repr

/-- What the shadow SRAM holds in Furl (Table 14.7): the registers kept, the requester map and the event
configuration, the captured audit counts by index and the AON time of the capture in nanoseconds. -/
structure Shadow where
  regs : SMap Word
  reqmap : SMap Nat
  evt : EvtCfg
  audit : SMap Nat
  aon : Nat
  deriving DecidableEq, Repr

/-- An exit from Furl after its retention check, until its ports are UP (Table 14.9 steps 8 and 9): the wake source, the masks of
the indices whose seal and whose audit failed, the residency in seconds, the microseconds up to the check and when that
was. -/
structure Waking where
  code : Nat
  seals : Nat
  audits : Nat
  sec : Nat
  us : Nat
  since : Nat
  deriving DecidableEq, Repr

/-- PWR beyond its registers: the transition; what step 1 of a Furl entry latched: the retention mask, WAKE_CFG and
WAKE_SCRUB; the pending slot of R404 as (target, pending operation); the pending operations of PWR_SETs to Sail that wait
for unwinding; the wake event seen (code, port) that has not acted yet; when the present state was entered (nanoseconds of
AON time); the shadow; whether XB was invalid at some time in Furl (R403); the indices that the wake fill still fills
(R401); whether a wake scrub waits (R403); the indices whose evacuation an entry has ended (R395); whether admission is stopped, so
that request slots stay in the receive buffers (R394, R401); the flush that an entry took over for its own (R396); and the exit
from Furl that waits for its ports (R400). -/
structure PwrSt where
  entry : Option PwrEntry := none
  ret : Nat := 0
  cfg : Nat := 0
  scrub : Bool := false
  slot : Option (Nat × Nat) := none
  sail : List Nat := []
  wake : Option (Nat × Nat) := none
  since : Nat := 0
  shadow : Option Shadow := none
  xbLost : Bool := false
  fill : Nat := 0
  scrubWait : Bool := false
  hold : Bool := false
  evacs : List Nat := []
  took : Option FlushSt := none
  waking : Option Waking := none
  deriving DecidableEq, Repr

/-! ### Thermal sensing (spec/13_thermal.md) -/

/-- What THM knows of one sensor (R372): its last good value in 0.25 °C, bad samples in a row, good samples in a row
since it failed, whether it failed, and whether it reads too far below the model (base die). -/
structure Sensor where
  value : Int := 0
  bad : Nat := 0
  good : Nat := 0
  failed : Bool := false
  low : Bool := false
  deriving DecidableEq, Repr

/-- What THM knows of one die (R371 to R379), 0 the base die: its sensors, its reading, the model's temperature and
the neighbour value, the samples in a row with the low condition, since when its reading is close to
the model again, since when it stays below the level that ends fast sampling and the one that ends a warning, whether
it is warned, and whether a reset of its logic holds its sensors (R376). -/
structure DieTherm where
  sensors : SMap Sensor := []
  reading : Option Int := none
  model : Int := 0
  neighbour : Int := 0
  lowCnt : Nat := 0
  nearFrom : Option Nat := none
  slowFrom : Option Nat := none
  warned : Bool := false
  coolFrom : Option Nat := none
  held : Bool := false
  deriving DecidableEq, Repr

/-- THM beyond its registers: the dies; of each core die, since when its temperature has stayed at or below 83.0 °C
(R229); rounds in Sail since READY and since the model was armed; the rails (millivolts, milliamperes) and the power
of each node (milliwatts) at the last round, the board's node of the model, the base-die temperature at which the
second-order correction of the ADC and signal-detect references was last applied (R384), and the used temperatures that it latched for READ_TELEMETRY (R383); whether
THERMTRIP_N is driven low; when the hold before a restart began; the dies whose refresh is forced to double in
self-refresh (R377), bit d for die d; the audit counts and the AON time noted at a trip, and the indices that lost lines
in it (R382). -/
structure ThmSt where
  dies : SMap DieTherm := []
  cool : SMap (Option Nat) := []
  rounds : Nat := 0
  armedFor : Nat := 0
  rails : List (Nat × Nat) := []
  power : SMap Nat := []
  board : Int := 0
  corrAt : Option Int := none
  temps : List Int := []
  pin : Bool := false
  forced : Nat := 0
  holdFrom : Option Nat := none
  audit : SMap Nat := []
  tripAon : Nat := 0
  lostPcs : List Nat := []
  deriving DecidableEq, Repr

/-! ### Clocks (spec/15_clocks.md) -/

/-- A monitor beyond its registers (R413, R422, R425): failing windows in a row, passing windows in a row since the source
failed, whether a window has passed since it was armed, whether the source has completed its stability count, and whether the
monitor has declared it failed and it is not valid again. -/
structure MonSt where
  bad : Nat := 0
  good : Nat := 0
  passed : Bool := false
  stable : Bool := false
  failed : Bool := false
  deriving DecidableEq, Repr

/-- CLK beyond its registers: the monitors, and the domains that run on their fallback, bit n − 1 for domain n (Table
15.3); of each LPLL in holdover the source code of the REFCLK it lost, and the LPLL that was re-referenced last while its
ports are not both settled (R48). -/
structure ClkSt where
  mons : SMap MonSt := []
  moved : Nat := 0
  lostRef : SMap Nat := []
  reref : Option Nat := none
  deriving DecidableEq, Repr

/-! ### Two-wire ports (spec/17_two_wire_ports.md) -/

/-- A transaction of the target port that the sleeping port stretches after its address byte (R467): the address byte, the bytes of
a write as far as it goes and whether it ends with a repeated START where an acknowledge is due, the bytes that a read takes,
and the always-on time at which the stretch began. -/
structure TwFrame where
  addr : Nat
  bytes : List Nat
  badStart : Bool
  count : Nat
  since : Nat
  deriving DecidableEq, Repr

/-- TWB beyond its registers: whether the kept response has not yet been read through its last byte; whether EVT or RESP
became 1 and byte 0 of a read frame has not been read since (R466); the bytes that the last read transaction returned;
of each PM_DEV entry the words that the last poll read; and the transaction that a sleeping port stretches. -/
structure TwbSt where
  unread : Bool := false
  evtNew : Bool := false
  respNew : Bool := false
  sent : List Nat := []
  polled : SMap (List Nat) := []
  held : Option TwFrame := none
  deriving DecidableEq, Repr


/-- The state of the part. `now` is nanoseconds since PORST_N (R437), stopped in freeze; `aon` nanoseconds
since power-on of VDD_AON (R410); `free` numbers the free values taken so far (the model's own: a value the
spec leaves open is `Config.freeValue` of it); `regs` the registers by address, those that hold their reset
value unlisted; `mem` the stored bytes, for the arrays in `fillOne`, last filled under EPOCH 1, as their
difference from a line filled so; `inReset` whether a rail out of range holds the part in reset (R514). -/
structure State where
  part : Part := .sk8_128S
  now : Nat := 0
  aon : Nat := 0
  free : Nat := 0
  regs : SMap Word := []
  mem : List Host.Cell := []
  fillOne : List Nat := []
  ports : SMap PortSt := []
  links : SMap LinkSt := []
  nextRx : Nat := 0
  txns : List Txn := []
  sch : SchSt := {}
  slices : SMap SliceSt := []
  engs : SMap EngSt := []
  refs : List RefRun := []
  remap : SMap Nat := []
  flush : Option FlushSt := none
  ecc : EccSt := {}
  stk : StkSt := {}
  scn : ScnSt := {}
  tap : TapSt := {}
  cal : CalSt := {}
  thm : ThmSt := {}
  clk : ClkSt := {}
  twb : TwbSt := {}
  mgc : MgcSt := {}
  flt : FltSt := {}
  bbx : BbxSt := {}
  trc : TraceSt := {}
  cns : CnsSt := {}
  otp : OtpSt := {}
  pw : PwrSt := {}
  inReset : Bool := false
  pending : List Instr := []
  deriving DecidableEq, Repr

/-- Why the part stops: no rule of the spec stops it for good, and no command faults. -/
inductive Fault where
  /-- Raised by no command of the model: safe. -/
  | none
  deriving DecidableEq, Repr

/-- Why a command has no effect given. -/
inductive Refusal where
  /-- The command's meaning is not in the model yet: safe. -/
  | notModelled (mnemonic : String)
  deriving DecidableEq, Repr

/-- The state right after PORST_N is released, before boot runs. -/
def State.reset : State := {}

end Sys2Proof.Machine
end

