-- ==== Sys2Proof/Machine/Ops.lean ====
section
/-! DEFINITION. The operations every family shares: reading and writing registers and their fields (R14,
R15, R17), setting an interrupt flag with its fault message (R16, R479), placing a fault message in the
ingress queue of FLT (R480), time, memory bytes, and the tests of the device's condition. -/

namespace Sys2Proof.Machine

open Sys2Proof.Reg

/-! ### The register file -/

/-- The row of the register map that holds an offset, if the offset is aligned and assigned (R14). -/
def rowAt (rows : List RegRow) (off : Nat) : Option RegRow :=
  rows.find? (fun r => decide (r.off ≤ off) && decide ((off - r.off) % r.stride = 0) &&
    decide ((off - r.off) / r.stride < r.count))

/-- The row of a register address (R14). -/
def regRow (addr : Nat) : Option RegRow :=
  match blockRows (bits addr 16 8) with
  | some rows => rowAt rows (addr % 0x10000)
  | none => none

/-- The values that the registers of C60 to C63 have after PORST_N (Table 6.2), register 0 CLS_CFG, 1 CLS_BUDGET,
2 CLS_LAT, 3 CLS_STAT with the budget as its effective budget. -/
def classReset (n k : Nat) : Nat :=
  let c : Nat × Nat × Nat := if n = 60 then (0x11FA0000, 25, 640) else if n = 61 then (0x30004000, 32, 160)
    else if n = 62 then (0x10004000, 20313, 320) else (0x51004000, 4, 80)
  if k = 0 then c.1 else if k = 2 then c.2.2 else c.2.1

/-- The reference of a PLL (Table 15.2) in PLL_STAT, and the nominal count of a monitor (Table 15.5) in MON_CNT. -/
def clkReset (addr : Nat) : Nat :=
  let k := (addr - 0x780040) / 4
  if 16 ≤ k then (if k < 18 then 2 else if k < 20 then 4 else 5) * 2 ^ 25
  else nth [256, 12800, 1024, 6400, 6400] (k / 2) * 2 ^ 16

/-- The value a register has after PORST_N: the Reset column of its table. -/
def resetOf (addr : Nat) : Word :=
  if 0x2804C0 ≤ addr ∧ addr < 0x280500 then BitVec.ofNat 32 (classReset ((addr - 0x280100) / 16) (addr % 16 / 4))
  else if (0x780044 ≤ addr ∧ addr < 0x780068 ∧ addr % 8 = 4) ∨ (0x780080 ≤ addr ∧ addr < 0x780098) then
    BitVec.ofNat 32 (clkReset addr)
  else match regRow (addr % 0x1000000) with
    | some r => BitVec.ofNat 32 r.reset
    | none => 0

/-- The word at a register's home. -/
def State.reg (s : State) (addr : Nat) : Word := SMap.get (resetOf addr) s.regs addr

/-- Write the word at a register's home. -/
def State.setReg (s : State) (addr : Nat) (v : Word) : State :=
  { s with regs := SMap.set (resetOf addr) s.regs addr v }

/-- The value of a field of a word. -/
def Fld.of (f : Fld) (w : Nat) : Nat := bits w f.lo f.width

/-- A word with a field replaced; a value too wide for the field keeps its low bits. -/
def Fld.put (f : Fld) (w v : Nat) : Nat :=
  w - (bits w f.lo f.width) * 2 ^ f.lo + (v % 2 ^ f.width) * 2 ^ f.lo

/-- Read a field. -/
def State.fget (s : State) (f : Fld) : Nat := Fld.of f (s.reg f.addr).toNat

/-- Write a field. -/
def State.fset (s : State) (f : Fld) (v : Nat) : State :=
  s.setReg f.addr (BitVec.ofNat 32 (Fld.put f (s.reg f.addr).toNat v))

/-- Is a one-bit field set? -/
def State.flag (s : State) (f : Fld) : Bool := s.fget f = 1

/-- Write a one-bit field. -/
def State.setFlag (s : State) (f : Fld) (b : Bool) : State := s.fset f (b2n b)

/-- Count up a wrapping counter. -/
def State.bump (s : State) (f : Fld) (n : Nat) : State := s.fset f (s.fget f + n)

/-- Count up a saturating counter. -/
def State.bumpSat (s : State) (f : Fld) (n : Nat) : State := s.fset f (satAdd f.width (s.fget f) n)

/-- Raise a field to a value if it is below it. -/
def State.raise (s : State) (f : Fld) (v : Nat) : State := s.fset f (max (s.fget f) (min v (2 ^ f.width - 1)))

/-- The canonical form of the register file: keys strictly rising, no entry equal to the register's reset value. -/
def Regs.wf (m : SMap Word) : Bool := SMap.wf resetOf m

/-- Every register of one address back at its reset value, with the banks that share it. -/
def State.dropRegs (s : State) (keep : Nat → Bool) : State :=
  { s with regs := s.regs.filter (fun e => keep e.1) }

/-! ### Time -/

/-- Microseconds since PORST_N (SCH.TIMEBASE). -/
def State.us (s : State) : Nat := s.now / 1000

/-- Milliseconds since PORST_N. -/
def State.ms (s : State) : Nat := s.now / 1000000

/-- Always-on time in XB cycles of 32,768 Hz since power-on of VDD_AON (R410). -/
def State.aonCycles (s : State) : Nat := s.aon * 32768 / 1000000000

/-- The next free value: a value the spec leaves open, that nothing in the model constrains. -/
def State.fresh (s : State) : Nat × State := (Config.freeValue s.free, { s with free := s.free + 1 })

/-! ### The device's condition -/

/-- DEV.STATE.DEV_STATE (Table 4.7). -/
def State.devState (s : State) : Nat := s.fget DEV.STATE_DEV_STATE

/-- READY has been reported (R438). -/
def State.ready (s : State) : Bool := s.devState = 1

/-- The power state whose domains are on (Tables 14.1, 14.2): PWR.STATE.CUR, 0 Sail, 1 Reef-1, 2 Reef-2, 3 Furl, 4 Off; but Sail
while an exit from Furl waits for its ports, with CUR still 3 (R400). -/
def State.pwr (s : State) : Nat := if s.pw.waking.isSome then 0 else s.fget PWR.STATE_CUR

/-- The device is in Sail: CUR = 0 (Table 14.9 step 9). -/
def State.inSail (s : State) : Bool := decide (s.pwr = 0) && s.pw.waking.isNone

/-- The last abort point of an entry (R391, R392, R394, R397). -/
def lastAbort (target : Nat) : Nat := if target = 1 then 1 else if target = 2 then 3 else 5

/-- A Furl or Off entry has passed its step 1: internal traffic is paused (R394). -/
def State.entryPaused (s : State) : Bool :=
  match s.pw.entry with
  | some e => decide (3 ≤ e.target) && decide (2 ≤ e.step)
  | none => false

/-- In freeze (R499). -/
def State.frozen (s : State) : Bool := s.flag CNS.STATUS_FROZEN

/-- One nanosecond passes: the always-on timer counts while XB or SIO runs, and the part's own time counts
except in freeze (R410, R499). -/
def State.idle (s : State) : State :=
  if s.frozen then { s with aon := s.aon + 1 } else { s with aon := s.aon + 1, now := s.now + 1 }

/-- The device is tripped (R380). -/
def State.tripped (s : State) : Bool := s.flag THM.STATUS_TRIPPED

/-- The base-die clocks run under firmware: not frozen, not tripped, not in Furl or Off, not in safe state, reset hold or
limp state, and boot has released the management controller. -/
def State.live (s : State) : Bool :=
  !s.frozen && !s.tripped && decide (s.pwr ≤ 2) && decide (s.devState ≤ 1) && decide (8 ≤ s.fget DEV.BOOT_STEP)

/-- MCLK runs: the management controller has been released and its clock is not stopped (R480): not in Reef-2, Furl or
Off; after a trip it runs on FIO (R380). -/
def State.mclk (s : State) : Bool :=
  !s.frozen && decide (s.pwr ≤ 1) && decide (s.devState ≤ 2) && decide (8 ≤ s.fget DEV.BOOT_STEP)

/-- Core dies of the part (Table 0.1). -/
def State.dies (s : State) : Nat := s.part.dies

/-- Assembled pseudo-channel indices. -/
def State.pcs (s : State) : Nat := 16 * s.dies

/-! ### Fault messages and interrupt flags -/

/-- A message whose source belongs to an absent die, mast or index is never sent (R478). -/
def State.sourceExists (s : State) (src : Nat) : Bool :=
  if 0x080 ≤ src ∧ src < 0x108 then decide ((src - 0x080) / 17 < s.dies)
  else if 0x108 ≤ src ∧ src < 0x110 then decide (src - 0x108 < s.dies)
  else if 0x140 ≤ src ∧ src < 0x1C0 then decide (src - 0x140 < s.pcs)
  else if 0x1C0 ≤ src ∧ src < 0x1C8 then decide (src - 0x1C0 < s.dies)
  else if 0x200 ≤ src ∧ src < 0x288 then decide ((src - 0x200) / 17 < s.dies)
  else if 0x2A1 ≤ src ∧ src ≤ 0x2A8 then decide (src - 0x2A0 ≤ s.dies)
  else if 0x2B1 ≤ src ∧ src ≤ 0x2B8 then decide (src - 0x2B0 ≤ s.dies)
  else src ≤ 0x003 || (decide (0x010 ≤ src) && decide (src < 0x050) && decide ((src - 0x010) % 8 ≤ 4)) ||
    (decide (0x050 ≤ src) && decide (src ≤ 0x058)) || src = 0x060 || src = 0x061 || src = 0x068 || src = 0x070 ||
    src = 0x071 || (decide (0x110 ≤ src) && decide (src < 0x140)) || src = 0x1C8 || src = 0x288 || src = 0x289 ||
    src = 0x2A0 || src = 0x2B0 || src = 0x2C0 || (decide (0x2C8 ≤ src) && decide (src ≤ 0x2CC)) ||
    (decide (0x2D0 ≤ src) && decide (src ≤ 0x2D6)) || src = 0x2E0 || (decide (0x2E8 ≤ src) && decide (src ≤ 0x2EA)) ||
    (decide (0x2F0 ≤ src) && decide (src ≤ 0x2F2))

/-- Place a message in the ingress queue of FLT; a full queue drops it. One that arrives while MCLK is stopped orders no reaction
(R480). The drop sets MSG_DROP and sends no message of its own: the queue it would enter is full (DESIGN CHOICE, assumption 92). -/
def State.post (s : State) (m : FaultMsg) : State :=
  if !s.sourceExists m.source then s
  else if s.flt.ingress.length < 256 then
    let m : FaultMsg := { m with arrival := s.now, num := s.flt.posted, noReact := m.noReact || !s.mclk }
    { s with flt := { s.flt with ingress := s.flt.ingress ++ [m], posted := s.flt.posted + 1 } }
  else
    let s := (s.bumpSat FLT.DROP_CNT_COUNT 1).setFlag FLT.INT_STAT_MSG_DROP true
    { s with bbx := { s.bbx with lost := true } }

/-- Send a message of a fixed kind (Table 18.3). -/
def State.fault (s : State) (source kind hint locator : Nat) : State :=
  s.post { source := source, kind := kind, hint := hint, locator := locator }

/-- A block's interrupt registers and the source of the messages its flags send (R479). -/
structure IntBlk where
  stat : Nat
  en : Nat
  source : Nat
  deriving DecidableEq, Repr

abbrev I.mgc : IntBlk := ⟨MGC.INT_STAT, MGC.INT_EN, 0x003⟩
abbrev I.prt (p : Nat) : IntBlk := ⟨PRT.INT_STAT p, PRT.INT_EN p, 0x010 + 8 * p⟩
abbrev I.lnk : IntBlk := ⟨LNK.INT_STAT, LNK.INT_EN, 0x058⟩
abbrev I.amp : IntBlk := ⟨AMP.INT_STAT, AMP.INT_EN, 0x060⟩
abbrev I.rgd : IntBlk := ⟨RGD.INT_STAT, RGD.INT_EN, 0x061⟩
abbrev I.sch : IntBlk := ⟨SCH.INT_STAT, SCH.INT_EN, 0x068⟩
abbrev I.dch (d : Nat) : IntBlk := ⟨DCH.INT_STAT d, DCH.INT_EN d, 0x107 + d⟩
abbrev I.lch : IntBlk := ⟨LCH.INT_STAT, LCH.INT_EN, 0x070⟩
abbrev I.scn : IntBlk := ⟨SCN.INT_STAT, SCN.INT_EN, 0x071⟩
abbrev I.ecc : IntBlk := ⟨ECC.INT_STAT, ECC.INT_EN, 0x1C8⟩
abbrev I.stk : IntBlk := ⟨STK.INT_STAT, STK.INT_EN, 0x289⟩
abbrev I.cal : IntBlk := ⟨CAL.INT_STAT, CAL.INT_EN, 0x2A0⟩
abbrev I.thm : IntBlk := ⟨THM.INT_STAT, THM.INT_EN, 0x2B0⟩
abbrev I.pwr : IntBlk := ⟨PWR.INT_STAT, PWR.INT_EN, 0x2C0⟩
abbrev I.clk : IntBlk := ⟨CLK.INT_STAT, CLK.INT_EN, 0x2D6⟩
abbrev I.otp : IntBlk := ⟨OTP.INT_STAT, OTP.INT_EN, 0x2E0⟩
abbrev I.twb : IntBlk := ⟨TWB.INT_STAT, TWB.INT_EN, 0x2EA⟩
abbrev I.flt : IntBlk := ⟨FLT.INT_STAT, FLT.INT_EN, 0x2F0⟩
abbrev I.bbx : IntBlk := ⟨BBX.INT_STAT, BBX.INT_EN, 0x2F1⟩
abbrev I.cns : IntBlk := ⟨CNS.INT_STAT, CNS.INT_EN, 0x2F2⟩

/-- Set a flag of INT_STAT. Every setting sends a message of the flag's kind where INT_EN has the bit,
whether the flag was 0 or already 1 (R16, R479). -/
def State.int (s : State) (b : IntBlk) (bit : Nat) : State :=
  let s := s.fset ⟨b.stat, bit, 1⟩ 1
  if s.flag ⟨b.en, bit, 1⟩ then s.post { source := b.source, kind := bit, hint := 1, locator := 0 } else s

/-! ### Gated blocks and wake sources -/

/-- The bit of CLK.GATE that gates the block of a register address, if one does (R419). -/
def gateBit (addr : Nat) : Option Nat :=
  let b := bits addr 16 8
  if 0x10 ≤ b ∧ b < 0x18 then some (b - 0x10)
  else if b = bits SCN.INT_STAT 16 8 then some 8
  else if b = bits CAL.INT_STAT 16 8 then some 9
  else none

/-- GATE_STAT.GATED shows the block of an address gated (R420). -/
def State.gated (s : State) (addr : Nat) : Bool :=
  match gateBit addr with
  | some b => bitAt (s.fget CLK.GATE_STAT_GATED) b
  | none => false

/-- A mast-domain reset runs and pauses the internal traffic of a die above D4 (Table 11.5). -/
def State.relayPauses (s : State) (d : Nat) : Bool := s.stk.relay.isSome && decide (5 ≤ d)

/-- Count one access to a gated block (R420). -/
def State.countGated (s : State) (addr : Nat) (write : Bool) : State :=
  let s := (s.bumpSat CLK.GATED_ACCESS_CNT_COUNT 1).fset CLK.GATED_LAST_ADDR addr
  (s.setFlag CLK.GATED_LAST_WRITE write).int I.clk 2

/-- Is a wake source enabled in the present state (Table 14.4)? -/
def State.wakeEnabled (s : State) (code port : Nat) : Bool :=
  if s.pwr = 1 ∨ s.pwr = 2 then decide (code ≠ 4) && decide (code ≤ 7)
  else if s.pwr = 3 then
    let cfg := s.pw.cfg
    if code = 1 then bitAt cfg 0 && bitAt cfg (8 + port)
    else if code = 2 then bitAt cfg 4
    else if code = 3 ∨ code = 7 then bitAt cfg 3
    else if code = 4 then bitAt cfg 2
    else if code = 5 then bitAt cfg 1
    else false
  else false

/-- Does a wake source count as a wake event of the entry in progress (R396)? During a Reef entry, every
source; during a Furl or Off entry, the WAKE pin, the customer wake timer where enabled, and PWR_SET Sail (8); and before
the last abort point of any, a watchdog restart (R405; 9). -/
def State.wakesEntry (s : State) (code : Nat) : Bool :=
  match s.pw.entry with
  | none => false
  | some e =>
    if code = 9 then decide (e.step ≤ lastAbort e.target)
    else decide (e.target ≤ 2) || decide (code = 2) || decide (code = 8) || (decide (code = 5) && bitAt s.pw.cfg 1)

/-- A wake source acts: the first one since the last wake is kept until the exit or the unwinding that it
starts (R393, R396). -/
def State.wakeEvent (s : State) (code port : Nat) : State :=
  if (s.wakeEnabled code port || s.wakesEntry code) && s.pw.wake.isNone then
    { s with pw := { s.pw with wake := some (code, port) } }
  else s

/-- EXTEST, CLAMP or HIGHZ has taken the boundary-scanned pins from the device logic (R355): PORST_N, WAKE, FREEZE_N, SB_ADDR
and the two-wire ports do not reach it (R518). -/
def State.pinsTaken (s : State) : Bool := [0x00, 0x04, 0x05].contains s.tap.ir

/-- A value within limits. -/
def within (lo hi x : Nat) : Bool := decide (lo ≤ x) && decide (x ≤ hi)

/-! ### Memory: the arrays, 80 stored bytes a line (R22, R23) -/

/-- The key of a stored byte: the array (an index 0 to 127, or 127 + d for PCS(d)), the line within the
array (the spare rows above the 8,192 rows included) and the byte of its code word. -/
def cellKey (array line byte : Nat) : Nat := (array * 33554432 + line) * 80 + byte

/-- What a stored byte reads as where nothing else was written: the byte of a line as the boot fill leaves
it (R442): zeros, device-state byte 0x01 and valid check symbols. -/
def fillByte (byte : Nat) : Byte := BitVec.ofNat 8 (nth Config.fillWord byte)

/-- Read one stored byte. -/
def State.mget (s : State) (k : Nat) : Byte := SMap.get (fillByte (k % 80)) s.mem k

/-- Write one stored byte. -/
def State.mset (s : State) (k : Nat) (v : Byte) : State :=
  { s with mem := SMap.set (fillByte (k % 80)) s.mem k v }

/-- Write consecutive stored bytes. -/
def State.msetList (s : State) (k : Nat) (l : List Nat) : State :=
  match l with
  | [] => s
  | b :: r => (s.mset k (BitVec.ofNat 8 b)).msetList (k + 1) r

/-- The canonical form of memory: addresses strictly rising, no entry equal to what its address reads as
when it is not listed. -/
def Memory.wf (m : List Host.Cell) : Bool := SMap.wf (fun k => fillByte (k % 80)) m

/-- The bits in which a filled line of EPOCH 1 differs from one of EPOCH 0: the EPOCH bit and its check symbols. -/
def epochDelta : List Nat :=
  List.replicate 66 0 ++ [0x20, 0, 228, 221, 193, 191, 242, 76, 87, 35, 80, 141, 134, 246]

/-- The difference that an array's bytes are kept with: that of EPOCH 1 where its last fill was under it (R401). -/
def State.fillDelta (s : State) (array byte : Nat) : Nat := if s.fillOne.contains array then nth epochDelta byte else 0

/-- The 80-byte code word stored at a line of an array. -/
def State.word (s : State) (array line : Nat) : List Nat :=
  (List.range 80).map (fun i => (s.mget (cellKey array line i)).toNat ^^^ s.fillDelta array i)

/-- Store an 80-byte code word at a line of an array. -/
def State.setWord (s : State) (array line : Nat) (w : List Nat) : State :=
  s.msetList (cellKey array line 0) ((List.range 80).map (fun i => nth w i ^^^ s.fillDelta array i))

end Sys2Proof.Machine
end

