-- ==== Sys2Proof/Machine/Events.lean ====
section
/-! DEFINITION. The black box (R491 to R493), events and their sinks (R113, R157 to R160), ALERT_N (R489)
and the debug trace (R496). -/

namespace Sys2Proof.Machine

open Sys2Proof.Reg

/-! ### The black box -/

/-- Bytes 0 to 59 of a record (Table 18.8), then its CRC-32. -/
def BbxRec.bytes (r : BbxRec) : List Nat :=
  let b := [r.rtype, r.flags] ++ beBytes 2 r.boot ++ beBytes 4 r.rseq ++ beBytes 8 r.aon ++ beBytes 4 r.timeUs ++
    beBytes 2 r.shadowId ++ beBytes 2 r.source ++ slice r.body 0 36
  b ++ beBytes 4 (crc32 b)

/-- A slot's bytes form a valid record: 64 bytes whose CRC is right (R492). -/
def nvValid (b : List Nat) : Bool := decide (b.length = 64) && decide (ofBe (b.drop 60) = crc32 (b.take 60))

/-- The slot after the newest (R492); slot 0 of an empty store. -/
def State.nvNext (s : State) : Nat :=
  if s.bbx.nv.isEmpty then 0 else (s.fget BBX.STATUS_NV_HEAD + 1) % 4096

/-- The slot a record goes to: the first from `slot` on that passes its verify; each one that fails is
skipped and counted (R493). -/
def nvPlace : Nat → State → Nat → State × Option Nat
  | 0, s, _ => (s, none)
  | fuel + 1, s, slot =>
    if s.bbx.nvBad.contains slot then
      nvPlace fuel (((s.bump BBX.NV_WRITES_COUNT 1).bumpSat BBX.NV_ERR_CNT_COUNT 1).int I.bbx 2) ((slot + 1) % 4096)
    else (s.bump BBX.NV_WRITES_COUNT 1, some slot)

/-- The slot of the oldest record once `head` is the newest: the next listed slot after it, wrapping. -/
def nvOldest (nv : SMap (List Nat)) (head : Nat) : Nat :=
  match nv.find? (fun e => decide (head < e.1)), nv with
  | some e, _ => e.1
  | none, e :: _ => e.1
  | none, [] => 0

/-- Write one record to the nonvolatile store. -/
def State.nvWrite (s : State) (r : BbxRec) : State :=
  match nvPlace 4096 s s.nvNext with
  | (s, none) => s
  | (s, some slot) =>
    let nv := SMap.insert s.bbx.nv slot r.bytes
    let s := { s with bbx := { s.bbx with nv := nv } }
    ((s.fset BBX.STATUS_NV_HEAD slot).fset BBX.NV_OLDEST_SLOT (nvOldest nv slot)).raise BBX.COMMITTED_RSEQ r.rseq

/-- How many records of the ring the store does not hold. -/
def State.uncommitted (s : State) : Nat := (s.bbx.ring.filter (fun r => !r.committed)).length

/-- The registers that show the ring. -/
def State.ringRegs (s : State) : State :=
  let ring := s.bbx.ring
  (((s.fset BBX.VOL_NEWEST_RSEQ ((ring.getLast?.map (·.rseq)).getD 0)).fset BBX.VOL_OLDEST_RSEQ
    ((ring.head?.map (·.rseq)).getD 0)).fset BBX.UNCOMMITTED_COUNT s.uncommitted).setFlag BBX.STATUS_VOL_VALID
    (!ring.isEmpty)

/-- May one more immediate record be committed in this second (R493)? -/
def State.nvRateOk (s : State) : Bool :=
  decide (1000000000 ≤ s.now - s.bbx.rateFrom) || decide (s.bbx.rateIn < max 1 (s.fget BBX.NV_RATE_RATE))

/-- Count one immediate record in the second's window. -/
def State.nvRateCount (s : State) : State :=
  if 1000000000 ≤ s.now - s.bbx.rateFrom then { s with bbx := { s.bbx with rateFrom := s.now, rateIn := 1 } }
  else { s with bbx := { s.bbx with rateIn := s.bbx.rateIn + 1 } }

/-- Make room in a full ring of 16,384 records: the oldest is overwritten, and if the store did not hold it
that is counted and the next record carries LOST (R493). -/
def State.ringRoom (s : State) : State :=
  match s.bbx.ring with
  | [] => s
  | r :: rest =>
    if s.bbx.ring.length < 16384 then s
    else if r.committed then { s with bbx := { s.bbx with ring := rest } }
    else ({ s with bbx := { s.bbx with ring := rest, lost := true } }.bumpSat BBX.LOST_VOL_COUNT 1).int I.bbx 1

/-- Write a record: to the ring, and at once to the store if it is immediate and the rate allows (R492,
R493). -/
def State.record (s : State) (rtype flags shadowId source : Nat) (body : List Nat) (immediate : Bool) : State :=
  let fl := flags ||| (if s.bbx.lost then 16 else 0) ||| (if immediate then 32 else 0)
  let s := { s with bbx := { s.bbx with lost := false } }.ringRoom
  let now := immediate && s.nvRateOk
  let r : BbxRec :=
    { rtype := rtype, flags := fl, boot := s.fget BBX.BOOT_CNT_BOOT, rseq := s.bbx.nextRseq,
      aon := s.aonCycles, timeUs := s.us % 2 ^ 32, shadowId := shadowId, source := source, body := slice body 0 36,
      committed := now }
  let s := { s with bbx := { s.bbx with ring := s.bbx.ring ++ [r], nextRseq := s.bbx.nextRseq + 1 } }
  (if now then s.nvRateCount.nvWrite r else s).ringRegs

/-- Commit up to `n` uncommitted records, oldest first, and end with a COMMIT record (R493). Answers the
state and how many were committed. -/
def State.commitRecords (s : State) (n : Nat) : State × Nat :=
  let todo := (s.bbx.ring.filter (fun r => !r.committed)).take n
  let s := todo.foldl (fun s r => s.nvWrite r) s
  let ids := todo.map (·.rseq)
  let ring := s.bbx.ring.map (fun r => if ids.contains r.rseq then { r with committed := true } else r)
  let s := { s with bbx := { s.bbx with ring := ring } }
  let s := s.record 0x0A 0 0 0 (beBytes 4 (ids.headD 0) ++ beBytes 4 (ids.getLast?.getD 0) ++
    beBytes 4 (s.fget BBX.LOST_VOL_COUNT)) false
  (s, ids.length)

/-- A STATE record: the device entered a state with a reason code (Table 18.9, R440). -/
def State.recordState (s : State) (reason dev : Nat) : State :=
  s.record 0x05 0 0 0 (beBytes 2 reason ++ [dev]) true

/-! ### Events -/

/-- The sink and the enable of an event code (R157); severity 3 is always enabled (R160). -/
def EvtCfg.sinkOf (c : EvtCfg) (code severity : Nat) : Option Nat :=
  let e := SMap.get (true, 0) c.codes code
  if e.1 ∨ severity = 3 then some e.2 else none

/-- Queue an event for its in-band sink; a full queue of 64 drops the newest (R114). -/
def State.queueEvt (s : State) (e : Event) : State :=
  if s.mgc.evq.length < 64 then { s with mgc := { s.mgc with evq := s.mgc.evq ++ [e] } }
  else { (s.bumpSat LNK.EVT_STAT_DROP_CNT 1).int I.lnk 7 with
    mgc := { ((s.bumpSat LNK.EVT_STAT_DROP_CNT 1).int I.lnk 7).mgc with evLost := true } }

/-- Queue an event for the two-wire sink; a full queue of 16 drops the newest (R159). -/
def State.queueTwEvt (s : State) (e : Event) : State :=
  if s.mgc.twEvq.length < 16 then
    { s with mgc := { s.mgc with twEvq := s.mgc.twEvq ++ [e] },
             twb := { s.twb with evtNew := s.twb.evtNew || s.mgc.twEvq.isEmpty } }
  else { s with mgc := { s.mgc with twLost := true } }

/-- The 40 bytes of DETAIL. -/
def evtDetail (d : List Nat) : List Nat := slice d 0 40

/-- Log an event in the black box: an EVENT record, and an EVENT_CONT record where DETAIL runs past byte 55
(Table 18.9). -/
def State.logEvent (s : State) (e : Event) : State :=
  let imm := decide (s.fget BBX.CTRL_NV_MIN ≤ e.severity)
  let s := s.record 0x02 0 0 0 (beBytes 2 e.code ++ [e.severity, e.eflags] ++ slice (evtDetail e.detail) 0 32) imm
  if 32 < e.detail.length then s.record 0x03 0 0 0 (slice (evtDetail e.detail) 32 8) imm else s

/-- Raise an event: every event is logged, and it goes to the sink that its code names where the code is
enabled and the sink is not of type none (R157, R160). -/
def State.event (s : State) (code severity : Nat) (detail : List Nat) (faultMsg : Nat := 0) : State :=
  let sink := s.mgc.evt.sinkOf code severity
  let e : Event :=
    { code := code, severity := severity, eflags := 0, seq := s.mgc.evSeq, timeUs := s.us,
      faultMsg := faultMsg, detail := detail, reqId := (SMap.get (0, 0) s.mgc.evt.sinks (sink.getD 0)).2 }
  let s := { s with mgc := { s.mgc with evSeq := s.mgc.evSeq + 1 } }.logEvent e
  match sink with
  | none => s
  | some k =>
    let t := (SMap.get (0, 0) s.mgc.evt.sinks k).1
    if t = 1 then s.queueEvt e else if t = 2 then s.queueTwEvt e else s

/-- The 64-byte body of an event (Table 3.16). -/
def Event.body (e : Event) : List Nat :=
  beBytes 2 e.code ++ [e.severity, e.eflags] ++ beBytes 4 e.seq ++ beBytes 8 e.timeUs ++ beBytes 6 e.faultMsg ++
    [0, 0] ++ evtDetail e.detail

/-! ### ALERT_N -/

/-- Set or clear a cause of ALERT_N; the pin is low while any cause is 1 (R489). -/
def State.alert (s : State) (cause : Nat) (on : Bool) : State :=
  let c := setBit (s.fget FLT.ALERT_CAUSE_CAUSE) cause on
  (s.fset FLT.ALERT_CAUSE_CAUSE c).setFlag FLT.ALERT_CAUSE_PIN (decide (c ≠ 0))

/-! ### Injections (R315, R316) -/

/-- The armed injection of a checker. -/
def State.injOf (s : State) (c : Nat) : Option Inj := SMap.get none s.ecc.inj c

/-- Show which injections are armed, and the one armed last or, once that is disarmed, the one of the lowest
checker still armed. -/
def State.showInj (s : State) : State :=
  let show' := match s.injOf s.ecc.lastInj with
    | some i => some i
    | none => ((List.range 4).filterMap s.injOf).head?
  let i := show'.getD ⟨0, 0, 0⟩
  let s := s.fset ECC.STATUS_INJ_ARMED (maskOf 4 (fun c => (s.injOf c).isSome))
  let s := (s.setReg ECC.INJ_CTRL (BitVec.ofNat 32 i.ctrl)).setReg ECC.INJ_PAT (BitVec.ofNat 32 i.pat)
  (s.fset ECC.INJ_ADDR_HI_ADDR_HI (i.addr / 2 ^ 32)).fset ECC.INJ_ADDR_LO_ADDR_LO (i.addr % 2 ^ 32)

/-- An injection of a checker fires: a one-shot injection disarms (R316). -/
def State.fireInj (s : State) (c : Nat) (i : Inj) : State :=
  let s := s.int I.ecc 9
  if bits i.ctrl 26 2 = 1 then { s with ecc := { s.ecc with inj := SMap.set none s.ecc.inj c none } }.showInj else s

/-- A flit checker fires on a sequenced flit of port `p`: checker 2 the receiver, 3 the transmitter. Answers its
pattern. -/
def State.flitInject (s : State) (c p : Nat) : State × Nat :=
  match s.injOf c with
  | some i => if bits i.ctrl 0 3 = p then (s.fireInj c i, i.pat) else (s, 0)
  | none => (s, 0)

/-! ### Trace -/

/-- Put one entry of two words into the trace buffer where its source is selected; a full buffer of 16,384
words drops it, and TRCLK is stopped in Reef-2, Furl and Off (R416, R496). With PINS it also leaves on DBG0. -/
def State.trace (s : State) (src sel item : Nat) : State :=
  if s.trc.src = src ∧ (src = 1 ∨ src = 5 ∨ s.trc.sel = sel) ∧ ¬ s.frozen ∧ s.pwr ≤ 1 ∧ s.trc.buf.length + 2 ≤ 16384 then
    let e := [src * 2 ^ 28 + s.now / 5 % 2 ^ 28, item % 2 ^ 32]
    { s with trc := { s.trc with buf := s.trc.buf ++ e, dbg := if s.trc.pins then s.trc.dbg ++ e else s.trc.dbg } }
  else s

end Sys2Proof.Machine
end

