-- ==== Sys2Proof/Machine/Answers.lean ====
section
/-! DEFINITION. Answers and how they leave: completion headers (R108), the choice of the port (R117 to
R119), packing into slots and sequenced flits with the credits they cost (R80 to R84, R96, R98), and the
reaction that ends when a port settles (R486). -/

namespace Sys2Proof.Machine

open Sys2Proof.Reg

/-- PRT.STATE.PORT_STATE (Table 2.5). -/
def State.portState (s : State) (p : Nat) : Nat := s.fget (PRT.STATE_PORT_STATE p)

/-- What port `p` holds beyond its registers. -/
def State.port (s : State) (p : Nat) : PortSt := SMap.get {} s.ports p

/-- Write what port `p` holds. -/
def State.setPort (s : State) (p : Nat) (v : PortSt) : State := { s with ports := SMap.set {} s.ports p v }

/-- What the link layer of port `p` holds. -/
def State.link (s : State) (p : Nat) : LinkSt := SMap.get {} s.links p

/-- Write what the link layer of port `p` holds. -/
def State.setLink (s : State) (p : Nat) (v : LinkSt) : State := { s with links := SMap.set {} s.links p v }

/-- The reactions of one code and target have ended (R486). -/
def State.endReaction (s : State) (code target : Nat) : State :=
  { s with flt := { s.flt with reactions := s.flt.reactions.map (fun r =>
      if r.code = code ∧ r.target = target ∧ ¬ r.ended then { r with ended := true, endAt := s.now } else r) } }

/-- A die-logic reset of a die is in progress (Table 7.5). -/
def State.dieResetting (s : State) (d : Nat) : Bool :=
  s.flt.reactions.any (fun r => decide (r.code = 6) && decide (r.target = d) && !r.ended) && !s.flt.waiting.contains (6, d)

/-- A port is eligible for answers in UP, LIGHT, DEEP, RETRAIN, BRINGUP, ALIGN, DESKEW and LINK_INIT
(R117). -/
def State.eligible (s : State) (p : Nat) : Bool := decide (1 ≤ s.portState p) && decide (s.portState p ≤ 8)

/-- The port for an answer (Table 3.17): the first eligible port of the list of its requester's route. -/
def State.routeOf (s : State) (reqId arrival : Nat) (arrivalOnly : Bool) : Option Nat :=
  let mode := if arrivalOnly then 0 else s.fget (LNK.ROUTE_MODE reqId)
  let order := if mode = 1 then [s.fget (LNK.ROUTE_PRIMARY reqId), arrival]
    else if mode = 2 then [s.fget (LNK.ROUTE_PRIMARY reqId), s.fget (LNK.ROUTE_ALT reqId), arrival]
    else [arrival]
  order.find? s.eligible

/-- The lowest-numbered eligible port: the port of arrival of an EVT (R118). -/
def State.lowestPort (s : State) : Option Nat := (List.range 8).find? s.eligible

/-- A completion header of 128 bits (Table 3.12). -/
def cplHeader (opcode cls status mask reqId tag stackId lines : Nat) (late : Bool) (userTag reqOp detail : Nat) : Nat :=
  opcode * 2 ^ 120 + cls % 64 * 2 ^ 114 + status * 2 ^ 110 + mask * 2 ^ 106 + reqId * 2 ^ 94 + tag * 2 ^ 82 +
    stackId * 2 ^ 70 + lines * 2 ^ 67 + b2n late * 2 ^ 66 + userTag * 2 ^ 48 + reqOp * 2 ^ 40 + detail * 2 ^ 32

/-- The slots an answer fills beyond its share of a header slot: its data slot and its continuation slots. -/
def Answer.slots (a : Answer) : List (List Nat) :=
  match a.data with
  | [] => [slice (beBytes 16 a.header) 0 80]
  | d :: rest => (beBytes 16 a.header ++ slice d 0 64) :: rest.map (fun x => slice x 0 80)

/-- The credits the device holds on a port: CPH, CPD, MGR (Table 3.7). -/
structure Credits where
  cph : Nat
  cpd : Nat
  mgr : Nat
  deriving DecidableEq, Repr

/-- Credits held for one class. -/
def Credits.of (c : Credits) (k : AnsClass) : Nat :=
  match k with
  | .cph => c.cph
  | .cpd => c.cpd
  | .mgr => c.mgr

/-- Spend credits of one class. -/
def Credits.spend (c : Credits) (k : AnsClass) (n : Nat) : Credits :=
  match k with
  | .cph => { c with cph := c.cph - n }
  | .cpd => { c with cpd := c.cpd - n }
  | .mgr => { c with mgr := c.mgr - n }

/-- What packing the queued answers has made so far: the slots, each with how many answers begin in it; the
header slot that still has room, as its headers; the answers left; the credits and the room for slots. -/
structure Pack where
  slots : List (List Nat × Nat) := []
  heads : List Nat := []
  left : List Answer := []
  cred : Credits
  room : Nat
  stalled : Bool := false
  deriving DecidableEq, Repr

/-- Close the open header slot. -/
def Pack.close (k : Pack) : Pack :=
  match k.heads with
  | [] => k
  | h => { k with slots := k.slots ++ [(slice (h.flatMap (beBytes 16)) 0 80, h.length)], heads := [] }

/-- Pack one answer: up to five CPL or CPL_E headers to a slot (R81), a data slot with its continuations
following directly (R82). An answer starts only with all its credits and with room for its first slot; an answer stays
behind those of its class that wait. -/
def Pack.add (k : Pack) (a : Answer) : Pack :=
  if k.left.any (fun b => b.cls = a.cls) then { k with left := k.left ++ [a] }
  else if a.cls = .cph ∧ 1 ≤ k.heads.length ∧ k.heads.length < 5 then { k with heads := k.heads ++ [a.header] }
  else
    let n := a.slots.length
    if k.cred.of a.cls < n then { k with left := k.left ++ [a] }
    else if k.room = 0 then { k with left := k.left ++ [a], stalled := true }
    else
      let k := { k.close with cred := k.cred.spend a.cls n, room := k.room - n }
      if a.cls = .cph then { k with heads := [a.header] } 
      else { k with slots := k.slots ++ a.slots.mapIdx (fun i x => (x, if i = 0 then 1 else 0)) }

/-- The credit update of the next sequenced flit: one class with credits owed, rotating, up to 31 (R98).
Classes are numbered as CR_SEL: 1 RQH, 2 RQD, 3 MGQ. -/
def LinkSt.takeCredit (l : LinkSt) : LinkSt × Nat × Nat :=
  let owed (k : Nat) : Nat := if k = 1 then l.oweRqh else if k = 2 then l.oweRqd else l.oweMgq
  match [l.rotate % 3 + 1, (l.rotate + 1) % 3 + 1, (l.rotate + 2) % 3 + 1].find? (fun k => decide (0 < owed k)) with
  | none => (l, 0, 0)
  | some k =>
    let n := min 31 (owed k)
    let l := { l with rotate := k % 3 }
    if k = 1 then ({ l with oweRqh := l.oweRqh - n, rxCredRqh := l.rxCredRqh + n }, 1, n)
    else if k = 2 then ({ l with oweRqd := l.oweRqd - n, rxCredRqd := l.rxCredRqd + n }, 2, n)
    else ({ l with oweMgq := l.oweMgq - n, rxCredMgq := l.rxCredMgq + n }, 3, n)

/-! ### Flits on the lanes (R77, R78, R85, R87) -/

/-- FLIT_HDR (Table 3.2). -/
def WireFlit.header (f : WireFlit) : Nat :=
  f.seq % 4096 * 2 ^ 20 + f.ack % 4096 * 2 ^ 8 + f.crSel % 8 * 2 ^ 5 + f.crCnt % 32

/-- Bytes 0 to 243 of a flit: its header and its three slots. -/
def WireFlit.message (f : WireFlit) : List Nat :=
  beBytes 4 f.header ++ (List.range 3).flatMap (fun i => slice (f.slots.getD i []) 0 80)

/-- The check bytes of a flit that an injection complements (Table 10.4): bits 7:0 of its pattern the check symbols, bit
8 the last byte of the CRC. -/
def flipChecks (pat : Nat) (flit : List Nat) : List Nat :=
  flit.mapIdx (fun i b => if (244 ≤ i ∧ i ≤ 251 ∧ bitAt pat (i - 244)) ∨ (i = 255 ∧ bitAt pat 8) then b ^^^ 255 else b)

/-- The 256 bytes of a flit as the sender forms it (Table 3.1): the check symbols and the CRC, both over bytes 0 to 243, and
what an injection complements of them. -/
def WireFlit.bytes (f : WireFlit) : List Nat :=
  flipChecks f.flip (rsEncode 8 f.message ++ beBytes 4 (crc32 f.message))

/-- A flit leaves on a port; the partner will know the ACK that it carries (R91). -/
def State.emit (s : State) (p : Nat) (f : WireFlit) : State :=
  s.setLink p { s.link p with wire := (s.link p).wire ++ [f], ackSent := f.ack % 4096 }

/-- The idle flit of the moment: SEQ the next to send, the current ACK and zeros; `sel` 7 makes it a NAK (R85, R87). -/
def State.idleFlit (s : State) (p sel : Nat) : WireFlit :=
  { seq := s.fget (LNK.PSTAT_TX_NEXT_SEQ p), ack := (s.link p).ackTx, crSel := sel, crCnt := 0, slots := [[0xFF]] }

/-- The INIT flit of the moment (Table 3.6): the credits fill the receive buffer, ACK is NEXT_RX - 1. -/
def State.initFlit (s : State) (p : Nat) : WireFlit :=
  let l := s.link p
  let next := s.fget (LNK.PSTAT_RX_EXPECT p)
  { seq := s.fget (LNK.PSTAT_TX_NEXT_SEQ p), ack := next + 4095, crSel := 0, crCnt := 0,
    slots := [[0xFE, 1, b2n l.ackSeen * 128 + b2n (!l.fresh) * 64, 0] ++ beBytes 2 (s.fget LNK.CREDIT_INIT_RQH) ++
      beBytes 2 (s.fget LNK.CREDIT_INIT_RQD) ++ beBytes 2 (s.fget LNK.CREDIT_INIT_MGQ) ++ beBytes 2 next ++
      beBytes 2 (s.fget LNK.STACK_ID_STACK_ID) ++ [p]] }

/-- A NAK goes out ahead of what is queued (R87). -/
def State.sendNak (s : State) (p : Nat) : State := (s.bumpSat (LNK.NAK_NAK_TX p) 1).emit p (s.idleFlit p 7)

/-- A sequenced flit goes on the lanes with the current ACK; an injection at the transmitter touches what the lanes carry
and not the stored copy (R88, R316). -/
def State.putFlit (s : State) (p : Nat) (f : TxFlit) : State :=
  let (s, pat) := s.flitInject 3 p
  s.emit p { seq := f.seq, ack := (s.link p).ackTx, crSel := f.crSel, crCnt := f.crCnt, slots := f.slots, flip := pat }

/-- Every flit of the replay buffer goes out again, in SEQ order (R88). -/
def State.resend (s : State) (p : Nat) : State := (s.link p).replay.foldl (fun s f => s.putFlit p f) s

/-- Send one sequenced flit of three slots: it takes the next SEQ and stays in the replay buffer (R84). -/
def State.sendFlit (s : State) (p : Nat) (slots : List (List Nat × Nat)) : State :=
  let seq := s.fget (LNK.PSTAT_TX_NEXT_SEQ p)
  let (l, sel, n) := (s.link p).takeCredit
  let f : TxFlit :=
    { seq := seq, slots := (List.range 3).map (fun i => slice (slots.getD i ([], 0)).1 0 80), crSel := sel, crCnt := n,
      answers := (slots.map (·.2)).sum, cont := decide ((slots.head?.map (·.2)) = some 0) }
  let s := (s.setLink p { l with replay := l.replay ++ [f] }).fset (LNK.PSTAT_TX_NEXT_SEQ p) (seq + 1)
  s.putFlit p f

/-- The replay buffer is full and a flit waits: the stall is counted once (R84). -/
def State.noteStall (s : State) (p : Nat) : State :=
  let l := s.link p
  if l.stalled then s else (s.setLink p { l with stalled := true }).bumpSat (LNK.REPLAY_BUF_FULL p) 1

/-- Send what waits on a port that is UP, as far as credits and the replay buffer of 256 flits allow (R84,
R96); nothing leaves before a drop that an idle exit began is made (R74). -/
def State.pump (s : State) (p : Nat) : State :=
  let l := s.link p
  if s.portState p ≠ 5 ∨ (s.port p).holdTx ∨ (l.tx = [] ∧ l.part = []) then s
  else
    let cred : Credits := ⟨s.fget (LNK.TX_CREDIT_CPH p), s.fget (LNK.TX_CREDIT_CPD p), s.fget (LNK.TX_CREDIT_MGR p)⟩
    let free := 256 - l.replay.length
    let k := (l.tx.foldl Pack.add { cred := cred, room := 3 * free - l.part.length }).close
    let slots := l.part.map (fun b => (b, 0)) ++ k.slots
    let rest : List (List Nat) := (slots.drop (3 * free)).map (·.1)
    let s := ((groupsOf 3 slots.length slots).take free).foldl (fun s g => s.sendFlit p g)
      (s.setLink p { l with tx := k.left, part := rest })
    let s := ((s.fset (LNK.TX_CREDIT_CPH p) k.cred.cph).fset (LNK.TX_CREDIT_CPD p) k.cred.cpd).fset
      (LNK.TX_CREDIT_MGR p) k.cred.mgr
    if k.stalled || !rest.isEmpty then s.noteStall p else s

/-- The answers that have begun and whose last slot has not been acknowledged: those that begin in the replay buffer, and
the one that goes on in its first slot, or is still to go on. -/
def LinkSt.sentAnswers (l : LinkSt) : Nat :=
  (l.replay.map (·.answers)).sum + b2n ((l.replay.head?.map (·.cont)).getD (decide (l.part ≠ [])))

/-- Count an answer as discarded on its port of arrival (R118). -/
def State.dropAnswer (s : State) (p : Nat) : State := (s.bumpSat (LNK.DROPS_RSP_DROP p) 1).int I.lnk 5

/-- Route an answer and queue it on its port; where no port qualifies it is discarded (R118). -/
def State.answer (s : State) (a : Answer) : State :=
  match s.routeOf a.reqId a.arrivalPort a.arrivalOnly with
  | some p =>
    let l := s.link p
    (s.setLink p { l with tx := l.tx ++ [a] }).pump p
  | none => s.dropAnswer a.arrivalPort

/-- A port enters DOWN or DISABLED: its unsent answers are routed again, and the answers of its replay buffer
are discarded and counted (R119). -/
def State.reroute (s : State) (p : Nat) : State :=
  let l := s.link p
  let lost := l.sentAnswers
  let s := s.setLink p { l with tx := [], part := [], replay := [], stalled := false }
  let s := if lost = 0 then s else (s.bumpSat (LNK.DROPS_RSP_DROP p) lost).int I.lnk 5
  l.tx.foldl (fun s a => s.answer a) s

end Sys2Proof.Machine
end

