-- ==== Sys2Proof/Machine/Ports.lean ====
section
/-! DEFINITION. Lane ports: the states of lanes and ports and the moves between them (R45 to R75), shared by
the commands that reach a port. -/

namespace Sys2Proof.Machine

open Sys2Proof.Reg

/-- Is `p` a port of the part? -/
def isPort (p : Nat) : Bool := decide (p < 8)

/-- What lane `m` of port `p` holds beyond its registers. -/
def State.lane (s : State) (p m : Nat) : LaneSt := SMap.get {} (s.port p).lanes m

/-- Write what lane `m` of port `p` holds. -/
def State.setLane (s : State) (p m : Nat) (v : LaneSt) : State :=
  s.setPort p { s.port p with lanes := SMap.set {} (s.port p).lanes m v }

/-- LANE_STAT[m].LANE_STATE (Table 2.4). -/
def State.laneState (s : State) (p m : Nat) : Nat := s.fget (PRT.LANE_STAT_LANE_STATE p m)

/-- A lane's adaptation loop runs: ADAPT_EN without FREEZE, on a lane from ADAPT on that is neither idle nor dropped (R66,
R72). -/
def State.adapts (s : State) (p m : Nat) : Bool :=
  [4, 5, 6, 7, 10].contains (s.laneState p m) && s.flag (PRT.RX_EQ_ADAPT_EN p m) && !s.flag (PRT.RX_EQ_FREEZE p m)

/-- The coefficients take the values that the running loop has reached by now, which the spec leaves open (free values):
CTLE, VGA and DFE1 except under OVERRIDE (R67), and the taps of the feed-forward equaliser. -/
def State.adaptNow (s : State) (p m : Nat) : State :=
  if ¬ s.adapts p m then s
  else
    let (x, s) := s.fresh
    let s := if s.flag (PRT.RX_EQ_OVERRIDE p m) then s
      else ((s.fset (PRT.RX_EQ_CTLE p m) (x % 32)).fset (PRT.RX_EQ_VGA p m) (x / 32 % 64)).fset (PRT.RX_EQ_DFE1 p m) (x / 2048 % 64)
    (List.range 12).foldl (fun s tap =>
      let (y, s) := s.fresh
      let l := s.lane p m
      s.setLane p m { l with ffe := SMap.set 0 l.ffe tap (y % 256) }) s

/-- Slicer tracking of a lane stops: its thresholds stay, and a step that waited for a marker is not taken (R359). -/
def State.untrack (s : State) (p m : Nat) : State := s.setLane p m { s.lane p m with steps := [], tracked := false }

/-- Move a lane to a state of Table 2.4. A loop that stops keeps what it has reached (R66, R72), and a lane that is not ACTIVE is
not tracked (R359). -/
def State.toLane (s : State) (p m v : Nat) : State :=
  let s := if [4, 5, 6, 7, 10].contains v then s else s.adaptNow p m
  (if v = 7 then s else s.untrack p m).fset (PRT.LANE_STAT_LANE_STATE p m) v

/-- The lanes of CTRL.LANE_EN. -/
def State.laneEn (s : State) (p : Nat) : List Nat := (List.range 4).filter (bitAt (s.fget (PRT.CTRL_LANE_EN p)))

/-- The enabled lanes in one of the states given. -/
def State.lanesIn (s : State) (p : Nat) (states : List Nat) : List Nat :=
  (s.laneEn p).filter (fun m => states.contains (s.laneState p m))

/-- The mask of a list of lanes. -/
def laneMask (l : List Nat) : Nat := maskOf 4 l.contains

/-- The LPLL of a port is locked to a valid reference (R49, Table 2.2). -/
def State.lpllOk (s : State) (k : Nat) : Bool :=
  s.flag (CLK.PLL_STAT_LOCKED (2 + k)) && !s.flag (CLK.PLL_STAT_HOLDOVER (2 + k))

/-- Exclude a lane from striping (Table 2.4, DROPPED). -/
def State.dropLane (s : State) (p m : Nat) : State :=
  let s := (s.toLane p m 11).fset (PRT.LANE_STAT_DROPPED p m) 1
  s.setLane p m { s.lane p m with searching := false, seq := none }

/-- A lane is dropped: excluded, counted and reported (Table 2.12, Table 2.17). -/
def State.loseLane (s : State) (p m : Nat) : State := ((s.dropLane p m).bumpSat (PRT.COUNTS_DROP_CNT p) 1).int (I.prt p) 3

/-- Start bring-up of one lane: PLL_WAIT until the LPLL has locked, then SIG_WAIT, or CDR_ACQ where signal
detect is present (Table 2.4, R49). A lane outside LANE_EN is OFF. -/
def State.startLane (s : State) (p m : Nat) : State :=
  let v := if !bitAt (s.fget (PRT.CTRL_LANE_EN p)) m then 0
    else if !s.lpllOk (p / 2) then 1
    else if s.flag (PRT.LANE_STAT_SD p m) then 3
    else 2
  let s := s.toLane p m v
  let s := ((s.fset (PRT.LANE_STAT_CDR_LOCK p m) 0).fset (PRT.LANE_STAT_AM_LOCK p m) 0).fset
    (PRT.LANE_STAT_DROPPED p m) 0
  s.setLane p m { fir := (s.lane p m).fir, ffe := (s.lane p m).ffe }

/-- Start bring-up of the lanes of a port that a test picks (Table 2.6 step 1): training runs from LPLL lock, and the masks,
announcements and drops of the link before it end. -/
def State.startLanes (s : State) (p : Nat) (pick : State → Nat → Bool) : State :=
  let s := s.setPort p { lanes := (s.port p).lanes, mkrSeq := (s.port p).mkrSeq, training := s.lpllOk (p / 2) }
  let s := (s.fset (PRT.STATE_TX_MASK p) 0).fset (PRT.STATE_RX_MASK p) 0
  let s := s.fset (LNK.PSTAT_LINK_STATE p) 0
  (List.range 4).foldl (fun s m => if pick s m then s.startLane p m else s) s

/-- Start bring-up of every lane of a port, dropped lanes included (Table 2.5 RETRAIN). -/
def State.startBringup (s : State) (p : Nat) : State := s.startLanes p (fun _ _ => true)

/-- Start bring-up of every lane that is not dropped: a dropped lane rejoins only at the next retrain (R55). -/
def State.restartLanes (s : State) (p : Nat) : State := s.startLanes p (fun s m => decide (s.laneState p m ≠ 11))

/-- Move a port to a state of Table 2.5. A port that leaves UP ends the run of INITs (R93). -/
def State.toPort (s : State) (p v : Nat) : State :=
  let s := if s.portState p = 5 then
      ({ s with sch := { s.sch with
          lastLanes := SMap.set 0 s.sch.lastLanes p (popcount 4 (s.fget (PRT.STATE_TX_MASK p))),
          hold := SMap.set false s.sch.hold p false } } : State).setLink p { s.link p with protoRun := false }
    else s
  s.fset (PRT.STATE_PORT_STATE p) v

/-- A port has settled in UP or DOWN: its retrain ends, and with the last of them the retrain of every port
(Table 18.5). -/
def State.settlePort (s : State) (p : Nat) : State :=
  let s := s.endReaction 1 p
  if (List.range 8).all (fun q => s.portState q ≠ 8 ∧ (s.portState q = 0 ∨ 5 ≤ s.portState q)) then
    s.endReaction 2 0
  else s

/-- A port enters DOWN with a reason (Table 2.5, R119). -/
def State.portDown (s : State) (p reason : Nat) : State :=
  let s := (s.toPort p 10).fset (PRT.STATE_DOWN_REASON p) reason
  let s := ((s.fset (PRT.STATE_TX_MASK p) 0).fset (PRT.STATE_RX_MASK p) 0).fset (LNK.PSTAT_LINK_STATE p) 0
  let s := s.setPort p { lanes := (s.port p).lanes, mkrSeq := (s.port p).mkrSeq }
  let s := s.setLink p { s.link p with fresh := true, protoRun := false }
  let s := (s.int (I.prt p) 1).event 0x0040 2 [p, reason]
  (s.reroute p).settlePort p

/-- A port enters RETRAIN (R57): the count, the flag and the event, then bring-up of every lane in LANE_EN
starts. `cause` is that of SELF_RETRAIN, 0 where FLT ordered the retrain. -/
def State.enterRetrain (s : State) (p cause : Nat) : State :=
  let s := if cause = 0 then s else s.fault (0x010 + 8 * p) 0x35 1 cause
  let s := (s.toPort p 8).bumpSat (PRT.COUNTS_RETRAIN_CNT p) 1
  ((s.int (I.prt p) 2).event 0x0042 0 [p, cause]).startBringup p

/-- A bring-up attempt failed (R56, R57): at the third failure in a row the port goes DOWN with reason 0x06,
otherwise it retrains with the cause and the reason given. -/
def State.failAttempt (s : State) (p cause reason : Nat) : State :=
  let n := s.fget (PRT.STATE_ATTEMPT p) + 1
  let s := s.fset (PRT.STATE_ATTEMPT p) n
  if 3 ≤ n then s.portDown p 6 else (s.fset (PRT.STATE_DOWN_REASON p) reason).enterRetrain p cause

/-- May a retrain be ordered for a port? Not in DOWN, DISABLED or TEST (R57, R484). -/
def State.canRetrain (s : State) (p : Nat) : Bool := s.eligible p

/-- The ACTIVE lanes of LANE_SEL run the test (R75). -/
def State.testLanes (s : State) (p : Nat) : State :=
  let sel := s.fget (PRT.TEST_CFG_LANE_SEL p)
  (s.lanesIn p [7]).foldl (fun s m => if bitAt sel m then s.toLane p m 10 else s) s

/-- TEST_EN = 1 takes a port from UP to TEST: traffic stops, and the lanes of LANE_SEL run the test (R75). -/
def State.enterTest (s : State) (p : Nat) : State :=
  let s := ((s.toPort p 9).fset (PRT.STATE_TX_MASK p) 0).fset (PRT.STATE_RX_MASK p) 0
  (s.fset (LNK.PSTAT_LINK_STATE p) 0).testLanes p

/-- A port enters UP: both flags that report it set (Tables 2.12 and 3.20), what waits goes out, and a port whose TEST_EN
is 1 goes on to TEST (R75). -/
def State.enterUp (s : State) (p : Nat) : State :=
  let s := ((s.toPort p 5).int (I.prt p) 0).int I.lnk 0
  if s.flag (PRT.CTRL_TEST_EN p) then s.enterTest p else s.pump p

/-- A port's bring-up ends in UP (R93); after a RESUME the replay buffer goes out first (R94). -/
def State.portUp (s : State) (p : Nat) : State :=
  let s := (s.fset (PRT.STATE_ATTEMPT p) 0).fset (PRT.STATE_DOWN_REASON p) 0
  let s := s.fset (LNK.PSTAT_LINK_STATE p) 2
  let s := if s.flag (LNK.PSTAT_RESUMED p) then s.resend p else s
  State.settlePort (s.enterUp p) p

/-- RETRAIN leads to BRINGUP as bring-up begins (Table 2.5). -/
def State.beginBringup (s : State) (p : Nat) : State := if s.portState p = 8 then s.toPort p 1 else s

/-- A port in BRINGUP enters ALIGN when at least 2 lanes have reached ALIGN, and the slip search of those
lanes starts (Table 2.5, R61). -/
def State.checkAlign (s : State) (p : Nat) : State :=
  let al := s.lanesIn p [5]
  if s.portState p = 1 ∧ 2 ≤ al.length then
    al.foldl (fun s m => s.setLane p m { s.lane p m with searching := true, tries := 0 }) (s.toPort p 2)
  else s

/-- A port in BRINGUP goes DOWN with reason 0x01 once fewer than 2 lanes can still show signal (Table 2.5). -/
def State.checkSignal (s : State) (p : Nat) : State :=
  if s.portState p = 1 ∧ ((s.laneEn p).filter (fun m => s.laneState p m ≠ 11)).length < 2 then s.portDown p 1 else s

/-- Lanes whose coarse adaptation is done leave ADAPT once the transmitters have left training (Table 2.4). -/
def State.adaptDone (s : State) (p adapted : Nat) : State :=
  if (s.port p).training then s
  else (s.lanesIn p [4]).foldl (fun s m => if bitAt adapted m then s.toLane p m 5 else s) s

/-- Move a lane's word boundary later by `n` symbols; its marker lock is lost (R60). -/
def State.slip (s : State) (p m n : Nat) : State :=
  let s := (s.fset (PRT.LANE_STAT_SLIP_POS p m) ((s.fget (PRT.LANE_STAT_SLIP_POS p m) + n) % 64)).fset
    (PRT.LANE_STAT_AM_LOCK p m) 0
  s.setLane p m { s.lane p m with matched := false }

/-- One step of the slip search on one lane (R61): done, failed after 63 tries, or one more slip. -/
def State.searchLane (s : State) (p m : Nat) : State :=
  let l := s.lane p m
  if !l.searching then s
  else if s.flag (PRT.LANE_STAT_AM_LOCK p m) then (s.setLane p m { l with searching := false }).toLane p m 6
  else if l.tries = 63 then s.loseLane p m
  else (s.slip p m 1).setLane p m { l with tries := l.tries + 1, matched := false }

/-- The slip search has ended on every lane it began with: lanes that are not ALIGNED are dropped, and the
port goes on to DESKEW with at least 2 lanes, else DOWN with reason 0x04 (R61, Table 2.5). -/
def State.endSearch (s : State) (p : Nat) : State :=
  if (s.laneEn p).any (fun m => (s.lane p m).searching) then s
  else
    let s := (s.lanesIn p [2, 3, 4, 5]).foldl (fun s m => s.loseLane p m) s
    if 2 ≤ (s.lanesIn p [6]).length then s.toPort p 3 else s.portDown p 4

/-! ### Deskew and mask exchange -/

/-- The mask exchange is complete: both directions show a TX_MASK of at least 2 lanes within what the other
end asked for (R64). -/
def State.masksAgreed (s : State) (p : Nat) : Bool :=
  let tx := s.fget (PRT.STATE_TX_MASK p)
  let req := s.fget (PRT.PARTNER_RX_REQ p)
  let rx := s.fget (PRT.PARTNER_TX_MASK p)
  decide (2 ≤ popcount 4 tx) && decide (tx &&& req = tx) && decide (2 ≤ popcount 4 rx) &&
    decide (rx &&& (s.port p).rxReq = rx)

/-- The transmit mask asked for by the partner during the exchange: the intersection of LANE_EN and its
RX_REQ, from the next marker on (R64). A RX_REQ of 0 asks for nothing yet. -/
def State.followReq (s : State) (p : Nat) : State :=
  let req := s.fget (PRT.PARTNER_RX_REQ p)
  let want := s.fget (PRT.CTRL_LANE_EN p) &&& req
  if req ≠ 0 ∧ want ≠ s.fget (PRT.STATE_TX_MASK p) then s.setPort p { s.port p with txPend := some want } else s

/-- The limit of skew in symbols (R62, Table 2.13). -/
def State.skewMax (s : State) (p : Nat) : Nat := 8 * min 0x70 (s.fget (PRT.TIMING_DESKEW_MAX p))

/-- The lanes in state `st` that deskew takes together: not those marked for drop. -/
def State.deskewSet (s : State) (p st : Nat) : List Nat := (s.lanesIn p [st]).filter (fun m => !(s.lane p m).marked)

/-- The lane of a list with the greatest measured skew. -/
def State.worstSkew (s : State) (p : Nat) (l : List Nat) : Nat :=
  l.foldl (fun a m => if s.fget (PRT.LANE_STAT_SKEW p a) < s.fget (PRT.LANE_STAT_SKEW p m) then m else a) (l.headD 0)

/-- The lanes in state `st` whose skew exceeds the limit are dropped, greatest first, and the rest become ACTIVE; the port
retrains with reason 0x03 where fewer than 2 lanes would remain (R62). `fin` is what follows for the lanes that remain. -/
def deskewLanes (p st : Nat) (fin : State → List Nat → State) : Nat → State → State
  | 0, s => s
  | fuel + 1, s =>
    let al := s.deskewSet p st
    let m := s.worstSkew p al
    if s.fget (PRT.LANE_STAT_SKEW p m) ≤ s.skewMax p then fin (al.foldl (fun s m => s.toLane p m 7) s) al
    else
      let s := s.int (I.prt p) 4
      if al.length < 3 then s.failAttempt p 2 3
      else deskewLanes p st fin fuel (s.loseLane p m)

/-- Deskew of the lanes in state `st`, once every one of them holds the marker of one MKR_SEQ: identity first (R63), then
skew (R62). -/
def State.deskew (s : State) (p st : Nat) (fin : State → List Nat → State) : State :=
  let al := s.deskewSet p st
  let seqs := al.map (fun m => (s.lane p m).seq)
  if al = [] ∨ seqs.any (· = none) ∨ ¬ seqs.all (· = seqs.headD none) then s
  else
    let bad := al.filter (fun m => (s.lane p m).laneId ≠ m)
    let s := bad.foldl (fun s m => s.loseLane p m) s
    if 2 ≤ bad.length then s.failAttempt p 2 3 else deskewLanes p st fin 4 s

/-- Deskew in bring-up is done: RX_REQ names the lanes that are aligned (R64). -/
def State.askLanes (s : State) (p : Nat) (al : List Nat) : State :=
  s.setPort p { s.port p with rxReq := laneMask al, reqMarkers := some 0 }

/-! ### Lane drop -/

/-- The receiver declares a lane bad (R70): the drop begins by asking the partner for the other lanes, or,
where fewer than 2 would remain, a LANE_LIMIT message is sent instead. -/
def State.declareBad (s : State) (p m : Nat) : State :=
  let q := s.port p
  let desk := decide (s.portState p = 3)
  let now := if q.dropMask = 0 ∧ ¬ desk then s.fget (PRT.STATE_RX_MASK p) else q.rxReq
  if !bitAt now m then s
  else
    let left := setBit now m false
    if popcount 4 left < 2 then s.fault (0x010 + 8 * p) 0x20 2 0
    else s.setPort p { q with
      dropMask := setBit q.dropMask m true, rxReq := left, announce := 1, reqMarkers := if desk then q.reqMarkers else some 0 }

/-- The receiver judges a lane for R70: it is ACTIVE on a port that has deskewed it, whatever the transmit direction does.
During the mask exchange (DESKEW) the drop changes the RX_REQ of R64, whose time limit goes on. -/
def State.dropsLane (s : State) (p m : Nat) : Bool :=
  decide (s.laneState p m = 7) && decide (3 ≤ s.portState p) && decide (s.portState p ≤ 7)

/-- The partner stripes on the lanes asked for: the new mask applies, the dropped lanes are counted and
reported, and in UP one NAK restarts the replay (Table 2.7 step 4, R90). Traffic that waited for the drop goes on (R74). -/
def State.dropDone (s : State) (p mask : Nat) : State :=
  let q := s.port p
  let gone := (List.range 4).filter (bitAt q.dropMask)
  let s := s.fset (PRT.STATE_RX_MASK p) mask
  let s := s.setPort p { q with dropMask := 0, announce := 0, reqMarkers := none, holdTx := false }
  let s := gone.foldl (fun s m => (if s.laneState p m = 11 then s else s.loseLane p m).event 0x0041 1 [p, 0, mask]) s
  if s.portState p ≠ 5 then s
  else
    let ack := (s.fget (LNK.PSTAT_RX_EXPECT p) + 4095) % 4096
    ((s.setLink p { s.link p with ackTx := ack }).sendNak p).pump p

/-- The port enters LINK_INIT once the masks are agreed (R64, R92); a lane drop that began during the exchange ends with
it. -/
def State.checkMasks (s : State) (p : Nat) : State :=
  if s.portState p = 3 ∧ (s.port p).rxReq ≠ 0 ∧ s.masksAgreed p then
    let mask := s.fget (PRT.PARTNER_TX_MASK p)
    let s := (s.toPort p 4).fset (PRT.STATE_RX_MASK p) mask
    let s := s.setPort p { s.port p with reqMarkers := none }
    let s := (s.setLink p { s.link p with ackSeen := false, ackGot := false, inits := 0 }).fset (LNK.PSTAT_LINK_STATE p) 1
    if (s.port p).dropMask = 0 then s else s.dropDone p mask
  else s

/-- The partner's RX_REQ drops transmit lanes: applied at the next marker, or, where fewer than 2 would remain, kept out,
with LANE_LIMIT as it arrives (R71). -/
def State.partnerDrop (s : State) (p : Nat) (new : Bool) : State :=
  let tx := s.fget (PRT.STATE_TX_MASK p)
  let want := tx &&& s.fget (PRT.PARTNER_RX_REQ p)
  if want = tx then s
  else if popcount 4 want < 2 then (if new then s.fault (0x010 + 8 * p) 0x20 2 1 else s)
  else s.setPort p { s.port p with txPend := some want }

/-! ### Idle -/

/-- The transmitters of a port send flits with markers: in bring-up once training is over, while the LPLL is locked; in
LINK_INIT and UP while the LPLL runs, in holdover too (R47); in light idle only to announce deep idle; in a deep exit once
the LPLL has locked again (Table 2.9 D2). -/
def State.sendsMarkers (s : State) (p : Nat) : Bool :=
  let st := s.portState p
  let locked := s.flag (CLK.PLL_STAT_LOCKED (2 + p / 2))
  if st = 0 ∨ (s.port p).training then false
  else if st ≤ 3 then s.lpllOk (p / 2)
  else if st ≤ 5 then locked || s.flag (CLK.PLL_STAT_HOLDOVER (2 + p / 2))
  else if st = 6 then (s.port p).idleWant.isSome && (locked || s.flag (CLK.PLL_STAT_HOLDOVER (2 + p / 2)))
  else decide (st = 7) && (s.port p).aligner && locked

/-- An idle exit drops through Table 2.7 the lanes marked during light idle, and those that a deep exit's deskew has
excluded, and traffic waits for that (R62, R74). DEDUCED (assumption 64): the marked lane is dropped whatever DROP_EN
holds. -/
def State.dropAtExit (s : State) (p : Nat) : State :=
  let bad := (s.laneEn p).filter (fun m => (s.lane p m).marked || decide (s.laneState p m = 11))
  let s := bad.foldl (fun s m => (s.setLane p m { s.lane p m with marked := false }).declareBad p m) s
  s.setPort p { s.port p with holdTx := decide ((s.port p).dropMask ≠ 0) }

/-- The transmit direction of a port in LIGHT returns to UP (Table 2.9 L1, L2); its lanes are ACTIVE again at the
partner's marker (L3). -/
def State.lightExit (s : State) (p ns : Nat) : State :=
  if s.portState p ≠ 6 then s
  else
    let s := (s.fset (PRT.EXIT_TIME_LIGHT_EXIT p) (min ns 0xFFFF)).dropAtExit p
    (s.setPort p { s.port p with rxNext := none }).enterUp p

/-- The parallel aligner starts to search on the lanes in deep idle (Table 2.9 D3). -/
def State.startAligner (s : State) (p : Nat) (lanes : List Nat) : State :=
  lanes.foldl (fun s m =>
    (((s.setLane p m { s.lane p m with matched := false, seq := none, found := none }).fset
      (PRT.LANE_STAT_AM_LOCK p m) 0).fset (PRT.LANE_STAT_CDR_LOCK p m) 0).toLane p m 9)
    (s.setPort p { s.port p with aligner := true, exitFrom := s.now, rxNext := none })

/-- A port in DEEP begins its exit: the parallel aligner searches, or the port retrains where HW_ALIGN = 0
(R73). -/
def State.deepExit (s : State) (p : Nat) : State :=
  if s.portState p ≠ 7 then s
  else if s.flag (PRT.CTRL_HW_ALIGN p) then s.startAligner p (s.lanesIn p [7, 8, 9])
  else s.enterRetrain p 4

/-- The partner ends the deep idle of the receive direction alone, as signal detect on a lane shows: the parallel aligner
searches, or the port retrains where HW_ALIGN = 0 (R72, R73). -/
def State.rxDeepExit (s : State) (p : Nat) : State :=
  if (s.portState p = 5 ∨ s.portState p = 6) ∧ ¬ (s.port p).aligner then
    if s.flag (PRT.CTRL_HW_ALIGN p) then s.startAligner p (s.lanesIn p [9]) else s.enterRetrain p 4
  else s

/-- The deep exit is complete: the link resumes with no INIT exchange, and the transmit direction is UP again where it was
in deep idle too (Table 2.9 D5, R91). -/
def State.deepDone (s : State) (p : Nat) : State :=
  let s := s.fset (PRT.EXIT_TIME_DEEP_EXIT p) (min ((s.now - (s.port p).exitFrom) / 100) 0xFFFF)
  let s := (s.setPort p { s.port p with aligner := false }).dropAtExit p
  if s.portState p = 7 then s.enterUp p else s

/-- Once every lane that is not marked for drop is aligned, the deep exit deskews them at the next common marker (Table 2.9
D5). DEDUCED (assumption 64): a marked lane, which lost its signal, is not waited for. -/
def State.checkDeep (s : State) (p : Nat) : State :=
  let wait := (s.lanesIn p [9]).filter (fun m => !(s.lane p m).marked)
  if 5 ≤ s.portState p ∧ (s.port p).aligner ∧ wait.all (fun m => s.flag (PRT.LANE_STAT_AM_LOCK p m)) then
    s.deskew p 9 (fun s _ => s.deepDone p)
  else s

/-- The transmit direction of a port enters the idle state that it announced (R72). The receive direction follows the
partner's announcement. -/
def State.enterIdle (s : State) (p : Nat) (deep : Bool) : State :=
  let s := s.setPort p { s.port p with idleWant := none, idleAnnounced := false, announce := 0 }
  s.toPort p (if deep then 7 else 6)

/-- The receive direction enters the idle state that the partner announced (R72): light keeps the loops, deep stops the
CDR. -/
def State.enterRxIdle (s : State) (p : Nat) (deep : Bool) : State :=
  (s.lanesIn p [7, 8]).foldl (fun s m =>
    if deep then (s.toLane p m 9).fset (PRT.LANE_STAT_CDR_LOCK p m) 0 else s.toLane p m 8) s

/-! ### LPLLs -/

/-- A port whose LPLL relocks or enters holdover abandons bring-up, slip search and test, and waits for lock
from step 1 of Table 2.6 (R49). DESIGN CHOICE (assumption 63): TEST_EN, which is software's, stays as it is. A port that left
TEST so restarts without its dropped lanes (R55). -/
def State.abandonBringup (s : State) (p : Nat) : State :=
  let st := s.portState p
  if st = 1 ∨ st = 2 ∨ st = 3 ∨ st = 8 then (s.toPort p 1).startBringup p
  else if st = 9 then (s.toPort p 1).restartLanes p
  else s

/-- LPLL `k` is locked to a valid reference: its lanes leave PLL_WAIT and its ports send training (R49, Table
2.6 step 2). -/
def State.leavePllWait (s : State) (k : Nat) : State :=
  let s := (s.setFlag (CLK.PLL_STAT_LOCKED (2 + k)) true).setFlag (CLK.PLL_STAT_HOLDOVER (2 + k)) false
  [2 * k, 2 * k + 1].foldl (fun s p =>
    let s := s.setFlag (PRT.STATE_HOLDOVER p) false
    let w := s.lanesIn p [1]
    if w = [] then s
    else
      let s := (s.beginBringup p).setPort p { s.port p with training := true }
      w.foldl (fun s m => s.toLane p m (if s.flag (PRT.LANE_STAT_SD p m) then 3 else 2)) s) s

/-- LPLL `k` reports its lock, with the time it took. -/
def State.lpllLocked (s : State) (k lockUs : Nat) : State :=
  (s.leavePllWait k).fset (CLK.PLL_STAT_LOCK_US (2 + k)) (min lockUs 255)

/-- An LPLL loses its REFCLK: its reference input goes to FIO (code 1), it opens its loop and enters holdover, and its
ports that are past bring-up keep running (R47). -/
def State.enterHoldover (s : State) (k : Nat) : State :=
  let lost := s.fget (CLK.PLL_STAT_REF (2 + k))
  let s : State := { s with clk := { s.clk with lostRef := SMap.set 0 s.clk.lostRef k lost } }
  let s := (s.fset (CLK.PLL_STAT_REF (2 + k)) 1).fset (CLK.PLL_STAT_HOLDOVER (2 + k)) 1
  [2 * k, 2 * k + 1].foldl (fun s p =>
    ((s.fset (PRT.STATE_HOLDOVER p) 1).int (I.prt p) 6).abandonBringup p) s

end Sys2Proof.Machine
end

