-- ==== Sys2Proof/Machine/PortCmds.lean ====
section
/-! DEFINITION. The commands of the lane ports (spec/02_lane_ports.md). A port that is gated (R420), does not
exist, or whose clocks are stopped takes no effect from them. -/

namespace Sys2Proof.Machine

open Sys2Proof.Reg

/-- The answer of a command whose effect is a next state. -/
abbrev done (s : State) : Host.Outcome State Fault Refusal := .next s

/-- A write to a register of port `p` reaches it: the block is not gated (R17, R420); a gated block drops
and counts it. -/
def State.portWrite (s : State) (p addr : Nat) (f : State → State) : State :=
  if ¬ isPort p ∨ ¬ s.live then s
  else if s.gated addr then s.countGated addr true
  else f s

/-- PORT_ENABLE: CTRL.EN is written 1. A DISABLED port starts bring-up, its ATTEMPT count at 0 (R57, R58, Table 2.5); a DOWN
port, whose EN is 1, leaves DOWN only by RETRAIN or by EN = 0. -/
def State.enablePort (s : State) (p : Nat) : State :=
  let s := s.setFlag (PRT.CTRL_EN p) true
  if s.portState p = 0 then
    let s := (s.fset (PRT.STATE_DOWN_REASON p) 0).fset (PRT.STATE_ATTEMPT p) 0
    let s := s.setFlag (CLK.PLL_STAT_EN (2 + p / 2)) true
    let ref := s.fget (CLK.PLL_STAT_REF (2 + p / 2))
    let s := if 4 ≤ ref then s.setFlag (CLK.MON_STAT_ARMED (ref - 1)) true else s
    let s := s.setLink p { s.link p with fresh := true }
    (s.toPort p 1).startBringup p
  else s

def execPortEnable (p : Nat) (s : State) : Host.Outcome State Fault Refusal :=
  done (s.portWrite p (PRT.CTRL p) (fun s => s.enablePort p))

/-- CTRL.EN is written 0: every lane OFF, the port DISABLED, its answers routed again (R58, R119). -/
def State.disablePort (s : State) (p : Nat) : State :=
  let s := s.setFlag (PRT.CTRL_EN p) false
  if s.portState p = 0 then s
  else
    let s := (s.toPort p 0).setPort p { lanes := (s.port p).lanes, mkrSeq := (s.port p).mkrSeq }
    let s := ((s.fset (PRT.STATE_TX_MASK p) 0).fset (PRT.STATE_RX_MASK p) 0).fset (LNK.PSTAT_LINK_STATE p) 0
    let s := s.setLink p { s.link p with fresh := true, protoRun := false }
    let s := (List.range 4).foldl (fun s m =>
      let s := (((s.toLane p m 0).fset (PRT.LANE_STAT_SD p m) 0).fset (PRT.LANE_STAT_CDR_LOCK p m) 0).fset
        (PRT.LANE_STAT_AM_LOCK p m) 0
      (s.fset (PRT.LANE_STAT_DROPPED p m) 0).setLane p m { fir := (s.lane p m).fir }) s
    (s.reroute p).settlePort p

def execPortDisable (p : Nat) (s : State) : Host.Outcome State Fault Refusal :=
  done (s.portWrite p (PRT.CTRL p) (fun s => s.disablePort p))

/-- CTRL.RETRAIN is written (R57): ignored in TEST and DISABLED; in DOWN it also clears ATTEMPT. -/
def State.writeRetrain (s : State) (p : Nat) : State :=
  let st := s.portState p
  if st = 0 ∨ st = 9 then s
  else (if st = 10 then s.fset (PRT.STATE_ATTEMPT p) 0 else s).enterRetrain p 1

def execPrtCtrlRetrain (p : Nat) (s : State) : Host.Outcome State Fault Refusal :=
  done (s.portWrite p (PRT.CTRL p) (fun s => s.writeRetrain p))

/-- The test checker's counts (R75): `errs` errored bits and `checked` units of 2^20 bits for each lane in
LANE_SEL, where a check is on. -/
def State.countPrbs (s : State) (p : Nat) (errs checked : List Nat) : State :=
  let chk := s.fget (PRT.TEST_CFG_RX_CHK p)
  if chk ≠ 1 ∧ chk ≠ 2 then s
  else
    let sel := (List.range 4).filter (bitAt (s.fget (PRT.TEST_CFG_LANE_SEL p)))
    let s := sel.foldl (fun s m =>
      (s.bumpSat (PRT.PRBS_ERR_COUNT p m) (nth errs m)).bumpSat (PRT.PRBS_BITS_COUNT p m) (nth checked m)) s
    if sel.any (fun m => nth errs m ≠ 0) then s.int (I.prt p) 8 else s

/-- TEST_EN = 1 takes a port from UP to TEST; in TEST the counts go on. TEST_EN = 0 returns it to BRINGUP
with its lanes in CDR_ACQ and its dropped lanes as they are, its link state kept (R55, R75, Table 2.4, Table 2.5). -/
def State.testMode (s : State) (p : Nat) (on : Bool) (errs checked : List Nat) : State :=
  let s := s.setFlag (PRT.CTRL_TEST_EN p) on
  if s.portState p = 9 then
    let s := s.countPrbs p errs checked
    if on then s else (s.toPort p 1).restartLanes p
  else if on ∧ s.portState p = 5 then s.enterTest p
  else s

def execTestEn (p : Nat) (on : Bool) (errs checked : List Nat) (s : State) : Host.Outcome State Fault Refusal :=
  done (s.portWrite p (PRT.CTRL p) (fun s => s.testMode p on errs checked))

/-- A write to SLIP (R60). -/
def State.writeSlip (s : State) (p lane count : Nat) : State :=
  if count % 64 = 0 then s
  else if s.laneState p (lane % 4) = 5 then s.slip p (lane % 4) (count % 64)
  else s.int (I.prt p) 7

def execPrtSlip (p lane count : Nat) (s : State) : Host.Outcome State Fault Refusal :=
  done (s.portWrite p (PRT.SLIP p) (fun s => s.writeSlip p lane count))

def execLpllLock (k lockUs : Nat) (s : State) : Host.Outcome State Fault Refusal :=
  done (if k < 4 ∧ s.live ∧ s.flag (CLK.PLL_STAT_EN (2 + k)) then s.lpllLocked k lockUs else s)

/-- Signal detect asserts on a lane: it starts CDR acquisition, and it is a wake source in deep idle and in
Furl (R54, R393). A lane that is OFF outside Furl is unpowered and detects nothing. -/
def State.signalDetect (s : State) (p m : Nat) : State :=
  if s.pwr = 3 then (if m = 0 then s.wakeEvent 1 p else s)
  else if ¬ s.live ∨ s.laneState p m = 0 then s
  else
    let s := s.setFlag (PRT.LANE_STAT_SD p m) true
    let s := if s.laneState p m = 9 ∨ s.laneState p m = 8 then s.wakeEvent 1 p else s
    let s := if s.laneState p m = 9 then s.rxDeepExit p else s
    if s.laneState p m = 2 then (s.beginBringup p).toLane p m 3 else s

def execSignalDetect (p m : Nat) (s : State) : Host.Outcome State Fault Refusal :=
  done (if isPort p ∧ m < 4 then s.signalDetect p m else s)

/-- A lane loses signal detect (`sdLost`) or CDR lock: SD_LOST is set; in bring-up the lane falls back to
SIG_WAIT; in light idle it is marked for drop (R74); an ACTIVE lane of a port past deskew is declared bad at once where
DROP_EN = 1 (R70). -/
def State.signalLost (s : State) (p m : Nat) (sdLost : Bool) : State :=
  let s := if sdLost then ((s.setFlag (PRT.LANE_STAT_SD p m) false).int (I.prt p) 5) else s
  let s := s.setFlag (PRT.LANE_STAT_CDR_LOCK p m) false
  let st := s.laneState p m
  if st = 3 ∧ sdLost then s.toLane p m 2
  else if st = 8 then s.setLane p m { s.lane p m with marked := true }
  else if s.dropsLane p m ∧ s.flag (PRT.CTRL_DROP_EN p) then s.declareBad p m
  else s

def execLossOfSignal (p m : Nat) (sdLost : Bool) (s : State) : Host.Outcome State Fault Refusal :=
  done (if isPort p ∧ m < 4 ∧ s.live ∧ s.laneState p m ≠ 0 then s.signalLost p m sdLost else s)

/-- Clock recovery locks: the lane moves to ADAPT (Table 2.4). -/
def State.cdrLock (s : State) (p m : Nat) : State :=
  let s := s.setFlag (PRT.LANE_STAT_CDR_LOCK p m) true
  if s.laneState p m = 3 then (s.beginBringup p).toLane p m 4 else s

def execCdrLock (p m : Nat) (s : State) : Host.Outcome State Fault Refusal :=
  done (if isPort p ∧ m < 4 ∧ s.live ∧ s.flag (PRT.LANE_STAT_SD p m) then s.cdrLock p m else s)

/-- SD_WAIT passes on a lane still without signal: it is dropped, and a port left with fewer than 2 lanes
goes DOWN with reason 0x01 (Table 2.6 step 3). -/
def execSdWaitExpiry (p m : Nat) (s : State) : Host.Outcome State Fault Refusal :=
  done (if isPort p ∧ m < 4 ∧ s.live ∧ s.laneState p m = 2 then
    ((s.beginBringup p).loseLane p m).checkSignal p else s)

/-- Training ends: the transmitters send scrambled idle flits with TX_MASK = LANE_EN and STATE NORMAL (Table
2.6 step 6), and the lanes in `adapted`, whose coarse adaptation is done, enter ALIGN. -/
def State.trainingEnds (s : State) (p adapted : Nat) : State :=
  let s := (s.beginBringup p).setPort p { s.port p with training := false, announce := 0 }
  let s := s.fset (PRT.STATE_TX_MASK p) (s.fget (PRT.CTRL_LANE_EN p))
  (s.adaptDone p adapted).checkAlign p

def execTrainLenExpiry (p adapted : Nat) (s : State) : Host.Outcome State Fault Refusal :=
  done (if isPort p ∧ s.live ∧ (s.port p).training then s.trainingEnds p adapted else s)

/-- Two marker intervals have passed in the firmware search (R61): lanes whose adaptation is done enter
ALIGN, each searching lane is judged, and the search may end. -/
def State.searchTick (s : State) (p adapted : Nat) : State :=
  let s := s.adaptDone p adapted
  if s.portState p = 1 then s.checkAlign p
  else if s.portState p = 2 then ((List.range 4).foldl (fun s m => s.searchLane p m) s).endSearch p
  else s

def execBitSlipSearch (p adapted : Nat) (s : State) : Host.Outcome State Fault Refusal :=
  done (if isPort p ∧ s.live then s.searchTick p adapted else s)

/-! ### Alignment markers -/

/-- A field of a marker block (Table 2.3). -/
def mkr (x : BitVec 128) (lo w : Nat) : Nat := bits x.toNat lo w

/-- SYNC in a marker block that stands at word position `pos`. At the lane's present boundary, lock is declared at the second
match in a row (R60); the parallel aligner of a deep exit tests all 64 positions and locks on two matches in a row at one,
which becomes the lane's boundary (R73). -/
def State.markerLock (s : State) (p m pos : Nat) (x : BitVec 128) : State :=
  let l := s.lane p m
  let sync := decide (mkr x 64 64 = 0xA5C396F00F693C5A)
  let lock := fun (s : State) => (s.setFlag (PRT.LANE_STAT_AM_LOCK p m) true).setFlag (PRT.PARTNER_VALID p) true
  if (s.port p).aligner ∧ s.laneState p m = 9 ∧ ¬ s.flag (PRT.LANE_STAT_AM_LOCK p m) then
    if sync ∧ l.found = some pos then
      (lock (s.fset (PRT.LANE_STAT_SLIP_POS p m) pos)).setLane p m { l with found := none, matched := true }
    else s.setLane p m { l with found := if sync then some pos else none }
  else if sync ∧ pos = s.fget (PRT.LANE_STAT_SLIP_POS p m) then
    (if l.matched then lock s else s).setLane p m { l with matched := true }
  else s.setLane p m { l with matched := false }

/-- The BIP check of R53: the differing bits are counted, and on an ACTIVE lane of a port past deskew they drive the
drop of R70. -/
def State.checkBip (s : State) (p m : Nat) (x : BitVec 128) (parity : BitVec 32) : State :=
  let n := popcount 32 (mkr x 0 32 ^^^ parity.toNat)
  let s := s.bumpSat (PRT.BIP_CNT_COUNT p m) n
  if s.dropsLane p m then
    let run := if s.fget (PRT.DROP_CFG_BIP_THR p) < n then (s.lane p m).bipRun + 1 else 0
    let s := s.setLane p m { s.lane p m with bipRun := run }
    if max 1 (s.fget (PRT.DROP_CFG_WIN p)) ≤ run ∧ s.flag (PRT.CTRL_DROP_EN p) then s.declareBad p m else s
  else s

/-- One slicer step that waits for a marker boundary applies: one threshold of the lane moves by one (R68,
R359). -/
def State.slicerStep (s : State) (p m : Nat) : State :=
  match (s.lane p m).steps with
  | [] => s
  | (t, up) :: rest =>
    let f := if t = 0 then PRT.SLICER_THR_HI p m else if t = 1 then PRT.SLICER_THR_MID p m else PRT.SLICER_THR_LO p m
    let v := s.fget f
    let s := s.setLane p m { s.lane p m with steps := rest }
    (s.fset f (if up then min (v + 1) 0x3FF else v - 1)).bump (CAL.LANE_CAL_STEP_CNT p) 1

/-- The partner's fields of the last marker (Table 2.16); a STATE value that Table 2.3 does not list is ignored. -/
def State.setPartner (s : State) (p : Nat) (x : BitVec 128) : State :=
  let s := ((s.fset (PRT.PARTNER_PORT_ID p) (mkr x 57 3)).fset (PRT.PARTNER_TX_MASK p) (mkr x 53 4)).fset
    (PRT.PARTNER_RX_REQ p) (mkr x 49 4)
  if mkr x 33 8 ≤ 4 then s.fset (PRT.PARTNER_STATE p) (mkr x 33 8) else s

/-- A marker boundary of the partner, at the first marker with its MKR_SEQ: the replay timer stays suspended while the
partner is DROP_PENDING and for 2 marker intervals after it (R90), and the receive direction enters the idle state that the
boundary before announced (R72). -/
def State.markerBoundary (s : State) (p seq : Nat) : State :=
  let l := s.link p
  let st := s.fget (PRT.PARTNER_STATE p)
  let s := s.setLink p { l with suspend := if st = 1 then 2 else l.suspend - 1 }
  let q := s.port p
  let said := if st = 2 then some false else if st = 3 then some true else none
  match q.rxNext with
  | none => s.setPort p { q with rxSeq := some seq, rxNext := said }
  | some deep => (s.setPort p { q with rxSeq := some seq, rxNext := none, rxIdleSeq := some seq }).enterRxIdle p deep

/-- The masks a marker carries act from LINK_INIT on: the receive mask follows the partner's TX_MASK, which
ends a drop in progress, and a RX_REQ may drop transmit lanes (R70, R71); `new`: the RX_REQ has changed. -/
def State.markerUp (s : State) (p : Nat) (new : Bool) : State :=
  let tx := s.fget (PRT.PARTNER_TX_MASK p)
  let q := s.port p
  let s := if q.dropMask ≠ 0 ∧ tx = q.rxReq then s.dropDone p tx
    else if q.dropMask = 0 ∧ 2 ≤ popcount 4 tx then s.fset (PRT.STATE_RX_MASK p) tx else s
  s.partnerDrop p new

/-- A marker on a lane with marker lock: identity and sequence go to the deskew buffer (R62, R63), the
partner's fields are shown, and the port moves on as its state asks. -/
def State.markerFields (s : State) (p m : Nat) (x : BitVec 128) (skew : Nat) : State :=
  let new := decide (s.fget (PRT.PARTNER_RX_REQ p) ≠ mkr x 49 4)
  let s := s.setLane p m { s.lane p m with seq := some (mkr x 41 8), laneId := mkr x 60 4 }
  let s := ((s.setPartner p x).fset (PRT.LANE_STAT_SKEW p m) (min skew 1023)).slicerStep p m
  let s := if (s.port p).rxSeq = some (mkr x 41 8) then s else s.markerBoundary p (mkr x 41 8)
  if s.portState p = 3 then
    (((if (s.port p).rxReq = 0 then s.deskew p 6 (fun s al => s.askLanes p al) else s)).followReq p).checkMasks p
  else if 4 ≤ s.portState p ∧ s.portState p ≤ 7 then (s.markerUp p new).checkDeep p
  else s

/-- A received marker (R53): lock, parity, then its fields where the lane holds marker lock. A deep exit deskews only at a
marker after the one that locked (Table 2.9 D4, D5). A lane in light idle is ACTIVE again at the first marker that it
recognises after the one at which the partner entered idle (L3). Markers and BIP are off in TEST (R75). -/
def State.marker (s : State) (p m : Nat) (x : BitVec 128) (parity : BitVec 32) (skew pos : Nat) : State :=
  let was := s.flag (PRT.LANE_STAT_AM_LOCK p m)
  let s := s.markerLock p m pos x
  if s.flag (PRT.LANE_STAT_AM_LOCK p m) ∧ (s.lane p m).matched ∧ (was ∨ ¬ (s.port p).aligner) then
    let s := if s.laneState p m = 8 ∧ (s.port p).rxIdleSeq ≠ some (mkr x 41 8) then s.toLane p m 7 else s
    let s := s.checkBip p m x parity
    if s.laneState p m = 11 then s else s.markerFields p m x skew
  else s

def execAlignmentMarker (p m : Nat) (marker : BitVec 128) (parity : BitVec 32) (place : MarkerPlace) (s : State) :
    Host.Outcome State Fault Refusal :=
  done (if isPort p ∧ m < 4 ∧ s.live ∧ s.portState p ≠ 9 ∧ [5, 6, 7, 8, 9, 11].contains (s.laneState p m) then
    s.marker p m marker parity place.skew place.pos else s)

/-- Eight marker intervals after RX_REQ was first sent, the masks are still too small: the port retrains with
reason 0x07, and the attempt counts (R64). -/
def execMaskExchangeTimeout (p : Nat) (s : State) : Host.Outcome State Fault Refusal :=
  done (if isPort p ∧ s.live ∧ s.portState p = 3 ∧ 8 ≤ (s.port p).reqMarkers.getD 0 ∧ ¬ s.masksAgreed p then
    s.failAttempt p 3 7 else s)

/-- A pending transmit mask applies at a marker; from LINK_INIT on that is a transmit lane drop (R71). -/
def State.applyTxMask (s : State) (p : Nat) : State :=
  match (s.port p).txPend with
  | none => s
  | some v =>
    let gone := lessBits (s.fget (PRT.STATE_TX_MASK p)) v
    let s := (s.setPort p { s.port p with txPend := none }).fset (PRT.STATE_TX_MASK p) v
    if 4 ≤ s.portState p ∧ gone ≠ 0 then
      ((s.bumpSat (PRT.COUNTS_DROP_CNT p) (popcount 4 gone)).int (I.prt p) 3).event 0x0041 1 [p, 1, v]
    else s

/-- Every TX_FIR write that waits takes effect at the marker boundary (R69). -/
def State.applyFir (s : State) (p : Nat) : State :=
  (List.range 4).foldl (fun s m =>
    match (s.lane p m).fir with
    | some v => (s.setReg (PRT.TX_FIR p m) (BitVec.ofNat 32 v)).setLane p m { s.lane p m with fir := none }
    | none => s) s

/-- The ordered idle entry at a marker: announced in one marker and entered at the next, once no lane drop
is in progress and no flit is unacknowledged in either direction: the replay buffer is empty, the receiver does not wait for
a replay, and the ACK of the last flit it accepted has left (R71, R72, R91). -/
def State.idleMarker (s : State) (p : Nat) : State :=
  let q := s.port p
  match q.idleWant with
  | none => s
  | some deep =>
    if q.dropMask ≠ 0 ∨ (s.link p).replay ≠ [] ∨ (s.link p).part ≠ [] ∨ s.fget (LNK.PSTAT_LINK_STATE p) = 3 ∨
        (s.link p).ackSent ≠ (s.fget (LNK.PSTAT_RX_EXPECT p) + 4095) % 4096 then s
    else if q.idleAnnounced then s.enterIdle p deep
    else s.setPort p { q with announce := if deep then 3 else 2, idleAnnounced := true }

/-- A marker leaves: its sequence number counts up, pending masks and coefficients apply, the markers that
carry RX_REQ are counted, and an idle entry moves on (R51, R69, R71, R72). -/
def State.sendMarker (s : State) (p : Nat) : State :=
  let q := s.port p
  let s := s.setPort p { q with mkrSeq := (q.mkrSeq + 1) % 256, reqMarkers := q.reqMarkers.map (· + 1) }
  (((s.applyTxMask p).applyFir p).idleMarker p).checkMasks p

def execMarkerSend (p : Nat) (s : State) : Host.Outcome State Fault Refusal :=
  done (if isPort p ∧ s.live ∧ s.sendsMarkers p then s.sendMarker p else s)

/-- The partner has not answered a RX_REQ change within 8 marker intervals (R71): a fault message. -/
def execRxreqTmo (p : Nat) (s : State) : Host.Outcome State Fault Refusal :=
  done (if isPort p ∧ s.live ∧ 4 ≤ s.portState p ∧ s.portState p ≤ 7 ∧ (s.port p).dropMask ≠ 0 ∧ 8 ≤ (s.port p).reqMarkers.getD 0 then
    (s.fault (0x010 + 8 * p) 0x21 2 0).setPort p { s.port p with reqMarkers := some 0 } else s)

/-- The REFCLK other than the one an LPLL lost, as its source code (Table 15.1), and whether it is valid. -/
def State.otherRef (s : State) (k : Nat) : Nat × Bool :=
  if SMap.get 0 s.clk.lostRef k = 4 then (5, s.flag CLK.STATUS_REFCLK1_VALID) else (4, s.flag CLK.STATUS_REFCLK0_VALID)

/-- Firmware re-references an LPLL in holdover to the other REFCLK and retrains both of its ports; where that
REFCLK has failed too, the ports go DOWN with reason 0x05 (R48). -/
def State.rereference (s : State) (k : Nat) : State :=
  let (ref, ok) := s.otherRef k
  if ok then
    let s := (s.fset (CLK.PLL_STAT_REF (2 + k)) ref).setFlag (CLK.PLL_STAT_HOLDOVER (2 + k)) false
    let s := (s.setFlag (CLK.PLL_STAT_LOCKED (2 + k)) false).setFlag (CLK.MON_STAT_ARMED (ref - 1)) true
    let s : State := { s with clk := { s.clk with lostRef := SMap.set 0 s.clk.lostRef k 0, reref := some k } }
    [2 * k, 2 * k + 1].foldl (fun s p =>
      let s := s.setFlag (PRT.STATE_HOLDOVER p) false
      if s.canRetrain p then s.enterRetrain p 1 else s) s
  else [2 * k, 2 * k + 1].foldl (fun s p => if s.canRetrain p then s.portDown p 5 else s) s

/-- An LPLL waits in holdover until the ports of the LPLL re-referenced before it are UP again, or are no longer brought up
(R48). -/
def State.othersUp (s : State) (k : Nat) : Bool :=
  match s.clk.reref with
  | none => true
  | some j => decide (j = k) || [2 * j, 2 * j + 1].all (fun p => !([1, 2, 3, 4, 8].contains (s.portState p)))

def execLpllRereference (k : Nat) (s : State) : Host.Outcome State Fault Refusal :=
  done (if k < 4 ∧ s.live ∧ s.flag (CLK.PLL_STAT_HOLDOVER (2 + k)) ∧ s.othersUp k then s.rereference k else s)

/-- 50 ms of holdover without a valid reference: the LPLL's ports go DOWN with reason 0x05 (R48). -/
def execHoldoverExpiry (k : Nat) (s : State) : Host.Outcome State Fault Refusal :=
  done (if k < 4 ∧ s.live ∧ s.flag (CLK.PLL_STAT_HOLDOVER (2 + k)) ∧ ¬ s.flag CLK.STATUS_REFCLK0_VALID ∧
      ¬ s.flag CLK.STATUS_REFCLK1_VALID then
    [2 * k, 2 * k + 1].foldl (fun s p => if s.canRetrain p then s.portDown p 5 else s) s else s)

/-- The parallel aligner has not locked within 4 marker intervals: the port retrains (R73). -/
def execParallelAlignerTimeout (p : Nat) (s : State) : Host.Outcome State Fault Refusal :=
  done (if isPort p ∧ s.live ∧ (s.port p).aligner then
    (s.setPort p { s.port p with aligner := false }).enterRetrain p 4 else s)

end Sys2Proof.Machine
end

