-- ==== Sys2Proof/Machine/Link.lean ====
section
/-! DEFINITION. The Valzor link layer (spec/03_link_layer.md): flits, sequence and replay, link start,
credits, and the parsing of slots into requests. -/

namespace Sys2Proof.Machine

open Sys2Proof.Reg

/-! ### Headers -/

/-- A request header of 128 bits (Table 3.8), as MGMT responses and EVTs use it. -/
def reqHeader (opcode reqId tag stackId len : Nat) : Nat :=
  opcode * 2 ^ 120 + reqId * 2 ^ 92 + tag * 2 ^ 80 + stackId * 2 ^ 68 + len * 2 ^ 12

/-- The request that 16 header bytes spell (R100), at its position in its slot. -/
def parseReq (p pos : Nat) (b : List Nat) : Req :=
  let x := ofBe b
  { port := p, opcode := bits x 120 8, cls := bits x 114 6, deadline := bits x 104 10, reqId := bits x 92 12,
    tag := bits x 80 12, stackId := bits x 68 12, addr := bits x 28 40, len := bits x 12 16, flags := bits x 0 12,
    pos := pos }

/-- Lines of 64 bytes overlapped by `n` bytes from an address; no byte counts as one line (R105). -/
def linesSpanned (addr n : Nat) : Nat := if n = 0 then 1 else (addr + n - 1) / 64 - addr / 64 + 1

/-- The slots that a request's header owes (Table 3.9, R105); a data-form opcode past position 0 owes none
(R546), and an opcode the device does not take owes none (R103). -/
def reqOwed (r : Req) : Nat :=
  if r.opcode = 0x40 then 1
  else if r.pos ≠ 0 then 0
  else if r.opcode = 0x29 then linesSpanned r.addr (min r.len 256) - 1
  else if r.opcode = 0x68 then (min r.len 256 + 63) / 64 - 1
  else 0

/-! ### Acknowledge and replay -/

/-- Free the replay buffer up to an ACK: entries not later than it, judged within a window of 2,048 (R84);
the count of replays without progress restarts (R89). -/
def State.applyAck (s : State) (p ack : Nat) : State :=
  let l := s.link p
  let keep := l.replay.filter (fun f => ¬ (ack + 4096 - f.seq) % 4096 < 2048)
  if keep.length = l.replay.length then s
  else s.setLink p { l with replay := keep, acked := ack, tries := 0, stalled := false }

/-- A replay: every flit of the buffer is sent again. Without ACK progress it is counted; at REPLAY_MAX it is reported (R89). -/
def State.countReplay (s : State) (p : Nat) : State :=
  let n := (s.link p).tries + 1
  let s := (s.setLink p { s.link p with tries := n }).resend p
  if n = max 1 (s.fget LNK.REPLAY_CFG_REPLAY_MAX) then (s.int I.lnk 3).fault (0x050 + p) 0x22 2 0 else s

/-- A good NAK: free up to its ACK, then retransmit every flit that remains, in SEQ order and with its
stored contents (R88). Retransmission leaves the replay buffer as it is. -/
def State.takeNak (s : State) (p ack : Nat) : State :=
  let s := (s.bumpSat (LNK.NAK_NAK_RX p) 1).applyAck p ack
  if (s.link p).replay = [] then s else s.countReplay p

/-- Enter replay wait and send a NAK at the next flit time (Table 3.4); no NAK leaves while the port's own
receive lane drop is in progress (R90). -/
def State.replayWait (s : State) (p : Nat) : State :=
  if s.fget (LNK.PSTAT_LINK_STATE p) = 3 then s
  else
    let s := s.fset (LNK.PSTAT_LINK_STATE p) 3
    if (s.port p).dropMask = 0 then s.sendNak p else s

/-- A protocol error: the flag, the count and the message with its locator (R85, R99). -/
def State.protoErr (s : State) (p locator : Nat) : State :=
  ((s.int I.lnk 4).bumpSat (LNK.DROPS_PROTO p) 1).fault (0x050 + p) 0x23 1 locator

/-! ### Parsing slots -/

/-- Spend a credit of the class of a received slot, if the partner holds one (R96). -/
def LinkSt.spend (l : LinkSt) (c : ReqClass) : Option LinkSt :=
  match c with
  | .rqh => if l.rxCredRqh = 0 then none else some { l with rxCredRqh := l.rxCredRqh - 1 }
  | .rqd => if l.rxCredRqd = 0 then none else some { l with rxCredRqd := l.rxCredRqd - 1 }
  | .mgq => if l.rxCredMgq = 0 then none else some { l with rxCredMgq := l.rxCredMgq - 1 }

/-- Count a slot of a class in the unit being received. -/
def RxUnit.count (u : RxUnit) (c : ReqClass) : RxUnit :=
  match c with
  | .rqh => { u with rqh := u.rqh + 1 }
  | .rqd => { u with rqd := u.rqd + 1 }
  | .mgq => { u with mgq := u.mgq + 1 }

/-- The credits of a unit's slots are owed to the partner (R97). -/
def LinkSt.oweUnit (l : LinkSt) (u : RxUnit) : LinkSt :=
  { l with oweRqh := l.oweRqh + u.rqh, oweRqd := l.oweRqd + u.rqd, oweMgq := l.oweMgq + u.mgq }

/-- Nothing is owed any more: the unit goes to the receive buffer with the requests not discarded; a unit
with none leaves at once, its credits owed (R97, R99). -/
def LinkSt.endUnit (l : LinkSt) : LinkSt :=
  if l.owed ≠ [] then l
  else
    let u := { l.unit with reqs := (l.asm.filter (fun a => !a.dropped)).map (·.got) }
    let l := { l with asm := [], unit := ⟨0, 0, 0, []⟩ }
    if u.reqs = [] then l.oweUnit u else { l with rx := l.rx ++ [u] }

/-- A request with one more slot's bytes. -/
def AsmReq.join (a : AsmReq) (b : List Nat) : AsmReq :=
  { a with got := { a.got with req := { a.got.req with data := a.got.req.data ++ b } } }

/-- A slot owed by an earlier header (R82): with a credit its bytes join their request; without one its
request is discarded as a whole and the slot counts as a protocol error (R99). -/
def State.owedSlot (s : State) (p : Nat) (b : List Nat) (o : Owed) (rest : List Owed) : State :=
  let l := { s.link p with owed := rest }
  match l.spend o.cls with
  | some l =>
    let asm := l.asm.mapIdx (fun i a => if i = o.idx then a.join (slice b 0 64) else a)
    s.setLink p { l with unit := l.unit.count o.cls, asm := asm }.endUnit
  | none =>
    let asm := l.asm.mapIdx (fun i a => if i = o.idx then { a with dropped := true } else a)
    (s.setLink p { l with asm := asm }.endUnit).protoErr p 1

/-- A slot parsed afresh (Table 3.3): empty, a header slot of up to five headers, or a data slot with one
header. Its requests are received now, in order, and this is their arrival (R101, R122); without a credit they are
discarded (R99). -/
def State.freshSlot (s : State) (p : Nat) (b : List Nat) : State :=
  let op := nth b 0
  if op = 0 then s
  else
    let dataForm := bitAt op 3
    let cls : ReqClass := if !dataForm then .rqh else if op = 0x68 then .mgq else .rqd
    let heads := if dataForm then [parseReq p 0 (slice b 0 16)]
      else ((List.range 5).map (fun i => parseReq p i (slice b (16 * i) 16))).filter (fun r => r.opcode ≠ 0)
    let heads := if dataForm then heads.map (fun r => { r with data := slice b 16 64 }) else heads
    let owed := (heads.mapIdx (fun i r => List.replicate (reqOwed r)
      (⟨if r.opcode = 0x68 then .mgq else .rqd, decide (r.opcode = 0x40), i⟩ : Owed))).flatten
    let got := (s.link p).spend cls
    let l := got.getD (s.link p)
    let asm : List AsmReq := heads.mapIdx (fun i r => ⟨⟨s.nextRx + i, s.now, r⟩, got.isNone⟩)
    let unit : RxUnit := if got.isSome then (⟨0, 0, 0, []⟩ : RxUnit).count cls else ⟨0, 0, 0, []⟩
    let l := { l with owed := owed, asm := asm, unit := unit }
    let s := { s with nextRx := s.nextRx + heads.length }.setLink p l.endUnit
    if got.isNone then s.protoErr p 1 else s

/-- Parse one slot of an accepted flit (R80, R82). -/
def State.parseSlot (s : State) (p : Nat) (b : List Nat) : State :=
  match (s.link p).owed with
  | o :: rest => s.owedSlot p b o rest
  | [] => s.freshSlot p b

/-! ### Link start -/

/-- The credits the device advertises fill its receive buffer (R97). -/
def State.advertise (s : State) (l : LinkSt) : LinkSt :=
  { l with rxCredRqh := s.fget LNK.CREDIT_INIT_RQH, rxCredRqd := s.fget LNK.CREDIT_INIT_RQD,
           rxCredMgq := s.fget LNK.CREDIT_INIT_MGQ, oweRqh := 0, oweRqd := 0, oweMgq := 0 }

/-- A FRESH start (R94): SEQ from 0, the partner's credits, no replay buffer, no parsing state; completions
in the replay buffer are counted as discarded. The receive buffer starts empty, as its advertised credits
say. After a resumed freeze the outstanding requests of the port are discarded too (R503). DESIGN CHOICE (assumption 67): MGR
credits above 255 count as 255, the most that TX_CREDIT.MGR holds. -/
def State.freshStart (s : State) (p cph cpd mgr : Nat) : State :=
  let l := s.link p
  let lost := l.sentAnswers
  let s := if l.dropTxns then { s with txns := s.txns.filter (fun t => t.req.port ≠ p) } else s
  let s := s.setLink p (s.advertise { l with
    ackSeen := true, inits := 0, acked := 4095, tries := 0, ackTx := 4095, owed := [], asm := [], unit := ⟨0, 0, 0, []⟩,
    rx := [], part := [], replay := [], stalled := false, dropTxns := false })
  let s := ((s.fset (LNK.PSTAT_TX_NEXT_SEQ p) 0).fset (LNK.PSTAT_RX_EXPECT p) 0).setFlag (LNK.PSTAT_RESUMED p) false
  let s := ((s.fset (LNK.TX_CREDIT_CPH p) cph).fset (LNK.TX_CREDIT_CPD p) cpd).fset (LNK.TX_CREDIT_MGR p) (min mgr 255)
  if lost = 0 then s else (s.bumpSat (LNK.DROPS_RSP_DROP p) lost).int I.lnk 6

/-- A RESUME start (R94): credits go on, and the replay begins at the partner's NEXT_RX. An ACK held for a lane drop that
the retrain ended (R90) is held no longer. -/
def State.resumeStart (s : State) (p nextRx : Nat) : State :=
  let s := s.applyAck p ((nextRx + 4095) % 4096)
  let ack := (s.fget (LNK.PSTAT_RX_EXPECT p) + 4095) % 4096
  (s.setLink p { s.link p with ackSeen := true, inits := 0, dropTxns := false, ackTx := ack }).setFlag (LNK.PSTAT_RESUMED p) true

/-- The port enters UP once an INIT with ACK_SEEN = 1 has come and 16 of its own with ACK_SEEN = 1 have gone (R93). -/
def State.checkInit (s : State) (p : Nat) : State :=
  let l := s.link p
  if s.portState p = 4 ∧ l.ackSeen ∧ l.ackGot ∧ 16 ≤ l.inits then
    (s.setLink p { l with fresh := false }).portUp p
  else s

/-- An INIT flit in LINK_INIT (R93 to R95): a FRESH from either end makes both FRESH; a match acknowledges
it, and its ACK_SEEN is noted. -/
def State.takeInit (s : State) (p : Nat) (b : List Nat) : State :=
  if nth b 1 ≠ 1 then s
  else
    let partnerFresh := !bitAt (nth b 2) 6
    let l := s.link p
    let s := if partnerFresh ∧ ¬ l.fresh then s.setLink p { l with fresh := true, ackSeen := false, ackGot := false, inits := 0 } else s
    let l := s.link p
    if partnerFresh ≠ l.fresh then s
    else
      let cph := ofBe (slice b 4 2) % 4096
      let cpd := ofBe (slice b 6 2) % 4096
      let mgr := ofBe (slice b 8 2) % 4096
      if l.fresh ∧ (cph < 8 ∨ cpd < 16 ∨ mgr < 4) then s
      else
        let s := if l.ackSeen then s
          else if l.fresh then s.freshStart p cph cpd mgr
          else s.resumeStart p (ofBe (slice b 10 2) % 4096)
        let s := if bitAt (nth b 2) 7 then s.setLink p { s.link p with ackGot := true } else s
        s.checkInit p

/-- A flit time begins on the transmit lanes in this nanosecond: one every 256 bytes, and a lane carries 28 bytes in a
nanosecond (R50; 2.29 ns on four lanes, Table 3.5). -/
def State.flitTime (s : State) (p : Nat) : Bool :=
  let rate := 28 * popcount 4 (s.fget (PRT.STATE_TX_MASK p))
  decide (rate * (s.now - 1) / 256 < rate * s.now / 256)

/-- The flit that fills a flit time for which nothing waits: INIT flits back to back in LINK_INIT (R92), of which those with
ACK_SEEN = 1 count (R93); else an idle flit, which carries the current ACK (R84, R85). In light idle no flit goes. -/
def State.fillFlit (s : State) (p : Nat) : State :=
  let l := s.link p
  if ¬ s.sendsMarkers p ∨ s.portState p = 6 ∨ ¬ s.flitTime p then s
  else if s.portState p = 4 then (s.setLink p { l with inits := l.inits + b2n l.ackSeen }).emit p (s.initFlit p)
  else s.emit p (s.idleFlit p 0)

/-- A nanosecond on a port: the flits on the lanes have left, and idle or INIT flits fill the time (R84, R92). -/
def State.linkTick (s : State) (p : Nat) : State :=
  let l := s.link p
  State.checkInit ((if l.wire = [] then s else s.setLink p { l with wire := [] }).fillFlit p) p

/-- An INIT with ACK_SEEN = 0 on a port in UP: the partner has restarted (R93). -/
def State.initInUp (s : State) (p : Nat) (b : List Nat) : State :=
  if nth b 1 ≠ 1 ∨ bitAt (nth b 2) 7 then s
  else
    let l := s.link p
    let s := s.int I.lnk 4
    if l.protoRun then s else (s.setLink p { l with protoRun := true }).fault (0x050 + p) 0x23 1 2

/-! ### Flits -/

/-- A good corrected flit is counted, and CORR_HIGH sets at the threshold of its window (Table 3.4, Table
3.19). -/
def State.countCorrected (s : State) (p n : Nat) : State :=
  let s := s.bumpSat (LNK.CORR_FLITS_COUNT p) 1
  let s := if n = 1 then s.bumpSat (LNK.CORR_12_CNT1 p) 1 else if n = 2 then s.bumpSat (LNK.CORR_12_CNT2 p) 1
    else if n = 3 then s.bumpSat (LNK.CORR_34_CNT3 p) 1 else s.bumpSat (LNK.CORR_34_CNT4 p) 1
  let l := s.link p
  let fresh := decide (1000 * max 1 (s.fget LNK.CORR_CFG_CORR_WIN) ≤ s.now - l.corrFrom)
  let l := if fresh then { l with corrFrom := s.now, corrIn := 1 } else { l with corrIn := l.corrIn + 1 }
  let s := s.setLink p l
  if l.corrIn = s.fget LNK.CORR_CFG_CORR_THR then s.int I.lnk 2 else s

/-- Credits that the partner returns (Table 3.2). -/
def State.takeCredits (s : State) (p sel n : Nat) : State :=
  if sel = 4 then s.bumpSat (LNK.TX_CREDIT_CPH p) n
  else if sel = 5 then s.bumpSat (LNK.TX_CREDIT_CPD p) n
  else if sel = 6 then s.bumpSat (LNK.TX_CREDIT_MGR p) n
  else s

/-- A good sequenced flit (Table 3.4): in order, a duplicate, or beyond a gap. -/
def State.takeSequenced (s : State) (p hdr : Nat) (slots : List (List Nat)) : State :=
  let seq := bits hdr 20 12
  let ack := bits hdr 8 12
  let expect := s.fget (LNK.PSTAT_RX_EXPECT p)
  if seq = expect then
    let s := (s.fset (LNK.PSTAT_RX_EXPECT p) ((seq + 1) % 4096)).bump (LNK.FLITS_RX_COUNT p) 1
    let s := s.fset (LNK.PSTAT_LINK_STATE p) 2
    let l := s.link p
    let s := s.setLink p { l with protoRun := false, ackTx := if (s.port p).dropMask = 0 then seq else l.ackTx }
    let s := slots.foldl (fun s b => s.parseSlot p b) s
    ((s.applyAck p ack).takeCredits p (bits hdr 5 3) (bits hdr 0 5)).pump p
  else if (expect + 4096 - seq) % 4096 < 2048 then (s.applyAck p ack).pump p
  else s.replayWait p

/-- An idle flit (Table 3.4, R85): its ACK, a NAK, or a credit update that may not travel in it. -/
def State.takeIdle (s : State) (p hdr : Nat) : State :=
  let sel := bits hdr 5 3
  let ack := bits hdr 8 12
  if sel = 7 then (s.takeNak p ack).pump p
  else
    let s := if sel = 0 then s else s.protoErr p 3
    (s.applyAck p ack).pump p

/-- The link of a port runs: in UP, and in light idle while its receive direction has not entered idle, since each
direction enters on its own announcement (R72). -/
def State.linkRuns (s : State) (p : Nat) : Bool :=
  decide (s.portState p = 5) || (decide (s.portState p = 6) && !(s.lanesIn p [7]).isEmpty)

/-- A good flit, its 244 corrected bytes given (Table 3.4). A CR_SEL of 1 to 6 in an idle flit is a protocol error (R85). DESIGN
CHOICE (assumptions 65 and 66): a flit whose byte 4 is 0xFE or 0xFF is an INIT or idle flit also where its first slot was owed;
and a port in LINK_INIT takes INIT flits only. -/
def State.takeFlit (s : State) (p : Nat) (b : List Nat) : State :=
  let hdr := ofBe (slice b 0 4)
  let slots := [slice b 4 80, slice b 84 80, slice b 164 80]
  let first := nth b 4
  let up := s.linkRuns p
  if first = 0xFE then
    let s := if bits hdr 5 3 = 0 ∨ bits hdr 5 3 = 7 then s else s.protoErr p 3
    if up then s.initInUp p (slice b 4 80) else s.takeInit p (slice b 4 80)
  else if !up then (if first = 0xFF ∧ bits hdr 5 3 ≠ 0 ∧ bits hdr 5 3 ≠ 7 then s.protoErr p 3 else s)
  else if first = 0xFF then s.takeIdle p hdr
  else s.takeSequenced p hdr slots

/-- A bad flit is discarded and counted, and replay wait begins (Table 3.4). -/
def State.badFlit (s : State) (p : Nat) : State :=
  let s := s.bumpSat (LNK.CRC_FAIL_COUNT p) 1
  if s.linkRuns p then s.replayWait p else s

/-- An injection at the receiver complements check bytes of a sequenced flit before it is decoded (Table 10.4). -/
def State.rxInject (s : State) (p : Nat) (flit : List Nat) : State × List Nat :=
  if 0xFE ≤ nth flit 4 then (s, flit)
  else
    let (s, pat) := s.flitInject 2 p
    (s, flipChecks pat flit)

/-- A received flit (R79): the Reed-Solomon code first, then the CRC over the corrected bytes. -/
def State.receiveFlit (s : State) (p : Nat) (flit : List Nat) : State :=
  let (s, flit) := s.rxInject p flit
  match rsDecode 8 (slice flit 0 252) [] with
  | .fail => s.badFlit p
  | .ok w n _ =>
    let b := slice w 0 244
    let s := s.trace 2 p (ofBe (slice b 0 4))
    if crc32 b ≠ ofBe (slice flit 252 4) then s.badFlit p
    else (if n = 0 then s else s.countCorrected p n).takeFlit p b

def execFlitReceive (p : Nat) (flit : List Nat) (s : State) : Host.Outcome State Fault Refusal :=
  done (if isPort p ∧ s.live ∧ (s.portState p = 4 ∨ s.linkRuns p) then s.receiveFlit p flit else s)

/-- REPLAY_TMO passes in replay wait: one more NAK (R87). -/
def execNakResend (p : Nat) (s : State) : Host.Outcome State Fault Refusal :=
  done (if isPort p ∧ s.live ∧ s.portState p = 5 ∧ s.fget (LNK.PSTAT_LINK_STATE p) = 3 ∧ (s.port p).dropMask = 0 then
    s.sendNak p else s)

/-- The replay timer expires with flits unacknowledged, unless it is suspended: a replay (R89, R90). -/
def execReplayTimer (p : Nat) (s : State) : Host.Outcome State Fault Refusal :=
  done (if isPort p ∧ s.live ∧ s.portState p = 5 ∧ (s.link p).replay ≠ [] ∧ (s.link p).suspend = 0 then
    (s.bumpSat (LNK.REPLAY_TMO_REPLAY p) 1).countReplay p else s)

/-- Owed credits leave in a sequenced flit of three empty slots, while the replay buffer has room (R98). -/
def State.returnCredit (s : State) (p : Nat) : State :=
  let l := s.link p
  if l.oweRqh + l.oweRqd + l.oweMgq = 0 then s
  else if 256 ≤ l.replay.length then s.noteStall p
  else s.sendFlit p []

def execCreditReturn (p : Nat) (s : State) : Host.Outcome State Fault Refusal :=
  done (if isPort p ∧ s.live ∧ s.portState p = 5 then s.returnCredit p else s)

/-- LINK_INIT has not finished within INIT_TMO: the port retrains, and the attempt counts (R93). -/
def execInitTmo (p : Nat) (s : State) : Host.Outcome State Fault Refusal :=
  done (if isPort p ∧ s.live ∧ s.portState p = 4 then s.failAttempt p 5 0 else s)

/-! ### MGMT slots and the receive buffer -/

/-- The halyard packet of a MGMT slot (Table 4.1): its opcode and the rest. -/
def reqPacket (r : Req) : QPacket :=
  let b := slice r.data 0 r.len
  { opcode := nth b 0,
    pkt := { src := .inband r.port r.reqId r.tag (bitAt r.flags 9), bytes := r.len, seq := nth b 1, len := nth b 2,
             flags := nth b 3, payload := (groupsOf 4 ((r.len - 8) / 4) (b.drop 8)).map ofBe } }

/-- The in-band packets of a port that wait in the interpreter's queue (R134). -/
def State.queuedFrom (s : State) (p : Nat) : Nat :=
  (s.mgc.inq.filter (fun q => match q.pkt.src with
    | .inband port _ _ _ => decide (port = p)
    | .twoWire => false)).length

/-- The answer goes to the arrival port (R118): FLAGS.ARRIVAL, which a SCAN header does not carry (R276). -/
def toArrival (r : Req) : Bool := decide (r.opcode ≠ 0x40) && bitAt r.flags 9

/-- A completion formed now is after its request's deadline (R101, R187). -/
def State.lateAt (s : State) (r : Req) (arrival : Nat) : Bool :=
  decide (r.deadline ≠ 0) && decide (arrival + 16 * r.deadline < s.now)

/-- A link-level completion of class CPH for a request that gets no other answer (R103, R112, R116). -/
def State.cplE (s : State) (r : Req) (cls status mask detail arrival : Nat) : State :=
  let h := cplHeader 0xC2 cls status mask r.reqId r.tag (s.fget LNK.STACK_ID_STACK_ID) 0 (s.lateAt r arrival) 0 r.opcode detail
  s.answer ⟨.cph, h, [], r.reqId, r.port, toArrival r⟩

/-- The class of a requester (R101, R181). -/
def State.classOf (s : State) (reqId : Nat) : Nat := SMap.get 0 s.mgc.reqmap reqId

/-- A request with the wrong stack ID (R116): discarded and counted, or answered with DETAIL 0x06. -/
def State.sidMismatch (s : State) (r : Req) (cls arrival : Nat) : State :=
  if s.flag LNK.CTRL_SID_NAK then s.cplE r cls 6 0 6 arrival
  else (s.bumpSat (LNK.DROPS_SID_DROP r.port) 1).int I.lnk 1

/-- Is a request a stack-ID mismatch (R116)? -/
def State.sidWrong (s : State) (r : Req) : Bool :=
  if r.opcode = 0x68 ∧ r.stackId = 0xFFF then false
  else decide (r.stackId ≠ s.fget LNK.STACK_ID_STACK_ID) ||
    (decide (s.fget LNK.STACK_ID_STACK_ID = 0xFFF) && decide (r.opcode ≠ 0x68))

/-- A MGMT request has a place: its packet joins the in-band queue, or it is refused at link level (R112,
R116). -/
def State.deliverMgmt (s : State) (r : Req) (arrival : Nat) : State :=
  if s.sidWrong r then s.sidMismatch r (s.classOf r.reqId) arrival
  else if r.len < 8 ∨ 240 < r.len then s.cplE r (s.classOf r.reqId) 6 0 2 arrival
  else { s with mgc := { s.mgc with inq := s.mgc.inq ++ [reqPacket r] } }

/-- Is a unit of the receive buffer a MGMT packet? -/
def RxUnit.isMgmt (u : RxUnit) : Bool := u.reqs.any (fun x => x.req.opcode = 0x68 ∧ x.req.pos = 0)

/-- May a unit leave the receive buffer of port `p` (R97, R155, R394)? -/
def State.mayLeave (s : State) (p : Nat) (u : RxUnit) : Bool :=
  if u.isMgmt then decide (s.queuedFrom p < 8)
  else decide (s.txns.length + u.reqs.length ≤ 4096) && !bitAt (s.fget MGC.QUIESCE_PORTS) p && !s.pw.hold

/-- The requests of a unit take their entries, or its MGMT packet its place; the slots' credits are owed
(R97). -/
def State.releaseUnit (s : State) (p : Nat) (u : RxUnit) : State :=
  let l := s.link p
  let s := s.setLink p ({ l with rx := l.rx.erase u }.oweUnit u)
  if u.isMgmt then u.reqs.foldl (fun s x => s.deliverMgmt x.req x.at_) s
  else { s with txns := s.txns ++ u.reqs.map (fun x => { num := x.num, req := x.req, arrival := x.at_ }) }

/-- The unit that can leave next: the first of the requests, which leave in order, or the first MGMT packet
where that comes first or the requests are held. -/
def State.nextUnit (s : State) (p : Nat) : Option RxUnit :=
  let rx := (s.link p).rx
  let heads := rx.filter (fun u => rx.find? (fun v => v.isMgmt = u.isMgmt) = some u)
  heads.find? (s.mayLeave p)

def execSlotRelease (p : Nat) (s : State) : Host.Outcome State Fault Refusal :=
  done (if isPort p ∧ s.live then
    match s.nextUnit p with
    | some u => s.releaseUnit p u
    | none => s
    else s)

/-! ### Events -/

/-- The EVT packet of an event for its sink requester (R113). DESIGN CHOICE (assumption 59): its STACK_ID field holds the
device's own stack ID, and EVT_SEQ counts from 0. -/
def State.evtAnswer (s : State) (e : Event) (port : Nat) : Answer :=
  let e := { e with eflags := b2n s.mgc.evLost }
  ⟨.mgr, reqHeader 0x78 e.reqId (e.seq % 4096) (s.fget LNK.STACK_ID_STACK_ID) 64, [e.body], e.reqId, port, false⟩

/-- The oldest queued event leaves on the port its sink's route names, in a sequenced flit of its own, once that port is UP,
holds an MGR credit that no earlier answer waits for, and has room in its replay buffer; till then, and while no port
qualifies, it stays in the queue (R84, R114, R118). -/
def State.sendEvent (s : State) : State :=
  match s.mgc.evq with
  | [] => s
  | e :: rest =>
    match s.lowestPort with
    | none => s
    | some low =>
      match s.routeOf e.reqId low false with
      | none => s
      | some p =>
        let l := s.link p
        let mgr := s.fget (LNK.TX_CREDIT_MGR p)
        if s.portState p ≠ 5 ∨ (s.port p).holdTx ∨ mgr = 0 ∨ l.tx.any (fun a => a.cls = .mgr) then s
        else if 256 ≤ l.replay.length ∨ l.part ≠ [] then s.noteStall p
        else
          let a := s.evtAnswer e low
          let s : State := { s with mgc := { s.mgc with evq := rest, evLost := false } }
          (s.fset (LNK.TX_CREDIT_MGR p) (mgr - 1)).sendFlit p (a.slots.map (fun b => (b, 1)))

def execEvtSend (s : State) : Host.Outcome State Fault Refusal := done (if s.live then s.sendEvent else s)

end Sys2Proof.Machine
end

