-- ==== Sys2Proof/Machine/Mgmt.lean ====
section
/-! DEFINITION. The halyard interpreter (spec/04_command_interface.md): who executes a packet and when, the
checks every packet passes, responses, and pending operations. -/

namespace Sys2Proof.Machine

open Sys2Proof.Reg

/-! ### Status codes (Table 4.5) -/

abbrev St.ok : Nat := 0x00
abbrev St.pending : Nat := 0x01
abbrev St.busy : Nat := 0x02
abbrev St.badOpcode : Nat := 0x03
abbrev St.badParam : Nat := 0x04
abbrev St.denied : Nat := 0x05
abbrev St.overcommit : Nat := 0x06
abbrev St.notInState : Nat := 0x07
abbrev St.verifyFail : Nat := 0x08
abbrev St.timeout : Nat := 0x09
abbrev St.aborted : Nat := 0x0A
abbrev St.superseded : Nat := 0x0B

/-! ### Responses -/

/-- The bytes of a response (R133, Table 4.3). -/
def respBytes (op : Nat) (h : Halyard) (status index pendId : Nat) (words : List Nat) : List Nat :=
  [op, h.seq, 1 + words.length, 0x80, 0, 0, 0, 0] ++ [status, index % 256] ++ beBytes 2 pendId ++
    words.flatMap (beBytes 4)

/-- Send a response: in-band as one MGMT packet by the requester's route (R112), over two-wire as the kept
response (R137). -/
def State.respond (s : State) (op : Nat) (h : Halyard) (status index pendId : Nat) (words : List Nat) : State :=
  let b := respBytes op h status index pendId words
  match h.src with
  | .inband port reqId tag arrivalOnly =>
    let n := (b.length + 63) / 64
    let data := (List.range n).map (fun i => slice b (64 * i) 64)
    s.answer ⟨.mgr, reqHeader 0x68 reqId tag (s.fget LNK.STACK_ID_STACK_ID) b.length, data, reqId, port, arrivalOnly⟩
  | .twoWire =>
    let s : State := { s with mgc := { s.mgc with lastTw := some (⟨op, h⟩, b) } }
    { s with twb := { s.twb with unread := true, respNew := true } }

/-- The answer OK with result words. -/
def State.replyOk (s : State) (op : Nat) (h : Halyard) (words : List Nat) : State := s.respond op h St.ok 0 0 words

/-- An answer without result words. -/
def State.replySt (s : State) (op : Nat) (h : Halyard) (status : Nat) : State := s.respond op h status 0 0 []

/-- BAD_PARAM with the index of the word at fault. -/
def State.replyBad (s : State) (op : Nat) (h : Halyard) (index : Nat) : State := s.respond op h St.badParam index 0 []

/-! ### Pending operations (R136, R142) -/

/-- The next PEND_ID: it skips 0 and 0xFFFF. -/
def nextPendId (n : Nat) : Nat := if 0xFFFE ≤ n then 1 else n + 1

/-- The finished operation that finished earliest. -/
def oldestDone (ops : List PendOp) : Option PendOp :=
  (ops.filter (fun o => o.state = 2)).foldl (fun a o =>
    match a with
    | none => some o
    | some b => if o.order < b.order then some o else some b) none

/-- Is there an entry for one more operation? -/
def State.opRoom (s : State) : Bool := decide (s.mgc.ops.length < 16) || (oldestDone s.mgc.ops).isSome

/-- The PEND_ID that a new operation takes: the next one that no entry holds. -/
def State.freshId (s : State) : Nat :=
  (List.range 16).foldl (fun (id : Nat) _ => if s.mgc.ops.any (fun o => decide (o.id = id)) then nextPendId id else id) s.mgc.nextId

/-- Take an entry for an operation; its PEND_ID. -/
def State.newOp (s : State) (op : Nat) (notify : Bool) (state arg : Nat) : State × Nat :=
  let id := s.freshId
  let ops := if s.mgc.ops.length < 16 then s.mgc.ops
    else match oldestDone s.mgc.ops with
      | some o => s.mgc.ops.erase o
      | none => s.mgc.ops
  let o : PendOp := ⟨id, op, state, 0xFF, 0, notify, 0, arg⟩
  ({ s with mgc := { s.mgc with ops := ops ++ [o], nextId := nextPendId id } }, id)

/-- An operation starts running. -/
def State.runOp (s : State) (id : Nat) : State :=
  { s with mgc := { s.mgc with ops := s.mgc.ops.map (fun o => if o.id = id ∧ o.state = 0 then { o with state := 1 } else o) } }

/-- An unfinished operation, by PEND_ID. -/
def State.opOf (s : State) (id : Nat) : Option PendOp := s.mgc.ops.find? (fun o => o.id = id ∧ o.state ≠ 2)

/-- The first unfinished operation of an opcode. -/
def State.opByCode (s : State) (op : Nat) : Option PendOp := s.mgc.ops.find? (fun o => o.opcode = op ∧ o.state ≠ 2)

/-- An operation ends with its final status and RESULT; with NOTIFY, PENDING_DONE follows (R142, Table
4.14). -/
def State.finishOp (s : State) (id final result : Nat) : State :=
  match s.opOf id with
  | none => s
  | some o =>
    let s := { s with mgc := { s.mgc with
      ops := s.mgc.ops.map (fun x => if x.id = id ∧ x.state ≠ 2 then
        { x with state := 2, final := final, result := result, order := s.mgc.nextOrder } else x),
      nextOrder := s.mgc.nextOrder + 1 } }
    if o.notify then s.event 0x0001 0 (beBytes 2 id ++ [o.opcode, final] ++ beBytes 3 result) else s

/-- Every unfinished operation that the predicate picks ends ABORTED. -/
def State.abortOps (s : State) (pick : PendOp → Bool) : State :=
  (s.mgc.ops.filter (fun o => o.state ≠ 2 && pick o)).foldl (fun s o => s.finishOp o.id St.aborted 0) s

/-- Accept an operation: an entry, ACCEPTED_PENDING, then what it starts. BUSY where all 16 entries hold
unfinished operations. -/
def State.accept (s : State) (op : Nat) (h : Halyard) (state arg : Nat) (f : State → Nat → State) : State :=
  if s.opRoom then
    let r := s.newOp op (bitAt h.flags 6) state arg
    f (r.1.respond op h St.pending 0 r.2 []) r.2
  else s.replySt op h St.busy

/-! ### Who executes a packet -/

/-- Firmware is running (R127). -/
def State.fwRuns (s : State) : Bool := decide (s.fget MGC.STATUS_FW_STATE = 2) && s.mclk

/-- In Reef-1 or Reef-2, with firmware not stopped for good: a packet waits for the exit that it starts (R390, R394). -/
def State.naps (s : State) : Bool := (decide (s.pwr = 1) || decide (s.pwr = 2)) && !s.frozen && !s.tripped && decide (s.devState ≤ 1)

/-- The hardware responder serves an opcode (R129). -/
def hwServes (op : Nat) : Bool := [0x00, 0x01, 0x10, 0x62].contains op

/-- The clocked logic of the target port is stopped, and a comparator watches for its address: in Reef-2, and in Furl with
the address-match wake source that the entry latched (R394, R467); after a trip (R380), in freeze and in limp state the responder serves the port
(R468). -/
def State.twAsleep (s : State) : Bool :=
  ((decide (s.pwr = 2) && !s.tripped) || (decide (s.pwr = 3) && bitAt s.pw.cfg 3)) && !s.frozen && decide (s.devState ≤ 1)

/-- The hardware responder is at work: firmware is not running, the always-on domain is, and the port does not sleep
(R129). -/
def State.hwAnswers (s : State) : Bool := !s.fwRuns && !s.inReset && !s.twAsleep && !s.naps

/-- Remove a packet from the front of its queue as it starts; in-band packets in a row are counted (R134). -/
def State.takePacket (s : State) (q : QPacket) : State :=
  match q.pkt.src with
  | .inband .. =>
    { s with mgc := { s.mgc with inq := if s.mgc.inq.head? = some q then s.mgc.inq.tail else s.mgc.inq,
                                 inRow := s.mgc.inRow + 1 } }
  | .twoWire => { s with mgc := { s.mgc with twq := none, inRow := 0 } }

/-- A packet may start now: it is the front of its queue, or its queue is empty, and after 8 in-band packets
in a row the two-wire packet goes first (R134). -/
def State.mayStart (s : State) (q : QPacket) : Bool :=
  match q.pkt.src with
  | .inband .. => (s.mgc.inq.isEmpty || s.mgc.inq.head? = some q) && !(decide (8 ≤ s.mgc.inRow) && s.mgc.twq.isSome)
  | .twoWire => s.mgc.twq.isNone || s.mgc.twq = some q

/-- The two-wire packet equals the last one in OPCODE, SEQ, LEN and payload (R137). -/
def State.isRepeat (s : State) (q : QPacket) : Bool :=
  match q.pkt.src, s.mgc.lastTw with
  | .twoWire, some (l, _) => l.opcode = q.opcode && l.pkt.seq = q.pkt.seq && l.pkt.len = q.pkt.len &&
      l.pkt.payload = q.pkt.payload
  | _, _ => false

/-! ### The checks every packet passes (Table 4.15) -/

/-- The assigned opcodes (Table 4.4). -/
def assignedOps : List Nat :=
  [0x00, 0x01, 0x02, 0x04, 0x05, 0x10, 0x11, 0x12, 0x13, 0x20, 0x21, 0x22, 0x23, 0x24, 0x2F, 0x30, 0x31, 0x32, 0x33,
   0x34, 0x38, 0x39, 0x3A, 0x3B, 0x3C, 0x3D, 0x40, 0x41, 0x42, 0x43, 0x44, 0x45, 0x46, 0x47, 0x48, 0x50, 0x51, 0x52,
   0x53, 0x54] ++
  [0x60, 0x61, 0x62, 0x63, 0x64, 0x65, 0x66, 0x70, 0x71, 0x72, 0x73, 0x80, 0x81, 0x82, 0x90, 0x91, 0x92, 0xF0, 0xF1,
   0xFE, 0xFF]

/-- An opcode the part does not have: unassigned, or of the scan engines where they are fused off (R2). -/
def State.noOpcode (s : State) (op : Nat) : Bool :=
  !assignedOps.contains op || (decide (0x70 ≤ op) && decide (op ≤ 0x73) && !s.part.scan)

/-- The owner and write-enable rules (R138). -/
def State.srcDenied (s : State) (op : Nat) (h : Halyard) : Bool :=
  let writes := decide (op = 0x11) || decide (op = 0x12) || (decide (0x20 ≤ op) && decide (op ≠ 0x21))
  match h.src with
  | .inband _ reqId _ _ =>
    (s.flag MGC.SRC_CTRL_OWNER_EN && decide (reqId ≠ s.fget MGC.SRC_CTRL_OWNER_REQ_ID) && decide (2 ≤ op)) ||
      (writes && !s.flag MGC.SRC_CTRL_INB_WR_EN)
  | .twoWire => writes && !s.flag MGC.SRC_CTRL_TW_WR_EN

/-- The R132 length check fails: BAD_PKT sets with the answer (Table 4.11). -/
def badLength (h : Halyard) : Bool := decide (h.bytes ≠ 8 + 4 * h.len) || decide (h.len ≠ h.payload.length) || decide (58 < h.len)

/-- The first check of Table 4.15 that a packet fails, orders 1 to 7, as (status, INDEX); `len` gives the
INDEX at fault where LEN is not one the opcode takes (R544). -/
def State.packetCheck (s : State) (op : Nat) (h : Halyard) (len : List Nat → Option Nat) : Option (Nat × Nat) :=
  if badLength h then some (St.badParam, 0)
  else match (if assignedOps.contains op then len h.payload else none) with
  | some i => some (St.badParam, i)
  | none =>
    if bitAt h.flags 7 then some (St.badParam, 0)
    else if s.noOpcode op then some (St.badOpcode, 0)
    else if 0xFE ≤ op ∧ ¬ s.otp.vtm then some (St.denied, 0)
    else if s.srcDenied op h then some (St.denied, 0)
    else if s.devState = 0 ∧ ¬ (op ≤ 0x1F ∨ (0x60 ≤ op ∧ op ≤ 0x6F)) then some (St.notInState, 0)
    else if 0x70 ≤ op ∧ op ≤ 0x73 ∧ bitAt (s.fget CLK.GATE_STAT_GATED) 8 then some (St.notInState, 0)
    else if op = 0x80 ∧ bitAt (s.fget CLK.GATE_STAT_GATED) 9 then some (St.notInState, 0)
    else none

/-- A packet that cannot start yet waits in its queue: an in-band one at its end, where its port has a place there (R134). -/
def State.holdPacket (s : State) (q : QPacket) : State :=
  match q.pkt.src with
  | .inband port _ _ _ =>
    if s.mgc.inq.contains q ∨ 8 ≤ s.queuedFrom port then s else { s with mgc := { s.mgc with inq := s.mgc.inq ++ [q] } }
  | .twoWire => if s.mgc.twq.isSome then s else { s with mgc := { s.mgc with twq := some q } }

/-- A two-wire packet identical to the last one is not executed: the kept response is returned (R137). -/
def State.repeatReply (s : State) : State :=
  State.int { s with twb := { s.twb with unread := true, respNew := true } } I.mgc 1

/-- The answer to a packet that fails a check; one that fails R132 also sets BAD_PKT. -/
def State.refusePacket (s : State) (op : Nat) (h : Halyard) (status index : Nat) : State :=
  (if badLength h then s.int I.mgc 0 else s).respond op h status index 0 []

/-- Checks 1 and 2 of Table 4.15, as the hardware responder applies them (R545): the INDEX at fault. -/
def hwCheck (op : Nat) (h : Halyard) (len : List Nat → Option Nat) : Option Nat :=
  if badLength h then some 0
  else match (if assignedOps.contains op then len h.payload else none) with
    | some i => some i
    | none => if bitAt h.flags 7 then some 0 else none

/-- The hardware responder takes a packet (R129, R137, R545): its four opcodes, NOT_IN_STATE for every other one, which
waits instead during a firmware restart (R128). -/
def State.hwPacket (s : State) (op : Nat) (h : Halyard) (len : List Nat → Option Nat) (f : State → Bool → State) : State :=
  let q : QPacket := ⟨op, h⟩
  if s.isRepeat q then (s.takePacket q).repeatReply
  else match hwCheck op h len with
    | some i => (s.takePacket q).refusePacket op h St.badParam i
    | none =>
      if hwServes op then f (s.takePacket q) true
      else if s.fget MGC.STATUS_FW_STATE = 3 then s.holdPacket q
      else (s.takePacket q).replySt op h St.notInState

/-- Execute a packet: the interpreter of firmware, with the checks of Table 4.15 and then the opcode itself; or the hardware
responder (R129). An in-band packet waits through a firmware restart (R128), and none executes after a trip (R381). `hw` tells the opcode who serves it. -/
def State.packet (s : State) (op : Nat) (h : Halyard) (len : List Nat → Option Nat) (f : State → Bool → State) :
    State :=
  let q : QPacket := ⟨op, h⟩
  let s := s.wakeEvent (if h.src = .twoWire then 7 else 6) 0
  if s.tripped ∧ h.src ≠ .twoWire then s
  else if s.naps then s.holdPacket q
  else if s.fwRuns then
    if ¬ s.mayStart q then s
    else
      let s := (s.takePacket q).trace 5 0 (op * 2 ^ 24 + h.seq * 2 ^ 16 + h.len * 2 ^ 8 + h.flags)
      if s.isRepeat q then s.repeatReply
      else
        match s.packetCheck op h len with
        | some (st, i) => s.refusePacket op h st i
        | none => f s false
  else if h.src = .twoWire then (if s.hwAnswers ∧ s.mayStart q then s.hwPacket op h len f else s)
  else if s.fget MGC.STATUS_FW_STATE = 3 then s.holdPacket q
  else s

/-- A packet of a fixed number of words (R544). -/
def fixedLen (n : Nat) (p : List Nat) : Option Nat := if p.length = n then none else some 0

/-- Word `i` of the payload. -/
def arg (h : Halyard) (i : Nat) : Nat := nth h.payload i

/-- A mask of 128 indices from words 0 to 3, word 3 bit 0 for PC 0 (R309). -/
def maskWords (p : List Nat) : Nat := nth p 0 * 2 ^ 96 + nth p 1 * 2 ^ 64 + nth p 2 * 2 ^ 32 + nth p 3

end Sys2Proof.Machine
end

