-- ==== Sys2Proof/Machine/Map.lean ====
section
/-! DEFINITION. The address map and the region guard (spec/05_address_map.md), the home slice of a line
(R248), and which engine and array serve an index (R10, R165, R210). -/

namespace Sys2Proof.Machine

open Sys2Proof.Reg

/-! ### From address to line -/

/-- Pseudo-channel select bits of the part (Table 5.1). -/
def State.pcBits (s : State) : Nat := if s.dies = 8 then 7 else if s.dies = 4 then 6 else 5

/-- An address within the assembled capacity (R161). -/
def State.inRange (s : State) (a : Nat) : Bool := decide (a / 2 ^ (30 + s.pcBits) = 0)

/-- The pseudo-channel hash of row and segment (Table 5.3), over `n` select bits. -/
def pcHash (row seg n : Nat) : Nat :=
  maskOf n (fun i => if i < 6 then bitAt row i != bitAt row (i + 7) else bitAt row 6 != bitAt seg 2)

/-- Where a line lies: the logical index and its place in the pseudo-channel (R163). -/
structure Loc where
  pc : Nat
  bg : Nat
  bank : Nat
  row : Nat
  seg : Nat
  col : Nat
  deriving DecidableEq, Repr

/-- The decomposition of an address under a map word in the layout of AMP.MAP (R163). -/
def decompose (map n a : Nat) : Loc :=
  let g := 6 + bits map 4 3
  let pc := bits a g n
  let off := (a >>> (g + n)) * 2 ^ g + a % 2 ^ g
  let col := bits off 6 2
  let bg := bits off 8 2
  let bank := bits off 10 4
  let seg := bits off 14 3
  let row := bits off 17 13
  { pc := if bitAt map 0 then pc ^^^ pcHash row seg n else pc,
    bg := if bitAt map 1 then bg ^^^ bits row 0 2 else bg,
    bank := if bitAt map 1 then bank ^^^ bits row 2 4 else bank,
    row := row, seg := seg, col := col }

/-- Where the live map puts an address. -/
def State.locate (s : State) (a : Nat) : Loc := decompose (s.reg AMP.MAP).toNat s.pcBits a

/-- XLATE_OUT for an address (Table 5.5). -/
def State.xlate (s : State) (a : Nat) : Nat :=
  if s.inRange a then
    let l := s.locate a
    2 ^ 31 + l.pc * 2 ^ 24 + l.bg * 2 ^ 22 + l.bank * 2 ^ 18 + l.row * 2 ^ 5 + l.seg * 2 ^ 2 + l.col
  else 0

/-- The home slice of device address `a` (R248). -/
def homeSlice (a : Nat) : Nat :=
  ((a >>> 6) ^^^ (a >>> 11) ^^^ (a >>> 16) ^^^ (a >>> 21) ^^^ (a >>> 26) ^^^ (a >>> 31) ^^^ (a >>> 36)) % 32

/-- The home set of device address `a` (R248). -/
def homeSet (a : Nat) : Nat := bits a 11 10

/-- The line number within a pseudo-channel's array: row, segment, bank, bank group, column. -/
def lineNo (row seg bank bg col : Nat) : Nat := ((((row * 8 + seg) * 16 + bank) * 4) + bg) * 4 + col

/-! ### Indices, arrays and engines -/

/-- A bit of AMP.PC_STATE for an index (Table 5.6): 7 FENCED, 6 ON_SPARE, 5 EVAC, 4 RETLOST. -/
def pcStateFld (k bit : Nat) : Fld := ⟨AMP.PC_STATE (k / 4), 8 * (k % 4) + bit, 1⟩

/-- The index is fenced (R238). -/
def State.fenced (s : State) (k : Nat) : Bool := s.flag (pcStateFld k 7)

/-- The index is served by the spare of its die (R165). -/
def State.onSpare (s : State) (k : Nat) : Bool := s.flag (pcStateFld k 6)

/-- The index is being evacuated. -/
def State.evacuating (s : State) (k : Nat) : Bool := s.flag (pcStateFld k 5)

/-- The index is marked retention-lost. -/
def State.retLost (s : State) (k : Nat) : Bool := s.flag (pcStateFld k 4)

/-- The engine that serves an index, numbered 17 (d - 1) + e (R210). -/
def State.engineOf (s : State) (k : Nat) : Nat := 17 * (k / 16) + (if s.onSpare k then 16 else k % 16)

/-- The array that holds an index: its own, or PCS(d) (127 + d) once that serves it. -/
def State.arrayOf (s : State) (k : Nat) : Nat := if s.onSpare k then 128 + k / 16 else k

/-- The array of an engine. -/
def engArray (m : Nat) : Nat := if m % 17 = 16 then 128 + m / 17 else 16 * (m / 17) + m % 17

/-- The row that a bank of an array uses for a row: a spare row where one replaces it (R317); a spare row stands for
itself. -/
def State.physRow (s : State) (array bank row : Nat) : Nat :=
  if 8192 ≤ row then row else SMap.get row s.remap ((array * 64 + bank) * 8192 + row)

/-- The line of its array that holds a location. -/
def State.arrayLine (s : State) (array : Nat) (l : Loc) : Nat :=
  lineNo (s.physRow array (l.bg * 16 + l.bank) l.row) l.seg l.bank l.bg l.col

/-! ### The region guard -/

/-- A window's fields (Table 5.8). -/
def winContains (w a : Nat) : Bool :=
  bitAt w 8 && decide (bits w 14 17 * 2 ^ 20 ≤ a) && decide (a < bits w 14 17 * 2 ^ 20 + 2 ^ (20 + bits w 9 5))

/-- The deciding window of an address: the highest-numbered enabled window that contains it (R169). -/
def State.decidingWin (s : State) (a : Nat) : Option Nat :=
  (List.range 256).reverse.find? (fun i => winContains (s.reg (RGD.WIN i)).toNat a)

/-- Does a mask set grant its right to a class (R168)? -/
def State.grants (s : State) (set cls : Nat) : Bool :=
  if cls < 32 then bitAt (s.fget (RGD.MASK_LO_CLS_LO set)) cls else bitAt (s.fget (RGD.MASK_HI_CLS_HI set)) (cls - 32)

/-- The rights of a class at an address: (read, write) (R169). -/
def State.rights (s : State) (cls a : Nat) : Bool × Bool :=
  match s.decidingWin a with
  | some i =>
    let w := (s.reg (RGD.WIN i)).toNat
    (s.grants (bits w 4 4) cls, s.grants (bits w 0 4) cls)
  | none => let d := s.flag RGD.CTRL_DEFAULT_ALLOW; (d, d)

/-- The address lies under a fenced window (R173). -/
def State.winFenced (s : State) (a : Nat) : Bool :=
  match s.decidingWin a with
  | some i => bitAt (s.reg (RGD.WIN i)).toNat 31
  | none => false

/-- Record a denial (R172): the address of the first line, the window that decided, the class and requester, whether only
the write right was missing. -/
def State.deny (s : State) (a : Nat) (w : Option Nat) (cls reqId : Nat) (write : Bool) : State :=
  let s := s.bumpSat RGD.DENY_CNT_COUNT 1
  let s := ((s.fset RGD.DENY_INFO_REQ_ID reqId).fset RGD.DENY_INFO_CLASS cls).setFlag RGD.DENY_INFO_WRITE write
  let s := (s.setFlag RGD.DENY_INFO_NOWIN w.isNone).fset RGD.DENY_INFO_WINDOW (w.getD 0)
  let line := a / 64 * 64
  ((s.fset RGD.DENY_ADDR_HI_ADDR_HI (line / 2 ^ 32)).fset RGD.DENY_ADDR_LO_ADDR_LO (line % 2 ^ 32)).int I.rgd 0

/-- Enabled windows, for RGD.CTRL.WIN_COUNT. -/
def State.winCount (s : State) : Nat := ((List.range 256).filter (fun i => bitAt (s.reg (RGD.WIN i)).toNat 8)).length

end Sys2Proof.Machine
end

