-- ==== Sys2Proof/Machine/Txns.lean ====
section
/-! DEFINITION. Requests in the table of outstanding requests: their classes (R180), how the lines' results
combine into the one answer (R108, R110, Table 3.15), what a completion does to its class (R187, R191), and
FENCE (R122). -/

namespace Sys2Proof.Machine

open Sys2Proof.Reg

/-! ### Classes -/

/-- The aging limit of a class, in nanoseconds; class 64 stands for uncharged entries, which age against
WB_AGE (R180, R193, R195). -/
def State.ageLimit (s : State) (cls : Nat) : Nat :=
  if 64 ≤ cls then 100 * max 20 (s.fget SCH.WB_CFG_WB_AGE)
  else
    let a := s.fget (SCH.CLS_LAT_AGE_LIMIT cls)
    if a = 0 then max (8 * s.fget (SCH.CLS_LAT_LAT_TARGET cls)) 2000 else 100 * a

/-- The base urgency of a class (Table 6.4); uncharged entries have urgency 1 (R195). -/
def State.baseUrgency (s : State) (cls : Nat) : Nat :=
  if 64 ≤ cls then 1
  else
    let r := s.fget (SCH.CLS_CFG_RANK cls)
    if r ≤ 2 then 0 else if r ≤ 5 then 1 else 2

/-- How TRACK moves with the moving average (R191). -/
def trackNext (track avg target : Nat) : Nat :=
  if 100 * target ≤ 100 * avg then 2
  else if track = 2 ∧ 95 * target ≤ 100 * avg then 2
  else if 75 * target ≤ 100 * avg then 1
  else if track ≠ 0 ∧ 70 * target ≤ 100 * avg then 1
  else 0

/-- A completion of a class with a latency target updates the moving average and TRACK (R191). The average is
kept in whole nanoseconds, its correction rounded toward zero. -/
def State.latency (s : State) (cls lat : Nat) : State :=
  let target := s.fget (SCH.CLS_LAT_LAT_TARGET cls)
  if target = 0 then s
  else
    let avg := s.fget (SCH.CLS_AVG_AVG_NS cls)
    let avg := min 65535 (if avg ≤ lat then avg + (lat - avg) / 16 else avg - (avg - lat) / 16)
    (s.fset (SCH.CLS_AVG_AVG_NS cls) avg).fset (SCH.CLS_STAT_TRACK cls)
      (trackNext (s.fget (SCH.CLS_STAT_TRACK cls)) avg target)

/-! ### Answers to requests -/

/-- The lines a request overlaps, as device addresses divided by 64 (Table 6.3). -/
def reqLines (r : Req) : List Nat :=
  let a := r.addr / 64
  let n := if r.opcode = 0x11 then 2 else if r.opcode = 0x12 then 4
    else if r.opcode = 0x29 then linesSpanned r.addr r.len else 1
  (List.range n).map (a + ·)

/-- Is a request a read that answers with data? -/
def reqReads (r : Req) : Bool := decide (r.opcode = 0x10) || decide (r.opcode = 0x11) || decide (r.opcode = 0x12)

/-- The mask of the lines with a result that the predicate picks. -/
def lineMask (l : List LineRes) (f : LineRes → Bool) : Nat :=
  maskOf l.length (fun i => match l[i]? with
    | some x => f x
    | none => false)

def LineRes.isPoison (x : LineRes) : Bool := decide (x = .poison)

def LineRes.isFenced (x : LineRes) : Bool := decide (x = .fenced)

def LineRes.isOpen (x : LineRes) : Bool := decide (x = .open_)

/-- The data a line delivers: zeros where it was not delivered (R110). -/
def LineRes.bytes (x : LineRes) : List Nat :=
  match x with
  | .good d => slice d 0 64
  | .open_ | .poison | .fenced => List.replicate 64 0

/-- A completion was formed after its request's deadline. -/
def State.isLate (s : State) (t : Txn) : Bool := s.lateAt t.req t.arrival

/-- The completion of an ended request (Table 3.15). -/
def State.completion (s : State) (t : Txn) : Answer :=
  let r := t.req
  let p := lineMask t.lines LineRes.isPoison
  let f := lineMask t.lines LineRes.isFenced
  let np := popcount 4 p
  let nf := popcount 4 f
  let n := t.lines.length
  let reads := reqReads r || decide (r.opcode = 0x38)
  let bad := np + nf
  let status := if bad = 0 then 0 else if bad < n then 4 else if 0 < np then 1 else 5
  let withData := reads && decide (bad < n)
  let op := if bad = n ∧ 0 < n then 0xC2 else if withData then 0xC8 else 0xC0
  let tag := if r.opcode = 0x10 ∧ bitAt r.flags 11 ∧ withData then t.userTag else 0
  let h := cplHeader op t.cls status (p ||| f) r.reqId r.tag (s.fget LNK.STACK_ID_STACK_ID)
    (if withData then n else 0) (s.isLate t) tag r.opcode (f * 16 + p)
  ⟨if withData then .cpd else .cph, h, if withData then t.lines.map LineRes.bytes else [], r.reqId, r.port,
    toArrival r⟩

/-- An answer carries LATE: it is counted for its class (Table 6.14). -/
def State.countLate (s : State) (t : Txn) : State :=
  if s.isLate t then (s.bumpSat (SCH.CLS_LATE_COUNT t.cls) 1).int I.sch 0 else s

/-- The request with a receive number. -/
def State.txn (s : State) (num : Nat) : Option Txn := s.txns.find? (fun t => t.num = num)

/-- A request ends with an answer and leaves the table. -/
def State.endTxn (s : State) (t : Txn) (a : Answer) : State :=
  let s := { s with txns := s.txns.filter (fun u => u.num ≠ t.num) }
  let s := (s.countLate t).answer a
  if t.stage = 2 ∨ t.stage = 3 then s.latency t.cls (s.now - t.admitAt) else s

/-- Replace a request's entry. -/
def State.setTxn (s : State) (t : Txn) : State :=
  { s with txns := s.txns.map (fun u => if u.num = t.num then t else u) }

/-- A line of a request ends; with its last line the request ends with its one completion (R110, R223). -/
def State.finishLine (s : State) (num idx : Nat) (res : LineRes) : State :=
  match s.txn num with
  | none => s
  | some t =>
    let t := { t with lines := t.lines.set idx res }
    if t.lines.any LineRes.isOpen then s.setTxn t else s.endTxn t (s.completion t)

/-- The same for an operation that may belong to no request. -/
def State.finishOpt (s : State) (op : Option (Nat × Nat)) (res : LineRes) : State :=
  match op with
  | some (num, idx) => s.finishLine num idx res
  | none => s

/-- Keep the user tag read for a request. -/
def State.noteTag (s : State) (op : Option (Nat × Nat)) (tag : Nat) : State :=
  match op with
  | some (num, _) => { s with txns := s.txns.map (fun u => if u.num = num then { u with userTag := tag } else u) }
  | none => s

/-- An answer without lines: CPL_E with a status and DETAIL, for a request that fails a check (Table 3.14). DESIGN CHOICE
(assumption 68): its MASK is 0. -/
def State.refuseTxn (s : State) (t : Txn) (status detail : Nat) : State :=
  let r := t.req
  let h := cplHeader 0xC2 t.cls status 0 r.reqId r.tag (s.fget LNK.STACK_ID_STACK_ID) 0 (s.isLate t) 0 r.opcode detail
  s.endTxn t ⟨.cph, h, [], r.reqId, r.port, toArrival r⟩

/-! ### FENCE (R122) -/

/-- The receive numbers of the requests that a port holds for a requester: those being assembled and those in
its receive buffer. DEDUCED (assumption 69): a FENCE covers no MGMT request. -/
def State.heldNums (s : State) (p reqId : Nat) (noScan : Bool) : List Nat :=
  let l := s.link p
  let pick (r : Req) : Bool := decide (r.reqId = reqId) && decide (r.opcode ≠ 0x68 ∨ r.pos ≠ 0) &&
    !(noScan && decide (r.opcode = 0x40))
  (l.rx.flatMap (fun u => u.reqs.filter (fun x => pick x.req))).map (·.num) ++
    ((l.asm.filter (fun a => !a.dropped && pick a.got.req)).map (·.got.num))

/-- The receive numbers of all requests that the device holds for a requester on one port. -/
def State.outstanding (s : State) (p reqId : Nat) (noScan : Bool) : List Nat :=
  ((s.txns.filter (fun t => t.req.port = p ∧ t.req.reqId = reqId ∧ ¬ (noScan ∧ t.req.opcode = 0x40))).map (·.num)) ++
    s.heldNums p reqId noScan

/-- The requests that a FENCE covers: received before it (R122). -/
def State.fenceCovers (s : State) (t : Txn) : List Nat :=
  let noScan := bitAt t.req.flags 7
  let ports := if bitAt t.req.flags 8 then List.range 8 else [t.req.port]
  (ports.flatMap (fun p => s.outstanding p t.req.reqId noScan)).filter (fun n => n < t.num)

/-- Is a covered request still held? -/
def State.stillHeld (s : State) (reqId n : Nat) : Bool :=
  (List.range 8).any (fun p => (s.outstanding p reqId false).contains n)

/-- A FENCE answers CPL OK once none of the requests it covers is held. -/
def State.completeFence (s : State) (t : Txn) : State :=
  if t.waits.any (s.stillHeld t.req.reqId) then s
  else
    let r := t.req
    let h := cplHeader 0xC0 t.cls 0 0 r.reqId r.tag (s.fget LNK.STACK_ID_STACK_ID) 0 (s.isLate t) 0 r.opcode 0
    s.endTxn t ⟨.cph, h, [], r.reqId, r.port, toArrival r⟩

def execFenceComplete (p reqId tag : Nat) (s : State) : Host.Outcome State Fault Refusal :=
  done (match s.txns.find? (fun t => t.stage = 4 ∧ t.req.port = p ∧ t.req.reqId = reqId ∧ t.req.tag = tag) with
  | some t => if s.live then s.completeFence t else s
  | none => s)

end Sys2Proof.Machine
end

