-- ==== Sys2Proof/Machine/Array.lean ====
section
/-! DEFINITION. The line code and the decoder (R296 to R303), the counts and the healing policy that follow a
decode (R311 to R314), injections (R316), and how the slices and engines are reached. -/

namespace Sys2Proof.Machine

open Sys2Proof.Reg

/-! ### Slices and engines -/

/-- A slice. -/
def State.slc (s : State) (k : Nat) : SliceSt := SMap.get {} s.slices k

/-- Write a slice. -/
def State.setSlc (s : State) (k : Nat) (v : SliceSt) : State := { s with slices := SMap.set {} s.slices k v }

/-- An engine, by its number 17 (d - 1) + e. -/
def State.eng (s : State) (m : Nat) : EngSt := SMap.get {} s.engs m

/-- Write an engine. -/
def State.setEng (s : State) (m : Nat) (v : EngSt) : State := { s with engs := SMap.set {} s.engs m v }

/-- The die, from 1, and the engine on it, of an engine number. -/
def engDie (m : Nat) : Nat := m / 17 + 1

def engNo (m : Nat) : Nat := m % 17

/-- The home slice and set of a line given as its device address divided by 64. -/
def lineSlice (line : Nat) : Nat := homeSlice (64 * line)

def lineSet (line : Nat) : Nat := homeSet (64 * line)

/-- The way that holds a line in its home slice, a merge entry among them: its key (set × 16 + way) and it. -/
def SliceSt.find (c : SliceSt) (line : Nat) : Option (Nat × Way) := c.ways.find? (fun e => e.2.line = line)

/-- Write a way. -/
def SliceSt.put (c : SliceSt) (key : Nat) (w : Way) : SliceSt := { c with ways := SMap.insert c.ways key w }

/-- A way becomes INVALID. -/
def SliceSt.drop (c : SliceSt) (key : Nat) : SliceSt := { c with ways := SMap.erase c.ways key }

/-- Lines of an index's address range. -/
abbrev pcLines : Nat := 16777216

/-- The number that stands for line `i` of 32 of the seal row of an index, which has no device address (R167): above
every device address divided by 64. -/
def sealNum (k i : Nat) : Nat := 2 ^ 34 + 32 * k + i

/-- A line number names a line of a seal row. -/
def isSeal (line : Nat) : Bool := decide (2 ^ 34 ≤ line)

/-- Where a line lies; the seal row is spare row 63 of BG0 B0 (R167). -/
def State.placeOf (s : State) (line : Nat) : Loc :=
  if isSeal line then ⟨(line - 2 ^ 34) / 32, 0, 0, 8192 + 63, line % 32 / 4, line % 4⟩ else s.locate (64 * line)

/-- The index of a line. -/
def State.pcOf (s : State) (line : Nat) : Nat := (s.placeOf line).pc

/-! ### The map backwards -/

/-- The device address of a place in an index (R163): the map is one-to-one. -/
def State.addressOf (s : State) (l : Loc) : Nat :=
  let map := (s.reg AMP.MAP).toNat
  let n := s.pcBits
  let g := 6 + bits map 4 3
  let pc := if bitAt map 0 then l.pc ^^^ pcHash l.row l.seg n else l.pc
  let bg := if bitAt map 1 then l.bg ^^^ bits l.row 0 2 else l.bg
  let bank := if bitAt map 1 then l.bank ^^^ bits l.row 2 4 else l.bank
  let off := l.row * 2 ^ 17 + l.seg * 2 ^ 14 + bank * 2 ^ 10 + bg * 2 ^ 8 + l.col * 2 ^ 6
  off / 2 ^ g * 2 ^ (g + n) + pc * 2 ^ g + off % 2 ^ g

/-- The line offset of a device address within its index: bits [29:6] of its offset (Table 5.2). -/
def State.lineOffset (s : State) (a : Nat) : Nat :=
  let n := s.pcBits
  let g := 6 + bits (s.reg AMP.MAP).toNat 4 3
  ((a >>> (g + n)) * 2 ^ g + a % 2 ^ g) / 64

/-- The device address, divided by 64, of a line offset within an index, the hashes undone. -/
def State.lineAt (s : State) (k off : Nat) : Nat :=
  let map := (s.reg AMP.MAP).toNat
  let n := s.pcBits
  let g := 6 + bits map 4 3
  let row := bits off 11 13
  let seg := bits off 8 3
  let pc := if bitAt map 0 then k ^^^ pcHash row seg n else k
  let o := 64 * off
  (o / 2 ^ g * 2 ^ (g + n) + pc * 2 ^ g + o % 2 ^ g) / 64

/-! ### Code words (R296 to R299) -/

/-- A code word from a line's bytes, user tag and device-state byte (Table 1.3). -/
def encodeLine (data : List Nat) (utag dev : Nat) : List Nat := rsEncode 12 (slice data 0 64 ++ [utag / 256 % 256, utag % 256, dev % 256, 0])

/-- The device-state byte of a write to an index: the current EPOCH and VERSION 0b001 (R298). -/
def State.devState8 (s : State) (k : Nat) (poison retlost : Bool) : Nat :=
  b2n poison * 128 + b2n retlost * 64 + s.fget (ECC.PC_HEAL_EPOCH k) * 32 + 1

/-- The user tag of a word. -/
def wordTag (w : List Nat) : Nat := nth w 64 * 256 + nth w 65

/-- Is a word poisoned? -/
def wordPoison (w : List Nat) : Bool := bitAt (nth w 66) 7

/-- Does a word of an index count as retention-lost: by its bit, or by an epoch that is not the current one,
unless RL_IGNORE is set (R304)? -/
def State.wordLost (s : State) (k : Nat) (w : List Nat) : Bool :=
  !s.flag (ECC.PC_HEAL_RL_IGNORE k) &&
    (bitAt (nth w 66) 6 || decide (b2n (bitAt (nth w 66) 5) ≠ s.fget (ECC.PC_HEAL_EPOCH k)))

/-- What the decoder answers: uncorrectable or not, the corrected word, how many symbols it corrected outside
the erased mat, and the one mat they all lie in where they are at least 3 (R300, R312). -/
structure Dec where
  ue : Bool
  word : List Nat
  fixed : Nat
  mat : Option Nat
  deriving DecidableEq, Repr

/-- The check after decoding: VERSION, the bits that are 0 and byte 67 (R300). -/
def wordFormed (w : List Nat) : Bool := decide (nth w 66 % 32 = 1) && decide (nth w 67 = 0)

/-- Decode a word; the bytes of an erased mat are erasures (R299, R300, R312). -/
def decodeLine (erased : Option Nat) (w : List Nat) : Dec :=
  let era := match erased with
    | some m => [m, m + 20, m + 40, m + 60]
    | none => []
  match rsDecode 12 w era with
  | .fail => ⟨true, w, 0, none⟩
  | .ok v _ _ =>
    if wordFormed v then
      let ch := (List.range 80).filter (fun i => decide (nth v i ≠ nth w i) && !era.contains i)
      let m := ch.headD 0 % 20
      ⟨false, v, ch.length, if 3 ≤ ch.length ∧ ch.all (fun i => i % 20 = m) then some m else none⟩
    else ⟨true, w, 0, none⟩

/-- The erased mat of an index (R312). -/
def State.erasedMat (s : State) (k : Nat) : Option Nat :=
  if s.flag (ECC.PC_MAT_ERASED k) then some (s.fget (ECC.PC_MAT_MAT k)) else none

/-! ### Injections (R315, R316) -/

/-- A word with the check bytes of a pattern complemented. -/
def complement (w : List Nat) (pat : Nat) : List Nat :=
  w.mapIdx (fun i b => if 68 ≤ i ∧ bitAt pat (i - 68) then b ^^^ 255 else b)

/-- The ARRAY injection at encode (point 0) or decode (point 1), on a word of an index at a line. -/
def State.injectArray (s : State) (point k line : Nat) (w : List Nat) : State × List Nat :=
  match s.injOf 0 with
  | none => (s, w)
  | some i =>
    let hit := if bitAt i.ctrl 24 then decide (i.addr / 64 = line) else decide (bits i.ctrl 0 7 = k)
    if bits i.ctrl 25 1 = point ∧ hit then
      ((s.fireInj 0 i).bumpSat (ECC.PC_INJ_COUNT k) 1, complement w (bits i.pat 0 12))
    else (s, w)

/-- The encoder, for a line of an index: its word with the injection at encode (R298, R316). -/
def State.encode (s : State) (k line : Nat) (data : List Nat) (utag : Nat) (poison lost : Bool) : State × List Nat :=
  s.injectArray 0 k line (encodeLine data utag (s.devState8 k poison lost))

/-- Read an array word with the error pattern that has struck it since it was written (pairs of byte and
pattern); the pattern stays in the array. -/
def State.readWord (s : State) (array line : Nat) (errs : List (Nat × Nat)) : State × List Nat :=
  let w := s.word array line
  let v := errs.foldl (fun v e => setAt v e.1 (nth v e.1 ^^^ (e.2 % 256))) w
  (if errs = [] then s else s.setWord array line v, v)

/-! ### The row tracker (R313) -/

/-- The entry that tracks a row, if one does. -/
def State.trackerOf (s : State) (k bg bank row : Nat) : Option Nat :=
  (List.range 16).find? (fun i => s.flag (ECC.ROW_TRK_VALID i) && s.fget (ECC.ROW_TRK_PC i) = k &&
    s.fget (ECC.ROW_TRK_BG i) = bg && s.fget (ECC.ROW_TRK_BANK i) = bank && s.fget (ECC.ROW_TRK_ROW i) = row)

/-- Note one corrected or uncorrectable word of a row; the new count of corrected words. -/
def State.trackRow (s : State) (l : Loc) (ue : Bool) : State × Nat :=
  let old := s.trackerOf l.pc l.bg l.bank l.row
  let i := old.getD (s.ecc.trkOrder.headD 0)
  let n := (if old.isSome then SMap.get 0 s.ecc.trkCnt i else 0) + (if ue then 0 else 1)
  let u := ue || (old.isSome && s.flag (ECC.ROW_TRK_UE i))
  let v := 2 ^ 31 + l.pc * 2 ^ 24 + l.bg * 2 ^ 22 + l.bank * 2 ^ 18 + l.row * 2 ^ 5 + min n 7 * 4 + b2n u * 2
  let s := s.setReg (ECC.ROW_TRK i) (BitVec.ofNat 32 v)
  ({ s with ecc := { s.ecc with trkCnt := SMap.set 0 s.ecc.trkCnt i n,
                                trkOrder := s.ecc.trkOrder.filter (· ≠ i) ++ [i] } }, n)

/-- Clear the entries that the predicate picks; they are taken first when a row needs one. -/
def State.clearTracker (s : State) (pick : Nat → Bool) : State :=
  ((List.range 16).filter (fun i => s.flag (ECC.ROW_TRK_VALID i) && pick i)).foldl (fun s i =>
    let s := s.setReg (ECC.ROW_TRK i) 0
    { s with ecc := { s.ecc with trkCnt := SMap.set 0 s.ecc.trkCnt i 0,
                                 trkOrder := i :: s.ecc.trkOrder.filter (· ≠ i) } }) s

/-! ### Asking for repairs (R314, R320, R325) -/

/-- The die, from 1, of an index. -/
def pcDie (k : Nat) : Nat := k / 16 + 1

/-- The index is the source of the running evacuation or of one that is queued. -/
def State.evacSource (s : State) (k : Nat) : Bool :=
  (match s.ecc.evac with
   | some e => decide (e.pc = k)
   | none => false) || s.ecc.evacQ.contains k

/-- The index is the source of the running evacuation. -/
def State.evacRuns (s : State) (k : Nat) : Bool :=
  match s.ecc.evac with
  | some e => decide (e.pc = k)
  | none => false

/-- The spare of an index's die is free: it is not in use, not failed, and no evacuation is queued for it
(R325). -/
def State.spareFree (s : State) (k : Nat) : Bool :=
  decide (s.fget (ECC.SPARE_STAT_STATE (pcDie k)) = 0) && !s.ecc.evacQ.any (fun j => pcDie j = pcDie k)

/-- An evacuation trigger of Table 10.3: with no spare free the index is at risk, whatever AUTO_EVAC holds. -/
def State.wantEvac (s : State) (k : Nat) : State :=
  if s.evacSource k || s.fenced k then s
  else if !s.spareFree k || s.onSpare k then s.setFlag (ECC.PC_HEAL_AT_RISK k) true
  else if s.flag ECC.CTRL_AUTO_EVAC then { s with ecc := { s.ecc with evacQ := s.ecc.evacQ ++ [k] } }
  else s

/-- A serving spare fails with its index, or an index fails (R325): the spare shows it, and PC_FAILED goes to
FLT. Causes: 0 uncorrectable lines, 1 mast lost. -/
def State.pcFailed (s : State) (k cause : Nat) : State :=
  let d := pcDie k
  if s.onSpare k then
    let s := (s.fset (ECC.SPARE_STAT_STATE d) 4).setFlag (ECC.CAP_LOSS_SPARE_LOST d) true
    s.fault (0x140 + k) 0x2A 2 2
  else s.fault (0x140 + k) 0x2A 2 cause

/-- Spare rows free in a bank of an array (R167, R317). -/
def State.freeSpares (s : State) (array bank : Nat) : List Nat :=
  (List.range (if bank = 0 then 63 else 64)).filter (fun r => !bitAt (SMap.get 0 s.ecc.spareUsed (array * 64 + bank)) r)

/-- Remap entries in use in an array. -/
def State.remapUsed (s : State) (array : Nat) : Nat := (s.remap.filter (fun e => e.1 / 524288 = array)).length

/-- A row spare is possible: the bank has a spare row and the remap table an entry. -/
def State.spareRoom (s : State) (l : Loc) : Bool :=
  let a := s.arrayOf l.pc
  !(s.freeSpares a (l.bg * 16 + l.bank)).isEmpty && decide (s.remapUsed a < 256)

/-- Firmware asks for a soft row spare where AUTO_SPARE is set (Table 10.3). -/
def State.wantSpare (s : State) (l : Loc) : State :=
  if !s.flag ECC.CTRL_AUTO_SPARE || s.evacRuns l.pc then s
  else if s.ecc.spares.any (fun j => j.pc = l.pc ∧ j.bg = l.bg ∧ j.bank = l.bank ∧ j.row = l.row) then s
  else if s.spareRoom l then
    { s with ecc := { s.ecc with spares := s.ecc.spares ++ [{ pc := l.pc, bg := l.bg, bank := l.bank, row := l.row, op := none, since := s.now }] } }
  else s.wantEvac l.pc

/-! ### Counting (R300, R311, R312) -/

/-- The level of an index's bucket rises; at 64 it overflows (R311). -/
def State.bucketAdd (s : State) (k n : Nat) : State :=
  let level := s.fget (ECC.PC_BUCKET_LEVEL k) + n
  if level < 64 then s.fset (ECC.PC_BUCKET_LEVEL k) level
  else
    let times := (SMap.get [] s.ecc.ovf k).filter (fun t => s.now < t + 86400000000000) ++ [s.now]
    let s := { s with ecc := { s.ecc with ovf := SMap.set [] s.ecc.ovf k times } }
    let s := (s.fset (ECC.PC_BUCKET_LEVEL k) 32).bumpSat (ECC.PC_BUCKET_OVF_TOTAL k) 1
    let s := s.fset (ECC.PC_BUCKET_OVF_24H k) (min 255 times.length)
    let s := (s.int I.ecc 2).event 0x0030 1 [k, min 255 level, min 255 times.length]
    if max 1 (s.fget ECC.HEAL_CFG_OVF_EVAC) ≤ times.length then s.wantEvac k else s

/-- A mat event; at MAT_THR of one mat it is erased (R312). -/
def State.matEvent (s : State) (k m : Nat) : State :=
  let n := SMap.get 0 s.ecc.matCnt (32 * k + m) + 1
  let s := { s with ecc := { s.ecc with matCnt := SMap.set 0 s.ecc.matCnt (32 * k + m) n } }
  let s := s.bumpSat (ECC.PC_MAT_EVENTS k) 1
  if s.flag (ECC.PC_MAT_ERASED k) then s
  else
    let s := s.fset (ECC.PC_MAT_MAT k) m
    if max 1 (s.fget ECC.HEAL_CFG_MAT_THR) ≤ n ∧ s.flag ECC.CTRL_ERASE_EN then
      ((s.setFlag (ECC.PC_MAT_ERASED k) true).int I.ecc 3).wantEvac k
    else s

/-- The layout of PC_LAST_CE. -/
def lastWord (l : Loc) (syms : Nat) : Word :=
  BitVec.ofNat 32 (l.bg * 2 ^ 30 + l.bank * 2 ^ 26 + l.row * 2 ^ 13 + l.seg * 2 ^ 10 + l.col * 2 ^ 8 + min syms 15 * 16)

/-- The place of a word as PC_LAST_CE and PC_LAST_UE can show it: their ROW field has no value for a spare row, so that
of a seal word is free. -/
def State.shownPlace (s : State) (l : Loc) : State × Loc :=
  if l.row < 8192 then (s, l) else let r := s.fresh; (r.2, { l with row := r.1 % 8192 })

/-- The device address that UE_ADDR and POISON_CREATED show of a line; a seal line has none, so its value is free. -/
def State.shownAddr (s : State) (line : Nat) : State × Nat :=
  if isSeal line then let r := s.fresh; (r.2, r.1 % 2 ^ 40) else (s, 64 * line)

/-- A corrected word counts (Table 10.2, R311 to R314). A word of a seal row counts like any other, but its row is none of
the 8,192 that the row tracker names and a spare row replaces. -/
def State.noteCorrected (s : State) (l : Loc) (d : Dec) : State :=
  if d.fixed = 0 then s
  else
    let k := l.pc
    let (s, at') := s.shownPlace l
    let s := ((s.int I.ecc 0).bumpSat (ECC.PC_CE_COUNT k) 1).setReg (ECC.PC_LAST_CE k) (lastWord at' d.fixed)
    let s := if d.fixed ≤ 2 then s.bumpSat (ECC.PC_CE_HIST_CNT_LO k) 1 else s.bumpSat (ECC.PC_CE_HIST_CNT_HI k) 1
    let s := match d.mat with
      | some m => (s.matEvent k m).bucketAdd k (s.fget ECC.BUCKET_CFG_MAT_WEIGHT)
      | none => s.bucketAdd k 1
    if 8192 ≤ l.row then s
    else
    let (s, n) := s.trackRow l false
    if max 1 (s.fget ECC.HEAL_CFG_ROW_THR) ≤ n then s.wantSpare l else s

/-- An uncorrectable word counts; enough distinct lines of an index within 1 s evacuate or fail it (Table 10.2,
Table 10.3). -/
def State.noteUe (s : State) (l : Loc) (line : Nat) : State :=
  let k := l.pc
  let p := s.shownPlace l
  let q := p.1.shownAddr line
  let s : State := q.1
  let a := q.2
  let s := ((s.int I.ecc 1).bumpSat (ECC.PC_UE_COUNT k) 1).setReg (ECC.PC_LAST_UE k) (lastWord p.2 0)
  let s := (s.fset ECC.UE_ADDR_HI_ADDR_HI (a / 2 ^ 32)).fset ECC.UE_ADDR_LO_ADDR_LO (a % 2 ^ 32)
  let seen := (SMap.get [] s.ecc.ueLines k).filter (fun e => s.now < e.2 + 1000000000 ∧ e.1 ≠ line) ++ [(line, s.now)]
  let s : State := { s with ecc := { s.ecc with ueLines := SMap.set [] s.ecc.ueLines k seen } }
  let s : State := if 8192 ≤ l.row then s else ((s.trackRow l true).1).wantSpare l
  if seen.length < max 1 (s.fget ECC.HEAL_CFG_UE_FENCE_THR) ∨ s.evacSource k then s
  else if s.flag ECC.CTRL_AUTO_EVAC ∧ s.spareFree k ∧ ¬ s.onSpare k then s.wantEvac k
  else s.pcFailed k 0

/-- A line becomes poisoned (R302): it is counted, reported to FLT and raises POISON_CREATED; within 1 ms of an index's last
report, it is only counted. Sources: 0 demand, 1 scrub, 2 merge, 3 scan, 4 copy, 5 SRAM, 6 POISON_WR. -/
def State.poisonCreated (s : State) (k line src : Nat) : State :=
  let s := s.bumpSat (ECC.PC_POISON_COUNT k) 1
  let quiet := match SMap.get none s.ecc.poisonAt k with
    | some t => decide (s.now < t + 1000000)
    | none => false
  if quiet then s
  else
    let (s, a) := s.shownAddr line
    let s := s.fault (0x140 + k) 0x2E 2 (s.lineOffset a * 64 + src)
    let s := { s with ecc := { s.ecc with poisonAt := SMap.set none s.ecc.poisonAt k (some s.now) } }
    s.event 0x0031 2 (beBytes 5 a ++ [src])

/-- The way that holds a line CLEAN in its home slice, if one does (R302). -/
def State.cleanCopy (s : State) (line : Nat) : Option Way :=
  match (s.slc (lineSlice line)).find line with
  | some (_, w) => if w.st = .clean ∧ ¬ w.staging then some w else none
  | none => none

/-- An uncorrectable word of a line in an array: rewritten from the slice's CLEAN copy, which is good, or with
its bytes as read and POISON set (R302), in either case through the encoder (R316). Answers the word of the line and whether
it is poisoned. -/
def State.poisonWord (s : State) (array : Nat) (l : Loc) (line src : Nat) (w : List Nat) :
    State × List Nat × Bool :=
  match s.cleanCopy line with
  | some c =>
    let v := encodeLine c.data c.utag (s.devState8 l.pc (bitAt c.dev 7) (bitAt c.dev 6))
    let (s, x) := s.encode l.pc line c.data c.utag (bitAt c.dev 7) (bitAt c.dev 6)
    (s.setWord array (s.arrayLine array l) x, v, bitAt c.dev 7)
  | none =>
    let v := encodeLine (slice w 0 64) (wordTag w) (s.devState8 l.pc true (bitAt (nth w 66) 6))
    let (s, x) := s.encode l.pc line (slice w 0 64) (wordTag w) true (bitAt (nth w 66) 6)
    ((s.setWord array (s.arrayLine array l) x).poisonCreated l.pc line src, v, true)

/-- The counts, the policy and the poison that follow from what the decoder answered for a word of a line of an index
(R300 to R302). Answers the word to use. -/
def State.afterDecode (s : State) (array : Nat) (l : Loc) (line src : Nat) (w : List Nat) (d : Dec) : State × List Nat :=
  if d.ue then
    let r := (s.noteUe l line).poisonWord array l line src w
    (r.1, r.2.1)
  else (s.noteCorrected l d, d.word)

/-- The evacuation that copies to an array, if one does. -/
def State.copyTo (s : State) (array : Nat) : Option Evac :=
  match s.ecc.evac with
  | some e => if e.copying ∧ array = 128 + e.pc / 16 then some e else none
  | none => none

/-- What a decoded word of a spare in a copy adds to what the spare has shown (R324). -/
def Evac.noted (e : Evac) (l : Loc) (d : Dec) (rowThr matThr ovfEvac weight : Nat) : Evac :=
  if d.ue then { e with failing := true }
  else if d.fixed = 0 then e
  else
    let row := (l.bg * 16 + l.bank) * 16384 + l.row
    let n := SMap.get 0 e.rows row + 1
    let mat := d.mat.getD 32
    let k := SMap.get 0 e.mats mat + b2n d.mat.isSome
    let level := e.level + (if d.mat.isSome then weight else 1)
    let full := decide (64 ≤ level)
    { e with rows := SMap.set 0 e.rows row n, mats := SMap.set 0 e.mats mat k, level := if full then 32 else level,
             ovf := e.ovf + b2n full,
             failing := e.failing || decide (max 1 rowThr ≤ n) || decide (max 1 matThr ≤ k) || decide (max 1 ovfEvac ≤ e.ovf + b2n full) }

/-- A word of a spare in a copy counts for its index (R300), and its healing state is the spare's own (R323, R324). -/
def State.noteSpare (s : State) (e : Evac) (l : Loc) (d : Dec) : State :=
  let v := e.noted l d (s.fget ECC.HEAL_CFG_ROW_THR) (s.fget ECC.HEAL_CFG_MAT_THR) (s.fget ECC.HEAL_CFG_OVF_EVAC)
    (s.fget ECC.BUCKET_CFG_MAT_WEIGHT)
  let s : State := { s with ecc := { s.ecc with evac := some v } }
  if d.ue then (s.int I.ecc 1).bumpSat (ECC.PC_UE_COUNT l.pc) 1
  else if d.fixed = 0 then s
  else
    let s := (s.int I.ecc 0).bumpSat (ECC.PC_CE_COUNT l.pc) 1
    if d.fixed ≤ 2 then s.bumpSat (ECC.PC_CE_HIST_CNT_LO l.pc) 1 else s.bumpSat (ECC.PC_CE_HIST_CNT_HI l.pc) 1

/-- Decode a word of a line of an index as it comes from its array, with the injection at decode; a spare in a copy has no
erased mat (R323). Answers the word to use and the decoder's answer. -/
def State.decode (s : State) (array : Nat) (l : Loc) (line src : Nat) (w : List Nat) : State × List Nat × Dec :=
  let r := s.injectArray 1 l.pc line w
  match r.1.copyTo array with
  | some e =>
    let d := decodeLine none r.2
    (r.1.noteSpare e l d, d.word, d)
  | none =>
    let d := decodeLine (r.1.erasedMat l.pc) r.2
    let t := r.1.afterDecode array l line src r.2 d
    (t.1, t.2, d)

def execBucketLeak (s : State) : Host.Outcome State Fault Refusal :=
  done (if s.live then (List.range s.pcs).foldl (fun s k =>
    let times := (SMap.get [] s.ecc.ovf k).filter (fun t => s.now < t + 86400000000000)
    let s := { s with ecc := { s.ecc with ovf := SMap.set [] s.ecc.ovf k times } }
    let s := s.fset (ECC.PC_BUCKET_OVF_24H k) (min 255 times.length)
    s.fset (ECC.PC_BUCKET_LEVEL k) (s.fget (ECC.PC_BUCKET_LEVEL k) - 1)) s
    else s)

end Sys2Proof.Machine
end

