-- ==== Sys2Proof/Machine/Engine.lean ====
section
/-! DEFINITION. The channel controllers (spec/07_channel_controllers.md): the queues of an engine, the choice and
the timing of its commands, refresh and its arbiter, boundaries, power-down and self-refresh. -/

namespace Sys2Proof.Machine

open Sys2Proof.Reg

/-! ### Where an engine stands -/

/-- The engine is fenced (R238). -/
def State.engFenced (s : State) (m : Nat) : Bool := bitAt (s.fget (DCH.FENCE_ENG (engDie m))) (engNo m)

/-- The engine is fenced permanently. -/
def State.engPerm (s : State) (m : Nat) : Bool := bitAt (s.fget (DCH.FENCE_PERM_ENG (engDie m))) (engNo m)

/-- The pseudo-channel is in self-refresh. -/
def State.engSr (s : State) (m : Nat) : Bool := bitAt (s.fget (DCH.SR_STATE_ENG (engDie m))) (engNo m)

/-- The pseudo-channel is in power-down. -/
def State.engPd (s : State) (m : Nat) : Bool := bitAt (s.fget (DCH.PD_STATE_ENG (engDie m))) (engNo m)

/-- Set or clear an engine's bit in a mask of engines. -/
def State.setEngBit (s : State) (f : Nat → Fld) (m : Nat) (b : Bool) : State :=
  s.fset (f (engDie m)) (setBit (s.fget (f (engDie m))) (engNo m) b)

/-- The engine exists: its die is assembled (R3). -/
def State.engExists (s : State) (m : Nat) : Bool := decide (m / 17 < s.dies)

/-- The engines of a die. -/
def dieEngines (d : Nat) : List Nat := (List.range 17).map (fun e => 17 * (d - 1) + e)

/-- The index an engine serves, if any (R210). -/
def State.servedBy (s : State) (m : Nat) : Option Nat :=
  (List.range s.pcs).find? (fun k => s.engineOf k = m)

/-- The engine may send commands: its clock runs, its die is not in a reset, and it is neither in self-refresh nor
fenced, or its fence is being lifted, which a die-logic reset has done from its step 6 on (R237, R238, R241). -/
def State.engRuns (s : State) (m : Nat) : Bool :=
  s.live && s.engExists m && !s.engSr m &&
    ((decide (s.fget (DCH.STATUS_DIE_STATE (engDie m)) = 0) && !s.engFenced m) ||
      (decide (s.fget (DCH.STATUS_DIE_STATE (engDie m)) ≤ 1) && (s.eng m).lifting && !s.engPerm m))

/-! ### Locked banks (R317) -/

/-- A row spare holds a bank of an engine locked. -/
def State.bankLocked (s : State) (m b : Nat) : Bool :=
  s.ecc.spares.any (fun j => j.sent.isSome && decide (s.engineOf j.pc = m) && decide (j.bg * 16 + j.bank = b))

/-- A row spare holds a bank of a refresh half of an engine locked. -/
def State.halfLocked (s : State) (m h : Nat) : Bool :=
  s.ecc.spares.any (fun j => j.sent.isSome && decide (s.engineOf j.pc = m) && decide ((j.bg * 16 + j.bank) / 32 = h))

/-- A row spare holds a bank of an engine locked. -/
def State.engLocked (s : State) (m : Nat) : Bool := s.ecc.spares.any (fun j => j.sent.isSome && decide (s.engineOf j.pc = m))

/-- The row spares of an engine let their banks go, and wait for the next REF of their halves once more: nothing has been
written (R317). -/
def State.unlockEng (s : State) (m : Nat) : State :=
  { s with ecc := { s.ecc with spares := s.ecc.spares.map (fun (j : SpareJob) =>
      if j.sent.isSome ∧ s.engineOf j.pc = m then { j with sent := none, since := s.now } else j) } }

/-! ### Limits (Table 7.2, R215, R417) -/

/-- A limit, lengthened by 2% and rounded up to the grid while STRETCH is 1. -/
def State.lim (s : State) (f : Nat → Fld) (m : Nat) : Nat :=
  let x := s.fget (f (engDie m))
  if s.flag CLK.STATUS_STRETCH then (x * 102 + 99) / 100 else x

/-- tREFI_eff of a die in nanoseconds: halved at the doubled rate, 2% shorter while STRETCH is 1 (R227, R417). -/
def State.refiAt (s : State) (d : Nat) (doubled : Bool) : Nat :=
  let x := s.fget (DCH.TIM_REF_TREFI_NS d)
  let x := if doubled then x / 2 else x
  if s.flag CLK.STATUS_STRETCH then x * 98 / 100 else x

/-- The slot of a refresh half falls due at the doubled rate (R229). -/
def EngSt.doubled (g : EngSt) (h : Nat) : Bool := if h = 0 then g.dbl0 else g.dbl1

/-- tREFI_eff of the slot of a refresh half: a change of the die's mode reaches it at its next due time (R229). -/
def State.slotRefi (s : State) (m h : Nat) : Nat := s.refiAt (engDie m) ((s.eng m).doubled h)

/-- The timing of a bank. -/
def EngSt.bank (g : EngSt) (b : Nat) : BankTim := SMap.get {} g.tim b

def EngSt.setBank (g : EngSt) (b : Nat) (v : BankTim) : EngSt := { g with tim := SMap.set {} g.tim b v }

/-- The open segment of a bank as (row, segment). -/
def EngSt.seg (g : EngSt) (b : Nat) : Option (Nat × Nat) := SMap.get none g.segs b

def EngSt.setSeg (g : EngSt) (b : Nat) (v : Option (Nat × Nat)) : EngSt := { g with segs := SMap.set none g.segs b v }

/-- The refresh half of a bank (R225). -/
def bankHalf (b : Nat) : Nat := b / 32

/-- A half closes for a REF that is due or for a full slot, or refreshes (Table 7.3, R232). -/
def EngSt.halfBusy (g : EngSt) (h t : Nat) : Bool :=
  g.full || (if h = 0 then g.due0.isSome else g.due1.isSome) || decide (t < (if h = 0 then g.ref0 else g.ref1))

/-! ### Command cycles (R214) -/

/-- No command has taken or will take the DCLK cycle of a time. -/
def EngSt.cycleFree (g : EngSt) (t : Nat) : Bool :=
  !g.booked.contains (t / 5) &&
    (match g.lastCmd with
     | some t0 => decide (t0 / 5 < t / 5)
     | none => true)

/-- The first time from `t` on whose DCLK cycle is free. -/
def EngSt.freeFrom (g : EngSt) (t : Nat) : Nat :=
  if g.cycleFree t then t
  else (((List.range 16).map (fun i => (t / 5 + 1 + i) * 5)).find? g.cycleFree).getD ((t / 5 + 17) * 5)

/-- A command goes out at a time. -/
def EngSt.sentAt (g : EngSt) (t : Nat) : EngSt :=
  { g with lastCmd := some t, booked := g.booked.filter (fun c => decide (t / 5 < c)) }

/-- A command will go out at a later time. -/
def EngSt.book (g : EngSt) (t : Nat) : EngSt := { g with booked := g.booked ++ [t / 5] }

/-! ### Queues (R211, R212) -/

/-- An entry holds a line. -/
def QEnt.has (e : QEnt) (line : Nat) : Bool := e.lines.any (fun l => l.line = line)

/-- The write-queue entry of a line, if any. -/
def EngSt.writeOf (g : EngSt) (line : Nat) : Option QEnt := g.wrq.find? (fun e => e.has line)

/-- PDX: the first command follows tXP later. -/
def State.leavePd (s : State) (m : Nat) : State :=
  if s.engPd m then
    let s := s.setEngBit DCH.PD_STATE_ENG m false
    let g := s.eng m
    let t := g.freeFrom (max (8 * s.now) g.ready)
    s.setEng m { g.book t with ready := t + s.lim DCH.TIM_PD_TXP m }
  else s

/-- A request ends an idle boundary that is held: its user releases the mast within 100 ns, at a moment that the spec does
not give, and BNDRY_STAT shows how long it was held (R232). -/
def State.endIdle (s : State) (m : Nat) : State :=
  let g := s.eng m
  match g.idleHold with
  | none => s
  | some (from', user) =>
    if from' + 500 ≤ s.now then s.setEng m { g with idleHold := none }
    else
      let r := s.fresh
      let fin := min (from' + 500) (s.now + r.1 % 101)
      let d := engDie m
      let s := r.2.setEng m { g with idleHold := none, silent := 8 * fin }
      if s.fget (DCH.BNDRY_STAT_LAST_KIND d) = 2 ∧ s.fget (DCH.BNDRY_STAT_LAST_ENG d) = engNo m ∧
          s.fget (DCH.BNDRY_STAT_LAST_USER d) = user then
        s.fset (DCH.BNDRY_STAT_LAST_LEN d) ((fin - from') / 10)
      else s

/-- A request, a due REF or a boundary request ends power-down (R234, R235). -/
def State.wakeEng (s : State) (m : Nat) : State := if s.pwr ≤ 1 then s.leavePd m else s

/-- A request reaches an engine's queue: it ends power-down, and an idle boundary (R232, R234). -/
def State.reqEng (s : State) (m : Nat) : State := (s.endIdle m).wakeEng m

/-- May a write of a line enter the write queue of an engine? Not while its die waits for the D4 mast domain (Table
11.5). -/
def State.wrqRoom (s : State) (m line : Nat) : Bool :=
  decide (s.fget (DCH.STATUS_DIE_STATE (engDie m)) ≠ 2) && (((s.eng m).writeOf line).isSome || decide ((s.eng m).wrq.length < 16))

/-- A write enters the write queue: a newer word replaces an older entry of the same line in place, which keeps
its age; a rewrite never replaces an entry (R212, R301). -/
def State.wrqPut (s : State) (m : Nat) (e : QEnt) (line : Nat) : State :=
  let g := s.eng m
  match g.writeOf line with
  | some _ =>
    if e.kind = .rewrite then s
    else s.setEng m { g with wrq := g.wrq.map (fun x => if x.has line then { x with word := e.word, kind := .write } else x) }
  | none => (s.setEng m { g with wrq := g.wrq ++ [e] }).reqEng m

/-- An entry for one line of an index. -/
def State.entry (s : State) (kind : EntKind) (line : Nat) (op : Option (Nat × Nat)) (word : List Nat)
    (cls age : Nat) : QEnt :=
  let l := s.placeOf line
  { kind := kind, lines := [⟨line, l.col, op, false⟩], bank := l.bg * 16 + l.bank, row := l.row, seg := l.seg,
    word := word, cls := cls, age := age, u := s.baseUrgency cls }

/-- Offer a rewrite of a corrected word to the engine of an index: dropped where the home slice holds the line
MODIFIED, has a merge entry or an operation waiting for it, or where the write queue is full (R301). -/
def State.offerRewrite (s : State) (k line : Nat) (w : List Nat) : State :=
  let c := s.slc (lineSlice line)
  let m := s.engineOf k
  let held := match c.find line with
    | some (_, y) => decide (y.st = .modified) || decide (y.st = .merge)
    | none => false
  if held || c.pend.any (fun o => o.line = line) || ((s.eng m).writeOf line).isSome || !s.wrqRoom m line ||
      s.engPerm m then s
  else
    let (s, v) := s.encode k line (slice w 0 64) (wordTag w) (wordPoison w) (s.wordLost k w)
    (s.wrqPut m (s.entry .rewrite line none v 64 s.now) line).bumpSat (ECC.PC_REWRITE_COUNT k) 1

/-! ### Urgency and promotion (R189 to R195) -/

/-- The urgency of an entry now (R192). -/
def State.urgency (s : State) (e : QEnt) : Nat :=
  let u := s.baseUrgency e.cls + (if e.cls < 64 then s.fget (SCH.CLS_STAT_TRACK e.cls) else 0)
  let limit := e.arrival + 16 * e.deadline
  let spent := s.now + s.fget SCH.DL_CFG_EST_NS
  let u := if e.deadline = 0 then u
    else if limit ≤ spent then 3
    else if limit < spent + s.fget SCH.DL_CFG_SLACK_NEAR then u + 1
    else u
  min u 3

/-- The entry is past its class's aging limit (R193). -/
def State.aged (s : State) (e : QEnt) : Bool := decide (e.age + s.ageLimit e.cls < s.now)

/-- Promote an entry that is past its limit, and count it. -/
def State.promoteEnt (s : State) (e : QEnt) : State × QEnt :=
  if e.promoted || !s.aged e then (s, e)
  else
    let s := s.bumpSat SCH.PROMO_TOTAL_COUNT 1
    (if e.cls < 64 then s.bumpSat (SCH.CLS_PROMO_COUNT e.cls) 1 else s,
      { e with promoted := true, promotedAt := s.now, u := 3 })

/-- Promote a list of entries. -/
def State.promoteList (s : State) (l : List QEnt) : State × List QEnt :=
  l.foldl (fun a e => let r := a.1.promoteEnt e; (r.1, a.2 ++ [r.2])) (s, [])

/-- Promote the entries of one engine. -/
def State.promoteEng (s : State) (m : Nat) : State :=
  let g := s.eng m
  let (s, rd) := s.promoteList g.rdq
  let (s, wr) := s.promoteList g.wrq
  s.setEng m { g with rdq := rd, wrq := wr }

/-- One tick of the urgency timebase (R189, R192). -/
def State.urgencyTick (s : State) : State :=
  let upd (e : QEnt) : QEnt := if e.promoted then e else { e with u := s.urgency e }
  let s : State := { s with engs := s.engs.map (fun (g : Nat × EngSt) => (g.1, { g.2 with rdq := g.2.rdq.map upd, wrq := g.2.wrq.map upd })) }
  s.engs.foldl (fun s g => s.promoteEng g.1) s

def execUrgencyTick (s : State) : Host.Outcome State Fault Refusal := done (if s.live then s.urgencyTick else s)

def execPromotion (m : Nat) (s : State) : Host.Outcome State Fault Refusal :=
  done (if s.live ∧ s.engExists m then s.promoteEng m else s)

/-! ### The choice of the next command (R194, R218, R219, R222) -/

/-- The next command of an entry (Table 7.3). -/
inductive Cmd where
  | act
  | col
  | pre
  deriving DecidableEq, Repr

/-- The first line of an entry whose column command has not been sent. -/
def QEnt.next (e : QEnt) : Option ELine := e.lines.find? (fun l => !l.sent)

/-- Some multi-line entry has opened or used the open segment of a bank and is not finished, so that it needs no second
ACT (R222). -/
def EngSt.midway (g : EngSt) (b : Nat) : Bool :=
  (g.rdq ++ g.wrq).any (fun e => decide (e.bank = b) && decide (g.seg b = some (e.row, e.seg)) &&
    e.started && decide (1 < e.lines.length) && e.next.isSome)

/-- The command an entry needs (R218). -/
def EngSt.cmdOf (g : EngSt) (e : QEnt) : Cmd :=
  match g.seg e.bank with
  | none => .act
  | some x => if x = (e.row, e.seg) then .col else .pre

/-- An entry writes. -/
def QEnt.writes (e : QEnt) : Bool := decide (e.kind = .write) || decide (e.kind = .rewrite)

/-- The column spacing holds: tCCD_S between bank groups, tCCD_L within one. -/
def State.colFree (s : State) (m t : Nat) (e : QEnt) : Bool :=
  match (s.eng m).col with
  | none => true
  | some (t0, bg) => decide (t0 + (if bg = e.bank / 16 then s.lim DCH.TIM_COL_TCCD_L m else s.lim DCH.TIM_COL_TCCD_S m) ≤ t)

/-- At most four ACTs lie in a window of tFAW. -/
def State.fawFree (s : State) (m t : Nat) : Bool :=
  match (s.eng m).acts with
  | a :: _ => decide ((s.eng m).acts.length < 4) || decide (a + s.lim DCH.TIM_WIN_TFAW m ≤ t)
  | [] => true

/-- A command of an entry meets every limit of Table 7.2 at time `t`. -/
def State.limitsMet (s : State) (m t : Nat) (cmd : Cmd) (e : QEnt) : Bool :=
  let g := s.eng m
  let b := g.bank e.bank
  decide (g.ready ≤ t) && decide (g.silent ≤ t) && g.cycleFree t &&
    (match cmd with
     | .act => decide (b.actOk ≤ t) && decide (g.rrdOk ≤ t) && s.fawFree m t
     | .col => decide (b.colOk ≤ t) && s.colFree m t e && decide ((if e.writes then g.wrOk else g.rdOk) ≤ t)
     | .pre => decide (b.preOk ≤ t))

/-- The entry's next command meets every limit, its half is not closing or refreshing (R218), no row spare holds its bank
(R317), and no entry under way needs the segment that it would close (R222). -/
def State.entReady (s : State) (m t : Nat) (e : QEnt) : Bool :=
  let g := s.eng m
  !g.halfBusy (bankHalf e.bank) t && !s.bankLocked m e.bank && s.limitsMet m t (g.cmdOf e) e &&
    (decide (g.cmdOf e ≠ .pre) || !g.midway e.bank)

/-- The oldest of a list of entries; the first of those of one age. -/
def oldestEnt (l : List QEnt) : Option QEnt :=
  l.foldl (fun a e =>
    match a with
    | none => some e
    | some b => if e.age < b.age then some e else some b) none

/-- The entry whose next command the engine sends at time `t` (R194). -/
def State.chooseEnt (s : State) (m t : Nat) : Option QEnt :=
  let g := s.eng m
  let all := g.rdq ++ g.wrq
  let started := all.filter (fun e => e.promoted && e.started && s.entReady m t e)
  let head := oldestEnt (all.filter (fun e => e.promoted && !e.started))
  let capOk := match g.lastPromo with
    | some t0 => decide (t0 + 64 ≤ s.now)
    | none => true
  let normal (u : Nat) : Option QEnt :=
    let c := all.filter (fun e => !e.promoted && decide (e.u = u) && s.entReady m t e)
    match oldestEnt (c.filter (fun e => g.cmdOf e = .col)) with
    | some e => some e
    | none => oldestEnt c
  match oldestEnt started with
  | some e => some e
  | none =>
    match head.filter (fun e => capOk && s.entReady m t e) with
    | some e => some e
    | none => ([3, 2, 1, 0].filterMap normal).head?

/-! ### Sending a command -/

/-- Put an entry back with a change, or take it out. -/
def EngSt.update (g : EngSt) (e : QEnt) (r : Option QEnt) : EngSt :=
  let f (l : List QEnt) : List QEnt := l.flatMap (fun x => if x = e then r.toList else [x])
  { g with rdq := f g.rdq, wrq := f g.wrq }

/-- The array line of a column of an entry. -/
def State.entLine (s : State) (m : Nat) (e : QEnt) (col : Nat) : Nat :=
  lineNo (s.physRow (engArray m) e.bank e.row) e.seg (e.bank % 16) (e.bank / 16) col

/-- An entry's physical row lies beside the via keep-out zone: in banks B7 and B8 of a bank group, in the band of
STK.KOZ_TIM, judged after remap (R349). -/
def State.inKoz (s : State) (m : Nat) (e : QEnt) : Bool :=
  let r := s.physRow (engArray m) e.bank e.row
  let lo := s.fget STK.KOZ_TIM_KOZ_LO
  (decide (e.bank % 16 = 7) || decide (e.bank % 16 = 8)) && decide (lo ≤ r) &&
    decide (r < lo + 64 * s.fget STK.KOZ_TIM_KOZ_SIZE)

/-- What the keep-out zone adds to a limit, in 0.125 ns units (R349). -/
def State.kozAdd (s : State) (f : Fld) (m : Nat) (e : QEnt) : Nat := if s.inKoz m e then 4 * s.fget f else 0

/-- ACT: it opens the entry's segment. -/
def State.sendAct (s : State) (m t : Nat) (e : QEnt) : State :=
  let g := s.eng m
  let b := g.bank e.bank
  let b := { b with colOk := t + s.lim DCH.TIM_ROW_TRCD m + s.kozAdd STK.KOZ_TIM_TRCD_ADD m e,
                    preOk := max b.preOk (t + s.lim DCH.TIM_ROW_TRAS m + s.kozAdd STK.KOZ_TIM_TRAS_ADD m e),
                    actOk := max b.actOk (t + s.lim DCH.TIM_WIN_TRC m) }
  let acts := g.acts ++ [t]
  let g := (g.setBank e.bank b).setSeg e.bank (some (e.row, e.seg))
  let g := { g with rrdOk := t + s.lim DCH.TIM_ROW_TRRD m, acts := acts.drop (acts.length - 4) }
  (s.setEng m (g.update e (some { e with started := true }))).bump (DCH.ENG_ACT_COUNT (engDie m) (engNo m)) 1

/-- PRE of a bank: its segment closes, and tRP runs. -/
def State.preTimed (s : State) (m t b : Nat) : State :=
  let g := s.eng m
  let x := g.bank b
  let rp := t + s.lim DCH.TIM_ROW_TRP m
  s.setEng m ((g.setBank b { x with actOk := max x.actOk rp, refOk := max x.refOk rp }).setSeg b none)

/-- PRE for a conflict. -/
def State.sendPre (s : State) (m t : Nat) (e : QEnt) : State :=
  let s := s.preTimed m t e.bank
  (s.setEng m ((s.eng m).update e (some { e with started := true }))).bump (DCH.ENG_CONFLICT_COUNT (engDie m) (engNo m)) 1

/-- The queues became empty now (R234). -/
def State.noteIdle (s : State) (m : Nat) : State :=
  let g := s.eng m
  if g.rdq = [] ∧ g.wrq = [] then s.setEng m { g with idleFrom := s.now } else s

/-- RD or WR of a line of an entry: the limits that it leaves, and its count. -/
def State.colTimed (s : State) (m t : Nat) (e : QEnt) : State :=
  let d := engDie m
  let x := engNo m
  let g := s.eng m
  let b := g.bank e.bank
  let g := { g with col := some (t, e.bank / 16) }
  if e.writes then
    let fin := t + s.lim DCH.TIM_COL_CWL m + 20
    let g := g.setBank e.bank { b with preOk := max b.preOk (fin + s.lim DCH.TIM_TURN_TWR m + s.kozAdd STK.KOZ_TIM_TWR_ADD m e) }
    (s.setEng m { g with rdOk := fin + s.lim DCH.TIM_TURN_TWTR m }).bump (DCH.ENG_WR_COUNT d x) 1
  else
    let g := g.setBank e.bank { b with preOk := max b.preOk (t + s.lim DCH.TIM_TURN_TRTP m) }
    (s.setEng m { g with wrOk := t + s.lim DCH.TIM_TURN_TRTW m }).bump (DCH.ENG_RD_COUNT d x) 1

/-- RD or WR of an entry's next line; after its last the entry leaves its queue (R219). -/
def State.sendCol (s : State) (m t : Nat) (e : QEnt) (l : ELine) : State :=
  let e' := { e with started := true, lines := e.lines.map (fun y => if y = l then { y with sent := true } else y) }
  let rest := if e'.next.isNone then none else some e'
  let line := s.entLine m e l.col
  let s := if e.started then s else s.bump (DCH.ENG_HIT_COUNT (engDie m) (engNo m)) 1
  let s := s.colTimed m t e
  let g := (s.eng m).update e rest
  (if e.writes then (s.setEng m g).setWord (engArray m) line e.word
    else
      let r : Ret := ⟨e.kind, l.line, l.op, e.cls, s.word (engArray m) line, false, false⟩
      s.setEng m { g with ret := g.ret ++ [r] }).noteIdle m

/-- PROMO_WAIT sets as a promoted request has waited over 1 µs in the promoted queue, though its pseudo-channel cannot issue (R194,
R540). -/
def State.promoWait (s : State) (m : Nat) : State :=
  (((s.eng m).rdq ++ (s.eng m).wrq).filter (fun e => e.promoted && !e.started && decide (s.now = e.promotedAt + 1001))).foldl
    (fun (s : State) (_ : QEnt) => s.int I.sch 1) s

/-- The first command of a promoted request: the cap's time, and how long it waited (R194, Table 6.14). -/
def State.startPromo (s : State) (m : Nat) (e : QEnt) : State :=
  if e.promoted ∧ ¬ e.started then
    let w := s.now - e.promotedAt
    let s := s.setEng m { s.eng m with lastPromo := some s.now }
    match s.servedBy m with
    | some k => s.raise (SCH.PC_PROMO_MAX_WAIT_NS k) w
    | none => s
  else s

/-- The trace of the commands of the engine that serves an index (R496); the spec gives no layout of its word. -/
def State.traceCmd (s : State) (m : Nat) : State :=
  match s.servedBy m with
  | none => s
  | some k =>
    if s.trc.src = 4 ∧ s.trc.sel = k then
      let (x, s) := s.fresh
      s.trace 4 k x
    else s

/-- One command opportunity of an engine, at the `off`-th eighth of the present nanosecond (R214, R219): a REF
that is due on a half makes that half's requests unready (R220). -/
def State.command (s : State) (m off : Nat) : State :=
  let t := 8 * s.now + off % 8
  match s.chooseEnt m t with
  | none => s
  | some e =>
    let cmd := (s.eng m).cmdOf e
    let s := (s.startPromo m e).traceCmd m
    let s := match cmd, e.next with
      | .act, _ => s.sendAct m t e
      | .pre, _ => s.sendPre m t e
      | .col, some l => s.sendCol m t e l
      | .col, none => s
    s.setEng m ((s.eng m).sentAt t)

def execCommandChoice (m off : Nat) (s : State) : Host.Outcome State Fault Refusal :=
  done (if s.engRuns m ∧ ¬ s.engPd m then s.command m off else s)

/-! ### Refresh (R225 to R231) -/

/-- The engine samples its pseudo-channel's audit counter, in the cycle after a REF, SRE or SRX; AUDIT keeps the last value
while the engine is fenced permanently or its die is in a reset (R245). -/
def State.auditSample (s : State) (m : Nat) : State :=
  if s.engPerm m ∨ s.fget (DCH.STATUS_DIE_STATE (engDie m)) = 1 then s
  else s.fset (DCH.AUDIT_COUNT (engDie m) (engNo m)) (s.eng m).audit

/-- REFs executed on a pseudo-channel: its core die counts each (R230). -/
def State.auditAdd (s : State) (m n : Nat) : State :=
  let g := s.eng m
  s.setEng m { g with audit := g.audit + n }

/-- The slot number of a refresh half (R227). -/
def refSlot (m h : Nat) : Nat := (if engNo m = 16 then 127 + engDie m else 16 * (m / 17) + engNo m) + 136 * h

/-- Due time `n` of a half, rounded down to 10 ns (R227). -/
def State.dueAt (s : State) (m h n : Nat) : Nat :=
  (refSlot m h * s.slotRefi m h + 272 * n * s.slotRefi m h) / 272 / 10 * 10

/-- The due times of a half that have come. -/
def State.dueCount (s : State) (m h : Nat) : Nat :=
  let i := s.slotRefi m h
  let n := (s.now + 10 - refSlot m h * i / 272) / i
  if i = 0 ∨ s.now < s.dueAt m h 0 then 0 else if s.dueAt m h n ≤ s.now then n + 1 else n

/-- The latest due time of a half at or before now; none before its first (R227). -/
def State.dueTime (s : State) (m h : Nat) : Option Nat :=
  match s.dueCount m h with
  | 0 => none
  | n + 1 => some (s.dueAt m h n)

/-- The last due time that a half has taken. -/
def EngSt.lastDue (g : EngSt) (h : Nat) : Option Nat := if h = 0 then g.last0 else g.last1

/-- No REF of a half is due, and none falls due up to a time (R227, R232). -/
def State.noRefUpTo (s : State) (m h t : Nat) : Bool :=
  ((if h = 0 then (s.eng m).due0 else (s.eng m).due1).isNone) && decide (s.slotRefi m h ≠ 0) && decide (t < s.dueAt m h (s.dueCount m h)) &&
    (match s.dueTime m h, (s.eng m).lastDue h with
     | none, _ => true
     | some _, none => false
     | some a, some b => decide (a ≤ b))

/-- The pseudo-channel of an engine is refreshed by its engine: it serves an index or is a spare, not a retired
source, not fenced, not in self-refresh (R227, R242). -/
def State.refreshed (s : State) (m : Nat) : Bool :=
  s.live && s.engExists m && !s.engFenced m && !s.engSr m && decide (s.fget (DCH.STATUS_DIE_STATE (engDie m)) = 0) &&
    (decide (engNo m = 16) || !s.onSpare (16 * (m / 17) + engNo m))

/-- PREH: close every open segment of a half as soon as tRAS, tRTP and tWR allow (R226), in a command cycle of its
own (R214); a bank that a row spare holds locked closes by its own last PRE (R317). -/
def State.closeHalf (s : State) (m h : Nat) : State :=
  let g := s.eng m
  let banks := (g.segs.filter (fun e => bankHalf e.1 = h ∧ ¬ s.bankLocked m e.1)).map (·.1)
  if banks = [] then s
  else
    let t := g.freeFrom (banks.foldl (fun t b => max t (g.bank b).preOk) (max (8 * s.now) g.ready))
    let rp := t + s.lim DCH.TIM_ROW_TRP m
    s.setEng m (banks.foldl (fun (g : EngSt) b =>
      let x := g.bank b
      (g.setBank b { x with actOk := max x.actOk rp, refOk := max x.refOk rp }).setSeg b none) (g.book t))

/-- PRE of one bank, as soon as its limits allow. -/
def State.closeBank (s : State) (m b : Nat) : State :=
  let g := s.eng m
  if g.seg b = none then s
  else
    let x := g.bank b
    let t := g.freeFrom (max (max (8 * s.now) g.ready) x.preOk)
    let rp := t + s.lim DCH.TIM_ROW_TRP m
    s.setEng m (((g.book t).setBank b { x with actOk := max x.actOk rp, refOk := max x.refOk rp }).setSeg b none)

/-- A REF falls due on a half: it closes for it, and power-down ends (R226, R234, R235). A half whose REF was pulled
forward skips this one (R232). A change of the die's refresh mode takes effect here: this REF is the last under the old
mode (R229). -/
def State.refDue (s : State) (m h : Nat) : State :=
  match s.dueTime m h with
  | none => s
  | some t =>
    let g := s.eng m
    let old : Bool := match g.lastDue h with
      | some l => decide (t ≤ l)
      | none => false
    if old ∨ (if h = 0 then g.due0 else g.due1).isSome then s
    else
      let mode := s.flag (DCH.REF_STAT_MODE (engDie m))
      let g := if h = 0 then { g with last0 := some t, dbl0 := mode } else { g with last1 := some t, dbl1 := mode }
      if (if h = 0 then g.skip0 else g.skip1) then
        s.setEng m (if h = 0 then { g with skip0 := false } else { g with skip1 := false })
      else
        let g := if h = 0 then { g with due0 := some t } else { g with due1 := some t }
        ((s.setEng m g).wakeEng m).closeHalf m h

def execRefDue (m h : Nat) (s : State) : Host.Outcome State Fault Refusal :=
  done (if h < 2 ∧ s.refreshed m then s.refDue m h else s)

/-- REFs that run now, across the stack (R227). -/
def State.refsRunning (s : State) : Nat := (s.refs.filter (fun r => 8 * s.now < r.until_)).length

/-- Every bank of a half is precharged and past tRP, and no REF of the half runs. -/
def EngSt.halfClosed (g : EngSt) (h t : Nat) : Bool :=
  decide ((if h = 0 then g.ref0 else g.ref1) ≤ t) &&
    (List.range 32).all (fun i => decide (g.seg (32 * h + i) = none) && decide ((g.bank (32 * h + i)).refOk ≤ t))

/-- Precharge or active power-down at once, PDE after the command before it; a permanently fenced pseudo-channel has no power
(R234, R235, R242), and one that walks a row for its spare finishes first (R317). -/
def State.enterPd (s : State) (m : Nat) : State :=
  if s.engPd m ∨ s.engPerm m ∨ s.engLocked m then s
  else
    let g := s.eng m
    let t := g.freeFrom (max (8 * s.now) g.ready)
    (((s.setEng m { g.book t with ready := t }).setEngBit DCH.PD_STATE_ENG m true)).bump (DCH.ENG_PD_CNT_COUNT (engDie m) (engNo m)) 1

/-- REF to one half at a time: it occupies its banks for tRFC, and counts; the engine samples the audit counter, and its idle
time begins anew (R225, R230, R234, R245). -/
def State.ref (s : State) (m h t : Nat) : State :=
  let fin := t + s.lim DCH.TIM_REF_TRFC m
  let g := if t = 8 * s.now then (s.eng m).sentAt t else (s.eng m).book t
  let g := if h = 0 then { g with ref0 := fin, due0 := none, began0 := some s.now } else { g with ref1 := fin, due1 := none, began1 := some s.now }
  let g := { g with idleFrom := s.now }
  let refs : List RefRun := s.refs.filter (fun r => 8 * s.now < r.until_) ++ [⟨m, h, fin⟩]
  let s := { s with refs := refs }.setEng m g
  ((s.bump (DCH.ENG_REF_COUNT (engDie m) (engNo m)) 1).auditAdd m 1).auditSample m

/-- The delay of a REF is recorded; past 300 ns it counts as late (R228). -/
def State.refDelay (s : State) (m due : Nat) : State :=
  let d := engDie m
  let s := s.raise (DCH.REF_STAT_LATE_MAX d) (s.now - due)
  if 300 < s.now - due then (s.bumpSat (DCH.REF_LATE_CNT_COUNT d) 1).int (I.dch d) 5 else s

/-- A slot longer than 120 ns may be granted: none was in the last 100 µs (R233). -/
def State.longOk (s : State) (m len : Nat) : Bool :=
  decide (len ≤ 120) ||
    (match (s.eng m).longAt with
     | some t => decide (t + 100000 ≤ s.now)
     | none => true)

/-- The first slot request of an engine that may be granted now. -/
def State.nextSlot (s : State) (m : Nat) : Option (Nat × Nat) := (s.eng m).slots.find? (fun x => s.longOk m x.2)

/-- Reads of a reader are on their way: at a slice, at an engine, or come back and not taken. -/
def State.reading (s : State) (who : Reader) : Bool :=
  let op (o : SOp) : Bool := decide (o.kind = .probe who)
  let ent (e : QEnt) : Bool := decide (e.kind = .probe who)
  s.slices.any (fun c => c.2.pend.any op || c.2.input.any op || c.2.miss.any ent) ||
    s.engs.any (fun g => g.2.rdq.any ent || g.2.ret.any (fun r => decide (r.kind = .probe who)))

/-- The writes of a source that engine 16's write queue does not hold as mirrors. -/
def EngSt.unmirrored (g h : EngSt) : List QEnt := g.wrq.filter (fun x => !x.lines.any (fun l => (h.writeOf l.line).isSome))

/-- The running evacuation has copied every line of the index that an engine serves, and engine 16's queues have room for the
entries that move, so that the engine's next due REF is the full slot of the switch (R211, R323). -/
def State.evacReady (s : State) (m : Nat) : Bool :=
  let g := s.eng m
  let h := s.eng (17 * (m / 17) + 16)
  match s.ecc.evac with
  | some e => e.copying && decide (pcLines ≤ e.next) && decide (e.again = []) && decide (s.engineOf e.pc = m) && !s.reading .copy &&
      decide (h.rdq.length + g.rdq.length ≤ 32) && decide (h.wrq.length + (g.unmirrored h).length ≤ 16)
  | none => false

/-- The next due REF of an engine becomes a full slot (R232, R233); one that walks a row for its spare closes neither half
for it (R317). -/
def State.slotWanted (s : State) (m : Nat) : Bool := !s.engLocked m && ((s.nextSlot m).isSome || s.evacReady m)

/-- Where no full slot is wanted any more, the halves do not go on closing for one (R232). -/
def State.endFull (s : State) (m : Nat) : State :=
  if s.slotWanted m then s else s.setEng m { s.eng m with full := false }

/-- A REF that is due somewhere, and may be granted, fell due before `due` (R227). -/
def State.earlierRef (s : State) (due : Nat) : Bool :=
  s.engs.any (fun x => s.refreshed x.1 &&
    ((match x.2.due0 with
      | some t => decide (t < due)
      | none => false) ||
     (match x.2.due1 with
      | some t => decide (t < due)
      | none => false)))

/-- An engine may send REF at the present instant. -/
def State.refOpen (s : State) (m : Nat) : Bool :=
  let g := s.eng m
  decide (g.ready ≤ 8 * s.now) && decide (g.silent ≤ 8 * s.now) && g.cycleFree (8 * s.now)

/-- After its REF an engine that Reef-1 holds in power-down enters it again (R235). -/
def State.repower (s : State) (m : Nat) : State :=
  let g := s.eng m
  if s.pwr = 1 ∧ g.rdq = [] ∧ g.wrq = [] ∧ g.due0.isNone ∧ g.due1.isNone then s.enterPd m else s

/-- The arbiter grants a due REF while fewer than 24 run, in due-time order (R227). -/
def State.refStart (s : State) (m h : Nat) : State :=
  let g := s.eng m
  match (if h = 0 then g.due0 else g.due1) with
  | none => s
  | some due =>
    if 24 ≤ s.refsRunning ∨ s.earlierRef due ∨ ¬ g.halfClosed h (8 * s.now) ∨ s.halfLocked m h ∨ ¬ s.refOpen m ∨ s.slotWanted m then s
    else ((s.ref m h (8 * s.now)).refDelay m due).repower m

def execRefStart (m h : Nat) (s : State) : Host.Outcome State Fault Refusal :=
  done (if h < 2 ∧ s.refreshed m then s.refStart m h else s)

/-- A die changes its refresh mode at the value in DCH.TEMP: doubled above 85.0 °C, normal again once it has been
at or below 83.0 °C for 1 s (R229). -/
def State.refreshMode (s : State) (d : Nat) : State :=
  let t := signed 10 (s.fget (DCH.TEMP_TJ d))
  let on := s.flag (DCH.REF_STAT_MODE d)
  let cool := match SMap.get none s.thm.cool d with
    | some since => decide (since + 1000000000 ≤ s.now)
    | none => false
  let next := if on then !cool else decide (340 < t)
  if next = on then s
  else
    let s := ((s.setFlag (DCH.REF_STAT_MODE d) next).setFlag (DCH.STATUS_REF_DOUBLE d) next).int (I.dch d) 1
    s.fset SCH.REF_DOUBLE_DIES (setBit (s.fget SCH.REF_DOUBLE_DIES) (d - 1) next)

def execRefreshModeChange (d : Nat) (s : State) : Host.Outcome State Fault Refusal :=
  done (if 1 ≤ d ∧ d ≤ s.dies ∧ s.live then s.refreshMode d else s)

/-- Some sensor of a die reads above 85.0 °C, or the die's refresh is forced to double (R231, R377). -/
def State.srDoubled (s : State) (d : Nat) : Bool :=
  bitAt s.thm.forced d || (SMap.get {} s.thm.dies d).sensors.any (fun x => decide (340 < x.2.value))

/-- Engines of a die whose REF in self-refresh runs now. -/
def State.srRunning (s : State) (d : Nat) : Nat :=
  ((dieEngines d).filter (fun m => match (s.eng m).srAt with
    | some t => decide (8 * s.now < 8 * t + s.lim DCH.TIM_REF_TRFC m)
    | none => false)).length

/-- The core die's oscillator, up to 2% fast, has timed the next REF of a pseudo-channel: its own last one lies
tREFI_eff ÷ 2 back, and the last one of the die that interval divided by its pseudo-channels in self-refresh (R231). -/
def State.srDue (s : State) (m : Nat) : Bool :=
  let d := engDie m
  let half := s.refiAt d (s.srDoubled d) / 2 * 100 / 102
  let n := max 1 ((dieEngines d).filter s.engSr).length
  let past (t : Option Nat) (len : Nat) : Bool := match t with
    | some x => decide (x + len ≤ s.now)
    | none => true
  past (s.eng m).srAt half && (dieEngines d).all (fun x => past (s.eng x).srAt (half / n))

/-- In self-refresh the core die's own refresh engine executes a REF, at most 3 at once (R231). -/
def State.srRef (s : State) (m : Nat) : State :=
  if 8 * s.now < (s.eng m).ready ∨ 3 ≤ s.srRunning (engDie m) ∨ ¬ s.srDue m then s
  else
    let s := s.auditAdd m 1
    let g := s.eng m
    s.setEng m { g with srAt := some s.now, srRefs := g.srRefs + 1 }

def execSelfRefreshRef (m : Nat) (s : State) : Host.Outcome State Fault Refusal :=
  done (if s.engExists m ∧ s.engSr m ∧ ¬ s.engPerm m then s.srRef m else s)

/-! ### Boundaries (R232, R233) -/

/-- A user of boundaries (0 CAL, 1 STK) asks an engine for a refresh slot of a length, 120 ns to 2 µs; requests are
served in the order they come, and one ends power-down (R232, R234). -/
def State.askSlot (s : State) (m user len : Nat) : State :=
  let g := s.eng m
  (s.setEng m { g with slots := g.slots ++ [(user, max 120 (min len 2000))] }).wakeEng m

/-- A user's request waits at an engine. -/
def State.slotAsked (s : State) (m user : Nat) : Bool := (s.eng m).slots.any (fun x => x.1 = user)

/-- A user withdraws its request. -/
def State.dropSlot (s : State) (m user : Nat) : State :=
  let g := s.eng m
  (s.setEng m { g with slots := g.slots.filter (fun x => x.1 ≠ user) }).endFull m

/-- A boundary is recorded (Table 7.7, Table 7.8). -/
def State.noteBoundary (s : State) (m kind user len : Nat) : State :=
  let d := engDie m
  let s := s.setReg (DCH.BNDRY_STAT d) (BitVec.ofNat 32 (kind * 2 ^ 22 + user * 2 ^ 21 + engNo m * 2 ^ 16 + len / 10))
  s.bump (DCH.ENG_BNDRY_COUNT d (engNo m)) 1

/-- A REF sent to half with due time `due`: where it was due, its delay is recorded (R228). -/
def State.lateRef (s : State) (m : Nat) (due : Option Nat) : State := match due with
  | some t => s.refDelay m t
  | none => s

/-- REF to both halves, in two command cycles one after the other (R214): the half that was not due is pulled forward and skips its next due REF, and the delay of
one that was due is recorded; it counts as 2 REFs (R228, R232). -/
def State.fullRefresh (s : State) (m : Nat) : State :=
  let g := s.eng m
  let s := s.setEng m { g with full := false, skip0 := g.skip0 || g.due0.isNone, skip1 := g.skip1 || g.due1.isNone }
  let s := s.ref m 0 (8 * s.now)
  ((s.ref m 1 ((s.eng m).freeFrom (8 * s.now + 5))).lateRef m g.due0).lateRef m g.due1

/-- A full slot at the next due REF of either half: first both halves close, then REF goes to both, in due-time order and
within the 24 that may run (R227, R232). True where both have just been sent. -/
def State.slotStep (s : State) (m : Nat) : State × Bool :=
  let g := s.eng m
  let due := match g.due0, g.due1 with
    | some a, some b => some (min a b)
    | some a, none | none, some a => some a
    | none, none => none
  match due with
  | none => (s, false)
  | some t =>
    if s.engLocked m then (s, false)
    else if !g.full then (((s.setEng m { g with full := true }).closeHalf m 0).closeHalf m 1, false)
    else if 22 < s.refsRunning ∨ s.earlierRef t ∨ ¬ g.halfClosed 0 (8 * s.now) ∨ ¬ g.halfClosed 1 (8 * s.now) ∨ ¬ s.refOpen m then
      (s, false)
    else (s.fullRefresh m, true)

/-- A requested slot is granted at a due REF of either half; the mast is then silent for its length (R232, R233). -/
def State.refreshSlot (s : State) (m : Nat) : State :=
  match s.nextSlot m with
  | none => s
  | some (user, len) =>
    match s.slotStep m with
    | (s, false) => s
    | (s, true) =>
      let s := s.noteBoundary m 1 user len
      let g := s.eng m
      s.setEng m { g with slots := g.slots.erase (user, len), silent := max g.silent (8 * (s.now + len)),
                          longAt := if 120 < len then some s.now else g.longAt }

/-- When an idle boundary that is announced now begins, in nanoseconds: at once, or in power-down after the PDX that its
request sends (R232, R234). -/
def State.idleStart (s : State) (m : Nat) : Nat :=
  if s.engPd m then (s.eng m).freeFrom (max (8 * s.now) (s.eng m).ready) / 8 + 1 else s.now

/-- No REF of an engine is due, and none falls due within the 500 ns of an idle boundary. -/
def State.quietRef (s : State) (m : Nat) : Bool := [0, 1].all (fun h => s.noRefUpTo m h (s.idleStart m + 500))

/-- An idle engine announces a boundary to a user and holds it for up to 500 ns, in which the mast carries nothing; its
request ends power-down (R232, R234). -/
def State.idleBoundary (s : State) (m user : Nat) : State :=
  let from' := s.idleStart m
  let s := (s.wakeEng m).noteBoundary m 2 user 500
  let g := s.eng m
  s.setEng m { g with idleHold := some (from', user), silent := max g.silent (8 * (from' + 500)) }

def execIdleBoundary (m user : Nat) (s : State) : Host.Outcome State Fault Refusal :=
  done (if s.refreshed m ∧ (s.eng m).rdq = [] ∧ (s.eng m).wrq = [] ∧ ¬ s.engLocked m ∧ s.quietRef m ∧ user < 2 ∧
      (s.eng m).silent ≤ 8 * s.now then
    s.idleBoundary m user else s)

/-! ### Power-down and self-refresh (R234, R235) -/

/-- Close every open segment of an engine. -/
def State.closeAll (s : State) (m : Nat) : State := (s.closeHalf m 0).closeHalf m 1

/-- Every bank is precharged, and no REF runs, from this time on. -/
def EngSt.closedAt (g : EngSt) : Nat :=
  (g.tim.map (fun e => e.2.refOk)).foldl max (max g.ref0 g.ref1)

/-- Precharge power-down of an engine whose queues have been empty for PD_IDLE: its segments close, and PDE follows tRP
later (R234). -/
def State.powerDown (s : State) (m : Nat) : State :=
  let g := s.eng m
  let idle := 10 * s.fget (DCH.CTRL_PD_IDLE (engDie m))
  if idle = 0 ∨ g.rdq ≠ [] ∨ g.wrq ≠ [] ∨ s.now < g.idleFrom + idle ∨ s.engPd m ∨ s.engLocked m ∨ g.due0.isSome ∨ g.due1.isSome ∨ g.full ∨
      8 * s.now < g.silent then s
  else
    let s := s.closeAll m
    let g := s.eng m
    (s.setEng m { g with ready := max g.ready g.closedAt }).enterPd m

/-- In Sail an idle engine powers down; in Reef-1 one that has served what woke it does so again at once (R234, R235). -/
def execPowerDownEntry (m : Nat) (s : State) : Host.Outcome State Fault Refusal :=
  done (if s.engRuns m ∧ s.pwr = 0 then s.powerDown m else if s.engRuns m ∧ s.pwr = 1 then s.repower m else s)

/-- SRE: the segments close and power-down ends; SRE goes out once tRAS, tRTP, tWR and tRP have passed and no REF runs, and
the core die refreshes from then on, at the doubled rate whatever its sensors read where its used temperature is a
substituted one above 85.0 °C (R235, R245, R377). A permanently fenced pseudo-channel is not refreshed (R242). A row spare
lets its bank go, and a lift that was under way waits (R241, R317). -/
def State.enterSr (s : State) (m : Nat) : State :=
  if s.engPerm m then s else
  let d := engDie m
  let force := s.flag (THM.DIE_STAT_SUBST d) && decide (340 < signed 10 (s.fget (DCH.TEMP_TJ d)))
  let s : State := if force then { s with thm := { s.thm with forced := setBit s.thm.forced d true } } else s
  let s := (((s.unlockEng m).leavePd m).closeAll m).setEngBit DCH.SR_STATE_ENG m true
  let g := s.eng m
  let t := g.freeFrom (max (max (8 * s.now) g.ready) g.closedAt)
  (s.setEng m { g.book t with due0 := none, due1 := none, skip0 := false, skip1 := false, full := false, ready := t,
                              srAt := none, lifting := false, liftWaits := g.liftWaits || g.lifting }).auditSample m

/-- SRX: commands follow tXS later (R245); the doubled rate that a die was held to ends with the last of its
pseudo-channels that refreshes itself (R377). -/
def State.leaveSr (s : State) (m : Nat) : State :=
  if s.engSr m then
    let s := s.setEngBit DCH.SR_STATE_ENG m false
    let s : State := if s.fget (DCH.SR_STATE_ENG (engDie m)) = 0 then
        { s with thm := { s.thm with forced := setBit s.thm.forced (engDie m) false } }
      else s
    let g := s.eng m
    let t := g.freeFrom (max (8 * s.now) g.ready)
    (s.setEng m { g.book t with ready := t + s.lim DCH.TIM_PD_TXS m, srCheck := none }).auditSample m
  else s

/-- Every engine of the part. -/
def State.engines (s : State) : List Nat := List.range (17 * s.dies)

/-- Every engine's write queue is empty. -/
def State.wrqsEmpty (s : State) : Bool := s.engs.all (fun g => g.2.wrq.isEmpty)

end Sys2Proof.Machine
end

