-- ==== Sys2Proof/Machine/Slice.lean ====
section
/-! DEFINITION. The line cache, the merge buffer and the atomic units (spec/08_line_cache_and_atomics.md): what
an operation on a line does at its home slice, fills and read-modify-writes, write-backs, the flush, and the
fencing of an engine (R238 to R242). -/

namespace Sys2Proof.Machine

open Sys2Proof.Reg

/-! ### Sending reads to the engines -/

/-- The line as it stands in a slice's write-back buffer, if it does (R257). -/
def SliceSt.inWb (c : SliceSt) (line : Nat) : Option WbLine := c.wb.find? (fun b => b.line = line)

/-- A line that is answered without an array read joins what comes back to the slice (R212). -/
def State.pushRet (s : State) (m : Nat) (r : Ret) : State :=
  let g := s.eng m
  s.setEng m { g with ret := g.ret ++ [r] }

/-- The entry that a missing line joins: of the same request, or of the same block of a scan (R222, R251, R287). -/
def joins (a e : QEnt) : Bool :=
  decide (a.kind = e.kind) && decide (a.kind ≠ .tag) && !a.started && decide (a.bank = e.bank) &&
    decide (a.row = e.row) && decide (a.seg = e.seg) &&
    (match a.lines.head?, e.lines.head? with
     | some x, some y => x.op.isSome && decide (x.op.map (·.1) = y.op.map (·.1))
     | _, _ => false)

/-- Lines in address order. -/
def addLine (l : List ELine) (x : ELine) : List ELine := l.filter (fun y => decide (y.line < x.line)) ++ [x] ++ l.filter (fun y => decide (x.line ≤ y.line))

/-- Put an entry into a read queue, joining its request's entry where it has one. -/
def EngSt.pushRead (g : EngSt) (e : QEnt) : EngSt :=
  if g.rdq.any (fun a => joins a e) then
    { g with rdq := g.rdq.map (fun a => if joins a e then { a with lines := e.lines.foldl addLine a.lines } else a) }
  else { g with rdq := g.rdq ++ [e] }

/-- The read queue takes an entry: it has room, or the entry joins one there. -/
def EngSt.readRoom (g : EngSt) (e : QEnt) : Bool := decide (g.rdq.length < 32) || g.rdq.any (fun a => joins a e)

/-- A slice holds misses for an engine. -/
def State.missHeld (s : State) (k m : Nat) : Bool :=
  (s.slc k).miss.any (fun x => match x.lines.head? with
    | some l => s.engineOf (s.pcOf l.line) = m
    | none => false)

/-- A read of a line at an engine is answered from its write queue, counted as a hit (R212), or enters its read queue
(R211). -/
def State.enterRead (s : State) (m : Nat) (e : QEnt) (line : Nat) (op : Option (Nat × Nat)) : State :=
  match (s.eng m).writeOf line with
  | some x => (s.pushRet m ⟨e.kind, line, op, e.cls, x.word, true, false⟩).bump (DCH.ENG_HIT_COUNT (engDie m) (engNo m)) 1
  | none => (s.setEng m ((s.eng m).pushRead e)).reqEng m

/-- The word that a slice's copy of a line stands for. -/
def State.copyOf (s : State) (line : Nat) (data : List Nat) (utag dev : Nat) : List Nat :=
  encodeLine data utag (s.devState8 (s.pcOf line) (bitAt dev 7) (bitAt dev 6))

/-- Send a read of a line to the engine of its index: served from the write-back buffer or the write queue where
they hold the line, else queued, else kept in the miss buffer (R211, R212, R250, R257). -/
def State.sendRead (s : State) (e : QEnt) (line : Nat) : State :=
  let k := lineSlice line
  let c := s.slc k
  let m := s.engineOf (s.pcOf line)
  let op := (e.lines.head?.map (·.op)).getD none
  match c.inWb line with
  | some b => s.pushRet m ⟨e.kind, line, op, e.cls, s.copyOf line b.data b.utag b.dev, true, false⟩
  | none =>
    if ((s.eng m).writeOf line).isSome || (!s.missHeld k m && (s.eng m).readRoom e) then s.enterRead m e line op
    else s.setSlc k { c with miss := c.miss ++ [e] }

/-- A read of a line finds a place: it is answered above the array, or the read queue or the miss buffer has room (R250). -/
def State.readFits (s : State) (line : Nat) : Bool :=
  let k := lineSlice line
  let m := s.engineOf (s.pcOf line)
  ((s.slc k).inWb line).isSome || ((s.eng m).writeOf line).isSome || decide ((s.slc k).miss.length < 256) ||
    (!s.missHeld k m && decide ((s.eng m).rdq.length < 32))

/-- A read entry for an operation of a request: class, age and deadline of the request (R187, R223). -/
def State.reqEntry (s : State) (kind : EntKind) (o : SOp) (op : Option (Nat × Nat)) : QEnt :=
  let e := s.entry kind o.line op [] o.cls s.now
  match s.txn o.txn with
  | some t => let e := { e with age := t.admitAt, arrival := t.arrival, deadline := t.req.deadline }
    { e with u := s.urgency e }
  | none => e

/-- The index of a line is fenced: its engine answers fenced (R224, R240). -/
def State.lineFenced (s : State) (line : Nat) : Bool := s.fenced (s.pcOf line)

/-- Count a line answered fenced, at the engine that is fenced (R240). -/
def State.countFenced (s : State) (line : Nat) : State :=
  let m := s.engineOf (s.pcOf line)
  s.bumpSat (DCH.ENG_FENCED_COUNT (engDie m) (engNo m)) 1

/-! ### Ways -/

/-- A way is pinned (R253). -/
def Way.pinned (w : Way) (now : Nat) : Bool :=
  decide (w.st = .fill) || w.tagPend || w.staging || w.wbWait ||
    (match w.atomAt with
     | some t => decide (now < t + 5)
     | none => false)

/-- Add to the re-reference values of the unpinned line ways of a set until one is 3 (R253). -/
def SliceSt.ageSet (c : SliceSt) (set now : Nat) : SliceSt :=
  let inSet (k : Nat) : Bool := decide (k / 16 = set) && decide (2 ≤ k % 16)
  let top := c.ways.foldl (fun t e => if inSet e.1 && !e.2.pinned now then max t e.2.rrv else t) 0
  { c with ways := c.ways.map (fun e => if inSet e.1 && !e.2.pinned now then (e.1, { e.2 with rrv := min 3 (e.2.rrv + (3 - top)) }) else e) }

/-- The line way to use in a set (R253): the lowest invalid one, else the lowest unpinned one with value 3. -/
inductive Victim where
  | free (key : Nat)
  | evict (key : Nat) (w : Way)
  | none_
  deriving DecidableEq, Repr

/-- The victim of a set whose values have been aged. -/
def SliceSt.victim (c : SliceSt) (set now : Nat) : Victim :=
  let keys := (List.range 14).map (fun i => 16 * set + 2 + i)
  match keys.find? (fun k => !c.ways.any (fun e => e.1 = k)) with
  | some k => .free k
  | none =>
    match c.ways.find? (fun e => e.1 / 16 = set ∧ 2 ≤ e.1 % 16 ∧ e.2.rrv = 3 ∧ ¬ e.2.pinned now) with
    | some (k, w) => .evict k w
    | none => .none_

/-- Move a line into the write-back buffer, in place of an older copy of it there. -/
def SliceSt.toWb (c : SliceSt) (w : Way) : SliceSt :=
  let b : WbLine := ⟨w.line, w.data, w.utag, w.dev, w.staging⟩
  if (c.inWb w.line).isSome then { c with wb := c.wb.map (fun x => if x.line = w.line then b else x) }
  else { c with wb := c.wb ++ [b] }

/-- The write-back buffer takes a line (R257). -/
def SliceSt.wbFits (c : SliceSt) (line : Nat) : Bool := decide (c.wb.length < 16) || (c.inWb line).isSome

/-- One access cycle of a slice (Table 8.10). -/
def State.access (s : State) (k : Nat) : State := s.bump (LCH.SLICE_ACC_COUNT k) 1

/-! ### SECDED of the ways (R247, R255) -/

/-- The way of a slice at a key. -/
def State.wayAt (s : State) (k key : Nat) : Option Way := ((s.slc k).ways.find? (fun e => e.1 = key)).map (·.2)

/-- Bit errors strike a SECDED word of a way (0 to 7 a group of 8 data bytes, 8 the metadata); they stand in it until it is
read. -/
def State.strike (s : State) (k key code bad : Nat) : State :=
  match s.wayAt k key with
  | some w => s.setSlc k ((s.slc k).put key { w with errs := SMap.set 0 w.errs code (min 2 (SMap.get 0 w.errs code + bad)) })
  | none => s

/-- The SECDED words of a way that a single-bit error stands in. -/
def Way.singles (w : Way) : Nat := (w.errs.filter (fun e => e.2 = 1)).length

/-- The SECDED words of a way that a double-bit error stands in. -/
def Way.doubles (w : Way) : Nat := (w.errs.filter (fun e => 2 ≤ e.2)).length

/-- The SRAM injection fires on the next way read in its slice (R315). -/
def State.sramInject (s : State) (k key : Nat) : State :=
  match s.injOf 1 with
  | none => s
  | some i => if bits i.ctrl 0 5 = k then (s.fireInj 1 i).strike k key 0 (popcount 8 i.pat) else s

/-- The data of a way in use is lost to double-bit errors: counted, reported, poison (R255, R302). -/
def State.sramLost (s : State) (w : Way) : State :=
  ((s.bumpSat LCH.SRAM_UE_CNT_COUNT w.doubles).int I.lch 1).poisonCreated (s.pcOf w.line) w.line 5

/-- The single-bit errors of a way are corrected, written back and counted (R255). -/
def State.sramFixed (s : State) (w : Way) : State :=
  if w.singles = 0 then s else (s.bumpSat LCH.SRAM_CE_CNT_COUNT w.singles).int I.lch 0

/-- A line way is read: single-bit errors are corrected, written back and counted; a double-bit error invalidates a CLEAN
line, and poisons a MODIFIED one. An error of a CLEAN line that is so dropped is not counted in SRAM_UE_CNT (DESIGN CHOICE,
assumption 78). -/
def State.readLineWay (s : State) (k key : Nat) : State :=
  let s := s.sramInject k key
  match s.wayAt k key with
  | none => s
  | some w =>
    if w.errs = [] ∨ w.st = .fill then s
    else
      let s := (s.setSlc k ((s.slc k).put key { w with errs := [] })).sramFixed w
      if w.doubles = 0 then s
      else if w.st = .clean then s.setSlc k ((s.slc k).drop key)
      else (s.setSlc k ((s.slc k).put key { w with errs := [], dev := setBit w.dev 7 true })).sramLost w

/-- Take a line way in a set for a new line (R253, R257): a CLEAN victim is dropped, a MODIFIED one moves to the
write-back buffer, or stays pinned until the buffer has room, in which case there is no way yet; who has waited (`again`)
chooses no second victim while one of the set leaves. -/
def State.takeWay (s : State) (k set : Nat) (again : Bool) : State × Option Nat :=
  let c := s.slc k
  match c.victim set s.now with
  | .free key => (s, some key)
  | .evict _ _ | .none_ =>
    let c := c.ageSet set s.now
    match c.victim set s.now with
    | .free key => (s.setSlc k c, some key)
    | .none_ => (s, none)
    | .evict key _ =>
      let s := (s.setSlc k c).readLineWay k key
      let c := s.slc k
      match s.wayAt k key with
      | none => (s, some key)
      | some w =>
        if w.st ≠ .modified then ((s.setSlc k (c.drop key)).bump (LCH.S_EVICT_COUNT k) 1, some key)
        else if c.wbFits w.line then
          (((s.setSlc k ((c.drop key).toWb w)).bump (LCH.S_EVICT_COUNT k) 1).access k, some key)
        else if again && c.ways.any (fun e => e.1 / 16 = set ∧ e.2.wbWait) then (s, none)
        else (s.setSlc k (c.put key { w with wbWait := true }), none)

/-- The allocation policy of an operation: 0 NORMAL, 1 LOW, 2 NONE (R252). -/
def State.allocOf (s : State) (cls : Nat) (noalloc : Bool) : Nat := if noalloc then 2 else s.fget (SCH.CLS_CFG_ALLOC cls)

/-- The re-reference value of a newly allocated line (Table 8.2). -/
def newRrv (alloc : Nat) : Nat := if alloc = 0 then 1 else 3

/-- The re-reference value after a hit (Table 8.2). -/
def hitRrv (alloc rrv : Nat) : Nat := if alloc = 0 then 0 else rrv

/-- MODIFIED lines and open merge entries of an index in a slice (R259). -/
def State.dirty (s : State) (k pc : Nat) : Nat :=
  ((s.slc k).ways.filter (fun e => (e.2.st = .modified ∨ e.2.st = .merge) ∧ s.pcOf e.2.line = pc)).length

/-- The limit of R259. -/
def State.dirtyMax (s : State) : Nat := max 64 (min 6144 (s.fget LCH.DIRTY_CFG_PC_MAX))

/-- One more MODIFIED line of an index would pass the limit. -/
def State.overDirty (s : State) (k line : Nat) : Bool := decide (s.dirtyMax < s.dirty k (s.pcOf line) + 1)

/-- Write back one MODIFIED line of an index, in set order from the clean pointer (R259). -/
def State.cleanOne (s : State) (k pc : Nat) : State :=
  let c := s.slc k
  let pick (e : Nat × Way) : Bool := decide (e.2.st = .modified) && !e.2.tagPend && !e.2.staging && !e.2.wbWait &&
    decide (s.pcOf e.2.line = pc)
  match (c.ways.filter (fun e => pick e && decide (c.cleanPtr ≤ e.1 / 16))).head?, c.ways.find? pick with
  | some (key, w), _ | none, some (key, w) =>
    if c.wbFits w.line then
      let s := (s.readLineWay k key).access k
      match s.wayAt k key with
      | some w => s.setSlc k { ((s.slc k).put key { w with st := .clean }).toWb w with cleanPtr := key / 16 }
      | none => s
    else s
  | none, none => s

/-- A wait under R259: counted once for an operation, and cleaning goes on. -/
def State.dirtyStall (s : State) (o : SOp) : State × Option SOp :=
  let k := lineSlice o.line
  let s := if o.dirtyWait then s else (s.bumpSat (LCH.S_DIRTY_STALL_COUNT k) 1).int I.lch 2
  (s.cleanOne k (s.pcOf o.line), some { o with dirtyWait := true })

/-- A wait for a way, counted once for an operation (R253). -/
def State.wayStall (s : State) (o : SOp) : State × Option SOp :=
  (if o.wayWait then s else s.bumpSat (LCH.S_WAY_STALL_COUNT (lineSlice o.line)) 1, some { o with wayWait := true })

/-! ### Merge entries (R261 to R264) -/

/-- A merge entry closes by a read-modify-write: its read is uncharged, at urgency 1, with age from the opening. Under a
fence it stays open, and its read waits for the lift; where no read fits it waits for room (R250, R262 to R264). -/
def State.closeMerge (s : State) (k key : Nat) (byTimeout : Bool) : State :=
  match s.wayAt k key with
  | none => s
  | some w =>
    if w.st ≠ .merge ∨ w.closing then s
    else if s.lineFenced w.line ∨ ¬ s.readFits w.line then
      s.setSlc k ((s.slc k).put key { w with retry := true, byTimeout := w.byTimeout || byTimeout })
    else
      let s := s.setSlc k ((s.slc k).put key { w with closing := true, retry := false, byTimeout := w.byTimeout || byTimeout })
      s.sendRead (s.entry .merge w.line (some (w.opener, 0)) [] 64 w.openAt) w.line

/-- The user tag of a line is read from its array, uncharged, at urgency 1 (R256), with room for the read. A fetch that
still counts for its line carries an operand. -/
def State.sendTag (s : State) (line : Nat) : State :=
  if s.readFits line then s.sendRead (s.entry .tag line (some (line, 0)) [] 64 s.now) line else s

/-- A merge entry is read, and a double-bit error has lost its data: the line becomes MODIFIED and poisoned in a line way,
its user tag fetched; where no way is free the entry stays open without its bytes, poisoned (R255). -/
def State.mergeLost (s : State) (k key : Nat) (w : Way) : State :=
  let s := s.sramLost w
  match s.takeWay k (lineSet w.line) w.wayWait with
  | (s, none) => s.setSlc k ((s.slc k).put key { w with errs := [], mask := 0, dev := setBit w.dev 7 true })
  | (s, some key') =>
    let v : Way := { line := w.line, st := .modified, data := w.data, dev := setBit w.dev 7 true, tagPend := true,
                     rrv := newRrv (s.allocOf w.cls false), cls := w.cls }
    (s.setSlc k (((s.slc k).drop key).put key' v)).sendTag w.line

/-- A way is read, and its SECDED code checked (R255). -/
def State.readWay (s : State) (k key : Nat) : State :=
  match s.wayAt k key with
  | none => s
  | some w =>
    if w.st ≠ .merge then s.readLineWay k key
    else
      let s := s.sramInject k key
      match s.wayAt k key with
      | none => s
      | some w =>
        if w.errs = [] then s
        else
          let s := (s.setSlc k ((s.slc k).put key { w with errs := [] })).sramFixed w
          if w.doubles = 0 then s else s.mergeLost k key w

/-- Overlay the bytes of a mask. -/
def overlay (old new : List Nat) (mask : Nat) : List Nat :=
  (List.range 64).map (fun i => if bitAt mask i then nth new i else nth old i)

/-- A mask of all 64 bytes. -/
def fullMask : Nat := 2 ^ 64 - 1

/-! ### Atomics (Table 8.5) -/

/-- The little-endian number of some bytes. -/
def ofLe (l : List Nat) : Nat := ofBe l.reverse

/-- A number as little-endian bytes. -/
def leBytes (n x : Nat) : List Nat := (beBytes n x).reverse

/-- The new memory value of a sub-op from the old value and the operand bytes; the operand width in bytes. -/
def atomNew (sub : Nat) (old : Nat) (d : List Nat) : Nat :=
  let op := ofLe (slice d 0 8)
  let cmp := ofLe (slice d 8 8)
  let lt := decide (signed 64 old < signed 64 op)
  if sub = 0x01 then (old + op) % 2 ^ 64
  else if sub = 0x02 then op
  else if sub = 0x03 then (if old = cmp then op else old)
  else if sub = 0x04 then (if lt then old else op)
  else if sub = 0x05 then (if lt then op else old)
  else if sub = 0x06 then min old op
  else if sub = 0x07 then max old op
  else if sub = 0x08 then old ||| op
  else if sub = 0x09 then old &&& op
  else if sub = 0x0A then old ^^^ op
  else if sub = 0x11 then (if old = ofLe (slice d 16 16) then ofLe (slice d 0 16) else old)
  else ofLe (slice d 0 16)

/-- The width of a sub-op's value in bytes. -/
def atomWidth (sub : Nat) : Nat := if sub = 0x11 ∨ sub = 0x12 then 16 else 8

/-! ### An operation at its home slice -/

/-- A read entry keeps the operations on its line waiting: a fill, and a read of internal traffic, whose probe is one
operation in its line's order (R322; DEDUCED, assumption 22). -/
def EntKind.holds (k : EntKind) : Bool :=
  match k with
  | .fill | .probe _ => true
  | .merge | .tag | .write | .rewrite => false

/-- Another operation on the line is in flight (R249): a fill (allocated or not), a read-modify-write, an atomic, a
write-back held in the way, staging, a read of internal traffic, or, for an operation that needs the user tag, a tag
fetch. -/
def State.busyLine (s : State) (line : Nat) (needsTag : Bool) : Bool :=
  let c := s.slc (lineSlice line)
  let inWay := match c.find line with
    | some (_, w) => decide (w.st = .fill) || w.closing || w.wbWait || w.staging || (needsTag && w.tagPend) ||
        (match w.atomAt with
         | some t => decide (s.now < t + 5)
         | none => false)
    | none => false
  let g := s.eng (s.engineOf (s.pcOf line))
  inWay || c.miss.any (fun e => e.kind.holds && e.has line) || g.rdq.any (fun e => e.kind.holds && e.has line) ||
    g.ret.any (fun r => r.kind.holds && decide (r.line = line))

/-- Does an operation wait for a tag fetch: an RD64 with UTAG or an evacuation copy (R249)? -/
def SOp.needsTag (o : SOp) : Bool :=
  match o.kind with
  | .rd _ u => u
  | .probe who => decide (who = .copy)
  | .wr _ _ | .wrp _ | .atom _ _ => false

/-- An operation is answered. -/
def State.doneOp (s : State) (o : SOp) (r : LineRes) : State := s.finishLine o.txn o.idx r

/-- A line held with poison or retention-lost (R254); RL_IGNORE hides the latter (R304). -/
def State.badDev (s : State) (line dev : Nat) : Bool :=
  bitAt dev 7 || (bitAt dev 6 && !s.flag (ECC.PC_HEAL_RL_IGNORE (s.pcOf line)))

/-- The result of a read of a line held in the slice. -/
def State.readRes (s : State) (line dev : Nat) (data : List Nat) : LineRes :=
  if s.badDev line dev then .poison else .good (slice data 0 64)

/-- A read (R250, Table 8.2). None where it is done; else the operation as it waits. -/
def State.doRead (s : State) (o : SOp) (noalloc utag : Bool) : State × Option SOp :=
  let k := lineSlice o.line
  let c := s.slc k
  let op := some (o.txn, o.idx)
  let alloc := s.allocOf o.cls noalloc
  match c.find o.line with
  | some (key, w) =>
    if w.st = .merge then (s.closeMerge k key false, some o)
    else
      let s := s.setSlc k (c.put key { w with rrv := hitRrv alloc w.rrv })
      let s := (s.bump (LCH.S_RD_HIT_COUNT k) 1).noteTag (if utag then op else none) w.utag
      (s.doneOp o (s.readRes o.line w.dev w.data), none)
  | none =>
    match c.inWb o.line with
    | some b =>
      let s := (s.bump (LCH.S_RD_HIT_COUNT k) 1).noteTag (if utag then op else none) b.utag
      (s.doneOp o (s.readRes o.line b.dev b.data), none)
    | none =>
      if ¬ s.readFits o.line then (s, some o)
      else if alloc = 2 then
        ((s.bump (LCH.S_RD_MISS_COUNT k) 1).sendRead (s.reqEntry .fill o op) o.line, none)
      else
        match s.takeWay k (lineSet o.line) o.wayWait with
        | (s, none) => s.wayStall o
        | (s, some key) =>
          let s := s.setSlc k ((s.slc k).put key { line := o.line, st := .fill, data := [], rrv := newRrv alloc, cls := o.cls })
          ((s.bump (LCH.S_RD_MISS_COUNT k) 1).sendRead (s.reqEntry .fill o op) o.line, none)

/-- The tag fetches of a line that are under way are discarded when they return: a WR64 has written its tag (R256). -/
def State.staleTags (s : State) (line : Nat) : State :=
  let upd (e : QEnt) : QEnt := if e.kind = .tag ∧ e.has line then { e with lines := e.lines.map (fun l => { l with op := none }) } else e
  let ret (r : Ret) : Ret := if r.kind = .tag ∧ r.line = line then { r with op := none } else r
  let k := lineSlice line
  let s := s.setSlc k { s.slc k with miss := (s.slc k).miss.map upd }
  { s with engs := s.engs.map (fun (g : Nat × EngSt) => (g.1, { g.2 with rdq := g.2.rdq.map upd, ret := g.2.ret.map ret })) }

/-- A full-line write (R256): poison per POISON_WR, the user tag per UTAG, else a tag fetch; where the line's tag stands in
the write-back buffer, it is taken from there (DESIGN CHOICE, assumption 77). -/
def State.doWrite (s : State) (o : SOp) (poison : Bool) (tag : Option Nat) : State × Option SOp :=
  let k := lineSlice o.line
  let c := s.slc k
  let alloc := s.allocOf o.cls false
  let dev := b2n poison * 128 + 1
  let fin (s : State) : State × Option SOp :=
    ((if poison then s.poisonCreated (s.pcOf o.line) o.line 6 else s).doneOp o (.good []), none)
  match c.find o.line with
  | some (key, w) =>
    if w.st = .merge then (s.closeMerge k key false, some o)
    else if w.st = .clean ∧ s.overDirty k o.line then s.dirtyStall o
    else
      let s := if w.tagPend ∧ tag.isSome then s.staleTags o.line else s
      let w := { w with st := .modified, data := o.data, utag := tag.getD w.utag, dev := dev,
                        tagPend := w.tagPend && tag.isNone, rrv := hitRrv alloc w.rrv }
      fin ((s.setSlc k ((s.slc k).put key w)).bump (LCH.S_WR_HIT_COUNT k) 1)
  | none =>
    let kept := (c.inWb o.line).map (·.utag)
    let fetch := tag.isNone && kept.isNone
    if s.overDirty k o.line then s.dirtyStall o
    else if fetch ∧ ¬ s.readFits o.line then (s, some o)
    else
      match s.takeWay k (lineSet o.line) o.wayWait with
      | (s, none) => s.wayStall o
      | (s, some key) =>
        let w : Way := { line := o.line, st := .modified, data := o.data, utag := tag.getD (kept.getD 0), dev := dev,
                         rrv := newRrv alloc, tagPend := fetch, cls := o.cls }
        let s := (s.setSlc k ((s.slc k).put key w)).bump (LCH.S_WR_MISS_COUNT k) 1
        fin (if fetch then s.sendTag o.line else s)

/-- A flush runs: new merge entries are refused (Table 8.7). -/
def State.flushing (s : State) : Bool := s.flush.isSome

/-- The bytes of a WRP join a merge entry; once bytes written since its data was lost cover the line, it is poisoned no
more (R111, R261). -/
def Way.merged (w : Way) (data : List Nat) (mask : Nat) : Way :=
  let m := w.mask ||| mask
  { w with data := overlay w.data data mask, mask := m, dev := if m = fullMask then 1 else w.dev }

/-- A partial write: into the line, or into a merge entry of its set (R260, R261). -/
def State.doPartial (s : State) (o : SOp) (mask : Nat) : State × Option SOp :=
  let k := lineSlice o.line
  let c := s.slc k
  let alloc := s.allocOf o.cls false
  let full := decide (mask = fullMask)
  match c.find o.line with
  | some (key, w) =>
    if w.st = .merge then
      let w := w.merged o.data mask
      let s := ((s.setSlc k (c.put key w)).bump (LCH.S_WRP_COUNT k) 1).doneOp o (.good [])
      (if w.mask = fullMask then s.closeMerge k key false else s, none)
    else if w.st = .clean ∧ s.overDirty k o.line then s.dirtyStall o
    else
      let w := { w with st := .modified, data := overlay w.data o.data mask, dev := if full then 1 else w.dev,
                        rrv := hitRrv alloc w.rrv }
      (((s.setSlc k (c.put key w)).bump (LCH.S_WRP_COUNT k) 1).doneOp o (.good []), none)
  | none =>
    let set := lineSet o.line
    if s.flushing then (s, some o)
    else if s.overDirty k o.line then s.dirtyStall o
    else
      match [16 * set, 16 * set + 1].find? (fun key => !c.ways.any (fun e => e.1 = key)) with
      | some key =>
        let w : Way := { line := o.line, st := .merge, data := overlay [] o.data mask, mask := mask, openAt := s.now, cls := o.cls,
                         opener := o.txn }
        let s := ((s.setSlc k (c.put key w)).bump (LCH.S_WRP_COUNT k) 1).doneOp o (.good [])
        (if full then s.closeMerge k key false else s, none)
      | none =>
        let two := c.ways.filter (fun e => decide (e.1 / 16 = set) && decide (e.1 % 16 < 2))
        let old := two.foldl (fun (a : Option (Nat × Way)) e => match a with
          | none => some e
          | some b => if e.2.openAt < b.2.openAt then some e else some b) none
        (match old with
         | some e => s.closeMerge k e.1 false
         | none => s, some o)

/-- Bring the line of an atomic into its slice where it is absent (R265). -/
def State.fetchAtom (s : State) (o : SOp) : State × Option SOp :=
  let k := lineSlice o.line
  match (s.slc k).find o.line with
  | some (key, w) => (if w.st = .merge then s.closeMerge k key false else s, some o)
  | none =>
    if ¬ s.readFits o.line then (s, some o)
    else
      match s.takeWay k (lineSet o.line) o.wayWait with
      | (s, none) => s.wayStall o
      | (s, some key) =>
        let s := s.setSlc k ((s.slc k).put key { line := o.line, st := .fill, data := [], rrv := newRrv (s.allocOf o.cls false),
                                                 cls := o.cls })
        (s.sendRead (s.reqEntry .fill o none) o.line, some { o with missed := true })

/-- An atomic in the atomic unit of its slice, on a line held there (R265 to R267); one that brought its line in leaves the
re-reference value of the miss (Table 8.2). The old value stands in bytes 0 to 7 or 0 to 15 of the answer, where the
operand stood in the request (R107; DEDUCED, assumption 24). One answered POISON counts in S_ATOM too (DESIGN CHOICE,
assumption 76). -/
def State.doAtom (s : State) (o : SOp) (sub off : Nat) : State × Option SOp :=
  let k := lineSlice o.line
  let c := s.slc k
  match c.find o.line with
  | none => s.fetchAtom o
  | some (key, w) =>
    if w.st = .merge then (s.closeMerge k key false, some o)
    else if s.badDev o.line w.dev then
      let w := { w with rrv := if o.missed then w.rrv else hitRrv (s.allocOf o.cls false) w.rrv }
      (((s.setSlc k (c.put key w)).bump (LCH.S_ATOM_COUNT k) 1).doneOp o .poison, none)
    else
      let n := atomWidth sub
      let old := slice w.data off n
      let new := leBytes n (atomNew sub (ofLe old) o.data)
      if new ≠ old ∧ w.st = .clean ∧ s.overDirty k o.line then s.dirtyStall o
      else
        let data := (List.range 64).map (fun i => if off ≤ i ∧ i < off + n then nth new (i - off) else nth w.data i)
        let prev := match w.atomAt with
          | some t => t + 5 - min (t + 5) (max o.at_ t)
          | none => 0
        let w := { w with st := if new = old then w.st else .modified, data := data,
                          rrv := if o.missed then w.rrv else hitRrv (s.allocOf o.cls false) w.rrv, atomAt := some s.now }
        let s := (s.setSlc k (c.put key w)).bump (LCH.S_ATOM_COUNT k) 1
        let s := s.bump (LCH.S_ATOM_WAIT_COUNT k) (prev * 8 / 5)
        (s.doneOp o (.good (old ++ List.replicate (64 - n) 0)), none)

/-- A probe's answer that needs no array read: the slice's copy, or that the line is fenced. -/
def State.probeRet (s : State) (o : SOp) (who : Reader) (word : List Nat) (fenced : Bool) : State :=
  s.pushRet (s.engineOf (s.pcOf o.line)) ⟨.probe who, o.line, some (o.txn, o.idx), o.cls, word, true, fenced⟩

/-- The array copy of a line that its slice holds serves a probe of scrub (unless the line is MODIFIED) or of a sweep,
which act on the array (R269, R304, R307). -/
def Reader.wantsArray (who : Reader) (w : Way) (clearing : Bool) : Bool :=
  match who with
  | .patrol | .fast => decide (w.st ≠ .modified)
  | .sweep => decide (w.st ≠ .modified) || clearing
  | .copy | .cal | .scan _ _ => false

/-- A probe by internal traffic (R269): one that hits takes the slice's copy, one that meets an open merge entry closes
it, and one of calibration is then skipped (R361); one that misses reads the array and allocates nothing. It counts in neither S_RD_HIT nor S_RD_MISS (DESIGN CHOICE,
assumption 75). -/
def State.doProbe (s : State) (o : SOp) (who : Reader) : State × Option SOp :=
  let k := lineSlice o.line
  let read (s : State) : State × Option SOp :=
    if ¬ s.readFits o.line then (s, some o)
    else
      let e := s.entry (.probe who) o.line (some (o.txn, o.idx)) [] o.cls o.at_
      (s.sendRead e o.line, none)
  match (s.slc k).find o.line with
  | some (key, w) =>
    if w.st = .merge then
      let s := s.closeMerge k key false
      if who = .cal then (s.probeRet o who (s.copyOf o.line w.data w.utag w.dev) false, none) else (s, some o)
    else if who.wantsArray w (s.flag (ECC.PC_HEAL_RL_IGNORE (s.pcOf o.line))) then read s
    else (s.probeRet o who (s.copyOf o.line w.data w.utag w.dev) false, none)
  | none => read s

/-- An operation on a fenced line is answered fenced (R240). -/
def State.fencedOp (s : State) (o : SOp) : State :=
  let s := s.countFenced o.line
  match o.kind with
  | .probe who => s.probeRet o who [] true
  | .rd _ _ | .wr _ _ | .wrp _ | .atom _ _ => s.doneOp o .fenced

/-- Execute an operation at its slice: none where it is done, else the operation as it waits there. `run` lets an atomic
start. -/
def State.sliceExec (s : State) (o : SOp) (run : Bool) : State × Option SOp :=
  let k := lineSlice o.line
  if s.lineFenced o.line then (s.fencedOp o, none)
  else
    let s := match (s.slc k).find o.line with
      | some (key, _) => s.readWay k key
      | none => s
    let s := s.access k
    match o.kind with
    | .rd noalloc utag => s.doRead o noalloc utag
    | .wr poison tag => s.doWrite o poison tag
    | .wrp mask => s.doPartial o mask
    | .atom sub off => if run then s.doAtom o sub off else s.fetchAtom o
    | .probe who => s.doProbe o who

/-- Add an operation to the pending table. -/
def State.pend (s : State) (k : Nat) (o : SOp) : State :=
  let c := s.slc k
  s.setSlc k { c with pend := c.pend ++ [o] }

/-- Entries of the pending table in use: the operations that wait, and the closes that wait for a way (R249, R263). -/
def SliceSt.pendUsed (c : SliceSt) : Nat :=
  c.pend.length + (c.ways.filter (fun e => decide (e.2.st = .merge) && e.2.closing && e.2.wayWait)).length

/-- A slice takes new operations: its pending table and its miss buffer have room (R249, R250). -/
def SliceSt.open_ (c : SliceSt) : Bool := decide (c.pendUsed < 64) && decide (c.miss.length < 256)

/-- An operation that a slice takes joins the pending table behind an operation on its line, or executes (R249). -/
def State.startOp (s : State) (o : SOp) : State :=
  let k := lineSlice o.line
  if (s.slc k).pend.any (fun x => x.line = o.line) || s.busyLine o.line o.needsTag then s.pend k o
  else
    match s.sliceExec o false with
    | (s, none) => s
    | (s, some o) => s.pend k o

/-- An operation reaches its home slice: it waits at the input while the slice takes none (R249, R250). -/
def State.sliceOp (s : State) (o : SOp) : State :=
  let k := lineSlice o.line
  let c := s.slc k
  let o := { o with at_ := s.now }
  if !c.open_ || !c.input.isEmpty then s.setSlc k { c with input := c.input ++ [o] } else s.startOp o

/-- The slice takes from its input what it now has room for, one operation. -/
def State.takeInput (s : State) (k : Nat) : State :=
  let c := s.slc k
  match c.input with
  | o :: rest => if c.open_ then (s.setSlc k { c with input := rest }).startOp o else s
  | [] => s

/-- The first operation that waits on a line. -/
def State.waiting (s : State) (line : Nat) : Option SOp := (s.slc (lineSlice line)).pend.find? (fun o => o.line = line)

/-- Take an operation out of the pending table, or leave it there as it waits now. -/
def State.unpend (s : State) (k : Nat) (o : SOp) (now' : Option SOp) : State :=
  let c := s.slc k
  s.setSlc k { c with pend := match now' with
                        | none => c.pend.erase o
                        | some x => c.pend.map (fun y => if y = o then x else y) }

/-- An atomic at a slice may start: the first operation on its line, with nothing in flight before it (R267). -/
def State.atomWaits (s : State) (k : Nat) : Bool :=
  (s.slc k).pend.any (fun o => match o.kind with
    | .atom _ _ => decide (s.waiting o.line = some o) && !s.busyLine o.line false
    | .rd _ _ | .wr _ _ | .wrp _ | .probe _ => false)

/-- An operation of source 5 of Table 8.6: a scan's read. -/
def SOp.scans (o : SOp) : Bool :=
  match o.kind with
  | .probe (.scan _ _) => true
  | .probe .patrol | .probe .fast | .probe .sweep | .probe .copy | .probe .cal | .rd _ _ | .wr _ _ | .wrp _ | .atom _ _ => false

/-- The first operation waiting on a line executes once the one before it has taken effect; then the slice takes
from its input (R249); a scan's read waits while an atomic does (R268). -/
def State.runPending (s : State) (line : Nat) (atoms : Bool) : State :=
  let k := lineSlice line
  match s.waiting line with
  | none => s.takeInput k
  | some o =>
    let isAtom := match o.kind with
      | .atom _ _ => true
      | .rd _ _ | .wr _ _ | .wrp _ | .probe _ => false
    if isAtom ≠ atoms ∨ s.busyLine line o.needsTag ∨ (o.scans ∧ s.atomWaits k) then s
    else
      match s.sliceExec o true with
      | (s, none) => (s.unpend k o none).takeInput k
      | (s, some x) => s.unpend k o (some x)

/-! ### What comes back from the engines -/

/-- The first returned line of a kind at an engine, and the rest. -/
def State.takeRet (s : State) (m : Nat) (kind : EntKind) : Option (State × Ret) :=
  let g := s.eng m
  match g.ret.find? (fun r => r.kind = kind) with
  | some r => some (s.setEng m { g with ret := g.ret.erase r }, r)
  | none => none

/-- A returned line's word after ECC: `errs` are the errors that struck the word in its array. A forwarded word is
not decoded (R212). Answers the word, whether it was uncorrectable, and the symbols corrected. -/
def State.retWord (s : State) (m : Nat) (r : Ret) (src : Nat) (errs : List (Nat × Nat)) : State × List Nat × Bool × Nat :=
  if r.fwd then (s, r.word, false, 0)
  else
    let l := s.placeOf r.line
    let a := engArray m
    let (s, _) := s.readWord a (s.arrayLine a l) errs
    let w := errs.foldl (fun v e => setAt v e.1 (nth v e.1 ^^^ (e.2 % 256))) r.word
    let (s, w, d) := s.decode a l r.line src w
    (s, w, d.ue, d.fixed)

/-- The device-state byte that a slice keeps of a word: poison and retention-lost (R254, R304). -/
def State.keptDev (s : State) (k : Nat) (w : List Nat) : Nat := b2n (wordPoison w) * 128 + b2n (s.wordLost k w) * 64 + 1

/-- A fill returns: the way that waits for it becomes CLEAN, a corrected word may be rewritten, and the read it
answers ends (R250, R254, R301). -/
def State.fill (s : State) (m : Nat) (errs : List (Nat × Nat)) : State :=
  match s.takeRet m .fill with
  | none => s
  | some (s, r) =>
    let pc := s.pcOf r.line
    let (s, w, ue, fixed) := s.retWord m r 0 errs
    let thr := s.fget ECC.CTRL_REWRITE_THR
    let s := if !ue && decide (thr ≠ 0) && decide (thr ≤ fixed) then s.offerRewrite pc r.line w else s
    let k := lineSlice r.line
    let dev := s.keptDev pc w
    let s := s.access k
    let s := match (s.slc k).find r.line with
      | some (key, y) =>
        if y.st = WaySt.fill then
          s.setSlc k ((s.slc k).put key { y with st := .clean, data := slice w 0 64, utag := wordTag w, dev := dev, errs := [] })
        else s
      | none => s
    (s.noteTag r.op (wordTag w)).finishOpt r.op (if bitAt dev 7 ∨ bitAt dev 6 then .poison else .good (slice w 0 64))

/-- A queued read of a fenced engine is answered fenced: a fill's way is freed, a merge entry stays open and its read is
sent again at the lift, as a tag fetch is, and a read of internal traffic goes back to its reader (R239, R264). The fill of
an atomic answers no line: the atomic that waits for it is answered fenced, and counts (R240). -/
def State.fencedRead (s : State) (m : Nat) (e : QEnt) (l : ELine) : State :=
  let k := lineSlice l.line
  match e.kind, (s.slc k).find l.line with
  | .fill, w =>
    let s := match w with
      | some (key, y) => if y.st = WaySt.fill then s.setSlc k ((s.slc k).drop key) else s
      | none => s
    if l.op.isNone then s else (s.countFenced l.line).finishOpt l.op .fenced
  | .merge, some (key, y) =>
    if y.st = WaySt.merge then s.setSlc k ((s.slc k).put key { y with closing := false, retry := true }) else s
  | .probe who, _ => (s.countFenced l.line).pushRet m ⟨.probe who, l.line, l.op, e.cls, [], true, true⟩
  | .merge, none | .tag, _ | .write, _ | .rewrite, _ => s

/-- No tag fetch of a line is under way. -/
def State.tagOwed (s : State) (line : Nat) : Bool :=
  !(s.slc (lineSlice line)).miss.any (fun e => e.kind = .tag ∧ e.has line) &&
    !s.engs.any (fun g => g.2.rdq.any (fun e => e.kind = .tag ∧ e.has line) || g.2.ret.any (fun r => r.kind = .tag ∧ r.line = line))

/-- The tag fetch that slice `k` owes for want of room is sent, one line (R250, R256). -/
def State.sendOwedTag (s : State) (k : Nat) : State :=
  match (s.slc k).ways.find? (fun e => e.2.tagPend && !s.lineFenced e.2.line && s.tagOwed e.2.line) with
  | some (_, w) => s.sendTag w.line
  | none => s

/-- The reads of its own that a slice owes for want of room are sent once they fit: the tag fetch of one line and the close of
one merge entry (R250, R256, R262). -/
def State.sendOwed (s : State) (k : Nat) : State :=
  let s := s.sendOwedTag k
  match (s.slc k).ways.find? (fun e => decide (e.2.st = .merge) && e.2.retry && !e.2.closing && !s.lineFenced e.2.line) with
  | some (key, _) => s.closeMerge k key false
  | none => s

/-- A miss passes from the miss buffer to its engine's read queue as an entry frees, in admission order: the oldest whose
queue has room (R211, R250). -/
def State.forwardMiss (s : State) (k : Nat) : State :=
  let c := s.slc k
  let room (e : QEnt) : Bool := match e.lines.head? with
    | some l =>
      let g := s.eng (s.engineOf (s.pcOf l.line))
      g.readRoom e || (g.writeOf l.line).isSome
    | none => true
  match oldestEnt (c.miss.filter room) with
  | none => s
  | some e =>
    let s := s.setSlc k { c with miss := c.miss.erase e }
    match e.lines.head? with
    | none => s
    | some l =>
      let m := s.engineOf (s.pcOf l.line)
      if s.lineFenced l.line then s.fencedRead m e l else s.enterRead m e l.line l.op

def execMissForward (k : Nat) (s : State) : Host.Outcome State Fault Refusal :=
  done (if s.live ∧ k < 32 then (s.forwardMiss k).sendOwed k else s)

/-- The tag fetch of a TAG_PENDING line returns; a fetch whose tag has been written since carries no operand any more and is
discarded (R256). -/
def State.tagFetch (s : State) (m : Nat) (errs : List (Nat × Nat)) : State :=
  match s.takeRet m .tag with
  | none => s
  | some (s, r) =>
    let (s, w, ue, _) := s.retWord m r 0 errs
    let k := lineSlice r.line
    let s := s.access k
    match (s.slc k).find r.line with
    | some (key, y) =>
      if !y.tagPend || r.op.isNone then s
      else
        let s := s.setSlc k ((s.slc k).put key { y with tagPend := false, utag := if ue then 0 else wordTag w })
        if ue then (s.bumpSat LCH.TAG_LOST_CNT_COUNT 1).int I.lch 3 else s
    | none => s

def execTagFetch (m : Nat) (errs : List (Nat × Nat)) (s : State) : Host.Outcome State Fault Refusal :=
  done (if s.live ∧ s.engExists m then s.tagFetch m errs else s)

/-- The read-modify-write of a merge entry ends (R263): the bytes overlay the word, and the line is placed MODIFIED
under the class that opened the entry; where no way is free the entry keeps its merge way, and the wait is counted once. -/
def State.mergeReturn (s : State) (m : Nat) (errs : List (Nat × Nat)) : State :=
  match s.takeRet m .merge with
  | none => s
  | some (t, r) =>
    let k := lineSlice r.line
    let t := match (t.slc k).find r.line with
      | some (key, _) => t.readWay k key
      | none => t
    match (t.slc k).find r.line with
    | none => t
    | some (mkey, y) =>
      if y.st ≠ .merge then t
      else
        match t.takeWay k (lineSet r.line) y.wayWait with
        | (u, none) =>
          let u := { u with engs := s.engs }
          if y.wayWait then u
          else (u.setSlc k ((u.slc k).put mkey { y with wayWait := true })).bumpSat (LCH.S_WAY_STALL_COUNT k) 1
        | (u, some key) =>
          let pc := u.pcOf r.line
          let full := decide (y.mask = fullMask)
          let (u, w, ue, _) := u.retWord m r 2 errs
          let dev := b2n (!full && (ue || wordPoison w) || bitAt y.dev 7) * 128 + b2n (!full && u.wordLost pc w) * 64 + 1
          let lost := ue && full
          let v : Way := { line := r.line, st := .modified, data := overlay w y.data y.mask,
                           utag := if lost then 0 else wordTag w, dev := dev, rrv := newRrv (u.allocOf y.cls false), cls := y.cls }
          let u := ((u.setSlc k (((u.slc k).drop mkey).put key v)).bump (LCH.S_MERGE_CLOSE_COUNT k) 1).access k
          let u := if y.byTimeout then u.bump (LCH.S_MERGE_TMO_COUNT k) 1 else u
          if lost then (u.bumpSat LCH.TAG_LOST_CNT_COUNT 1).int I.lch 3 else u

def execMergeClose (m : Nat) (errs : List (Nat × Nat)) (s : State) : Host.Outcome State Fault Refusal :=
  done (if s.live ∧ s.engExists m then s.mergeReturn m errs else s)

/-- A merge entry reaches TIMEOUT_NS after opening (Table 8.3); under a temporary fence its timeout is suspended
(R264). -/
def execMergeTimeout (line : Nat) (s : State) : Host.Outcome State Fault Refusal :=
  done (if s.live then
    match (s.slc (lineSlice line)).find line with
    | some (key, w) =>
      if w.st = .merge ∧ w.openAt + max 100 (s.fget LCH.MERGE_CFG_TIMEOUT_NS) ≤ s.now then
        s.closeMerge (lineSlice line) key true
      else s
    | none => s
    else s)

/-! ### Write-back (R257, R258, R289) -/

/-- A buffer entry has freed: evicted lines that waited in their way leave, and staging lines enter the buffer. -/
def State.refillWb (s : State) (k : Nat) : State :=
  let c := s.slc k
  let next := match c.ways.find? (fun e => e.2.wbWait && c.wbFits e.2.line) with
    | some e => some e
    | none => c.ways.find? (fun e => e.2.staging && !c.wb.any (fun b => decide (b.line = e.2.line) && b.staged) && c.wbFits e.2.line)
  match next with
  | none => s
  | some (key, _) =>
    let s := (s.readLineWay k key).access k
    match s.wayAt k key with
    | none => s
    | some w =>
      if w.staging then s.setSlc k ((s.slc k).toWb w)
      else (s.setSlc k (((s.slc k).drop key).toWb w)).bump (LCH.S_EVICT_COUNT k) 1

/-- During a copy every write-back of the source index also enters engine 16's write queue (R243, R321). -/
def State.mirror (s : State) (pc line : Nat) (e : QEnt) : State :=
  match s.ecc.evac with
  | some v => if v.copying ∧ v.pc = pc then s.wrqPut (17 * (pc / 16) + 16) e line else s
  | none => s

/-- There is room for a write-back of an index, and for its mirror where it has one. -/
def State.wbRoom (s : State) (pc line : Nat) : Bool :=
  s.wrqRoom (s.engineOf pc) line &&
    (match s.ecc.evac with
     | some v => !(v.copying && decide (v.pc = pc)) || s.wrqRoom (17 * (pc / 16) + 16) line
     | none => true)

/-- A permanently fenced engine drops a write-back: counted and reported (R239). -/
def State.dropWrites (s : State) (m n : Nat) : State :=
  if n = 0 then s
  else
    let d := engDie m
    let s := (s.bumpSat (DCH.ENG_WB_DROP_COUNT d (engNo m)) n).int (I.dch d) 2
    s.fault (0x080 + m) 0x2F 2 (min n 65535)

/-- A staging line becomes CLEAN with value 3 once its staged data has left the write-back buffer (R289). -/
def State.unstage (s : State) (k : Nat) (b : WbLine) : State :=
  match (s.slc k).find b.line with
  | some (key, w) =>
    if w.staging && b.staged then s.setSlc k ((s.slc k).put key { w with staging := false, st := .clean, rrv := 3 }) else s
  | none => s

/-- The oldest line of the write-back buffer passes to its engine's write queue once there is room (R257). -/
def State.writeBack (s : State) (k : Nat) : State :=
  let s := s.refillWb k
  let c := s.slc k
  match c.wb with
  | [] => s
  | b :: rest =>
    let pc := s.pcOf b.line
    let m := s.engineOf pc
    if s.engPerm m then (((s.setSlc k { c with wb := rest }).unstage k b).dropWrites m 1).refillWb k
    else if s.wbRoom pc b.line then
      let s := ((s.setSlc k { c with wb := rest }).unstage k b).access k
      let (s, w) := s.encode pc b.line b.data b.utag (bitAt b.dev 7) (bitAt b.dev 6)
      let e := s.entry .write b.line none w 64 s.now
      (((s.wrqPut m e b.line).mirror pc b.line e).bump (LCH.S_WB_COUNT k) 1).refillWb k
    else s

def execWriteBack (k : Nat) (s : State) : Host.Outcome State Fault Refusal :=
  done (if s.live ∧ k < 32 then s.writeBack k else s)

/-- Bit errors strike a way (`bad` modulo 4 of them, in its SECDED word `bad` ÷ 4 modulo 9; way `bad` ÷ 36 − 1 of the slice,
or the one that the walker reads now), and the walker reads the next way of a slice (R247, R255). -/
def State.sramWalk (s : State) (k bad : Nat) : State :=
  let s := if 36 ≤ bad then s.strike k (bad / 36 - 1) (bad / 4 % 9) (bad % 4) else s
  let c := s.slc k
  match c.ways.find? (fun e => decide (c.walk < e.1)), c.ways.head? with
  | some (key, _), _ | none, some (key, _) =>
    let s := if bad < 36 then s.strike k key (bad / 4) (bad % 4) else s
    ((s.setSlc k { s.slc k with walk := key }).readWay k key).access k
  | none, none => s

def execSramScrub (k bad : Nat) (s : State) : Host.Outcome State Fault Refusal :=
  done (if s.live ∧ k < 32 ∧ s.flag LCH.CTRL_SRAM_SCRUB then s.sramWalk k bad else s)

/-! ### Flush (R272, R273) -/

/-- A flush starts, unless one runs. -/
def State.startFlush (s : State) (inv : Bool) (by' : Nat) : State :=
  if s.flush.isSome then s
  else ({ s with flush := some ⟨inv, s.now, by'⟩ }.setFlag LCH.FLUSH_CTRL_BUSY true).fset LCH.STATUS_FLUSH_STATE 1

/-- A flush is abandoned: the walker stops, and what is written back stays so (R273). -/
def State.stopFlush (s : State) : State :=
  ({ s with flush := none }.setFlag LCH.FLUSH_CTRL_BUSY false).fset LCH.STATUS_FLUSH_STATE 0

/-- Every open merge entry of every slice closes. -/
def State.closeMerges (s : State) : State :=
  s.slices.foldl (fun s c => c.2.ways.foldl (fun s e => if e.2.st = .merge then s.closeMerge c.1 e.1 false else s) s) s

/-- Merge entries exist. -/
def State.anyMerge (s : State) : Bool := s.slices.any (fun c => c.2.ways.any (fun e => e.2.st = .merge))

/-- MODIFIED lines or write-back buffer lines exist. -/
def State.anyDirty (s : State) : Bool :=
  s.slices.any (fun c => !c.2.wb.isEmpty || c.2.ways.any (fun e => e.2.st = .modified || e.2.wbWait))

/-- The flush walker of one slice moves one MODIFIED line to the buffer. -/
def State.flushOne (s : State) (k : Nat) : State :=
  let c := s.slc k
  match c.ways.find? (fun e => e.2.st = .modified && !e.2.tagPend && !e.2.staging && !e.2.wbWait) with
  | some (key, w) =>
    if c.wbFits w.line then
      let s := (s.readLineWay k key).access k
      match s.wayAt k key with
      | some w => s.setSlc k (((s.slc k).put key { w with st := .clean }).toWb w)
      | none => s
    else s
  | none => s

/-- One round of the flush (Table 8.7): it closes merge entries, then writes back, then waits for the engines. -/
def State.flushStep (s : State) : State :=
  let s := s.closeMerges
  let s := s.slices.foldl (fun s c => s.flushOne c.1) s
  if s.anyMerge then s.fset LCH.STATUS_FLUSH_STATE 1
  else if s.anyDirty then s.fset LCH.STATUS_FLUSH_STATE 2
  else s.fset LCH.STATUS_FLUSH_STATE 3

def execFlush (s : State) : Host.Outcome State Fault Refusal :=
  done (if s.live ∧ s.flush.isSome then s.flushStep else s)

/-- Every line way becomes INVALID. -/
def State.invalidate (s : State) : State :=
  { s with slices := s.slices.map (fun c => (c.1, { c.2 with ways := c.2.ways.filter (fun e => decide (e.2.st = WaySt.fill) || decide (e.2.st = WaySt.merge)) })) }

/-- The flush ends once nothing modified is left above or in the write queues. -/
def State.flushEnd (s : State) (f : FlushSt) : State :=
  if s.anyMerge || s.anyDirty || !s.wrqsEmpty then s
  else
    let s := ((s.stopFlush).bumpSat LCH.FLUSH_STAT_COUNT 1).fset LCH.FLUSH_STAT_LAST_US (min 65535 ((s.now - f.since) / 1000))
    let s := s.int I.lch 5
    if f.inv then s.invalidate else s

/-! ### Fencing an engine (R238 to R242, R264, R270, R271) -/

/-- Every queued read of an engine, and of its lines in the miss buffers, is answered fenced (R239). -/
def State.fenceReads (s : State) (m : Nat) : State :=
  let g := s.eng m
  let mine (e : QEnt) : Bool := match e.lines.head? with
    | some l => s.engineOf (s.pcOf l.line) = m
    | none => false
  let fromMiss := s.slices.flatMap (fun c => c.2.miss.filter mine)
  let s : State := { s with slices := s.slices.map (fun (c : Nat × SliceSt) =>
    (c.1, { c.2 with miss := c.2.miss.filter (fun e => !mine e) })) }
  let s := s.setEng m { g with rdq := [] }
  (g.rdq ++ fromMiss).foldl (fun s e => (e.lines.filter (fun l => !l.sent)).foldl (fun s l => s.fencedRead m e l) s) s

/-- A slice drops every line and merge entry of an index (R271). -/
def State.dropSlice (s : State) (pc k : Nat) : State :=
  let c := s.slc k
  let mine (line : Nat) : Bool := decide (s.pcOf line = pc)
  let dirty (e : Nat × Way) : Bool := mine e.2.line && (decide (e.2.st = .modified) || decide (e.2.st = .merge))
  let n := (c.ways.filter dirty).length +
    (c.wb.filter (fun b => mine b.line && !c.ways.any (fun e => dirty e && decide (e.2.line = b.line)))).length
  let s := s.setSlc k { c with ways := c.ways.filter (fun e => !mine e.2.line), wb := c.wb.filter (fun b => !mine b.line) }
  if n = 0 then s
  else ((s.bumpSat LCH.DROP_CNT_COUNT n).int I.lch 4).fault (0x110 + k) 0x2F 2 (min n 65535)

/-- The engine of an index is fenced (R238, R239): commands already sent complete; queued reads are answered fenced.
Under a temporary fence the pseudo-channel enters self-refresh and write-backs stay queued; under a permanent
one they are dropped, as are the index's lines in the slices. -/
def State.fenceEngine (s : State) (m : Nat) (perm : Bool) : State :=
  let pc := s.servedBy m
  let s := s.setEngBit DCH.FENCE_ENG m true
  let s := if perm then s.setEngBit DCH.FENCE_PERM_ENG m true else s
  let s := match pc with
    | some k => s.setFlag (pcStateFld k 7) true
    | none => s
  let s := (s.int (I.dch (engDie m)) 3).fenceReads m
  if perm then
    let n := (s.eng m).wrq.length
    let s := ((s.setEng m { s.eng m with wrq := [], lifting := false, liftWaits := false }).dropWrites m n).setEngBit DCH.SR_STATE_ENG m false
    let s := s.setEngBit DCH.PD_STATE_ENG m false
    match pc with
    | some k => (List.range 32).foldl (fun s i => s.dropSlice k i) s
    | none => s
  else
    let s := s.enterSr m
    s.setEng m { s.eng m with srCheck := some (s.fget (DCH.AUDIT_COUNT (engDie m) (engNo m)), s.now + 10000), lifting := false, liftWaits := false }

/-- Send the tag fetches of an index's TAG_PENDING lines that no engine holds, as they fit. -/
def State.refetchTags (s : State) (pc : Nat) : State :=
  let lines := s.slices.flatMap (fun (c : Nat × SliceSt) => (c.2.ways.filter (fun e => e.2.tagPend)).map (fun e => e.2.line))
  (lines.filter (fun l => s.pcOf l = pc && s.tagOwed l)).foldl State.sendTag s

/-- The merge entries of an index whose reads waited for the lift close (R264). -/
def State.retryMerges (s : State) (pc : Nat) : State :=
  let todo := s.slices.flatMap (fun (c : Nat × SliceSt) =>
    (c.2.ways.filter (fun e => decide (e.2.st = .merge) && e.2.retry)).map (fun e => (c.1, e.1, e.2.line)))
  (todo.filter (fun x => s.pcOf x.2.2 = pc)).foldl (fun s x => s.closeMerge x.1 x.2.1 false) s

/-- The lift of a temporary fence begins: SRX, then tXS, then the held write-backs (R241). -/
def State.startLift (s : State) (m : Nat) : State :=
  let s := s.leaveSr m
  s.setEng m { s.eng m with liftWaits := false, lifting := true }

/-- SRX where an engine may leave self-refresh: one whose lift waited goes on with it, and a fenced one stays (R241). -/
def State.srxEng (s : State) (m : Nat) : State :=
  if (s.eng m).liftWaits ∧ ¬ s.engPerm m then s.startLift m else if s.engFenced m then s else s.leaveSr m

/-- SRX on the pseudo-channels of a die after a reset (Table 7.5, Table 11.5); in Reef-2 they stay as PWR has them. -/
def State.srxDie (s : State) (d : Nat) : State := if s.pwr = 2 then s else (dieEngines d).foldl State.srxEng s

/-- SRX on every pseudo-channel; those of a die in a reset follow at its end. -/
def State.srxAll (s : State) : State :=
  s.engines.foldl (fun (s : State) m => if s.fget (DCH.STATUS_DIE_STATE (engDie m)) ≠ 0 then s else s.srxEng m) s

/-- A lift ends once tXS has passed and the held write-backs are issued. -/
def State.liftOver (s : State) (m : Nat) : Bool :=
  let g := s.eng m
  g.lifting && decide (g.wrq = []) && decide (g.ready ≤ 8 * s.now) && !s.engSr m && !s.engPerm m

/-- The fence clears, and the index serves reads again (R241). -/
def State.clearFence (s : State) (m : Nat) : State :=
  let s := (s.setEngBit DCH.FENCE_ENG m false).setEng m { s.eng m with lifting := false }
  match s.servedBy m with
  | some k => ((s.setFlag (pcStateFld k 7) false).refetchTags k).retryMerges k
  | none => s

end Sys2Proof.Machine
end

