-- ==== Sys2Proof/Machine/Scan.lean ====
section
/-! DEFINITION. The scan engines (spec/09_scan_engines.md): the descriptor and its checks, records and predicates,
the pools and the queue, how running scans read their units as C62 tokens come, staging, and the ends of a
scan. -/

namespace Sys2Proof.Machine

open Sys2Proof.Reg

/-! ### The descriptor (R279, R280) -/

/-- A term or the aggregate field (Table 9.3): offset, width in bytes, SIGNED, OP and operand. -/
structure ScanTerm where
  off : Nat
  width : Nat
  sgn : Bool
  op : Nat
  operand : Nat
  deriving DecidableEq, Repr

/-- A descriptor (Tables 9.1 and 9.2). -/
structure ScanDesc where
  mode : Nat
  comb : Bool
  terms : List ScanTerm
  rsize : Nat
  engMax : Nat
  spare : Nat
  aggWord : Nat
  agg : ScanTerm
  limitMs : Nat
  inBase : Nat
  outBase : Nat
  inLines : Nat
  outLines : Nat
  deriving DecidableEq, Repr

/-- A term control word with its operand. -/
def scanTerm (c operand : Nat) : ScanTerm := ⟨bits c 6 10, 2 ^ bits c 4 2, bitAt c 3, bits c 0 3, operand⟩

/-- The descriptor that 64 bytes spell. -/
def scanDesc (d : List Nat) : ScanDesc :=
  let c := ofBe (slice d 0 2)
  let a := ofBe (slice d 2 2)
  let term (i : Nat) : ScanTerm := scanTerm (ofBe (slice d (24 + 10 * i) 2)) (ofBe (slice d (26 + 10 * i) 8))
  { mode := bits c 13 3, comb := bitAt c 12, terms := (List.range (bits c 10 2 + 1)).map term, rsize := bits c 6 4,
    engMax := bits c 2 4 + 1, spare := bits c 0 2, aggWord := a, agg := scanTerm a 0, limitMs := ofBe (slice d 4 2),
    inBase := ofBe (slice d 6 5), outBase := ofBe (slice d 11 5), inLines := ofBe (slice d 16 4),
    outLines := ofBe (slice d 20 4) }

/-- The record size S. -/
def ScanDesc.size (d : ScanDesc) : Nat := 2 ^ d.rsize

/-- The records of the input range. -/
def ScanDesc.records (d : ScanDesc) : Nat := 64 * d.inLines / d.size

/-- The work units of 512 records (R287). -/
def ScanDesc.units (d : ScanDesc) : Nat := (d.records + 511) / 512

/-- MODE is SUM, MIN or MAX. -/
def ScanDesc.aggregates (d : ScanDesc) : Bool := decide (3 ≤ d.mode) && decide (d.mode ≤ 5)

/-- MODE writes an output range. -/
def ScanDesc.writes (d : ScanDesc) : Bool := decide (d.mode ≤ 1)

/-- The fields used: the terms, and AGG where MODE aggregates. -/
def ScanDesc.fields (d : ScanDesc) : List ScanTerm := d.terms ++ (if d.aggregates then [d.agg] else [])

/-- The conditions of check 2 with DETAIL 0x02 (Table 9.4). -/
def ScanDesc.badFields (d : ScanDesc) : Bool :=
  decide (6 ≤ d.mode) || decide (d.rsize < 2) || decide (10 < d.rsize) ||
    d.fields.any (fun t => decide (d.size < t.off + t.width)) || (!d.aggregates && decide (d.aggWord ≠ 0)) ||
    (d.aggregates && decide (d.aggWord % 8 ≠ 0)) || decide (d.inLines = 0) ||
    (decide (64 < d.size) && decide (d.inLines % (d.size / 64) ≠ 0)) ||
    (!d.writes && (decide (d.outBase ≠ 0) || decide (d.outLines ≠ 0))) || (decide (d.mode = 1) && decide (d.outLines = 0)) ||
    (decide (d.mode = 0) && decide (d.outLines < d.units)) ||
    (d.writes && decide (d.inBase < d.outBase + 64 * d.outLines) && decide (d.outBase < d.inBase + 64 * d.inLines)) ||
    decide (d.spare ≠ 0)

/-- The conditions of check 2 with DETAIL 0x03 (Table 9.4). -/
def ScanDesc.misaligned (d : ScanDesc) : Bool :=
  decide (d.inBase % max 64 d.size ≠ 0) || decide (d.outBase % 64 ≠ 0) || d.fields.any (fun t => decide (t.off % t.width ≠ 0))

/-- The first line of a range whose class lacks a right, searched in blocks of 1 MiB, which no window cuts (R169,
R172). -/
def State.firstDenied (s : State) (cls base lines : Nat) (write : Bool) : Option Nat :=
  let b := base / 2 ^ 20
  let n := if lines = 0 then 0 else (base + 64 * lines - 1) / 2 ^ 20 - b + 1
  let bad (i : Nat) : Bool :=
    let a := (b + i) * 2 ^ 20
    if write then !(s.rights cls a).2 else !(s.rights cls a).1
  ((List.range n).find? bad).map (fun i => max base ((b + i) * 2 ^ 20))

/-- The part has scan engines, and their block is not gated (R2, R530). -/
def State.scnPresent (s : State) : Bool := s.part.scan && !bitAt (s.fget CLK.GATE_STAT_GATED) 8

/-! ### Records and predicates (R281, R282) -/

/-- A value of `w` bytes extended to an integer. -/
def extend (w x : Nat) (sgn : Bool) : Int := if sgn then signed (8 * w) (x % 2 ^ (8 * w)) else ((x % 2 ^ (8 * w) : Nat) : Int)

/-- The bytes of a record's field. -/
def ScanTerm.raw (t : ScanTerm) (r : List Nat) : Nat := ofLe (slice r t.off t.width)

/-- The field's value in a record. -/
def ScanTerm.value (t : ScanTerm) (r : List Nat) : Int := extend t.width (t.raw r) t.sgn

/-- A term holds of a record (Table 9.5). ALL and ANY compare bits. -/
def ScanTerm.holds (t : ScanTerm) (r : List Nat) : Bool :=
  let x := t.value r
  let v := extend t.width t.operand t.sgn
  let xb := t.raw r
  let vb := t.operand % 2 ^ (8 * t.width)
  if t.op = 0 then decide (x = v) else if t.op = 1 then decide (x ≠ v) else if t.op = 2 then decide (x < v)
  else if t.op = 3 then decide (x ≤ v) else if t.op = 4 then decide (v < x) else if t.op = 5 then decide (v ≤ x)
  else if t.op = 6 then decide (xb &&& vb = vb) else decide (xb &&& vb ≠ 0)

/-- A record matches (R282). -/
def ScanDesc.matches_ (d : ScanDesc) (r : List Nat) : Bool :=
  if d.comb then d.terms.any (fun t => t.holds r) else d.terms.all (fun t => t.holds r)

/-! ### Running scans (R283, R287, R292) -/

/-- What an engine of a running scan does. -/
def ScanRun.eng (r : ScanRun) (e : Nat) : ScanEng := SMap.get {} r.work e

def ScanRun.putEng (r : ScanRun) (e : Nat) (w : ScanEng) : ScanRun := { r with work := SMap.set {} r.work e w }

/-- Output lines in an engine's buffer (R289). -/
def ScanRun.outs (r : ScanRun) (e : Nat) : Nat := (r.outq.filter (fun o => o.eng = e)).length

/-- The running scan of a receive number. -/
def State.scanRun (s : State) (num : Nat) : Option ScanRun := s.scn.runs.find? (fun r => r.num = num)

/-- Put a running scan back. -/
def State.putRun (s : State) (r : ScanRun) : State :=
  { s with scn := { s.scn with runs := s.scn.runs.map (fun x => if x.num = r.num then r else x) } }

/-- The records of unit `u`. -/
def ScanDesc.unitRecords (d : ScanDesc) (u : Nat) : Nat := min 512 (d.records - 512 * u)

/-- The first line of unit `u`, and how many it has. -/
def ScanDesc.unitFirst (d : ScanDesc) (u : Nat) : Nat := (d.inBase + 512 * u * d.size) / 64

def ScanDesc.unitLines (d : ScanDesc) (u : Nat) : Nat := (d.unitRecords u * d.size + 63) / 64

/-- The block that line `i` of unit `u` is read with: its aligned 256 bytes where the unit holds them all, else the line by
itself (R287). -/
def ScanDesc.blockOf (d : ScanDesc) (u i : Nat) : Nat :=
  let first := d.unitFirst u
  let b := (first + i) / 4
  if first ≤ 4 * b ∧ 4 * b + 4 ≤ first + d.unitLines u then b else 2 ^ 40 + first + i

/-- The lines of record `i` of a unit, by place. -/
def ScanDesc.recordLines (d : ScanDesc) (i : Nat) : List Nat :=
  (List.range ((d.size + 63) / 64)).map (i * d.size / 64 + ·)

/-- A line that has arrived. -/
def ScanEng.gotAt (w : ScanEng) (i : Nat) : Option ScanRead := (w.got.find? (fun x => x.1 = i)).map (·.2)

/-- Every line of a record has arrived. -/
def ScanEng.hasRecord (w : ScanEng) (d : ScanDesc) (i : Nat) : Bool := (d.recordLines i).all (fun j => (w.gotAt j).isSome)

/-- The bytes of a record of a unit, or nothing where one of its lines was skipped (R292). -/
def ScanEng.record (w : ScanEng) (d : ScanDesc) (i : Nat) : Option (List Nat) :=
  let parts := (d.recordLines i).map (fun j => match w.gotAt j with
    | some (.data b) => some (slice b 0 64)
    | some .poison | some .fenced | none => none)
  if parts.all Option.isSome then some (slice ((parts.filterMap id).flatten) (i * d.size % 64) d.size) else none

/-- The aggregate after one more match (R283). -/
def ScanRun.addAgg (r : ScanRun) (d : ScanDesc) (v : Int) (i : Nat) : ScanRun :=
  if d.mode = 3 then { r with sum := r.sum + v }
  else if d.mode = 4 ∨ d.mode = 5 then
    match r.best with
    | none => { r with best := some (v, i) }
    | some (w, j) =>
      if (if d.mode = 4 then decide (v < w) else decide (w < v)) || (decide (v = w) && decide (i < j)) then { r with best := some (v, i) }
      else r
  else r

/-- Form an output line of an engine: it takes the next place of an INDEX range, while the range has one. -/
def ScanRun.form (r : ScanRun) (d : ScanDesc) (e : Nat) (b : List Nat) : ScanRun :=
  if r.formed < d.outLines then
    { r with outq := r.outq ++ [⟨e, d.outBase / 64 + r.formed, b, false, false⟩], formed := r.formed + 1,
             full := r.full || decide (r.formed + 1 = d.outLines) }
  else { r with full := true }

/-- An INDEX line: 8 entries, padded. -/
def indexLine (l : List Nat) : List Nat :=
  (List.range 8).flatMap (fun i => leBytes 8 (l.getD i 0xFFFFFFFFFFFFFFFF))

/-- Engine `e` adds a match to its entries, and forms a line with each eighth (R283). -/
def ScanRun.addIndex (r : ScanRun) (d : ScanDesc) (e i : Nat) : ScanRun :=
  let l := SMap.get [] r.entries e ++ [i]
  if l.length = 8 then { r with entries := SMap.set [] r.entries e [] }.form d e (indexLine l)
  else { r with entries := SMap.set [] r.entries e l }

/-- The next record of the unit that an engine has taken is evaluated; a skipped record counts in nothing (R281 to R283,
R292). -/
def ScanRun.evaluate (r : ScanRun) (d : ScanDesc) (e u : Nat) : ScanRun :=
  let w := r.eng e
  let i := w.recs
  let n := 512 * u + i
  let w' := { w with recs := i + 1, got := w.got.filter (fun x => decide ((i + 1) * d.size / 64 ≤ x.1)) }
  match w.record d i with
  | none => r.putEng e w'
  | some b =>
    if d.matches_ b then
      let r := { r with records := r.records + 1, found := r.found + 1 }.putEng e { w' with bm := w'.bm ||| 1 <<< i }
      let r := if d.aggregates then r.addAgg d (d.agg.value b) n else r
      if d.mode = 1 then r.addIndex d e n else r
    else { r with records := r.records + 1 }.putEng e w'

/-- A bitmap line of 512 bits (Table 9.6). -/
def bitmapLine (x : Nat) : List Nat := leBytes 64 x

/-- An engine that finds no more units forms its partial INDEX line. -/
def ScanRun.flushIndex (r : ScanRun) (d : ScanDesc) (e : Nat) : ScanRun :=
  { r with entries := SMap.set [] r.entries e [] }.form d e (indexLine (SMap.get [] r.entries e))

/-- A line that a scan reads arrives: its bytes, or that it is poisoned, retention-lost or fenced (R292). -/
def State.scanArrive (s : State) (r : ScanRun) (e : Nat) (t : Ret) (word : List Nat) : State :=
  let w := r.eng e
  let i := (t.op.map (·.2)).getD 0
  if ¬ w.flying.contains i then s
  else
    let read : ScanRead := if t.fenced then .fenced
      else if wordPoison word ∨ s.wordLost (s.pcOf t.line) word then .poison
      else .data (slice word 0 64)
    let r := { r with poison := r.poison + b2n (decide (read = ScanRead.poison)), fenced := r.fenced + b2n t.fenced }.putEng e
      { w with flying := w.flying.erase i, got := SMap.insert w.got i read }
    let s := s.putRun r
    if t.fenced then s
    else ((s.bump SCN.LINES_CNT_COUNT 1).bump (SCN.ENG_LINES_COUNT e) 1).bump (SCN.ENG_PROG_COUNT e) 1

/-- A line that came back for a scan's engine without an array read, at an engine number, if there is one. -/
def State.scanRet (s : State) (num e : Nat) : Option (Nat × Ret) :=
  (s.engs.filterMap (fun g => (g.2.ret.find? (fun t => decide (t.kind = .probe (.scan num e)) && t.fwd)).map (fun t => (g.1, t)))).head?

/-- A returned line is taken. -/
def State.dropRet (s : State) (m : Nat) (t : Ret) : State := s.setEng m { s.eng m with ret := (s.eng m).ret.erase t }

/-- Lines that came back for scans that have ended are dropped. -/
def State.dropStrayRets (s : State) : State :=
  let stray (t : Ret) : Bool := match t.kind with
    | .probe (.scan num _) => t.fwd && (s.scanRun num).isNone
    | .probe .patrol | .probe .fast | .probe .sweep | .probe .copy | .probe .cal | .fill | .merge | .tag | .write | .rewrite =>
      false
  s.engs.foldl (fun (s : State) g =>
    if g.2.ret.any stray then s.setEng g.1 { g.2 with ret := g.2.ret.filter (fun t => !stray t) } else s) s

/-- What an engine of a running scan does next, where it goes on: it takes a line that came back, takes its next unit,
evaluates a record whose lines have arrived, ends its unit, or sends the read of its next line for one token, with at most
64 blocks in flight and while no atomic waits at the line's slice; a full output buffer stops it (R268, R287 to R289). No
read goes to D5 to D8 during a mast-domain reset (R31; DESIGN CHOICE, assumption 86). -/
def State.scanStep (s : State) (d : ScanDesc) (r : ScanRun) (e : Nat) : Option State :=
  let w := r.eng e
  match s.scanRet r.num e with
  | some (m, t) => some ((s.dropRet m t).scanArrive r e t t.word)
  | none =>
    if 4 ≤ r.outs e then none
    else
      match w.unit with
      | none =>
        if r.unit < d.units then some (s.putRun ({ r with unit := r.unit + 1 }.putEng e { tokens := w.tokens, unit := some r.unit }))
        else if SMap.get [] r.entries e = [] then none
        else
          let r' := r.flushIndex d e
          some ((if r'.full ∧ ¬ r.full then s.int I.scn 2 else s).putRun r')
      | some u =>
        if d.unitRecords u ≤ w.recs then
          let r := r.putEng e { tokens := w.tokens }
          some (s.putRun (if d.mode = 0 then { r with outq := r.outq ++ [⟨e, d.outBase / 64 + u, bitmapLine w.bm, false, false⟩] } else r))
        else if w.hasRecord d w.recs then
          let r' := r.evaluate d e u
          some ((if r'.full ∧ ¬ r.full then s.int I.scn 2 else s).putRun r')
        else if d.unitLines u ≤ w.next then none
        else
          let line := d.unitFirst u + w.next
          let blocks := (w.flying.map (d.blockOf u)).eraseDups
          if (64 ≤ blocks.length ∧ ¬ blocks.contains (d.blockOf u w.next)) ∨ s.atomWaits (lineSlice line) ∨
              s.relayPauses (pcDie (s.pcOf line)) then none
          else if w.tokens = 0 then (if w.dry then none else some (s.putRun (r.putEng e { w with dry := true })))
          else
            let w := { w with tokens := w.tokens - 1, dry := false, next := w.next + 1, flying := w.flying ++ [w.next] }
            some (State.sliceOp ((s.putRun (r.putEng e w)).bump (SCH.CLS_ADMIT_COUNT 62) 1)
              { txn := d.blockOf u (w.next - 1), idx := w.next - 1, line := line, cls := 62, kind := .probe (.scan r.num e),
                data := [] })

/-- An engine goes on while it can. -/
def State.scanGo : Nat → State → ScanDesc → Nat → Nat → State
  | 0, s, _, _, _ => s
  | fuel + 1, s, d, num, e =>
    match s.scanRun num with
    | none => s
    | some r =>
      match s.scanStep d r e with
      | none => s
      | some s => s.scanGo fuel d num e

/-! ### Pools and the queue (R278, R286) -/

/-- The reservation that holds a class, if one does. -/
def State.resOf (s : State) (cls : Nat) : Option Nat :=
  (List.range 4).find? (fun i => s.flag (SCN.RES_ENG_VALID i) && s.fget (SCN.RES_ENG_CLASS i) = cls)

/-- The reservation that holds an engine, if one does. -/
def State.resEng (s : State) (e : Nat) : Option Nat :=
  (List.range 4).find? (fun i => s.flag (SCN.RES_ENG_VALID i) && bitAt (s.fget (SCN.RES_ENG_ENG i)) e)

/-- An engine runs a scan. -/
def State.scnBusy (s : State) (e : Nat) : Bool := s.scn.runs.any (fun r => r.engs.contains e)

/-- The free engines of a pool, in order. -/
def State.freeEngines (s : State) (res : Option Nat) : List Nat :=
  (List.range 16).filter (fun e => bitAt (s.fget SCN.CTRL_ENG_EN) e && !s.scnBusy e && decide (s.resEng e = res))

/-- The registers that show the queue and the engines (Tables 9.10 and 9.11). -/
def State.scnRegs (s : State) : State :=
  let s := (s.fset SCN.STATUS_ENG_BUSY (maskOf 16 s.scnBusy)).fset SCN.STATUS_QUEUED s.scn.queue.length
  (List.range 16).foldl (fun s e =>
    let run := s.scn.runs.find? (fun r => r.engs.contains e)
    let t := (run.map (fun r => s.txn r.num)).getD none
    let st := match run with
      | some r =>
        if (r.eng e).dry || decide (4 ≤ r.outs e) || ((r.eng e).unit.isNone && decide (1 ≤ r.outs e)) then 2 else 1
      | none => if bitAt (s.fget SCN.CTRL_ENG_EN) e then 0 else 3
    let res := match run with
      | some r => r.res
      | none => s.resEng e
    let q := match t with
      | some t => t.req.reqId * 2 ^ 12 + t.req.tag
      | none => 0
    s.setReg (SCN.ENG_STAT e) (BitVec.ofNat 32 (st * 2 ^ 30 + res.getD 15 * 2 ^ 24 + q))) s

/-- An admitted scan enters the queue of 64, or waits for a place (R278). -/
def State.enqueueScan (s : State) (num : Nat) : State :=
  if s.scn.queue.length < 64 then State.scnRegs { s with scn := { s.scn with queue := s.scn.queue ++ [num] } }
  else State.int { s with scn := { s.scn with spill := s.scn.spill ++ [num] } } I.scn 5

/-- A place in the queue has freed. -/
def State.takeSpill (s : State) : State :=
  match s.scn.spill with
  | [] => s
  | n :: rest => if s.scn.queue.length < 64 then { s with scn := { s.scn with queue := s.scn.queue ++ [n], spill := rest } } else s

/-- The queued scan that starts next: the first, in admission order, of a pool with a free engine. A scan's pool is that of
the reservation that holds its class as it starts (DESIGN CHOICE, assumption 80). -/
def State.nextScan (s : State) : Option (Txn × Option Nat) :=
  let waits := (s.scn.queue.filter (fun n => !s.scn.runs.any (fun r => r.num = n))).filterMap s.txn
  let pool (t : Txn) : Option Nat := s.resOf t.cls
  let heads := waits.filter (fun t => (waits.find? (fun u => pool u = pool t)).map (·.num) = some t.num)
  (heads.find? (fun t => !(s.freeEngines (pool t)).isEmpty)).map (fun t => (t, pool t))

/-- Every engine of every running scan goes on while it can. -/
def State.scanFeed (s : State) : State :=
  let s := s.dropStrayRets
  let s := s.scn.runs.foldl (fun (s : State) r =>
    match s.txn r.num with
    | none => s
    | some t => r.engs.foldl (fun (s : State) e => s.scanGo 1048576 (scanDesc t.req.data) r.num e) s) s
  s.scnRegs

/-! ### C62 tokens (R288) -/

/-- The rate of a reservation. -/
def State.resRate (s : State) (i : Nat) : Nat := if s.flag (SCN.RES_ENG_VALID i) then s.fget (SCN.RES_RATE_RATE i) else 0

/-- What a reservation may take in a window: its rate, scaled while C62 is trimmed. -/
def State.resShare (s : State) (i : Nat) : Nat :=
  let eff := s.fget (SCH.CLS_STAT_EFF_BUDGET 62)
  let budget := s.fget (SCH.CLS_BUDGET_BUDGET 62)
  if eff < budget then s.resRate i * eff / max 1 budget else s.resRate i

/-- An engine takes tokens of the window: up to `most`, and up to the 1,200 lines that it can read in 1 µs with the output
lines that wait in its buffer. Answers how many. -/
def State.dealTo (s : State) (num e most : Nat) : State × Nat :=
  match s.scanRun num with
  | none => (s, 0)
  | some r =>
    let w := r.eng e
    let tok := SMap.get (0 : Int) s.sch.tokens 62
    let n := min most (min tok.toNat (1200 + r.outs e - w.tokens))
    let s := s.putRun (r.putEng e { w with tokens := w.tokens + n, dry := w.dry && decide (n = 0) })
    ({ s with sch := { s.sch with tokens := SMap.set 0 s.sch.tokens 62 (tok - n) } }, n)

/-- An engine of a running scan takes its tokens: in a reservation with a rate, of what is left of the reservation's share;
else of what is left. -/
def State.dealEng (s : State) (r : ScanRun) (e : Nat) : State :=
  match r.res.filter (fun i => decide (s.resRate i ≠ 0)) with
  | some i =>
    let had := SMap.get 0 s.scn.dealt i
    let (s, n) := s.dealTo r.num e (s.resShare i - had)
    { s with scn := { s.scn with dealt := SMap.set 0 s.scn.dealt i (had + n) } }
  | none => (s.dealTo r.num e (2 ^ 24)).1

/-- The running scan of an engine. -/
def State.runOn (s : State) (e : Nat) : Option ScanRun := s.scn.runs.find? (fun r => r.engs.contains e)

/-- Each engine whose scan the predicate picks takes its tokens, in engine order. -/
def State.dealPool (s : State) (pick : ScanRun → Bool) : State :=
  (List.range 16).foldl (fun (s : State) e =>
    match s.runOn e with
    | some r => if pick r then s.dealEng r e else s
    | none => s) s

/-- SCN hands out the tokens of a C62 window, those left over from the window before being discarded: each reservation
first takes up to its rate, in index order; the other scans take what is left, one engine at a time. -/
def State.scanWindow (s : State) : State :=
  let s := { s with scn := { s.scn with dealt := [], runs := s.scn.runs.map (fun r =>
    r.engs.foldl (fun (r : ScanRun) e => r.putEng e { r.eng e with tokens := 0 }) r) } }
  let rated (r : ScanRun) : Bool := (r.res.filter (fun i => decide (s.resRate i ≠ 0))).isSome
  let s := (List.range 4).foldl (fun (s : State) i => s.dealPool (fun r => decide (r.res = some i) && rated r)) s
  (s.dealPool (fun r => !rated r)).scanFeed

/-! ### Starting a scan (R286) -/

/-- A scan starts on as many free engines of its pool as it may take, with tokens that the window still has. -/
def State.startScan (s : State) : State :=
  match s.nextScan with
  | none => s
  | some (t, pool) =>
    let d := scanDesc t.req.data
    let most := if pool.isNone then min d.engMax (max 1 (s.fget SCN.LIMITS_MAX_ENG)) else d.engMax
    let engs := (s.freeEngines pool).take most
    let s := engs.foldl (fun (s : State) e => (s.bumpSat (SCN.ENG_SCANS_SCANS e) 1).fset (SCN.ENG_PROG_COUNT e) 0) s
    let r : ScanRun := { num := t.num, engs := engs, res := pool }
    let s := { s with scn := { s.scn with runs := s.scn.runs ++ [r] } }
    (s.dealPool (fun x => decide (x.num = t.num))).scanFeed

def execScanStart (s : State) : Host.Outcome State Fault Refusal :=
  done (if s.live ∧ s.scnPresent then s.startScan else s)

/-! ### What comes back -/

/-- The first line that came back to an engine number as a fill or as a scan's read, if there is one. -/
def State.firstRet (s : State) (m : Nat) : Option Ret :=
  (s.eng m).ret.find? (fun t => match t.kind with
    | .fill | .probe (.scan _ _) => true
    | .probe .patrol | .probe .fast | .probe .sweep | .probe .copy | .probe .cal | .merge | .tag | .write | .rewrite => false)

/-- A line comes back from ECC to its home slice, or to the scan engine that reads it (R250, R287, R292). -/
def State.fillOrScan (s : State) (m : Nat) (errs : List (Nat × Nat)) : State :=
  match s.firstRet m with
  | none => s
  | some t =>
    match t.kind with
    | .probe (.scan num e) =>
      let (s, w, _, _) := (s.dropRet m t).retWord m t 3 errs
      match s.scanRun num with
      | some r => s.scanArrive r e t w
      | none => s
    | .probe .patrol | .probe .fast | .probe .sweep | .probe .copy | .probe .cal | .fill | .merge | .tag | .write | .rewrite =>
      s.fill m errs

def execFill (m : Nat) (errs : List (Nat × Nat)) (s : State) : Host.Outcome State Fault Refusal :=
  done (if s.live ∧ s.engExists m then (s.fillOrScan m errs).scanFeed else s)

def execPendingOperation (line : Nat) (s : State) : Host.Outcome State Fault Refusal :=
  done (if s.live then (s.runPending line false).scanFeed else s)

def execAtomExecute (line : Nat) (s : State) : Host.Outcome State Fault Refusal :=
  done (if s.live then (s.runPending line true).scanFeed else s)

/-! ### Staging (R289) -/

/-- Staging lines in a set. -/
def SliceSt.staged (c : SliceSt) (set : Nat) : Nat := (c.ways.filter (fun e => e.1 / 16 = set && e.2.staging)).length

/-- An atomic waits at a slice for a way of a set whose last unpinned one a staging line would take (R268). -/
def State.atomNeeds (s : State) (k set : Nat) : Bool :=
  let c := s.slc k
  let free := ((List.range 14).filter (fun i => match c.ways.find? (fun e => e.1 = 16 * set + 2 + i) with
    | some (_, w) => !w.pinned s.now
    | none => true)).length
  decide (free ≤ 1) && c.pend.any (fun o => match o.kind with
    | .atom _ _ => decide (lineSet o.line = set) && (c.find o.line).isNone
    | .rd _ _ | .wr _ _ | .wrp _ | .probe _ => false)

/-- Engine `e` writes its oldest finished line to the line's home slice (R289): lost to a fence, or waiting for a token, for
the operation before it on its line, for an atomic that waits, for the limit of two staging lines in the set, for an atomic
that needs the way, or for a way. A wait counts once for a line (R253, R268). -/
def State.stageLine (s : State) (e : Nat) : State :=
  match s.runOn e with
  | none => s
  | some r =>
    match r.outq.find? (fun o => o.eng = e) with
    | none => s
    | some o =>
      let k := lineSlice o.line
      let set := lineSet o.line
      let w := r.eng e
      let rest := r.outq.erase o
      let noted (s : State) (o' : OutLine) : State := s.putRun { r with outq := r.outq.map (fun x => if x = o then o' else x) }
      let wait (s : State) : State :=
        if o.waited then s else (noted s { o with waited := true }).bumpSat (LCH.S_STAGE_WAIT_COUNT k) 1
      if s.lineFenced o.line then (s.countFenced o.line).putRun { r with outq := rest, outFenced := r.outFenced + 1 }
      else if w.tokens = 0 then s.putRun (r.putEng e { w with dry := true })
      else if s.atomWaits k then wait s
      else if (s.waiting o.line).isSome ∨ s.busyLine o.line false then s
      else
        let place (s : State) (key : Nat) : State :=
          let y : Way := { line := o.line, st := .modified, data := o.data, rrv := 3, staging := true, cls := 62 }
          let s := (s.setSlc k ((s.slc k).put key y)).access k
          (s.putRun ({ r with outq := rest, staged := r.staged + 1 }.putEng e { w with tokens := w.tokens - 1 })).bump
            (SCH.CLS_ADMIT_COUNT 62) 1
        match (s.slc k).find o.line with
        | some (key, y) =>
          if y.st = .merge then s.closeMerge k key false
          else if (s.slc k).staged set ≥ 2 then wait s
          else place s key
        | none =>
          if (s.slc k).staged set ≥ 2 ∨ s.atomNeeds k set then wait s
          else
            match s.takeWay k set o.wayWait with
            | (s, some key) => place s key
            | (s, none) => if o.wayWait then s else (noted s { o with wayWait := true }).bumpSat (LCH.S_WAY_STALL_COUNT k) 1

def execStagingLine (e : Nat) (s : State) : Host.Outcome State Fault Refusal :=
  done (if s.live ∧ s.scnPresent ∧ e < 16 then (s.stageLine e).scanFeed else s)

/-! ### The end of a scan (R284, R285, R290, R293) -/

/-- The result record (Table 9.7). -/
def State.scanRecord (s : State) (t : Txn) (d : ScanDesc) (r : ScanRun) : List Nat :=
  let agg := if d.mode = 3 then beBytes 16 (toBits 128 r.sum)
    else match r.best with
      | some (v, i) => beBytes 8 i ++ beBytes 8 (toBits 64 v)
      | none => List.replicate 16 0
  let flags := b2n (decide (r.poison ≠ 0)) + 2 * b2n (decide (r.fenced ≠ 0)) + 4 * b2n (decide (r.outFenced ≠ 0)) +
    8 * b2n r.full + 16 * b2n r.best.isSome
  beBytes 8 r.records ++ beBytes 8 r.found ++ agg ++ beBytes 4 r.staged ++ beBytes 4 r.poison ++ beBytes 4 r.fenced ++
    beBytes 4 r.outFenced ++ beBytes 4 (min (2 ^ 32 - 1) ((s.now - t.admitAt) / 1000)) ++ [r.engs.length, flags] ++
    List.replicate 10 0

/-- A scan leaves the queue and its engines. -/
def State.dropScan (s : State) (num : Nat) : State :=
  ({ s with scn := { s.scn with queue := s.scn.queue.filter (· ≠ num), spill := s.scn.spill.filter (· ≠ num),
                                runs := s.scn.runs.filter (fun r => r.num ≠ num) } }.takeSpill).scnRegs

/-- A scan whose engines have finished and whose output is staged completes with its record (R285, R290). -/
def State.completeScan (s : State) (t : Txn) (r : ScanRun) : State :=
  let d := scanDesc t.req.data
  if r.unit < d.units ∨ r.engs.any (fun e => (r.eng e).unit.isSome) ∨ r.outq ≠ [] ∨ r.entries ≠ [] then s
  else
    let partial' := decide (r.poison + r.fenced + r.outFenced ≠ 0) || r.full
    let detail := b2n (decide (r.poison ≠ 0)) + 16 * b2n (decide (r.fenced ≠ 0)) + 32 * b2n (decide (r.outFenced ≠ 0))
    let q := t.req
    let h := cplHeader 0xC8 t.cls (if partial' then 4 else 0) 0 q.reqId q.tag (s.fget LNK.STACK_ID_STACK_ID) 1 (s.isLate t)
      0 q.opcode detail
    let a : Answer := ⟨.cpd, h, [s.scanRecord t d r], q.reqId, q.port, toArrival q⟩
    let s := if r.poison + r.fenced + r.outFenced ≠ 0 then s.int I.scn 1 else s
    (((s.int I.scn 0).bump SCN.DONE_CNT_COUNT 1).endTxn t a).dropScan t.num

/-- A running or queued scan ends ABORTED (Table 9.8). -/
def State.abortScan (s : State) (t : Txn) (cause : Nat) : State :=
  let r := s.scn.runs.find? (fun r => r.num = t.num)
  let staged := match r with
    | some r => decide (r.staged ≠ 0)
    | none => false
  let q := t.req
  let h := cplHeader (if staged then 0xC0 else 0xC2) t.cls 7 0 q.reqId q.tag (s.fget LNK.STACK_ID_STACK_ID) 0 (s.isLate t) 0
    q.opcode cause
  let s := match r with
    | some r =>
      let s := if r.poison + r.fenced + r.outFenced ≠ 0 then s.int I.scn 1 else s
      r.engs.foldl (fun (s : State) e => s.bumpSat (SCN.ENG_SCANS_ABORTS e) 1) s
    | none => s
  (((s.int I.scn 3).bumpSat SCN.ABORT_CNT_COUNT 1).endTxn t ⟨.cph, h, [], q.reqId, q.port, toArrival q⟩).dropScan
    t.num

/-- The scan that the device holds for a (REQ_ID, TAG) pair: running, queued, or waiting at admission. -/
def State.scanOf (s : State) (reqId tag : Nat) : Option Txn :=
  s.txns.find? (fun t => t.req.opcode = 0x40 ∧ 1 ≤ t.stage ∧ t.req.reqId = reqId ∧ t.req.tag = tag)

def execScanComplete (reqId tag : Nat) (s : State) : Host.Outcome State Fault Refusal :=
  done (match s.scanOf reqId tag with
  | some t =>
    match s.scn.runs.find? (fun r => r.num = t.num) with
    | some r => if s.live then s.completeScan t r else s
    | none => s
  | none => s)

/-- TIME_LIMIT has passed since the scan's admission. -/
def execTimeLimit (reqId tag : Nat) (s : State) : Host.Outcome State Fault Refusal :=
  done (match s.scanOf reqId tag with
  | some t => if s.live ∧ t.stage = 3 ∧ (scanDesc t.req.data).limitMs ≠ 0 then s.abortScan t 2 else s
  | none => s)

/-- Every scan that the predicate picks ends with a cause. -/
def State.abortScans (s : State) (cause : Nat) (pick : Txn → Bool) : State :=
  (s.txns.filter (fun t => t.stage = 3 && pick t)).foldl (fun (s : State) t => s.abortScan t cause) s

/-- A block reset of SCN ends the running scans with cause 0x04; queued scans stay (R293). -/
def State.resetScn (s : State) : State :=
  s.abortScans 4 (fun t => s.scn.runs.any (fun r => r.num = t.num))

end Sys2Proof.Machine
end

