-- ==== Sys2Proof/Machine/Sched.lean ====
section
/-! DEFINITION. The scheduler (spec/06_service_classes.md): the deliverable capacity model and its demands, the
test of a commit, shortfall, the governor's ceilings, tokens and windows, the device pool, and admission. -/

namespace Sys2Proof.Machine

open Sys2Proof.Reg

/-! ### The model (R196), in 1/16 line per µs -/

/-- The lanes a port counts with: its transmit lanes in UP or idle, its last lanes in UP while it retrains or comes
up within MODEL_HOLD, else none (Table 6.7). -/
def State.modelLanes (s : State) (p : Nat) : Nat :=
  let st := s.portState p
  if !bitAt (s.fget SCH.CTRL_PORT_MASK) p then 0
  else if st = 5 ∨ st = 6 ∨ st = 7 then popcount 4 (s.fget (PRT.STATE_TX_MASK p))
  else if st = 8 ∨ (1 ≤ st ∧ st ≤ 4) then
    if SMap.get false s.sch.hold p then 0 else SMap.get 0 s.sch.lastLanes p
  else 0

/-- The sum of port payloads. -/
def State.payloads (s : State) : Nat := (List.range 8).foldl (fun n p => n + 5250 * s.modelLanes p) 0

/-- LINK_CEIL in model units: 0.1 GB/s steps are 1.5625 lines per µs. -/
def State.linkCeil (s : State) : Nat := 25 * s.fget SCH.GOV_CEIL_LINK_CEIL

/-- The C62 limit in model units: 1 GB/s is 15.625 lines per µs (R208). -/
def State.scanCeil (s : State) : Nat := 250 * s.fget SCH.GOV_CEIL_SCAN_CEIL

/-- L. -/
def State.modelLink (s : State) : Nat := min s.payloads s.linkCeil

/-- The sum of a term over the serving pseudo-channels: its value at normal and at doubled refresh. -/
def State.modelTerm (s : State) (normal doubled : Nat) : Nat :=
  (List.range s.pcs).foldl (fun n k =>
    if s.fenced k then n else n + 16 * (if bitAt (s.fget SCH.REF_DOUBLE_DIES) (k / 16) then doubled else normal)) 0

/-- A_act. -/
def State.modelAct (s : State) : Nat := s.modelTerm 250 242

/-- A_burst. -/
def State.modelBurst (s : State) : Nat := s.modelTerm 400 387

/-! ### Demand (R197) -/

/-- An exact fraction of a model unit. -/
structure Frac where
  num : Nat
  den : Nat
  deriving DecidableEq, Repr

def Frac.add (a b : Frac) : Frac :=
  if a.den = b.den then ⟨a.num + b.num, a.den⟩ else ⟨a.num * b.den + b.num * a.den, a.den * b.den⟩

/-- At most `pct` percent of a resource. -/
def Frac.within (a : Frac) (pct res : Nat) : Bool := decide (100 * a.num ≤ pct * res * a.den)

/-- Rounded toward zero. -/
def Frac.floor (a : Frac) : Nat := a.num / max 1 a.den

/-- What the demand needs of a class: rank, RSV, window and budget. -/
structure ClsView where
  rank : Nat
  rsv : Bool
  window : Nat
  budget : Nat
  deriving DecidableEq, Repr

/-- The class as the live registers hold it. -/
def State.clsView (s : State) (n : Nat) : ClsView :=
  ⟨s.fget (SCH.CLS_CFG_RANK n), s.flag (SCH.CLS_CFG_RSV n), s.fget (SCH.CLS_CFG_WINDOW n), s.fget (SCH.CLS_BUDGET_BUDGET n)⟩

/-- The class with a committed budget that waits for its next window start already in place (R188, R198). -/
def State.clsNext (s : State) (n : Nat) : ClsView :=
  match SMap.get none s.sch.nextBudget n with
  | some (b, r) => { s.clsView n with budget := b, rsv := r }
  | none => s.clsView n

/-- A class's rate in model units. -/
def ClsView.rate (v : ClsView) (budget : Nat) : Frac := ⟨64 * budget, max 1 v.window⟩

/-- A quarter of a fraction: scans read whole segments. -/
def Frac.quarter (a : Frac) : Frac := ⟨a.num, 4 * a.den⟩

/-- The demands on link, activates and bursts of reserved classes with some budgets. -/
structure Demand where
  link : Frac
  act : Frac
  burst : Frac
  deriving DecidableEq, Repr

/-- The demand of the reserved classes that the predicate picks (R197). -/
def demandOf (view : Nat → ClsView) (eff : Nat → Nat) (pick : Nat → Bool) : Demand :=
  (List.range 64).foldl (fun (d : Demand) n =>
    let v := view n
    if !v.rsv || !pick n then d
    else
      let r := v.rate (eff n)
      if n < 60 then ⟨d.link.add r, d.act.add r, d.burst.add r⟩
      else if n = 62 then ⟨d.link, d.act.add r.quarter, d.burst.add r⟩
      else ⟨d.link, d.act.add r, d.burst.add r⟩) ⟨⟨0, 1⟩, ⟨0, 1⟩, ⟨0, 1⟩⟩

/-- The demand of a table of classes at its budgets. -/
def fullDemand (view : Nat → ClsView) : Demand := demandOf view (fun n => (view n).budget) (fun _ => true)

/-- The test of a commit: each demand at most 90% of its resource (R198). -/
def State.admits (s : State) (view : Nat → ClsView) : Bool :=
  let d := fullDemand view
  d.link.within 90 s.modelLink && d.act.within 90 s.modelAct && d.burst.within 90 s.modelBurst

/-- The registers that show the model and the live demand (Table 6.13). -/
def State.modelRegs (s : State) : State :=
  let d := fullDemand s.clsView
  let i := demandOf s.clsView (fun n => (s.clsView n).budget) (fun n => decide (60 ≤ n))
  let s := ((s.fset SCH.MODEL_LINK_VALUE s.modelLink).fset SCH.MODEL_ACT_VALUE s.modelAct).fset SCH.MODEL_BURST_VALUE s.modelBurst
  let s := ((s.fset SCH.DEM_LINK_VALUE d.link.floor).fset SCH.DEM_ACT_VALUE d.act.floor).fset SCH.DEM_BURST_VALUE d.burst.floor
  (s.fset SCH.INT_ACT_VALUE i.act.floor).fset SCH.INT_BURST_VALUE i.burst.floor

/-- The causes of derating in force (Table 6.13). -/
def State.derate (s : State) : Nat :=
  let on := (List.range 8).filter (bitAt (s.fget SCH.CTRL_PORT_MASK))
  64 * b2n (decide (s.fget SCH.GOV_CEIL_SCAN_CEIL < 1300)) + 32 * b2n (decide (s.fget SCH.GOV_CEIL_LINK_CEIL < 6720)) +
    16 * b2n ((List.range s.pcs).any s.fenced) + 8 * b2n (s.flag SCH.EVAC_ACTIVE) +
    4 * b2n (decide (s.fget SCH.REF_DOUBLE_DIES ≠ 0)) + 2 * b2n (on.any (fun p => decide (s.modelLanes p = 0))) +
    b2n (on.any (fun p => decide (0 < s.modelLanes p) && decide (s.modelLanes p < 4)))

/-! ### Shortfall (R201 to R204, R208) -/

/-- Which resources do not fit at `pct` percent: link, activates, bursts, and the C62 limit. -/
structure Unfit where
  link : Bool
  act : Bool
  burst : Bool
  scan : Bool
  deriving DecidableEq, Repr

/-- Nothing is unfit. -/
def Unfit.none_ (u : Unfit) : Bool := !u.link && !u.act && !u.burst && !u.scan

/-- The resources of the model, taken once. -/
structure Model where
  link : Nat
  act : Nat
  burst : Nat
  scan : Nat
  deriving DecidableEq, Repr

def State.model (s : State) : Model := ⟨s.modelLink, s.modelAct, s.modelBurst, s.scanCeil⟩

/-- Test effective budgets against the model. -/
def Model.unfit (m : Model) (view : Nat → ClsView) (eff : SMap Nat) (pct : Nat) : Unfit :=
  let e (n : Nat) : Nat := SMap.get (view n).budget eff n
  let d := demandOf view e (fun _ => true)
  ⟨!d.link.within pct m.link, !d.act.within pct m.act, !d.burst.within pct m.burst,
    (view 62).rsv && !((view 62).rate (e 62)).within pct m.scan⟩

/-- A class loads a resource that does not fit. -/
def Unfit.loads (u : Unfit) (n : Nat) : Bool :=
  if n = 62 then u.act || u.burst || u.scan else u.link || u.act || u.burst

/-- Trim the classes of one rank by the largest factor that fits, or to their floor. -/
def Model.trimRank (m : Model) (view : Nat → ClsView) (pct : Nat) (eff : SMap Nat) (r : Nat) : SMap Nat :=
  let u := m.unfit view eff pct
  if u.none_ then eff
  else
    let t := (List.range 64).filter (fun n => (view n).rsv && decide ((view n).rank = r) && decide (n ≠ 60) && decide (n ≠ 61) &&
      decide (n ≠ 63) && u.loads n)
    let at' (j : Nat) : SMap Nat := t.foldl (fun e n => SMap.insert e n (max 1 ((view n).budget * j / 1024))) eff
    let j := ((List.range 1025).reverse.find? (fun j => (m.unfit view (at' j) pct).none_)).getD 0
    at' j

/-- The trimmed budgets, and whether demand is unmet with every trimmable class at its floor (R201, R203). -/
def Model.trim (m : Model) (view : Nat → ClsView) (pct : Nat) : SMap Nat × Bool :=
  let eff := (List.range 8).foldl (m.trimRank view pct) []
  (eff, !(m.unfit view eff pct).none_)

/-- The bytes of SHORTFALL_ENTER and SHORTFALL_EXIT (Table 6.9). -/
def State.shortDetail (s : State) : List Nat :=
  beBytes 4 (s.fget SCH.MODEL_LINK_VALUE) ++ beBytes 4 (s.fget SCH.MODEL_ACT_VALUE) ++ beBytes 4 (s.fget SCH.MODEL_BURST_VALUE) ++
    beBytes 4 (s.fget SCH.DEM_LINK_VALUE) ++ beBytes 4 (s.fget SCH.DEM_ACT_VALUE) ++ beBytes 4 (s.fget SCH.DEM_BURST_VALUE) ++
    beBytes 2 (s.fget SCH.DERATE_CAUSES) ++
    [if s.fget SCH.SHORT_STAT_TRIM_CNT = 0 then 0xFF else s.fget SCH.SHORT_STAT_TRIM_RANK, s.fget SCH.SHORT_STAT_TRIM_CNT,
     s.fget SCH.SHORT_STAT_UNMET]

/-- The cap of C62 without a reservation, and with one: SCAN_CEIL over its window (R208). -/
def State.scanCap (s : State) : Nat := s.scanCeil * s.fget (SCH.CLS_CFG_WINDOW 62) / 64

/-- Set a class's effective budget and its TRIMMED flag. -/
def State.setEff (s : State) (n v : Nat) (trimmed : Bool) : State :=
  (s.fset (SCH.CLS_STAT_EFF_BUDGET n) v).setFlag (SCH.CLS_STAT_TRIMMED n) trimmed

/-- Recompute the model and the effective budgets (R200 to R204). A budget is lowered as soon as the computation at
100% gives less, and raised, to its value at 98%, only at a housekeeping round. -/
def State.recompute (s : State) (round : Bool) : State :=
  let s := s.modelRegs
  let s := s.fset SCH.DERATE_CAUSES s.derate
  let view := s.clsView
  let m := s.model
  let (lo, unmet) := m.trim view 100
  let (hi, _) := if round then m.trim view 98 else ([], false)
  let cur (n : Nat) : Nat := if s.flag (SCH.CLS_STAT_TRIMMED n) then s.fget (SCH.CLS_STAT_EFF_BUDGET n) else (view n).budget
  let next (n : Nat) : Nat :=
    let b := (view n).budget
    let e := min (cur n) (SMap.get b lo n)
    if round then max e (min b (SMap.get b hi n)) else e
  let deeper := (List.range 64).any (fun n => decide (next n < cur n))
  let trimmed := (List.range 64).filter (fun n => decide (next n < (view n).budget))
  let s := (List.range 64).foldl (fun (s : State) n =>
    let e := next n
    let e := if n = 62 then min e s.scanCap else e
    s.setEff n e (trimmed.contains n)) s
  let was := s.flag SCH.SHORT_STAT_ACTIVE
  let wasUnmet := s.flag SCH.SHORT_STAT_UNMET
  let active := !trimmed.isEmpty || unmet
  let rank := trimmed.foldl (fun r n => max r (view n).rank) 0
  let s := ((s.setFlag SCH.SHORT_STAT_ACTIVE active).setFlag SCH.SHORT_STAT_UNMET unmet).fset SCH.SHORT_STAT_TRIM_RANK rank
  let s := s.fset SCH.SHORT_STAT_TRIM_CNT trimmed.length
  let s := if unmet && !wasUnmet then s.int I.sch 4 else s
  if active && !was then
    let s := { s with sch := { s.sch with shortFrom := s.ms } }
    ((s.bumpSat SCH.SHORT_CNT_ENTER_CNT 1).int I.sch 2).event 0x0003 1 s.shortDetail
  else if active && deeper then (s.int I.sch 2).event 0x0003 1 s.shortDetail
  else if was && !active then
    let s := s.fset SCH.SHORT_CNT_LAST_MS (min 65535 (s.ms - s.sch.shortFrom))
    (s.int I.sch 3).event 0x0004 0 s.shortDetail
  else s

def execModelRecompute (s : State) : Host.Outcome State Fault Refusal := done (if s.live then s.recompute false else s)

/-- MODEL_HOLD of a retraining port runs out: its term drops to 0 (Table 6.7). -/
def execModelHoldExpiry (p : Nat) (s : State) : Host.Outcome State Fault Refusal :=
  done (if isPort p ∧ s.live ∧ (s.portState p = 8 ∨ (1 ≤ s.portState p ∧ s.portState p ≤ 4)) then
    { s with sch := { s.sch with hold := SMap.set false s.sch.hold p true } }
    else s)

/-! ### Internal budgets (R207, R288, R305, R308) -/

/-- A class's budget and RSV from the next window start on. -/
def State.budgetAtWindow (s : State) (n budget : Nat) (rsv : Bool) : State :=
  { s with sch := { s.sch with nextBudget := SMap.set none s.sch.nextBudget n (some (budget, rsv)) } }

/-- The C60 budget that firmware sets: the fast rate during a sweep or a fast scrub, else the patrol rate, and half
of it, rounded up, while pacing is halved (R207 to R309). -/
def State.c60Budget (s : State) : Nat :=
  let lines := s.pcs * 2 ^ 24
  let per := max 1 (s.fget ECC.SCRUB_CFG_PERIOD_H) * 3600000
  let b := if s.ecc.sweep.isSome ∨ s.ecc.fast.isSome then 256000 else (lines + per - 1) / per
  if s.sch.half then (b + 1) / 2 else b

/-- Firmware sets the C60 budget. -/
def State.setC60 (s : State) : State := s.budgetAtWindow 60 s.c60Budget true

/-- The total rate of the reservations (R288). -/
def State.scnReserved (s : State) : Nat :=
  (List.range 4).foldl (fun n i => if s.flag (SCN.RES_ENG_VALID i) then n + s.fget (SCN.RES_RATE_RATE i) else n) 0

/-- Firmware sets the C62 budget: the total of the reservations, else the cap; none while SCN is gated or absent. -/
def State.setC62 (s : State) : State :=
  if !s.scnPresent then s.budgetAtWindow 62 0 false
  else
    let n := s.scnReserved
    if n = 0 then s.budgetAtWindow 62 (s.fget SCN.LIMITS_CAP) false else s.budgetAtWindow 62 n true

/-! ### The governor (R205) -/

/-- One step of the governor from the headroom in milliwatts and the throttle flag (Table 6.11). -/
def State.governor (s : State) (headroom : Int) (throttle : Bool) : State :=
  let scan := s.fget SCH.GOV_CEIL_SCAN_CEIL
  let link := s.fget SCH.GOV_CEIL_LINK_CEIL
  if throttle ∨ headroom < 500 then
    if 0 < scan then s.fset SCH.GOV_CEIL_SCAN_CEIL (scan - 130)
    else if !s.sch.half then State.setC60 { s with sch := { s.sch with half := true } }
    else if 672 < link then s.fset SCH.GOV_CEIL_LINK_CEIL (max 672 (link - 336))
    else s
  else if headroom ≤ 2000 then s
  else if link < 6720 then s.fset SCH.GOV_CEIL_LINK_CEIL (min 6720 (link + 336))
  else if s.sch.half then State.setC60 { s with sch := { s.sch with half := false } }
  else if scan < 1300 then s.fset SCH.GOV_CEIL_SCAN_CEIL (min 1300 (scan + 130))
  else s

/-! ### Tokens and windows (R185, R188) -/

/-- The signed token count of a class. -/
def State.tokens (s : State) (n : Nat) : Int := SMap.get 0 s.sch.tokens n

def State.setTokens (s : State) (n : Nat) (v : Int) : State := { s with sch := { s.sch with tokens := SMap.set 0 s.sch.tokens n v } }

/-- A committed budget takes effect. A class that a shortfall trims keeps its effective budget, since one is raised only at
a housekeeping round (R202). -/
def State.applyBudget (s : State) (n : Nat) : State :=
  match SMap.get none s.sch.nextBudget n with
  | none => s
  | some (b, r) =>
    let s := { s with sch := { s.sch with nextBudget := SMap.set none s.sch.nextBudget n none } }
    let s := (s.fset (SCH.CLS_BUDGET_BUDGET n) b).setFlag (SCH.CLS_CFG_RSV n) r
    let full := if n = 62 then min b s.scanCap else b
    let e := if s.flag (SCH.CLS_STAT_TRIMMED n) then min (s.fget (SCH.CLS_STAT_EFF_BUDGET n)) full else full
    (s.setEff n e (decide (e < full))).modelRegs

/-- The refill at a window start. A class with BUDGET 0 has no token count; DESIGN CHOICE (assumption 71): what it held
before is forgotten, so that a budget that returns starts with a full refill (R185 is silent). -/
def State.refill (s : State) (n : Nat) : State :=
  let e : Int := s.fget (SCH.CLS_STAT_EFF_BUDGET n)
  s.setTokens n (if s.fget (SCH.CLS_BUDGET_BUDGET n) = 0 then 0 else min (s.tokens n + e) e)

/-- A window of class `n` starts (R185, R188); SCN hands out the tokens of C62 (R288). -/
def State.windowStart (s : State) (n : Nat) : State :=
  let s := (s.applyBudget n).refill n
  if n = 62 ∧ s.scnPresent then s.scanWindow else s

/-- The scrub of one second in Reef-2 holds its tokens, and no window of C60 refills them (assumption 85). -/
def execWindowStart (n : Nat) (s : State) : Host.Outcome State Fault Refusal :=
  done (if n < 64 ∧ s.live ∧ ¬ (n = 60 ∧ s.ecc.reef2.isSome) then s.windowStart n else s)

/-- Lines of internal traffic take tokens of their class, where it has at least one, and count as admitted (R185,
Table 6.3). -/
def State.spend (s : State) (n lines : Nat) : Option State :=
  if s.tokens n < 1 then none else some ((s.setTokens n (s.tokens n - lines)).bump (SCH.CLS_ADMIT_COUNT n) lines)

/-! ### The device pool (R206) -/

/-- The pool is in force: LINK_CEIL lies below the sum of port payloads. -/
def State.pooled (s : State) : Bool := decide (s.linkCeil < s.payloads)

/-- P of Table 6.12 in lines. DESIGN CHOICE (assumption 72): rounded down to whole lines, which R206 leaves
open. -/
def State.poolShare (s : State) : Nat := (s.linkCeil - s.fget SCH.DEM_LINK_VALUE) / 16

/-- At each 1 µs tick the pool refills to P, whether it is in force or not. -/
def State.poolRefill (s : State) : State :=
  let p : Int := s.poolShare
  { s with sch := { s.sch with pool := min (s.sch.pool + p) p } }

def execPoolRefill (s : State) : Host.Outcome State Fault Refusal := done (if s.live then s.poolRefill else s)

/-- C61 counts while an evacuation copies (Table 6.2, R199): from the instant the evacuation sets its reservation to the
instant of the switch (R321, R323), not from a window start, which R188 asks of committed changes only. -/
def State.setC61 (s : State) (on : Bool) (pc : Nat) : State :=
  let s := ((s.budgetAtWindow 61 32 on).applyBudget 61).setFlag SCH.EVAC_ACTIVE on
  s.fset SCH.EVAC_PC (if on then pc else 0)

/-! ### Admission (R184 to R187) -/

/-- Lines a request is charged (Table 6.3). -/
def chargeOf (r : Req) : Nat := if r.opcode = 0x40 then 1 else if r.opcode = 0x50 then 0 else (reqLines r).length

/-- What an admission draws from the pool. -/
def State.poolDraw (s : State) (t : Txn) : Nat :=
  if !s.pooled then 0
  else if s.flag (SCH.CLS_CFG_RSV t.cls) then ((chargeOf t.req : Int) - s.tokens t.cls).toNat
  else chargeOf t.req

/-- The class's budget admits one more request. -/
def State.budgetOk (s : State) (t : Txn) : Bool :=
  decide (s.fget (SCH.CLS_BUDGET_BUDGET t.cls) = 0) || decide (1 ≤ s.tokens t.cls)

/-- The pool admits it. -/
def State.poolOk (s : State) (t : Txn) : Bool := decide (s.poolDraw t = 0) || decide (1 ≤ s.sch.pool)

/-- A range of lines has a line on D5 to D8. -/
def State.onUpper (s : State) (base lines : Nat) : Bool := (List.range lines).any (fun i => decide (64 ≤ s.pcOf (base / 64 + i)))

/-- The request has a line on D5 to D8: one it names, or, of a SCAN, one of its input or output range. -/
def State.wantsUpper (s : State) (r : Req) : Bool :=
  if r.opcode = 0x40 then
    let d := scanDesc r.data
    s.onUpper d.inBase d.inLines || s.onUpper d.outBase d.outLines
  else (reqLines r).any (fun l => decide (64 ≤ s.pcOf l))

/-- During a mast-domain reset, requests with lines on D5 to D8 wait at admission (Table 11.5). -/
def State.relayHolds (s : State) (t : Txn) : Bool := s.stk.relay.isSome && s.wantsUpper t.req

/-- No earlier request of its class, and none of its requester from its port, waits at admission (R186). -/
def State.firstInLine (s : State) (t : Txn) : Bool :=
  !(s.txns.any (fun u => decide (u.stage = 1) && decide (u.num ≠ t.num) &&
    ((decide (u.cls = t.cls) && (decide (u.num < t.num) || decide (t.stage = 0))) ||
      (decide (u.req.reqId = t.req.reqId) && decide (u.req.port = t.req.port) && decide (u.num < t.num)))))

/-- The operation of one line of a request. -/
def opKind (r : Req) (line : Nat) : OpKind :=
  if r.opcode = 0x28 then .wr (bitAt r.flags 6) (if bitAt r.flags 11 then some r.len else none)
  else if r.opcode = 0x29 then .wrp (maskOf 64 (fun i => decide (r.addr ≤ 64 * line + i) && decide (64 * line + i < r.addr + r.len)))
  else if r.opcode = 0x38 then .atom (r.len % 256) (r.addr % 64)
  else .rd (bitAt r.flags 10) (decide (r.opcode = 0x10) && bitAt r.flags 11)

/-- An admitted request goes to its home slices, a SCAN to the scan queue; lines already answered fenced do not. -/
def State.launch (s : State) (t : Txn) : State :=
  if t.req.opcode = 0x40 then (s.setTxn { t with stage := 3 }).enqueueScan t.num
  else
    let lines := reqLines t.req
    (List.range lines.length).foldl (fun (s : State) i =>
      if (t.lines.getD i .open_).isOpen then
        let line := lines.getD i 0
        s.sliceOp { txn := t.num, idx := i, line := line, cls := t.cls, kind := opKind t.req line,
                    data := slice t.req.data (64 * i) 64 }
      else s) s

/-- A request is admitted: its charge and its draw are taken, even below zero (R184, R185, R206). -/
def State.admitTxn (s : State) (t : Txn) : State :=
  let n := chargeOf t.req
  let s := { s with sch := { s.sch with pool := s.sch.pool - s.poolDraw t } }
  let s := if s.fget (SCH.CLS_BUDGET_BUDGET t.cls) = 0 then s else s.setTokens t.cls (s.tokens t.cls - n)
  let t := { t with stage := 2, admitAt := s.now }
  let s := s.trace 3 t.cls (t.req.reqId * 2 ^ 16 + t.req.tag)
  ((s.bump (SCH.CLS_ADMIT_COUNT t.cls) n).setTxn t).launch t

/-- Admit a request where its budget and the pool allow, else it waits in its class's queue; a wait is counted once,
and once for the pool (R186, R206). -/
def State.tryAdmit (s : State) (t : Txn) : State :=
  if s.firstInLine t && s.budgetOk t && s.poolOk t && !s.relayHolds t then s.admitTxn t
  else
    let s := if t.stage = 1 then s else s.bumpSat (SCH.CLS_HOLD_HOLD_CNT t.cls) 1
    let stall := !s.poolOk t && s.firstInLine t && s.budgetOk t && !t.poolHeld
    let s := if stall then s.bumpSat SCH.POOL_STALLS_COUNT 1 else s
    s.setTxn { t with stage := 1, poolHeld := t.poolHeld || stall }

/-- The front of a class's admission queue, which is in arrival order. -/
def State.queueFront (s : State) (n : Nat) : Option Txn :=
  (s.txns.filter (fun t => decide (t.stage = 1) && decide (t.cls = n))).foldl (fun (a : Option Txn) t =>
    match a with
    | some x => some (if t.num < x.num then t else x)
    | none => some t) none

/-- The first request of a class's admission queue is tried again. -/
def execAdmission (n : Nat) (s : State) : Host.Outcome State Fault Refusal :=
  done (match s.queueFront n with
  | some t => if s.live then s.tryAdmit t else s
  | none => s)

end Sys2Proof.Machine
end

