-- ==== Sys2Proof/Machine/Records.lean ====
section
/-! DEFINITION. Failure records of the tests (R337, R343), the outcome of a DRAM test (R342), and the entries that
firmware hardens in the REPAIR fuse region (R448, R319, R341). A mast has the number of its engine (R328). -/

namespace Sys2Proof.Machine

open Sys2Proof.Reg

/-! ### Failure records (Table 11.2) -/

/-- The record of a failing word or via: the place and the failing bits as found, with the kind, the mast and the
action filled in. -/
def failRecord (m kind action : Nat) (f : Nat × Nat) : Nat × Nat :=
  (2 ^ 31 + kind * 2 ^ 28 + m / 17 * 2 ^ 25 + m % 17 * 2 ^ 20 + (if kind ≤ 1 then f.1 % 2 ^ 20 else 0),
    f.2 % 2 ^ 32 / 2 ^ 16 * 2 ^ 16 + action * 2 ^ 12 + f.2 % 2 ^ 10)

/-- The beat that carries bit `i` of a word, bit b of byte j being bit 8j + b: byte j is in group j / 20, and its bits go
two a beat from bit 7 down (R299). -/
def bitBeat (i : Nat) : Nat := 4 * (i / 8 / 20) + (3 - i % 8 / 2)

/-- The data via that carries it: via 2m of mat m = j mod 20 for an odd bit, via 2m + 1 for an even one. -/
def bitVia (i : Nat) : Nat := 2 * (i / 8 % 20) + (1 - i % 2)

/-- The FAIL_BIT fields of a failing word, from the segment, the column, the failing bit that comes first (in [26:17]), its
expected value and the number of failing bits. -/
def wordFail (x : Nat) : Nat :=
  x % 2 ^ 32 / 2 ^ 27 * 2 ^ 27 + bitBeat (bits x 17 10) % 16 * 2 ^ 23 + bitVia (bits x 17 10) * 2 ^ 17 + x % 2 ^ 17

/-- The first 8 records since PORST_N stay in FAIL_LOC and FAIL_BIT. -/
def State.keepFail (s : State) (r : Nat × Nat) : State :=
  match (List.range 8).find? (fun k => !bitAt (s.reg (STK.FAIL_LOC k)).toNat 31) with
  | some k => (s.setReg (STK.FAIL_LOC k) (BitVec.ofNat 32 r.1)).setReg (STK.FAIL_BIT k) (BitVec.ofNat 32 r.2)
  | none => s

/-- A test run of a mast found failures: each is counted, and up to 64 are recorded. -/
def State.noteFails (s : State) (m : Nat) (recs : List (Nat × Nat)) : State :=
  let s := (recs.take 64).foldl (fun (s : State) r =>
    (s.keepFail r).record 0x06 0 0 0 (beBytes 4 r.1 ++ beBytes 4 r.2 ++ [m]) true) s
  s.bumpSat STK.FAIL_CNT_WORDS recs.length

/-- The failing words that quick BIST can find: it reads in row r the segments s with r + s even, in column
(r + s / 2) mod 4 (R334). -/
def quickFails (fails : List (Nat × Nat)) : List (Nat × Nat) :=
  fails.filter (fun f => decide ((bits f.1 1 13 + bits f.2 29 3) % 2 = 0) &&
    decide (bits f.2 27 2 = (bits f.1 1 13 + bits f.2 29 3 / 2) % 4))

/-- The bank (bank group × 16 + bank), the row and SPARE_ROW of a failing word. -/
def failRow (f : Nat × Nat) : Nat × Nat × Bool := (bits f.1 18 2 * 16 + bits f.1 14 4, bits f.1 1 13, bitAt f.1 0)

/-- The failing rows of a test, each once. -/
def failRows (fails : List (Nat × Nat)) : List (Nat × Nat × Bool) :=
  (fails.map failRow).foldl (fun l r => if l.contains r then l else l ++ [r]) []

/-- The spare rows that row sparing may still use in a bank of an array: free, and not among the failing rows. -/
def State.goodSpares (s : State) (array bank : Nat) (rows : List (Nat × Nat × Bool)) : List Nat :=
  (s.freeSpares array bank).filter (fun r => !rows.contains (bank, r, true))

/-- The outcome of a DRAM test of an array: 0 pass, 1 failures that row sparing could cover (at most 64 rows, each
bank with spare rows for them, and room in the remap table), 2 failures beyond it (R342, Table 11.3). -/
def State.testOutcome (s : State) (array : Nat) (fails : List (Nat × Nat)) : Nat :=
  let rows := failRows fails
  let data := rows.filter (fun r => !r.2.2)
  if fails = [] then 0
  else if rows.length ≤ 64 ∧ s.remapUsed array + data.length ≤ 256 ∧
      data.all (fun r => decide ((data.filter (fun q => q.1 = r.1)).length ≤ (s.goodSpares array r.1 rows).length)) then 1
  else 2

/-- A DRAM test of a mast ended: its records, of which the first 16 stay readable with its set and its failing words (R343;
DEDUCED, assumption 87), and MAST_BIST (Table 11.9). -/
def State.noteTest (s : State) (m set action : Nat) (fails : List (Nat × Nat)) : State :=
  let out := s.testOutcome (engArray m) fails
  let recs := fails.map (fun f => failRecord m set action (f.1, wordFail f.2))
  let s := s.noteFails m recs
  let s : State := { s with stk := { s.stk with last := SMap.insert s.stk.last m ⟨set, fails.length, recs.take 16⟩ } }
  let s := if fails = [] then s else s.int I.stk 1
  s.setReg (STK.MAST_BIST m) (BitVec.ofNat 32 (set * 2 ^ 28 + out * 2 ^ 24 + min fails.length 0xFFFFFF))

/-! ### Hardening -/

/-- A REPAIR word with its CHK bits, from its bits [31:3] (R448). -/
def repairWord (x : Nat) : Nat :=
  let par (i : Nat) : Nat := ((List.range 29).filter (fun j => (j + 3) % 3 = i ∧ bitAt x (j + 3))).length % 2
  x + par 0 + 2 * par 1 + 4 * par 2

/-- A row spare entry (Table 16.6). -/
def rowEntry (m bg bank row : Nat) : Nat :=
  repairWord (2 ^ 30 + m * 2 ^ 22 + bg * 2 ^ 20 + bank * 2 ^ 16 + row * 2 ^ 3)

/-- A via remap entry. -/
def viaEntry (m group pos : Nat) : Nat := repairWord (2 * 2 ^ 30 + m * 2 ^ 22 + group * 2 ^ 20 + pos * 2 ^ 16)

/-- An entry for an index, substituted or fenced. -/
def indexEntry (k : Nat) (fenced : Bool) : Nat :=
  repairWord (3 * 2 ^ 30 + (17 * (k / 16) + k % 16) * 2 ^ 22 + b2n fenced * 2 ^ 21)

/-- An entry waits until firmware records it. -/
def State.hardenLater (s : State) (x : Nat) : State :=
  if s.ecc.hardQ.contains x then s else { s with ecc := { s.ecc with hardQ := s.ecc.hardQ ++ [x] } }

/-- Firmware hardens a substitution or a fence where AUTO_HARD is 1 (R314). -/
def State.hardenIndex (s : State) (k : Nat) (fenced : Bool) : State :=
  if s.flag ECC.CTRL_AUTO_HARD then s.hardenLater (indexEntry k fenced) else s

/-- Firmware hardens a row spare where AUTO_HARD is 1 (R314, R319). -/
def State.hardenRow (s : State) (m bg bank row : Nat) : State :=
  if s.flag ECC.CTRL_AUTO_HARD then s.hardenLater (rowEntry m bg bank row) else s

/-- A via remap waits to be recorded (R341). -/
def State.hardenVia (s : State) (m group pos : Nat) : State := s.hardenLater (viaEntry m group pos)

/-- Firmware records a waiting entry now: a via remap while AUTO_HARD_VIA is 1, the others while AUTO_HARD is 1; a via remap
and a row spare for as long as at least 32 REPAIR entries remain free (R319, R341). -/
def State.hardensNow (s : State) (x : Nat) : Bool :=
  let kind := x / 2 ^ 30
  s.flag (if kind = 2 then STK.CTRL_AUTO_HARD_VIA else ECC.CTRL_AUTO_HARD) &&
    (decide (kind = 3) || decide (32 ≤ s.fget OTP.REPAIR_STAT_FREE))

end Sys2Proof.Machine
end

