-- ==== Sys2Proof/Machine/Scrub.lean ====
section
/-! DEFINITION. The readers of C60 (spec/10_data_integrity.md): what internal traffic may read and what comes back to it,
patrol and fast scrub, and retention sweeps. -/

namespace Sys2Proof.Machine

open Sys2Proof.Reg

/-! ### Reads of internal traffic (R211, R269) -/

/-- The die of an index runs: it is in no reset, and no mast-domain reset pauses its internal traffic (R237, R350). -/
def State.dieRuns (s : State) (k : Nat) : Bool :=
  decide (s.fget (DCH.STATUS_DIE_STATE (pcDie k)) = 0) && !s.relayPauses (pcDie k)

/-- Internal traffic may touch an index: not paused by a QUIESCE or a Furl or Off entry, its engine not fenced, its die in no reset. -/
def State.lineFree (s : State) (k : Nat) : Bool := s.live && !s.mgc.paused && !s.entryPaused && !s.fenced k && s.dieRuns k

/-- A reader sends the read of a line of the array: a probe of its home slice (R269). -/
def State.readLine (s : State) (who : Reader) (line cls : Nat) : State :=
  s.sliceOp { txn := line, idx := 0, line := line, cls := cls, kind := .probe who, data := [] }

/-- The read of a word of a seal row, which no slice can hold, goes to its engine (R167). -/
def State.readSeal (s : State) (line : Nat) : State :=
  s.enterRead (s.engineOf (s.pcOf line)) (s.entry (.probe .patrol) line (some (line, 0)) [] 60 s.now) line (some (line, 0))

/-- The first line that came back to a reader, with the engine number where it stands. -/
def State.readBack (s : State) (who : Reader) : Option (Nat × Ret) :=
  (s.engs.filterMap (fun g => (g.2.ret.find? (fun t => t.kind = .probe who)).map (fun t => (g.1, t)))).head?

/-! ### Scrub (R307, R301) -/

/-- A line that scrub has read: a copy from above the array counts as scrubbed without an array read, a corrected word is
offered as a rewrite. Whether it was uncorrectable. -/
def State.scrubbed (s : State) (m : Nat) (r : Ret) (errs : List (Nat × Nat)) : State × Bool :=
  let k := s.pcOf r.line
  let (s, w, ue, fixed) := s.retWord m r 1 errs
  let s := if ue then s.bumpSat (ECC.PC_SCRUB_UE_COUNT k) 1
    else if fixed = 0 then s
    else (s.bumpSat (ECC.PC_SCRUB_CE_COUNT k) 1).offerRewrite k r.line w
  (s.bump (ECC.PC_SCRUB_LINES_COUNT k) 1, ue)

/-- The patrol walker's next device address, divided by 64. -/
def State.scrubPtr (s : State) : Nat := (s.fget ECC.SCRUB_PTR_HI_ADDR_HI * 2 ^ 32 + s.fget ECC.SCRUB_PTR_LO_ADDR_LO) / 64

/-- Move the patrol walker. -/
def State.setScrubPtr (s : State) (line : Nat) : State :=
  (s.fset ECC.SCRUB_PTR_HI_ADDR_HI (64 * line / 2 ^ 32)).fset ECC.SCRUB_PTR_LO_ADDR_LO (64 * line % 2 ^ 32)

/-- Line `i` of 32 of the seal row of an array (R167). -/
def sealLine (i : Nat) : Nat := lineNo (8192 + 63) (i / 4) 0 0 (i % 4)

/-- The walker moves past line `i` of 32 × the indices of the seal rows; after the last one the pass is complete. -/
def State.sealNext (s : State) (i : Nat) : State :=
  if i + 1 < 32 * s.pcs then { s with ecc := { s.ecc with sealAt := some (i + 1) } }
  else
    let min := (s.now - s.ecc.passFrom) / 60000000000
    let s := { s with ecc := { s.ecc with sealAt := none, passFrom := s.now } }
    ((s.setScrubPtr 0).bumpSat ECC.SCRUB_PASS_PASS_CNT 1).fset ECC.SCRUB_PASS_LAST_MIN (Nat.min 65535 min)

/-- The patrol walker moves past a line; after the last one it goes on to the seal rows. -/
def State.patrolNext (s : State) (line : Nat) : State :=
  if line + 1 < s.pcs * pcLines then s.setScrubPtr (line + 1)
  else { s with ecc := { s.ecc with sealAt := some 0 } }

/-- The index of the patrol walker's next line. -/
def State.patrolPc (s : State) : Nat :=
  match s.ecc.sealAt with
  | some i => i / 32
  | none => s.pcOf s.scrubPtr

/-- The patrol walker moves on by one line. -/
def State.patrolStep (s : State) : State :=
  match s.ecc.sealAt with
  | some i => s.sealNext i
  | none => s.patrolNext s.scrubPtr

/-- The patrol walker sends the read of its next line for one C60 token; it skips the lines of a fenced index. -/
def State.patrolIssue (s : State) : State :=
  let k := s.patrolPc
  if s.fenced k then s.patrolStep
  else if ¬ s.dieRuns k then s
  else
    match s.ecc.sealAt with
    | some i =>
      let line := sealNum k (i % 32)
      if ¬ (s.eng (s.engineOf k)).readRoom (s.entry (.probe .patrol) line (some (line, 0)) [] 60 s.now) then s
      else
        match s.spend 60 1 with
        | none => s
        | some t => (t.readSeal line).patrolStep
    | none =>
      match s.spend 60 1 with
      | none => s
      | some t => (t.readLine .patrol t.scrubPtr 60).patrolStep

/-- The lowest index of a mask. -/
def State.lowestPc (s : State) (mask : Nat) : Option Nat := (List.range s.pcs).find? (bitAt mask)

/-- A line that a fast scrub has read. One whose read a temporary fence answered is read again. -/
def State.fastDone (s : State) (f : FastScrub) (m : Nat) (r : Ret) (errs : List (Nat × Nat)) : State :=
  if r.fenced then
    { s with ecc := { s.ecc with fast := some (if s.engPerm m then f else { f with again := f.again ++ [r.line] }) } }
  else
    let (s, ue) := s.scrubbed m r errs
    { s with ecc := { s.ecc with fast := some { f with ue := f.ue + b2n ue } } }

/-- A fast scrub sends a read for one C60 token: of a line to read again, or of the next line of the lowest index it still
has (R309). -/
def State.fastIssue (s : State) (f : FastScrub) : State :=
  let put (s : State) (f : FastScrub) : State := { s with ecc := { s.ecc with fast := some f } }
  let send (s : State) (line : Nat) (f : FastScrub) : State :=
    if ¬ s.lineFree (s.pcOf line) then s
    else
      match s.spend 60 1 with
      | none => s
      | some t => (put t f).readLine .fast line 60
  match f.again with
  | line :: rest =>
    if s.engPerm (s.engineOf (s.pcOf line)) then put s { f with again := rest } else send s line { f with again := rest }
  | [] =>
    match s.lowestPc f.mask with
    | none => s
    | some k =>
      if s.engPerm (s.engineOf k) then put s { f with mask := setBit f.mask k false, next := 0 }
      else
        send s (s.lineAt k f.next) (if f.next + 1 < pcLines then { f with next := f.next + 1 }
          else { f with mask := setBit f.mask k false, next := 0 })

/-- A read of patrol or fast scrub that came back is taken. -/
def State.scrubTake (s : State) (errs : List (Nat × Nat)) : Option State :=
  match s.readBack .patrol, s.readBack .fast with
  | some (m, r), _ => some (let s := s.dropRet m r; if r.fenced then s else (s.scrubbed m r errs).1)
  | none, some (m, r) =>
    let s := s.dropRet m r
    some (match s.ecc.fast with
      | some f => s.fastDone f m r errs
      | none => s)
  | none, none => none

/-- The next read of scrub: fast scrub goes first, and both rest while a sweep runs (R305, R309). -/
def State.scrubIssue (s : State) : State :=
  if s.ecc.sweep.isSome then s
  else
    match s.ecc.fast with
    | some f => s.fastIssue f
    | none => s.patrolIssue

/-- One command of scrub: a line that came back is decoded, counted and healed; else the next read is sent, and where a slice
or a write queue answers it the line is done at once (R301, R307, R309). -/
def State.scrubStep (s : State) (errs : List (Nat × Nat)) : State :=
  match s.scrubTake errs with
  | some s => s
  | none =>
    if s.mgc.paused ∨ s.entryPaused ∨ 1 < s.pwr then s
    else
      let s := s.scrubIssue
      (s.scrubTake errs).getD s

def execPatrolScrubLine (errs : List (Nat × Nat)) (s : State) : Host.Outcome State Fault Refusal :=
  done (if s.live then s.scrubStep errs else s)

/-! ### Scrub in Reef-2 (R310) -/

/-- Put the scrub of Reef-2. -/
def State.putReef2 (s : State) (r : Option Reef2Run) : State := { s with ecc := { s.ecc with reef2 := r } }

/-- The scrub of Reef-2 sends the read of the patrol walker's next line, as patrol does, for a C60 token; the line's
pseudo-channel first leaves self-refresh. -/
def State.reefIssue (s : State) (r : Reef2Run) : State :=
  let k := s.patrolPc
  let m := s.engineOf k
  let line := match s.ecc.sealAt with
    | some i => sealNum k (i % 32)
    | none => s.scrubPtr
  let e := ((r.errs.find? (fun x => x.1 = r.place)).map (·.2)).getD []
  let r := { r with left := r.left - 1, place := r.place + 1 }
  if s.fenced k then s.patrolStep.putReef2 (some r)
  else if ¬ s.dieRuns k ∨ ¬ s.readFits line then s
  else
    match s.spend 60 1 with
    | none => s
    | some t =>
      let t := t.leaveSr m
      let t := t.putReef2 (some { r with flying := r.flying ++ [(line, e)], woken := if r.woken.contains m then r.woken else r.woken ++ [m] })
      (if isSeal line then t.readSeal line else t.readLine .patrol line 60).patrolStep

/-- The engines that a Reef-2 scrub brought out go back to self-refresh, their rewrites written (R236). -/
def State.reefEnd (s : State) (r : Reef2Run) : State :=
  r.woken.foldl (fun (t : State) m => if t.engSr m then t else t.enterSr m) (s.putReef2 none)

/-- The scrub of Reef-2 goes on by itself: a line that came back is decoded, counted and healed, else the next read is sent;
once every line owed is done, the pseudo-channels return to self-refresh. An exit from Reef-2 ends it. -/
def State.reefTick (s : State) : State :=
  match s.ecc.reef2 with
  | none => s
  | some r =>
    if s.pwr ≠ 2 then s.putReef2 none
    else
      match s.readBack .patrol with
      | some (m, t) =>
        let e := ((r.flying.find? (fun x => x.1 = t.line)).map (·.2)).getD []
        let s := (s.dropRet m t).putReef2 (some { r with flying := r.flying.filter (fun x => x.1 ≠ t.line) })
        if t.fenced then s else (s.scrubbed m t e).1
      | none =>
        if 0 < r.left then s.reefIssue r
        else if s.reading .patrol ∨ ¬ r.woken.all (fun m => (s.eng m).wrq = []) then s
        else s.reefEnd r

/-- Timer channel 3 fires in Reef-2 with REEF2 = 1: the lines of one second fall due, and C60 holds their tokens at once,
since its windows of 1 ms would spread them over the second (DESIGN CHOICE, assumption 85). `errs` are the errors that
strike lines, by their place among those owed. -/
def State.reef2Scrub (s : State) (errs : List (Nat × List (Nat × Nat))) : State :=
  let n := 1000 * s.c60Budget
  let r := s.ecc.reef2.getD { left := 0 }
  (s.setTokens 60 (r.left + n)).putReef2 (some { r with left := r.left + n, errs := r.errs ++ errs.map (fun e => (r.place + r.left + e.1, e.2)) })

def execReef2Scrub (errs : List (Nat × List (Nat × Nat))) (s : State) : Host.Outcome State Fault Refusal :=
  done (if s.live ∧ s.pwr = 2 ∧ s.flag ECC.SCRUB_CFG_REEF2 ∧ ¬ s.ecc.sweep.isSome ∧ ¬ s.ecc.fast.isSome then
    s.reef2Scrub errs else s)

/-! ### Retention (R304, R305) -/

/-- The next due sweep starts, once no sweep and no fast scrub runs. -/
def State.startSweep (s : State) : State :=
  if s.ecc.sweep.isSome ∨ s.ecc.fast.isSome then s
  else
    match (List.range s.pcs).find? s.ecc.sweepQ.contains with
    | none => s
    | some k =>
      State.setC60 { s with ecc := { s.ecc with sweep := some ⟨k, 0, []⟩, sweepQ := s.ecc.sweepQ.filter (· ≠ k) } }

/-- The device marks an index retention-lost. -/
def State.markLost (s : State) (k : Nat) : State :=
  let s := s.fset (ECC.PC_HEAL_EPOCH k) (1 - s.fget (ECC.PC_HEAL_EPOCH k))
  let s := (s.setFlag (ECC.PC_HEAL_RL_ACTIVE k) true).setFlag (pcStateFld k 4) true
  { s with ecc := { s.ecc with sweepQ := s.ecc.sweepQ.filter (· ≠ k) ++ [k] } }

/-- The sweep of an index clears: CLEAR_RETLOST ordered it, and no marking sweep of the index runs. -/
def State.clearing (s : State) (k : Nat) : Bool := !s.flag (ECC.PC_HEAL_RL_ACTIVE k)

/-- Clear the retention-lost bit of a line that a slice holds, in a way or in its write-back buffer. -/
def State.clearHeld (s : State) (line : Nat) : State :=
  let k := lineSlice line
  let c := s.slc k
  let c : SliceSt := { c with wb := c.wb.map (fun (b : WbLine) => if b.line = line then { b with dev := setBit b.dev 6 false } else b) }
  match c.find line with
  | some (key, w) => s.setSlc k (c.put key { w with dev := setBit w.dev 6 false })
  | none => s.setSlc k c

/-- The word that a sweep writes for a line, where it must rewrite it: one of an old epoch is stored with the current EPOCH
and RETLOST set, and a clearing sweep clears RETLOST. -/
def State.sweepWord (s : State) (k : Nat) (w : List Nat) : Bool :=
  decide (b2n (bitAt (nth w 66) 5) ≠ s.fget (ECC.PC_HEAL_EPOCH k)) || (s.clearing k && bitAt (nth w 66) 6)

/-- A line that a sweep has read: its rewrite enters the write queue in C60, once that has room. A write of the line that
has entered meanwhile stands, and a line that has been written in its array since it was read is read again. -/
def State.swept (s : State) (v : Sweep) (m : Nat) (r : Ret) (errs : List (Nat × Nat)) : State :=
  let k := v.pc
  let held := ((s.eng m).writeOf r.line).isSome
  if r.fenced then
    let s := s.dropRet m r
    { s with ecc := { s.ecc with sweep := some (if s.engPerm m then v else { v with again := v.again ++ [r.line] }) } }
  else if ¬ s.wrqRoom m r.line then s
  else if ¬ r.fwd ∧ s.word (engArray m) (s.arrayLine (engArray m) (s.placeOf r.line)) ≠ r.word then
    let s := s.dropRet m r
    { s with ecc := { s.ecc with sweep := some { v with again := v.again ++ [r.line] } } }
  else
    let (s, w, _, _) := (s.dropRet m r).retWord m r 1 errs
    if !s.sweepWord k w || (held && !r.fwd) then s
    else
      let (s, x) := s.encode k r.line (slice w 0 64) (wordTag w) (wordPoison w) (!s.clearing k)
      s.wrqPut m (s.entry .write r.line none x 60 s.now) r.line

/-- The running sweep sends the read of a line, charged with its write in C60; a clearing sweep first clears the copy that
a slice holds. -/
def State.sweepIssue (s : State) (v : Sweep) : State :=
  let k := v.pc
  let line := v.again.headD (s.lineAt k v.next)
  let v' := if v.again = [] then { v with next := v.next + 1 } else { v with again := v.again.tail }
  if pcLines ≤ v.next ∧ v.again = [] then s
  else if s.engPerm (s.engineOf k) then { s with ecc := { s.ecc with sweep := some { v with next := pcLines, again := [] } } }
  else if ¬ s.lineFree k then s
  else
    match s.spend 60 2 with
    | none => s
    | some t =>
      let t := if t.clearing k then t.clearHeld line else t
      State.readLine { t with ecc := { t.ecc with sweep := some v' } } .sweep line 60

/-- A read of a sweep that came back is taken. -/
def State.sweepTake (s : State) (errs : List (Nat × Nat)) : Option State :=
  match s.readBack .sweep with
  | none => none
  | some (m, r) =>
    some (match s.ecc.sweep with
      | some v => s.swept v m r errs
      | none => s.dropRet m r)

/-- One command of the running sweep: a line that came back is rewritten where it must be; else the next read is sent. -/
def State.sweepStep (s : State) (errs : List (Nat × Nat)) : State :=
  match s.sweepTake errs with
  | some s => s
  | none =>
    match s.ecc.sweep with
    | none => s.startSweep
    | some v =>
      let s := s.sweepIssue v
      (s.sweepTake errs).getD s

def execRetentionSweep (errs : List (Nat × Nat)) (s : State) : Host.Outcome State Fault Refusal :=
  done (if s.live ∧ s.pwr ≤ 1 then s.sweepStep errs else s)

/-- A sweep ends: a marking sweep clears RL_ACTIVE, and a clearing sweep due for the same index then waits its turn;
a clearing sweep clears RL_IGNORE. -/
def State.sweepEnd (s : State) (w : Sweep) : State :=
  let k := w.pc
  let s := { s with ecc := { s.ecc with sweep := none } }
  let s := if s.flag (ECC.PC_HEAL_RL_ACTIVE k) then
      let s := s.setFlag (ECC.PC_HEAL_RL_ACTIVE k) false
      if s.flag (ECC.PC_HEAL_RL_IGNORE k) then { s with ecc := { s.ecc with sweepQ := s.ecc.sweepQ.filter (· ≠ k) ++ [k] } } else s
    else s.setFlag (ECC.PC_HEAL_RL_IGNORE k) false
  (s.int I.ecc 8).setC60.startSweep

def execSweepDone (s : State) : Host.Outcome State Fault Refusal :=
  done (match s.ecc.sweep with
  | some w => if s.live ∧ pcLines ≤ w.next ∧ w.again = [] ∧ ¬ s.reading .sweep then s.sweepEnd w else s
  | none => s)

/-- The first word of a 4-word mask that names an absent index. -/
def State.absentWord (s : State) (p : List Nat) : Option Nat :=
  (List.range 4).find? (fun i => (List.range 32).any (fun b => bitAt (nth p i) b && decide (s.pcs ≤ 32 * (3 - i) + b)))

/-- The indices of a 4-word mask. -/
def State.maskPcs (s : State) (p : List Nat) : List Nat := (List.range s.pcs).filter (bitAt (maskWords p))

/-- CLEAR_RETLOST (R304): reads of the index ignore RETLOST and the epoch, and a clearing sweep falls due. -/
def State.clearLost (s : State) (k : Nat) : State :=
  if ¬ s.retLost k then s
  else
    let s := (s.setFlag (ECC.PC_HEAL_RL_IGNORE k) true).setFlag (pcStateFld k 4) false
    { s with ecc := { s.ecc with sweepQ := s.ecc.sweepQ.filter (· ≠ k) ++ [k] } }

def execClearRetlost (h : Halyard) (s : State) : Host.Outcome State Fault Refusal :=
  done (s.packet 0x24 h (fixedLen 4) (fun s _ =>
    match s.absentWord h.payload with
    | some i => s.replyBad 0x24 h i
    | none =>
      if ¬ s.inSail then s.replySt 0x24 h St.notInState
      else ((s.maskPcs h.payload).foldl State.clearLost s).startSweep.replyOk 0x24 h []))

/-! ### SCRUB_CFG and FAST_SCRUB (R308, R309) -/

def execScrubCfg (h : Halyard) (s : State) : Host.Outcome State Fault Refusal :=
  done (s.packet 0x47 h (fixedLen 1) (fun s _ =>
    let x := arg h 0
    let period := bits x 0 16
    if bits x 16 15 ≠ 0 ∨ period = 0 ∨ 720 < period then s.replyBad 0x47 h 0
    else
      let s := (s.fset ECC.SCRUB_CFG_PERIOD_H period).setFlag ECC.SCRUB_CFG_REEF2 (bitAt x 31)
      s.setC60.replyOk 0x47 h []))

/-- The fast rate in force: halved with C60 pacing (R207, R309). -/
def State.fastRate (s : State) : Nat := if s.sch.half then 128000 else 256000

/-- The classes with the C60 reservation at the fast rate. -/
def State.fastView (s : State) (n : Nat) : ClsView := if n = 60 then { s.clsNext 60 with rsv := true, budget := s.fastRate } else s.clsNext n

/-- The first word of a mask that names an absent or a fenced index. -/
def State.badScrubWord (s : State) (p : List Nat) : Option Nat :=
  (List.range 4).find? (fun i => (List.range 32).any (fun b =>
    bitAt (nth p i) b && (decide (s.pcs ≤ 32 * (3 - i) + b) || s.fenced (32 * (3 - i) + b))))

def execFastScrub (h : Halyard) (s : State) : Host.Outcome State Fault Refusal :=
  done (s.packet 0x48 h (fixedLen 4) (fun s _ =>
    match s.badScrubWord h.payload with
    | some i => s.replyBad 0x48 h i
    | none =>
      if s.ecc.fast.isSome ∨ s.ecc.sweep.isSome then s.replySt 0x48 h St.busy
      else if ¬ s.admits s.fastView then s.replySt 0x48 h St.overcommit
      else s.accept 0x48 h 1 0 (fun s id =>
        State.setC60 { s with ecc := { s.ecc with fast := some ⟨maskWords h.payload, 0, some id, 0, []⟩ } })))

/-- A fast scrub ends once every index of its mask is done: RESULT is the lines found uncorrectable. -/
def State.fastEnd (s : State) (f : FastScrub) : State :=
  let s := { s with ecc := { s.ecc with fast := none } }
  let s := match f.op with
    | some id => s.finishOp id St.ok (min f.ue 0xFFFFFF)
    | none => s.setFlag PWR.WAKE_STAT_SCRUB_BUSY false
  s.setC60.startSweep

def execFastScrubDone (s : State) : Host.Outcome State Fault Refusal :=
  done (match s.ecc.fast with
  | some f => if s.live ∧ s.lowestPc f.mask = none ∧ f.again = [] ∧ ¬ s.reading .fast then s.fastEnd f else s
  | none => s)

end Sys2Proof.Machine
end

