-- ==== Sys2Proof/Machine/Ecc.lean ====
section
/-! DEFINITION. Error injection, row sparing, evacuation and the loss of an index (spec/10_data_integrity.md). -/

namespace Sys2Proof.Machine

open Sys2Proof.Reg

/-! ### Error injection (R315, R316) -/

/-- The length of ERR_INJECT: 2, or 4 with MATCH. -/
def injLen (p : List Nat) : Option Nat :=
  if p.length = (if bitAt (nth p 0) 24 then 4 else 2) then none else some 0

/-- The bits of a pattern that a checker uses. -/
def injPattern (c w : Nat) : Nat := if c = 0 then bits w 0 12 else if c = 1 then bits w 0 8 else bits w 0 9

/-- The word of an ERR_INJECT at fault, if one is. -/
def State.injBad (s : State) (p : List Nat) : Option Nat :=
  let w := nth p 0
  let c := bits w 28 4
  let mode := bits w 26 2
  let pat := injPattern c (nth p 1)
  let sel := bits w 0 7
  let addr := bits (nth p 2) 0 8 * 2 ^ 32 + nth p 3
  let useAddr := c = 0 ∧ bitAt w 24
  if 4 ≤ c ∨ mode = 3 ∨ bits w 7 17 ≠ 0 then some 0
  else if ¬ useAddr ∧ ((c = 0 ∧ s.pcs ≤ sel) ∨ (c = 1 ∧ 32 ≤ sel) ∨ (2 ≤ c ∧ 8 ≤ sel)) then some 0
  else if bits (nth p 1) 12 20 ≠ 0 ∨ (mode ≠ 0 ∧ pat = 0) ∨ (c = 1 ∧ 2 < popcount 8 pat) then some 1
  else if useAddr ∧ (bits (nth p 2) 8 24 ≠ 0 ∨ ¬ s.inRange addr) then some 2
  else none

/-- Arm or disarm an injection. -/
def State.armInj (s : State) (p : List Nat) : State :=
  let w := nth p 0
  let c := bits w 28 4
  let i : Inj := ⟨w, nth p 1, if bitAt w 24 then bits (nth p 2) 0 8 * 2 ^ 32 + nth p 3 else 0⟩
  let s := if bits w 26 2 = 0 then { s with ecc := { s.ecc with inj := SMap.set none s.ecc.inj c none } }
    else { s with ecc := { s.ecc with inj := SMap.set none s.ecc.inj c (some i), lastInj := c } }
  s.showInj

def execErrInject (h : Halyard) (s : State) : Host.Outcome State Fault Refusal :=
  done (s.packet 0x46 h injLen (fun s _ =>
    match s.injBad h.payload with
    | some i => s.replyBad 0x46 h i
    | none => if ¬ s.inSail then s.replySt 0x46 h St.notInState else (s.armInj h.payload).replyOk 0x46 h []))

/-! ### Row sparing (R317, R318) -/

/-- The row that word 0 of ROW_SPARE names. -/
def rowArg (w : Nat) : SpareJob := { pc := bits w 24 7, bg := bits w 20 2, bank := bits w 16 4, row := bits w 0 13, op := none }

/-- The bits of ROW_SPARE's word 0 that are not fields. -/
def rowReserved (w : Nat) : Bool := bitAt w 31 || decide (bits w 22 2 ≠ 0) || decide (bits w 13 3 ≠ 0)

/-- A job's row as a place. -/
def SpareJob.loc (j : SpareJob) : Loc := ⟨j.pc, j.bg, j.bank, j.row, 0, 0⟩

def execRowSpare (h : Halyard) (s : State) : Host.Outcome State Fault Refusal :=
  done (s.packet 0x42 h (fixedLen 1) (fun s _ =>
    let j := rowArg (arg h 0)
    if rowReserved (arg h 0) ∨ s.pcs ≤ j.pc then s.replyBad 0x42 h 0
    else if ¬ s.inSail ∨ s.fenced j.pc ∨ s.evacRuns j.pc ∨ ¬ s.spareRoom j.loc then s.replySt 0x42 h St.notInState
    else if s.ecc.spares.any (fun x => x.pc = j.pc) then s.replySt 0x42 h St.busy
    else s.accept 0x42 h 1 0 (fun s id =>
      { s with ecc := { s.ecc with spares := s.ecc.spares ++ [{ j with op := some id, since := s.now }] } })))

/-- The device address, divided by 64, of word `i` of a row. -/
def State.rowLine (s : State) (j : SpareJob) (i : Nat) : Nat :=
  s.addressOf { j.loc with seg := i / 4, col := i % 4 } / 64

/-- Move one word of a row into a spare row, through the decoder and the encoder (R298, R302). -/
def State.spareWord (j : SpareJob) (a spare : Nat) (errs : List (Nat × List (Nat × Nat))) (s : State) (i : Nat) : State :=
  let l : Loc := { j.loc with seg := i / 4, col := i % 4 }
  let line := s.rowLine j i
  let e := ((errs.find? (fun x => x.1 = i)).map (·.2)).getD []
  let (s, w) := s.readWord a (s.arrayLine a l) e
  let (s, v, _) := s.decode a l line 4 w
  let (s, x) := s.encode j.pc line (slice v 0 64) (wordTag v) (wordPoison v) (s.wordLost j.pc v)
  s.setWord a (lineNo (8192 + spare) l.seg l.bank l.bg l.col) x

/-- A row spare cannot be made any more: what asked for it is answered ABORTED, or the index is evacuated (Table 10.3). -/
def State.spareFails (s : State) (j : SpareJob) : State :=
  match j.op with
  | some id => s.finishOp id St.aborted 0
  | none => s.wantEvac j.pc

/-- Put a row spare back with a change, or take it out. -/
def State.putSpare (s : State) (j : SpareJob) (r : Option SpareJob) : State :=
  { s with ecc := { s.ecc with spares := s.ecc.spares.flatMap (fun x => if x = j then r.toList else [x]) } }

/-- The engine locks the bank of a row for its spare, where the bank still has a spare row and the remap table an entry, and
closes the segment that is open there (R317). -/
def State.lockSpare (s : State) (j : SpareJob) (errs : List (Nat × List (Nat × Nat))) : State :=
  let b := j.bg * 16 + j.bank
  match s.spareRoom j.loc, s.freeSpares (s.arrayOf j.pc) b with
  | true, spare :: _ => (s.closeBank (s.engineOf j.pc) b).putSpare j (some { j with sent := some 0, spare := spare, errs := errs })
  | true, [] | false, _ => (s.putSpare j none).spareFails j

/-- Command `n` of the 96 of a row spare: in each of the 8 segments of the row ACT, 4 RD and PRE, then in each of the spare
row ACT, 4 WR and PRE. -/
def SpareJob.cmd (n : Nat) : Cmd := if n % 6 = 0 then .act else if n % 6 = 5 then .pre else .col

/-- What that command works on, as an entry of no queue. -/
def SpareJob.ent (j : SpareJob) (n : Nat) : QEnt :=
  { kind := if n < 48 then .probe .patrol else .write, lines := [], bank := j.bg * 16 + j.bank,
    row := if n < 48 then j.row else 8192 + j.spare, seg := n % 48 / 6, cls := 65, age := 0 }

/-- What command `n` of a row spare does to its engine's timing (R214, R215). -/
def State.lockTimed (s : State) (m t : Nat) (e : QEnt) (n : Nat) : State :=
  match SpareJob.cmd n with
  | .act => s.sendAct m t e
  | .col => s.colTimed m t e
  | .pre => s.preTimed m t e.bank

/-- The engine sends command `n` of a row spare (R214, R317). -/
def State.lockSend (s : State) (m t : Nat) (j : SpareJob) (n : Nat) : State :=
  let s := s.lockTimed m t (j.ent n) n
  (s.setEng m ((s.eng m).sentAt t)).putSpare j (some { j with sent := some (n + 1) })

/-- The spare takes the row: the 32 words that were read are decoded and stand in the spare row, the remap is entered, the
bank is unlocked, ROW_SPARED is raised and the row's tracker entry clears, with what firmware still asked for it; an
automatic spare is hardened (R317 to R319). -/
def State.rowSpare (s : State) (j : SpareJob) : State :=
  let m := s.engineOf j.pc
  let a := s.arrayOf j.pc
  let b := j.bg * 16 + j.bank
  let s := s.putSpare j none
  let s := (List.range 32).foldl (State.spareWord j a j.spare j.errs) s
  let used := setBit (SMap.get 0 s.ecc.spareUsed (a * 64 + b)) j.spare true
  let row := (a * 64 + b) * 8192 + j.row
  let s := { s with remap := SMap.insert s.remap row (8192 + j.spare),
                    ecc := { s.ecc with spareUsed := SMap.set 0 s.ecc.spareUsed (a * 64 + b) used,
                                        soft := s.ecc.soft.filter (· ≠ row) ++ [row] } }
  let s := s.clearTracker (fun i => s.fget (ECC.ROW_TRK_PC i) = j.pc ∧ s.fget (ECC.ROW_TRK_BG i) = j.bg ∧
    s.fget (ECC.ROW_TRK_BANK i) = j.bank ∧ s.fget (ECC.ROW_TRK_ROW i) = j.row)
  let s := { s with ecc := { s.ecc with spares := s.ecc.spares.filter (fun x => x.op.isSome || decide (x.loc ≠ j.loc)) } }
  let s := (s.int I.ecc 4).event 0x0035 0 ([j.pc, b] ++ beBytes 2 j.row ++ [j.spare])
  match j.op with
  | some id => s.finishOp id St.ok ((s.freeSpares a b).length * 256 + j.spare)
  | none => s.hardenRow m j.bg j.bank j.row

/-- A row spare that holds its bank goes on: its next command goes out as soon as the limits allow; after the last one the
spare takes the row. -/
def State.spareStep (s : State) (j : SpareJob) : State :=
  let m := s.engineOf j.pc
  let t := 8 * s.now
  match j.sent with
  | none => s
  | some n =>
    if 96 ≤ n then s.rowSpare j
    else if s.engRuns m ∧ ¬ s.engPd m ∧ s.limitsMet m t (SpareJob.cmd n) (j.ent n) then s.lockSend m t j n
    else s

/-- The row spares that hold their banks go on by themselves. -/
def State.spareTick (s : State) : State := (s.ecc.spares.filter (fun j => j.sent.isSome)).foldl State.spareStep s

/-- A REF of the half of a row has begun since its spare was asked for. -/
def State.refSince (s : State) (j : SpareJob) : Bool :=
  let g := s.eng (s.engineOf j.pc)
  match (if bankHalf (j.bg * 16 + j.bank) = 0 then g.began0 else g.began1) with
  | some t => decide (j.since ≤ t)
  | none => false

/-- The first row spare whose REF has come: its half does not refresh now, and no REF of it falls due in the 1.2 µs that the
lock may last; its engine is not fenced, sends commands, walks no other row and closes for no full slot, and no copy of its
index runs (R317, R318). -/
def State.nextSpare (s : State) : Option SpareJob :=
  s.ecc.spares.find? (fun j =>
    let m := s.engineOf j.pc
    let h := bankHalf (j.bg * 16 + j.bank)
    j.sent.isNone && !s.fenced j.pc && s.dieRuns j.pc && !s.evacRuns j.pc && s.refSince j && s.engRuns m && !s.engPd m &&
      decide ((s.eng m).silent ≤ 8 * s.now) && !(s.eng m).halfBusy h (8 * s.now) && s.noRefUpTo m h (s.now + 1200) &&
      !s.engLocked m && !s.slotWanted m)

/-- At the REF that it waited for, a row spare locks its bank (R317); `errs` are the errors that strike the words of the row,
by their place in it. -/
def execSoftRowSpare (errs : List (Nat × List (Nat × Nat))) (s : State) : Host.Outcome State Fault Refusal :=
  done (match s.nextSpare with
  | some j => if s.live then s.lockSpare j errs else s
  | none => s)

/-! ### Evacuation (R320 to R324) -/

/-- The mast of an index is lost. -/
def State.mastGone (s : State) (k : Nat) : Bool := decide (s.fget (STK.MAST_STAT_STATE (17 * (k / 16) + k % 16)) = 3)

/-- The evacuation of an index begins with the test of its die's spare. -/
def State.beginEvac (s : State) (k : Nat) (op : Option Nat) : State :=
  let d := pcDie k
  let s := (s.fset (ECC.SPARE_STAT_STATE d) 1).fset (ECC.SPARE_STAT_INDEX d) k
  let s := (s.fset (ECC.EVAC_PROG_LINES d) 0).fset (ECC.EVAC_STAT_POISONED d) 0
  { s with ecc := { s.ecc with evac := some { pc := k, op := op, copying := false, next := 0, lost := s.mastGone k } } }

/-- Firmware starts the next queued evacuation once none runs; where the die's spare is gone meanwhile, the index
stays at risk, or has failed with its mast (R325). -/
def State.nextEvac (s : State) : State :=
  match s.ecc.evac, s.ecc.evacQ with
  | none, k :: rest =>
    let s := { s with ecc := { s.ecc with evacQ := rest } }
    if s.fenced k then s
    else if s.fget (ECC.SPARE_STAT_STATE (pcDie k)) ≠ 0 then
      if s.mastGone k then s.pcFailed k 1 else s.setFlag (ECC.PC_HEAL_AT_RISK k) true
    else s.beginEvac k none
  | none, [] | some _, _ => s

def execEvacuate (h : Halyard) (s : State) : Host.Outcome State Fault Refusal :=
  done (s.packet 0x44 h (fixedLen 1) (fun s _ =>
    let k := bits (arg h 0) 0 7
    let st := s.fget (ECC.SPARE_STAT_STATE (pcDie k))
    let other := s.fget (ECC.SPARE_STAT_INDEX (pcDie k)) ≠ k
    if s.pcs ≤ k then s.replyBad 0x44 h 0
    else if ¬ s.inSail ∨ s.fenced k ∨ s.onSpare k ∨ st = 4 ∨ (st = 3 ∧ other) ∨
        s.ecc.evacQ.any (fun j => pcDie j = pcDie k ∧ j ≠ k) then s.replySt 0x44 h St.notInState
    else if s.ecc.evac.isSome then s.replySt 0x44 h St.busy
    else s.accept 0x44 h 1 k (fun s id =>
      State.beginEvac { s with ecc := { s.ecc with evacQ := s.ecc.evacQ.filter (· ≠ k) } } k (some id))))

/-- The bytes of EVAC_START and EVAC_DONE (Table 10.7). -/
def State.evacDetail (s : State) (k result : Nat) : List Nat :=
  [k, pcDie k, result] ++ beBytes 3 (s.fget (ECC.EVAC_STAT_POISONED (pcDie k)))

/-- An evacuation ended with a result: the event, the flag and the operation's answer (R320, Table 10.6). -/
def State.reportEvac (s : State) (e : Evac) (result : Nat) : State :=
  let d := pcDie e.pc
  let s := { s with ecc := { s.ecc with evac := none } }.fset (ECC.EVAC_STAT_RESULT d) result
  let s := (s.int I.ecc 6).event 0x0033 0 (s.evacDetail e.pc result)
  let s := match e.op with
    | some id => s.finishOp id (if result = 0 ∨ result = 3 then St.ok else St.aborted)
        (result * 2 ^ 20 + s.fget (ECC.EVAC_STAT_POISONED d))
    | none => s
  s.nextEvac

/-- An evacuation is abandoned before its switch: 1 the spare failed its test, 2 it failed in the copy, 4 a
power-state entry. Mirroring stops, no slot for the switch is wanted any more, and the source stays in service; with its
mast lost and no spare left it has failed (R325). -/
def State.abandonEvac (s : State) (result : Nat) : State :=
  match s.ecc.evac with
  | none => s
  | some e =>
    let d := pcDie e.pc
    let m := 17 * (e.pc / 16) + 16
    let s := if e.copying then (((s.setFlag (pcStateFld e.pc 5) false).setC61 false e.pc).setEng m { s.eng m with wrq := [] }) else s
    let s := (s.fset (ECC.SPARE_STAT_STATE d) (if result = 4 then 0 else 4)).fset (ECC.SPARE_STAT_INDEX d) 0x7F
    let s := if result = 2 ∨ (result = 1 ∧ e.op.isNone) then s.setFlag (ECC.PC_HEAL_AT_RISK e.pc) true else s
    let s := (s.reportEvac e result).endFull (s.engineOf e.pc)
    if result ≠ 4 ∧ e.lost then s.pcFailed e.pc 1 else s

/-- The spare's test ended: any failing word fails it; else C61 joins the model, mirroring begins and EVAC_START is
raised, at one instant (R321). -/
def State.evacTested (s : State) (e : Evac) (fails : List (Nat × Nat)) : State :=
  let m := 17 * (e.pc / 16) + 16
  let s := s.noteTest m 0 0 fails
  if fails ≠ [] then s.abandonEvac 1
  else
    let s := { s with ecc := { s.ecc with evac := some { e with copying := true } } }
    let s := ((s.fset (ECC.SPARE_STAT_STATE (pcDie e.pc)) 2).setFlag (pcStateFld e.pc 5) true).setC61 true e.pc
    (s.int I.ecc 5).event 0x0032 0 (s.evacDetail e.pc 0)

def execEvacStart (fails : List (Nat × Nat)) (s : State) : Host.Outcome State Fault Refusal :=
  done (if ¬ s.live ∨ ¬ s.inSail then s
    else
      match s.ecc.evac with
      | some e => if e.copying then s else s.evacTested e (quickFails fails)
      | none => s.nextEvac)

/-- A line of the copy enters engine 16's write queue (R243, R322). -/
def State.copyPut (s : State) (e : Evac) (line : Nat) (w : List Nat) : State :=
  let d := pcDie e.pc
  let s := s.wrqPut (17 * (e.pc / 16) + 16) (s.entry .write line none w 61 s.now) line
  let s := if wordPoison w then s.bumpSat (ECC.EVAC_STAT_POISONED d) 1 else s
  s.bumpSat (ECC.EVAC_PROG_LINES d) 1

/-- A line of the source that came back: the slice's or the write queue's copy, or the corrected word of the array, poisoned
where it is uncorrectable; it waits for room in engine 16's write queue (R322). -/
def State.copied (s : State) (e : Evac) (m : Nat) (r : Ret) (errs : List (Nat × Nat)) : State :=
  let k := e.pc
  if r.fenced then
    let s := s.dropRet m r
    { s with ecc := { s.ecc with evac := some { e with again := e.again ++ [r.line] } } }
  else if ¬ s.wrqRoom (17 * (k / 16) + 16) r.line then s
  else
    let (s, v, _, _) := (s.dropRet m r).retWord m r 4 errs
    let (s, x) := s.encode k r.line (slice v 0 64) (wordTag v) (wordPoison v) (s.wordLost k v)
    s.copyPut e r.line x

/-- The copy goes on to its next line, charged 2 lines of C61: a line whose read a fence answered, or the next offset. Where
the source mast is lost, every line is written poisoned (R322, R324). It pauses while the source is fenced. -/
def State.copyIssue (s : State) (e : Evac) : State :=
  let k := e.pc
  let line := e.again.headD (s.lineAt k e.next)
  let e' := if e.again = [] then { e with next := e.next + 1 } else { e with again := e.again.tail }
  if ¬ e.copying ∨ (pcLines ≤ e.next ∧ e.again = []) ∨ ¬ s.lineFree k ∨ ¬ s.wrqRoom (17 * (k / 16) + 16) line then s
  else
    match s.spend 61 2 with
    | none => s
    | some t =>
      let t : State := { t with ecc := { t.ecc with evac := some e' } }
      if e.lost then
        let (t, w) := t.encode k line (List.replicate 64 0) 0 true false
        (t.poisonCreated k line 4).copyPut e' line w
      else t.readLine .copy line 61

/-- A read of the copy that came back is taken. -/
def State.copyTake (s : State) (errs : List (Nat × Nat)) : Option State :=
  match s.readBack .copy with
  | none => none
  | some (m, r) =>
    some (match s.ecc.evac with
      | some e => if e.copying then s.copied e m r errs else s.dropRet m r
      | none => s.dropRet m r)

/-- One command of the copy: a line that came back is written to the spare; else the next read is sent. -/
def State.copyStep (s : State) (errs : List (Nat × Nat)) : State :=
  match s.copyTake errs with
  | some s => s
  | none =>
    match s.ecc.evac with
    | none => s
    | some e =>
      let s := s.copyIssue e
      (s.copyTake errs).getD s

def execEvacCopyLine (errs : List (Nat × Nat)) (s : State) : Host.Outcome State Fault Refusal :=
  done (if s.live ∧ s.pwr ≤ 1 then s.copyStep errs else s)

/-- Queued entries of the source move to engine 16 with their ages, urgencies and promotion; a line that engine 16
holds already as a mirror stays as it is (R243, Table 10.5). -/
def State.moveEntries (s : State) (m m16 : Nat) : State :=
  let g := s.eng m
  let h := s.eng m16
  let s := s.setEng m { g with rdq := [], wrq := [] }
  s.setEng m16 { h with rdq := h.rdq ++ g.rdq.map (fun x => { x with started := false }), wrq := h.wrq ++ g.unmirrored h }

/-- The healing state of the retired array is cleared for the index (R323). -/
def State.clearHealing (s : State) (k : Nat) : State :=
  let s := s.setReg (ECC.PC_MAT k) 0
  let s := ((s.fset (ECC.PC_BUCKET_LEVEL k) 0).fset (ECC.PC_BUCKET_OVF_24H k) 0).setFlag (ECC.PC_HEAL_AT_RISK k) false
  let s := { s with ecc := { s.ecc with matCnt := s.ecc.matCnt.filter (fun e => e.1 / 32 ≠ k), ovf := SMap.set [] s.ecc.ovf k [] } }
  s.clearTracker (fun i => s.fget (ECC.ROW_TRK_PC i) = k)

/-- The switch, once the full slot of the source engine has closed it and refreshed both its halves (R323). The slot
counts as a boundary granted (R233); LAST_USER has no value for its user, so that is a free value, and it asks for no
silence (DEDUCED, assumption 29). -/
def State.evacSwitch (s : State) (e : Evac) : State :=
  let k := e.pc
  let m := s.engineOf k
  let m16 := 17 * (k / 16) + 16
  let r := s.fresh
  let s := (r.2.noteBoundary m 1 (r.1 % 2) 0).moveEntries m m16
  let s := ((s.setFlag (pcStateFld k 6) true).setFlag (pcStateFld k 5) false).setC61 false k
  let s := ((s.fset (ECC.SPARE_STAT_STATE (pcDie k)) 3).clearHealing k).hardenIndex k false
  s.reportEvac e (if e.lost then 3 else 0)

/-- The copy has ended: the source engine's next full slot is the switch (R233, R323). -/
def State.evacEnd (s : State) (e : Evac) : State :=
  let m := s.engineOf e.pc
  if ¬ s.evacReady m then s
  else
    match s.slotStep m with
    | (s, false) => s
    | (s, true) => s.evacSwitch e

def execEvacDone (s : State) : Host.Outcome State Fault Refusal :=
  done (match s.ecc.evac with
  | some e => if s.live ∧ s.lineFree e.pc ∧ s.refreshed (s.engineOf e.pc) then s.evacEnd e else s
  | none => s)

/-! ### Loss of an index (R325, R326) -/

/-- The row spares of an index end with it: those that were asked for are answered ABORTED. -/
def State.dropSpares (s : State) (k : Nat) : State :=
  let gone := s.ecc.spares.filter (fun j => j.pc = k)
  let s : State := { s with ecc := { s.ecc with spares := s.ecc.spares.filter (fun j => j.pc ≠ k) } }
  gone.foldl (fun (s : State) j => match j.op with
    | some id => s.finishOp id St.aborted 0
    | none => s) s

/-- An index is fenced permanently: a capacity loss. -/
def State.permFence (s : State) (k cause : Nat) : State :=
  let m := s.engineOf k
  if s.engPerm m then s
  else
    let d := pcDie k
    let s := s.dropSpares k
    let s := s.fenceEngine m true
    let s := s.fset (ECC.CAP_LOSS_LOST d) (setBit (s.fget (ECC.CAP_LOSS_LOST d)) (k % 16) true)
    let s := { s with ecc := { s.ecc with sweepQ := s.ecc.sweepQ.filter (· ≠ k), evacQ := s.ecc.evacQ.filter (· ≠ k) } }
    ((s.int I.ecc 7).event 0x0034 2 [k, cause]).hardenIndex k true

end Sys2Proof.Machine
end

