-- ==== Sys2Proof/Machine/ScanCmds.lean ====
section
/-! DEFINITION. The scan engines' halyard packets (Table 9.9), and the flush that firmware starts and that ends
(R272). -/

namespace Sys2Proof.Machine

open Sys2Proof.Reg

/-- The word of SCN_RESERVE at fault. -/
def resBad (w0 w1 : Nat) : Option Nat :=
  if bits w0 22 10 ≠ 0 ∨ 60 ≤ bits w0 16 6 ∨ bits w0 0 16 = 0 then some 0
  else if 20313 < w1 then some 1
  else none

/-- The classes with one more reservation in C62 (R199). -/
def State.resView (s : State) (rate n : Nat) : ClsView :=
  let total := s.scnReserved + rate
  if n = 62 ∧ total ≠ 0 then { s.clsNext 62 with rsv := true, budget := total } else s.clsNext n

/-- The lowest reservation not held. -/
def State.freeRes (s : State) : Option Nat := (List.range 4).find? (fun i => !s.flag (SCN.RES_ENG_VALID i))

/-- Some engine of a set is reserved already. -/
def State.resTaken (s : State) (engs : Nat) : Bool :=
  (List.range 16).any (fun e => bitAt engs e && (s.resEng e).isSome)

/-- A reservation is made. -/
def State.reserve (s : State) (i cls engs rate : Nat) : State :=
  let s := ((s.fset (SCN.RES_ENG_CLASS i) cls).fset (SCN.RES_ENG_ENG i) engs).setFlag (SCN.RES_ENG_VALID i) true
  (s.fset (SCN.RES_RATE_RATE i) rate).setC62.scnRegs

def execScnReserve (h : Halyard) (s : State) : Host.Outcome State Fault Refusal :=
  done (s.packet 0x70 h (fixedLen 2) (fun s _ =>
    let w := arg h 0
    let rate := arg h 1
    let cls := bits w 16 6
    match resBad w rate with
    | some i => s.replyBad 0x70 h i
    | none =>
      match s.freeRes with
      | none => s.replySt 0x70 h St.busy
      | some i =>
        if s.resTaken (bits w 0 16) ∨ (s.resOf cls).isSome then s.replySt 0x70 h St.busy
        else if ¬ s.admits (s.resView rate) then s.replySt 0x70 h St.overcommit
        else (s.reserve i cls (bits w 0 16) rate).replyOk 0x70 h [i]))

/-- A reservation ends; a scan that runs in its pool completes there, on tokens of the unreserved pool (R294). -/
def State.releaseRes (s : State) (i : Nat) : State :=
  let scn : ScnSt := { s.scn with runs := s.scn.runs.map (fun r => if r.res = some i then { r with res := none } else r),
                                  dealt := SMap.set 0 s.scn.dealt i 0 }
  let s : State := { s with scn := scn }
  ((s.setReg (SCN.RES_ENG i) 0).setReg (SCN.RES_RATE i) 0).setC62.scnRegs

def execScnRelease (h : Halyard) (s : State) : Host.Outcome State Fault Refusal :=
  done (s.packet 0x71 h (fixedLen 1) (fun s _ =>
    match (List.range 4).find? (fun i => s.flag (SCN.RES_ENG_VALID i) && decide (s.fget (SCN.RES_ENG_ENG i) = arg h 0)) with
    | none => s.replyBad 0x71 h 0
    | some i => (s.releaseRes i).replyOk 0x71 h []))

def execScnLimits (h : Halyard) (s : State) : Host.Outcome State Fault Refusal :=
  done (s.packet 0x72 h (fixedLen 2) (fun s _ =>
    if arg h 0 = 0 ∨ 20313 < arg h 0 then s.replyBad 0x72 h 0
    else if arg h 1 = 0 ∨ 16 < arg h 1 then s.replyBad 0x72 h 1
    else ((s.fset SCN.LIMITS_CAP (arg h 0)).fset SCN.LIMITS_MAX_ENG (arg h 1)).setC62.replyOk 0x72 h []))

def execScnCancel (h : Halyard) (s : State) : Host.Outcome State Fault Refusal :=
  done (s.packet 0x73 h (fixedLen 1) (fun s _ =>
    match s.scanOf (bits (arg h 0) 16 12) (bits (arg h 0) 0 12) with
    | none => s.replyBad 0x73 h 0
    | some t => (s.abortScan t 1).replyOk 0x73 h []))

/-! ### Flush -/

/-- Firmware writes FLUSH_CTRL.START, with INV or without. -/
def execFlushCtrlStart (inv : Bool) (s : State) : Host.Outcome State Fault Refusal :=
  done (if s.live ∧ s.fwRuns ∧ s.flush.isNone then s.startFlush inv 0 else s)

def execFlushDone (s : State) : Host.Outcome State Fault Refusal :=
  done (match s.flush with
  | some f => if s.live then s.flushEnd f else s
  | none => s)

end Sys2Proof.Machine
end

