-- ==== Sys2Proof/Machine/Stk.lean ====
section
/-! DEFINITION. Tests on demand, the field test of the masts, and what follows a degraded or lost mast
(spec/11_stack_test_and_repair.md). -/

namespace Sys2Proof.Machine

open Sys2Proof.Reg

/-! ### Vias (R329) -/

/-- The via group of a via. -/
def viaGroup (v : Nat) : Nat := if v < 40 then v / 10 else if v < 56 then (v - 40) / 4 else if v < 60 then v - 56 else v - 60

/-- The position of a signal via in its group. -/
def viaPos (v : Nat) : Nat := if v < 40 then v % 10 else if v < 56 then 10 + (v - 40) % 4 else 14

/-- The signal via at a position of a group. -/
def viaAt (g pos : Nat) : Nat := if pos < 10 then 10 * g + pos else if pos < 14 then 40 + 4 * g + (pos - 10) else 56 + g

/-- The field of MAST_REMAP for a group. -/
def remapFld (m g : Nat) : Fld := ⟨STK.MAST_REMAP m, 5 * g, 5⟩

/-- A via is marked failed. -/
def State.viaBad (s : State) (m v : Nat) : Bool :=
  if v < 32 then bitAt (s.fget (STK.VIA_BAD_LO_VIAS m)) v else bitAt (s.fget (STK.VIA_BAD_HI_VIAS m)) (v - 32)

/-- Mark a via failed. -/
def State.markVia (s : State) (m v : Nat) : State :=
  if v < 32 then s.fset (STK.VIA_BAD_LO_VIAS m) (setBit (s.fget (STK.VIA_BAD_LO_VIAS m)) v true)
  else s.fset (STK.VIA_BAD_HI_VIAS m) (setBit (s.fget (STK.VIA_BAD_HI_VIAS m)) (v - 32) true)

/-! ### Degraded and lost masts (R340, R346) -/

/-- STK asks ECC to erase a mat of an index (R312, R340). -/
def State.eraseMat (s : State) (k mat : Nat) : State :=
  if s.flag (ECC.PC_MAT_ERASED k) ∨ ¬ s.flag ECC.CTRL_ERASE_EN then s
  else ((((s.fset (ECC.PC_MAT_MAT k) mat).setFlag (ECC.PC_MAT_ERASED k) true).int I.ecc 3).wantEvac k)

/-- The index of a lost mast moves to a free spare, or fails (R324, R325). -/
def State.lostIndex (s : State) (k : Nat) : State :=
  if s.onSpare k ∨ s.evacSource k then s
  else if s.flag ECC.CTRL_AUTO_EVAC ∧ s.spareFree k then (s.wantEvac k).nextEvac
  else s.pcFailed k 1

/-- What ECC does about a lost mast (R324, R325): a free spare becomes failed, a spare under test or in a copy ends
its evacuation, a serving spare fails its index; the source of an evacuation goes on as lost; another index moves to
a free spare or fails. -/
def State.mastLost (s : State) (m : Nat) : State :=
  let d := engDie m
  if engNo m = 16 then
    let st := s.fget (ECC.SPARE_STAT_STATE d)
    if st = 0 then (s.fset (ECC.SPARE_STAT_STATE d) 4).fset (ECC.SPARE_STAT_INDEX d) 0x7F
    else if st = 1 ∨ st = 2 then s.abandonEvac 2
    else if st = 3 then s.pcFailed (s.fget (ECC.SPARE_STAT_INDEX d)) 2
    else s
  else
    let k := 16 * (m / 17) + engNo m
    match s.ecc.evac with
    | some e => if e.pc = k then { s with ecc := { s.ecc with evac := some { e with lost := true } } } else s.lostIndex k
    | none => s.lostIndex k

/-- The mast becomes lost. -/
def State.loseMast (s : State) (m : Nat) : State :=
  if s.fget (STK.MAST_STAT_STATE m) = 3 then s
  else
    let d := engDie m
    let s := (s.fset (STK.MAST_STAT_STATE m) 3).bumpSat STK.VIA_STAT_LOST 1
    let s := s.fset (STK.DIE_LOST_MASTS d) (setBit (s.fget (STK.DIE_LOST_MASTS d)) (engNo m) true)
    ((s.int I.stk 5).fault (0x200 + m) 0x2B 2 1).mastLost m

/-- The mast becomes degraded in a mat. -/
def State.degradeMast (s : State) (m mat : Nat) : State :=
  let s := ((s.fset (STK.MAST_STAT_STATE m) 2).fset (STK.MAST_STAT_MAT m) mat).bumpSat STK.VIA_STAT_DEGRADED 1
  let s := (s.int I.stk 4).fault (0x200 + m) 0x2B 2 0
  match s.servedBy m with
  | some k => s.eraseMat k mat
  | none => s

/-- What a signal via that cannot be remapped makes of its mast (R340): 0 no more than it is, 1 degraded, 2 lost. -/
def State.mastFate (s : State) (m v : Nat) : Nat :=
  let st := s.fget (STK.MAST_STAT_STATE m)
  let mat := v / 2
  let otherErased : Bool := match s.servedBy m with
    | some k => s.flag (ECC.PC_MAT_ERASED k) && decide (s.fget (ECC.PC_MAT_MAT k) ≠ mat)
    | none => false
  if st = 3 then 0
  else if 40 ≤ v ∨ otherErased ∨ (st = 2 ∧ s.fget (STK.MAST_STAT_MAT m) ≠ mat) then 2
  else if st = 2 then 0
  else 1

/-- A signal via that cannot be remapped (R340). -/
def State.viaLost (s : State) (m v : Nat) : State :=
  match s.mastFate m v with
  | 0 => s
  | 1 => s.degradeMast m (v / 2)
  | _ => s.loseMast m

/-- A remapped mast is queued for its mast phase, ahead of every other target but another remapped mast; one that
already waits merges (R362, R365). -/
def State.calMast (s : State) (m : Nat) : State :=
  let q := s.cal.queue
  if q.any (fun j => j.kind = 3 ∧ j.idx = m) then s
  else { s with cal := { s.cal with queue := q.filter (·.kind = 3) ++ [⟨3, m, 3, none⟩] ++ q.filter (·.kind ≠ 3) } }

/-! ### The field test (R344 to R348) -/

/-- The errors of a slot that count: on vias that exist and are not already out of use. -/
def State.liveErrs (s : State) (m : Nat) (errs : List (Nat × Nat)) : List (Nat × Nat) :=
  errs.filter (fun e => e.1 < 64 ∧ e.2 ≠ 0 ∧ ¬ s.viaBad m e.1)

/-- A mast that R347 skips. -/
def State.ftSkips (s : State) (m : Nat) : Bool :=
  !s.engExists m || s.engFenced m || (decide (engNo m ≠ 16) && (s.servedBy m).isNone)

/-- The slot length of the field test, clamped where it is used (DESIGN CHOICE, assumption 81). -/
def State.ftSlot (s : State) : Nat := max 120 (min 2000 (s.fget STK.FT_CFG_SLOT_NS))

/-- What the errors of a test's first slot, or of a later one, leave in the registers: the test counts once (R345, R346). -/
def State.noteErrs (s : State) (m : Nat) (first : Bool) (errs : List (Nat × Nat)) : State :=
  let old := if first then 0 else s.fget (STK.MAST_ERR_LAST_BITS m)
  let s := s.fset (STK.MAST_ERR_LAST_BITS m) (min 0xFFFF (old + (errs.map (·.2)).sum))
  if errs = [] ∨ ¬ first then s
  else ((s.bumpSat (STK.MAST_ERR_FAILS m) 1).bumpSat STK.FT_STAT_FAILS 1).int I.stk 2

/-- The bit errors of each via over the slots of a test. -/
def addErrs (found : SMap Nat) (errs : List (Nat × Nat)) : SMap Nat :=
  errs.foldl (fun (f : SMap Nat) e => SMap.set 0 f e.1 (SMap.get 0 f e.1 + e.2)) found

/-- Take a test out of the list. -/
def State.dropTest (s : State) (m : Nat) : State :=
  { s with stk := { s.stk with tests := s.stk.tests.filter (fun t => t.mast ≠ m) } }

/-- Put a test back. -/
def State.putTest (s : State) (t : FieldTest) : State :=
  let s := s.dropTest t.mast
  { s with stk := { s.stk with tests := s.stk.tests ++ [t] } }

/-- A test ends: the pending FIELD_TEST answers (R348). -/
def State.endTest (s : State) (t : FieldTest) (remaps outcome : Nat) : State :=
  let s := s.dropTest t.mast
  match t.op with
  | some id => s.finishOp id St.ok (min 255 t.erred.length * 65536 + min 255 remaps * 256 + outcome)
  | none => s

/-- The spare of a via's group can replace it: it replaces nothing yet and has tested good. -/
def State.spareGood (s : State) (m v : Nat) (erred : List Nat) : Bool :=
  let g := viaGroup v
  s.flag STK.CTRL_FT_REMAP && decide (v < 60) && decide (s.fget (remapFld m g) < 16) && !s.viaBad m (60 + g) &&
    !erred.contains (60 + g)

/-- The live setting of a mast; the middle of its range where training found every delay passing. -/
def State.delay (s : State) (m setting : Nat) : Nat := SMap.get 64 s.cal.dly (256 * m + setting)

/-- Write a setting of a mast. -/
def State.setDelay (s : State) (m setting v : Nat) : State :=
  { s with cal := { s.cal with dly := SMap.set 64 s.cal.dly (256 * m + setting) v } }

/-- A via is remapped to the spare of its group, which is loaded with the strobe delay of the group (R346): that of the via
that it replaces, at both ends (DEDUCED, assumption 88). -/
def State.remapVia (s : State) (m v : Nat) : State :=
  let g := viaGroup v
  let s := (s.setDelay m (60 + g) (s.delay m v)).setDelay m (124 + g) (s.delay m (64 + v))
  let d := engDie m
  let s := (s.fset (remapFld m g) (16 + viaPos v)).markVia m v
  let s := if s.fget (STK.MAST_STAT_STATE m) = 0 then s.fset (STK.MAST_STAT_STATE m) 1 else s
  let s := s.fset (STK.DIE_REMAP_MASTS d) (setBit (s.fget (STK.DIE_REMAP_MASTS d)) (engNo m) true)
  (((s.bumpSat STK.VIA_STAT_REMAPS 1).int I.stk 3).hardenVia m g (viaPos v)).calMast m

/-- A failed spare via is marked unusable; a via it had replaced is then without a spare. -/
def State.spareBad (s : State) (m v : Nat) : State :=
  let g := viaGroup v
  let old := s.fget (remapFld m g)
  let s := (s.fset (remapFld m g) 31).markVia m v
  if 16 ≤ old ∧ old < 31 then s.viaLost m (viaAt g (old - 16)) else s

/-- The outcome that a later one replaces only if it is worse: 0 pass, 4 spare unusable, 1 remapped, 2 degraded, 3
lost. -/
def worse (a b : Nat) : Nat :=
  let r (x : Nat) : Nat := if x = 0 then 0 else if x = 4 then 1 else x + 1
  if r a < r b then b else a

/-- What becomes of one failed via: the outcome is 1 remapped, 2 degraded, 3 lost, 4 spare via unusable. -/
def State.judgeVia (s : State) (m : Nat) (erred : List Nat) (v : Nat) : State × Nat :=
  if 60 ≤ v then
    let t := s.spareBad m v
    let st := t.fget (STK.MAST_STAT_STATE m)
    (t, if st = 3 then 3 else if st = 2 ∧ s.fget (STK.MAST_STAT_STATE m) ≠ 2 then 2 else 4)
  else if s.spareGood m v erred then (s.remapVia m v, 1)
  else
    let t := (s.markVia m v).viaLost m v
    (t, if t.fget (STK.MAST_STAT_STATE m) = 3 then 3 else 2)

/-- The ACTION of a failed via's record (Table 11.2), from its outcome. -/
def viaAction (out : Nat) : Nat := if out = 1 then 2 else if out = 2 then 6 else if out = 3 then 7 else 0

/-- Field-test failures at one via position on 3 or more masts of D5 to D8 within one period are a fault of the D4
mast domain (R350). -/
def State.noteVias (s : State) (m : Nat) (failed : List Nat) : State :=
  if m < 68 then s
  else
    let period := max 1 (s.fget STK.FT_CFG_PERIOD_MIN) * 60000000000
    let old := s.stk.vias.filter (fun e => s.now < e.2.2 + period ∧ ¬ (e.2.1 = m ∧ failed.contains e.1))
    let all := old ++ failed.map (fun v => (v, m, s.now))
    let s := { s with stk := { s.stk with vias := all } }
    if failed.any (fun v => decide (3 ≤ (all.filter (fun e => e.1 = v)).length)) then
      let s : State := { s with stk := { s.stk with vias := [] } }
      s.fault 0x288 0x2C 2 3
    else s

/-- Judge every failed via and end the test; each leaves one failure record with its bit errors in the test (R337). -/
def State.judgeTest (s : State) (t : FieldTest) : State :=
  let m := t.mast
  let (s, outs) := t.failed.foldl (fun (a : State × List (Nat × Nat)) v =>
    let r := a.1.judgeVia m t.erred v
    (r.1, a.2 ++ [(v, r.2)])) (s.noteVias m t.failed, [])
  let recs := outs.map (fun e => failRecord m 3 (viaAction e.2) (0, e.1 * 2 ^ 17 + min 1023 (SMap.get 0 t.found e.1)))
  (s.noteFails m recs).endTest t (outs.filter (fun e => e.2 = 1)).length (outs.foldl (fun (o : Nat) e => worse o e.2) 0)

/-- The slot of a field test asks for its boundary (R345, R346). -/
def State.askTest (s : State) (t : FieldTest) : State :=
  (s.askSlot t.mast 1 (if t.slot = 2 then 500 else s.ftSlot)).putTest { t with asked := true }

/-- The slot of a field test has been granted, and shows its bit errors per via. -/
def State.testSlot (s : State) (t : FieldTest) : State :=
  let m := t.mast
  let errs := s.liveErrs m t.errs
  let vias := errs.map (·.1)
  let t := { t with asked := false, errs := [], at_ := s.now, found := addErrs t.found errs }
  if t.slot = 0 then
    let s := ((s.bumpSat STK.FT_STAT_TESTS 1).bumpSat (STK.MAST_STAT_FT_RUNS m) 1).fset (STK.MAST_FT_TIME_SEC m) (s.now / 1000000000)
    let s := s.noteErrs m true errs
    if errs = [] then s.endTest t 0 0 else s.putTest { t with slot := 1, erred := vias }
  else if t.slot = 1 then
    let s := s.noteErrs m false errs
    let failed := t.erred.filter vias.contains
    let t := { t with slot := 2, failed := failed, erred := t.erred ++ vias.filter (fun v => !t.erred.contains v) }
    if failed = [] then s.endTest t 0 0
    else if failed.any (fun v => s.spareGood m v t.erred) then s.putTest t
    else s.judgeTest t
  else s.judgeTest { t with erred := t.erred ++ vias.filter (fun v => !t.erred.contains v) }

/-- The field test of a mast whose slot has been granted goes on. -/
def State.testGranted (s : State) (m : Nat) : State :=
  match s.stk.tests.find? (fun t => t.mast = m) with
  | some t => if t.asked ∧ ¬ s.slotAsked m 1 then s.testSlot t else s
  | none => s

/-- Begin a field test of a mast. -/
def State.beginTest (s : State) (m : Nat) (op : Option Nat) (errs : List (Nat × Nat)) : State :=
  s.askTest { mast := m, op := op, errs := errs }

/-- A via that erred is tested again at least 100 µs after the slot before, and a spare via as long after the retest. -/
def State.retest (s : State) (t : FieldTest) (errs : List (Nat × Nat)) : State :=
  if t.asked ∨ s.now < t.at_ + 100000 then s else s.askTest { t with errs := errs }

/-- A test of a mast runs. -/
def State.testing (s : State) (m : Nat) : Bool := s.stk.tests.any (fun t => t.mast = m)

/-- A mast may be tested now: in Sail, its die in no reset. -/
def State.testable (s : State) (m : Nat) : Bool :=
  s.live && s.inSail && !s.ftSkips m && decide (s.fget (DCH.STATUS_DIE_STATE (engDie m)) = 0) && !s.relayPauses (engDie m)

/-- The masts assembled. -/
def State.masts (s : State) : Nat := 17 * s.dies

/-- The timer fires: the next mast is tested, or its test falls due if it cannot run (R344, R347). `errs` is what its vias show
in the first slot of that test. -/
def State.fieldTick (s : State) (errs : List (Nat × Nat)) : State :=
  let m := s.fget STK.STATUS_FT_NEXT
  let s := s.fset STK.STATUS_FT_NEXT (if m + 1 < s.masts then m + 1 else 0)
  if s.ftSkips m ∨ s.testing m then s
  else if s.testable m then s.beginTest m none errs
  else { s with stk := { s.stk with due := s.stk.due.filter (fun d => d.1 ≠ m) ++ [(m, errs)] } }

/-- A test that fell due runs as soon as its mast may be tested, the lowest mast first and one after the other; that of a mast
which is skipped by then is dropped (R347). -/
def State.dueTest (s : State) : State :=
  let s : State := { s with stk := { s.stk with due := s.stk.due.filter (fun d => !s.ftSkips d.1) } }
  match (List.range s.masts).find? (fun m => s.stk.due.any (fun d => d.1 = m) && s.testable m && !s.testing m) with
  | some m =>
    if s.stk.tests ≠ [] then s
    else
      let errs := ((s.stk.due.find? (fun d => d.1 = m)).map (·.2)).getD []
      State.beginTest { s with stk := { s.stk with due := s.stk.due.filter (fun d => d.1 ≠ m) } } m none errs
  | none => s

def execFieldTestTick (errs : List (Nat × Nat)) (s : State) : Host.Outcome State Fault Refusal :=
  done (if s.ready ∧ s.flag STK.CTRL_FT_EN ∧ ¬ s.frozen ∧ ¬ s.tripped then s.fieldTick errs else s)

def execFieldTestRetest (m : Nat) (errs : List (Nat × Nat)) (s : State) : Host.Outcome State Fault Refusal :=
  done (match s.stk.tests.find? (fun t => t.mast = m) with
  | some t => if s.testable m then s.retest t errs else s
  | none => s)

def execFieldTest (h : Halyard) (errs : List (Nat × Nat)) (s : State) : Host.Outcome State Fault Refusal :=
  done (s.packet 0x45 h (fixedLen 1) (fun s _ =>
    let m := bits (arg h 0) 0 8
    if ¬ s.engExists m then s.replyBad 0x45 h 0
    else if ¬ s.inSail ∨ s.ftSkips m then s.replySt 0x45 h St.notInState
    else if s.testing m then s.replySt 0x45 h St.busy
    else s.accept 0x45 h 1 m (fun s id => s.beginTest m (some id) errs)))

/-! ### Mast training (R333, R340) -/

/-- The mast has a via remap. -/
def State.mastRemapped (s : State) (m : Nat) : State :=
  let s := if s.fget (STK.MAST_STAT_STATE m) = 0 then s.fset (STK.MAST_STAT_STATE m) 1 else s
  s.fset (STK.DIE_REMAP_MASTS (engDie m)) (setBit (s.fget (STK.DIE_REMAP_MASTS (engDie m))) (engNo m) true)

/-- STK reports a mast lost. -/
def State.reportLost (s : State) (m : Nat) : State :=
  if s.fget (STK.MAST_STAT_STATE m) = 3 then s
  else
    let s := (s.fset (STK.MAST_STAT_STATE m) 3).bumpSat STK.VIA_STAT_LOST 1
    let s := s.fset (STK.DIE_LOST_MASTS (engDie m)) (setBit (s.fget (STK.DIE_LOST_MASTS (engDie m))) (engNo m) true)
    (s.int I.stk 5).fault (0x200 + m) 0x2B 2 1

/-- Training leaves a signal via without a spare: the mast is degraded or lost, and STK reports it (R340). -/
def State.trainLost (s : State) (m v : Nat) : State :=
  match s.mastFate m v with
  | 0 => s
  | 1 =>
    let s := (s.fset (STK.MAST_STAT_STATE m) 2).fset (STK.MAST_STAT_MAT m) (v / 2)
    ((s.bumpSat STK.VIA_STAT_DEGRADED 1).int I.stk 4).fault (0x200 + m) 0x2B 2 0
  | _ => s.reportLost m

/-- One via that failed training, among all that did, with the action of its record. -/
def State.trainVia (s : State) (m : Nat) (bad : List Nat) (v : Nat) : State × Nat :=
  let g := viaGroup v
  let old := s.fget (remapFld m g)
  let after := fun (s : State) => (s, if s.fget (STK.MAST_STAT_STATE m) = 3 then 7 else if s.fget (STK.MAST_STAT_STATE m) = 2 then 6 else 0)
  if 60 ≤ v then
    let s := (s.fset (remapFld m g) 31).markVia m v
    if 16 ≤ old ∧ old < 31 then after (s.trainLost m (viaAt g (old - 16))) else (s, 0)
  else if old < 16 ∧ ¬ bad.contains (60 + g) then
    ((((s.fset (remapFld m g) (16 + viaPos v)).markVia m v).mastRemapped m).hardenVia m g (viaPos v), 2)
  else after ((s.markVia m v).trainLost m v)

/-- The vias that fail training, each once with its bit errors: those that pass at fewer than 32 delays, 0.25 UI, at one end. -/
def trainFails (l : List ViaTrain) : List (Nat × Nat) :=
  let bad := (l.filter (fun t => t.len < 32)).map (fun t => t.setting % 64)
  (bad.foldl (fun (a : List Nat) v => if a.contains v then a else a ++ [v]) []).map (fun v =>
    (v, ((l.filter (fun t => t.setting % 64 = v)).map (·.errs)).sum))

/-- The narrowest window of the vias from `lo` up to `hi`; the whole range where no via is listed. -/
def narrowest (lo hi : Nat) (l : List ViaTrain) : Nat :=
  (l.filter (fun t => decide (lo ≤ t.setting % 64 ∧ t.setting % 64 < hi))).foldl (fun (n : Nat) t => min n t.len) 128

/-- Training of one mast: each strobe delay goes to the middle of its window, and the failing vias are remapped, marked or lost,
and recorded. -/
def State.trainMast (s : State) (m : Nat) (l : List ViaTrain) : State :=
  let l := l.filter (fun t => t.setting < 128 ∧ ¬ s.viaBad m (t.setting % 64))
  let s := l.foldl (fun (s : State) t => if t.len < 32 then s else s.setDelay m t.setting (t.first + t.len / 2)) s
  let s := (s.fset (STK.MAST_TRAIN_DQ_MIN m) (narrowest 0 40 l)).fset (STK.MAST_TRAIN_CA_MIN m) (narrowest 40 56 l)
  let errs := trainFails l
  let bad := errs.map (·.1)
  let r := errs.foldl (fun (a : State × List (Nat × Nat)) e =>
    let t := a.1.trainVia m bad e.1
    (t.1, a.2 ++ [failRecord m 2 t.2 (0, e.1 * 2 ^ 17 + min 1023 e.2)])) (s, [])
  r.1.noteFails m r.2

/-- What training finds on a mast. -/
def trainOf (l : List (Nat × List ViaTrain)) (m : Nat) : List ViaTrain := ((l.find? (fun e => e.1 = m)).map (·.2)).getD []

/-- A relay mast that training leaves degraded or lost, acted on as at run time (R340, R346). -/
def State.relayTrained (s : State) (m : Nat) (l : List ViaTrain) : State :=
  let old := s.fget (STK.MAST_STAT_STATE m)
  let s := s.trainMast m l
  let st := s.fget (STK.MAST_STAT_STATE m)
  if st = old then s
  else if st = 3 then s.mastLost m
  else if st = 2 then
    match s.servedBy m with
    | some k => s.eraseMat k (s.fget (STK.MAST_STAT_MAT m))
    | none => s
  else s

/-- The 68 relay masts train, keeping their remaps. -/
def State.trainRelayMasts (s : State) (l : List (Nat × List ViaTrain)) : State :=
  (List.range 68).foldl (fun (s : State) i => s.relayTrained (68 + i) (trainOf l (68 + i))) s

/-! ### BIST_RUN and BIST_RESULT (R342, R343) -/

/-- A mast that BIST_RUN may test: of a free or failed spare, of a permanently fenced index, or of a source that a
substitution has retired. -/
def State.bistAllowed (s : State) (m : Nat) : Bool :=
  if engNo m = 16 then
    let st := s.fget (ECC.SPARE_STAT_STATE (engDie m))
    decide (st = 0) || decide (st = 4)
  else s.engPerm m || s.onSpare (16 * (m / 17) + engNo m)

def execBistRun (h : Halyard) (s : State) : Host.Outcome State Fault Refusal :=
  done (s.packet 0x40 h (fixedLen 1) (fun s _ =>
    let m := bits (arg h 0) 0 8
    let set := bits (arg h 0) 8 2
    if ¬ s.engExists m ∨ 2 ≤ set ∨ bits (arg h 0) 10 22 ≠ 0 then s.replyBad 0x40 h 0
    else if ¬ s.inSail ∨ ¬ s.bistAllowed m then s.replySt 0x40 h St.notInState
    else if s.stk.bist.isSome then s.replySt 0x40 h St.busy
    else s.accept 0x40 h 1 m (fun s id =>
      State.setFlag { s with stk := { s.stk with bist := some (m, set, id) } } STK.STATUS_BIST_BUSY true)))

/-- A failed spare that passed a full march is free again; the index that it served stays fenced. -/
def State.freeSpare (s : State) (m : Nat) : State :=
  let d := engDie m
  let k := s.fget (ECC.SPARE_STAT_INDEX d)
  let s := (s.fset (ECC.SPARE_STAT_STATE d) 0).fset (ECC.SPARE_STAT_INDEX d) 0x7F
  if k < s.pcs ∧ s.onSpare k then
    let s := (s.setEngBit DCH.FENCE_ENG m false).setEngBit DCH.FENCE_PERM_ENG m false
    let s := s.setFlag (pcStateFld k 6) false
    (s.setEngBit DCH.FENCE_ENG (s.engineOf k) true).setEngBit DCH.FENCE_PERM_ENG (s.engineOf k) true
  else s

/-- A BIST_RUN ends (R342). -/
def State.bistDone (s : State) (m set id : Nat) (fails : List (Nat × Nat)) : State :=
  let s := (State.setFlag { s with stk := { s.stk with bist := none } } STK.STATUS_BIST_BUSY false).noteTest m set 0 fails
  let out := s.fget (STK.MAST_BIST_OUTCOME m)
  let d := engDie m
  let st := s.fget (ECC.SPARE_STAT_STATE d)
  let s := if engNo m ≠ 16 then s
    else if fails = [] ∧ set = 1 ∧ st = 4 ∧ s.fget (STK.MAST_STAT_STATE m) ≠ 3 then s.freeSpare m
    else if fails ≠ [] ∧ st = 0 then s.fset (ECC.SPARE_STAT_STATE d) 4
    else s
  (s.int I.stk 0).finishOp id St.ok (out * 2 ^ 20 + min fails.length 0xFFFFF)

def execBistDone (fails : List (Nat × Nat)) (s : State) : Host.Outcome State Fault Refusal :=
  done (match s.stk.bist with
  | some (m, set, id) => if s.live then s.bistDone m set id (if set = 0 then quickFails fails else fails) else s
  | none => s)

def execBistResult (h : Halyard) (s : State) : Host.Outcome State Fault Refusal :=
  done (s.packet 0x41 h (fixedLen 1) (fun s _ =>
    let m := bits (arg h 0) 0 8
    if ¬ s.engExists m then s.replyBad 0x41 h 0
    else
      let t := SMap.get ⟨0xFF, 0, []⟩ s.stk.last m
      let w := t.set * 2 ^ 24 + t.recs.length * 2 ^ 16 + min 0xFFFF t.words
      s.replyOk 0x41 h (w :: t.recs.flatMap (fun r => [r.1, r.2]))))

/-! ### The mast-domain reset of D4 (R350, R351) -/

/-- Step 1: admission to D5 to D8 stops. -/
def State.startRelay (s : State) (cause : Nat) : State :=
  let s := (s.fset STK.RELAY_DIAG_LAST_CAUSE cause).setFlag STK.STATUS_RELAY_BUSY true
  { s with stk := { s.stk with relay := some ⟨cause, s.now, 1, 0⟩ } }

/-- Step 2 is done: no admitted request to D5 to D8 is outstanding, no read of theirs is queued or on its way, and the engine
write queues are empty. A scan's reads are among them; the scan itself goes on after the reset (R31, Table 11.5; DESIGN
CHOICE, assumption 86). -/
def State.relayDrained (s : State) : Bool :=
  !s.txns.any (fun t => decide (t.stage = 2) && s.wantsUpper t.req) &&
    s.slices.all (fun c => c.2.miss.all (fun e => e.lines.all (fun l => decide (s.pcOf l.line < 64)))) &&
    s.engs.all (fun g => decide (g.1 < 68) || (g.2.wrq.isEmpty && g.2.rdq.isEmpty && g.2.ret.isEmpty))

/-- Steps 3 and 4: D5 to D8 in self-refresh, the relays quiesced and isolated. -/
def State.relayHold (s : State) (r : RelaySt) : State :=
  let s := [5, 6, 7, 8].foldl (fun (s : State) d => s.fset (DCH.STATUS_DIE_STATE d) 2) s
  let s := ([5, 6, 7, 8].flatMap dieEngines).foldl (fun (s : State) m => if s.engSr m then s else s.enterSr m) s
  { s.fset STK.ORG_RELAY_STATE 3 with stk := { s.stk with relay := some { r with step := 3, attempts := 1 } } }

/-- Steps 5 and 6: the relays are reset, their DLL locks and their isolation ends, so that the masts train. -/
def State.relayTrain (s : State) (r : RelaySt) : State :=
  { s.fset STK.ORG_RELAY_STATE 1 with stk := { s.stk with relay := some { r with step := 7 } } }

/-- A failed training repeats from step 5: the relays are quiesced and reset again. -/
def State.relayAgain (s : State) (r : RelaySt) : State :=
  { s.fset STK.ORG_RELAY_STATE 3 with stk := { s.stk with relay := some { r with step := 3, attempts := r.attempts + 1 } } }

/-- The mast-domain reset ends: D5 to D8 leave self-refresh but for the fenced engines, and admission resumes. -/
def State.relayEnd (s : State) (r : RelaySt) (state : Nat) : State :=
  let s := { s with stk := { s.stk with relay := none } }.setFlag STK.STATUS_RELAY_BUSY false
  let s := s.fset STK.ORG_RELAY_STATE state
  let s := [5, 6, 7, 8].foldl (fun (s : State) d => s.fset (DCH.STATUS_DIE_STATE d) (b2n (s.dieResetting d))) s
  let s := [5, 6, 7, 8].foldl (fun (s : State) d => if s.dieResetting d then s else s.srxDie d) s
  let s := (s.bumpSat STK.RELAY_STAT_RESETS 1).fset STK.RELAY_STAT_LAST_US (min 0xFFFF ((s.now - r.since) / 1000))
  ((s.fset STK.RELAY_DIAG_ATTEMPTS r.attempts).int I.stk 6).endReaction 7 0

/-- The third training failure: STK reports every mast of D5 to D8 lost, FLT fences their indices, and their spares fail
(R351). -/
def State.relayLost (s : State) : State :=
  let s := ([5, 6, 7, 8].flatMap dieEngines).foldl (fun (s : State) m => s.reportLost m) s
  let s := if (match s.ecc.evac with
      | some e => decide (64 ≤ e.pc)
      | none => false) then s.abandonEvac 2 else s
  let s := (List.range 64).foldl (fun (s : State) i => s.permFence (64 + i) 1) s
  ([5, 6, 7, 8].foldl (fun (s : State) d => (s.fset (ECC.SPARE_STAT_STATE d) 4).setFlag (ECC.CAP_LOSS_SPARE_LOST d) true) s).int I.stk 7

/-- One advance of the mast-domain reset: the drained domain is quiesced; the relays lock, or fail to; the masts train, or
fail to. The third failure ends it with the fences. -/
def State.relayStep (s : State) (r : RelaySt) (trained : Option (List (Nat × List ViaTrain))) : State :=
  if r.step = 1 then (if s.relayDrained then s.relayHold r else s)
  else match trained with
  | some l => if r.step = 3 then s.relayTrain r else (s.trainRelayMasts l).relayEnd r 2
  | none => if r.attempts < 3 then s.relayAgain r else (s.relayLost).relayEnd r 0

end Sys2Proof.Machine
end

