-- ==== Sys2Proof/Machine/Tap.lean ====
section
/-! DEFINITION. The base die's TAP and the DTAPs of the core dies (R352 to R355, R518). -/

namespace Sys2Proof.Machine

open Sys2Proof.Reg

/-- Select an instruction: Capture-IR loads 0b0000_0001, which shifts out as the code shifts in; then its data register shifts
out. -/
def State.tapSelect (s : State) (ir : Nat) (out : TdoOut) : State :=
  { s with tap := { s.tap with ir := ir, irOut := some 1, tdo := out } }

/-- The bypass register: 1 bit, captured 0. -/
abbrev bypassOut : TdoOut := .word 1 0

/-- The device identification register (R355). -/
def State.idcode (s : State) : Nat := s.fget DEV.ID_STEP_MAJOR * 2 ^ 28 + 0x5A6B * 2 ^ 12 + 0x2E3 * 2 + 1

/-- The boundary register as captured: the pins, with ALERT_N and THERMTRIP_N as the part drives them (R518). -/
def State.boundary (s : State) (pins : Nat) : Nat :=
  setBit (setBit (pins % 2 ^ 23) 9 (s.flag FLT.ALERT_CAUSE_PIN)) 10 s.thm.pin

/-- TRST_N resets the TAP alone: Test-Logic-Reset selects IDCODE. -/
def State.tapReset (s : State) : State := { s with tap := { s.tap with ir := 1, irOut := none, tdo := .word 32 s.idcode, dtap := [] } }

def execTrstN (s : State) : Host.Outcome State Fault Refusal := done s.tapReset

def execIdcode (s : State) : Host.Outcome State Fault Refusal := done (s.tapSelect 0x01 (.word 32 s.idcode))

/-- SAMPLE/PRELOAD captures the pins and loads the boundary register. -/
def execSamplePreload (pins preload : Nat) (s : State) : Host.Outcome State Fault Refusal :=
  done (State.tapSelect { s with tap := { s.tap with bsr := preload % 2 ^ 23 } } 0x02 (.word 23 (s.boundary pins)))

/-- EXTEST drives the pins from the boundary register, loaded with `value`; it shifts out what the pins showed. -/
def execExtest (pins value : Nat) (s : State) : Host.Outcome State Fault Refusal :=
  done (State.tapSelect { s with tap := { s.tap with bsr := value % 2 ^ 23 } } 0x00 (.word 23 (s.boundary pins)))

def execClamp (s : State) : Host.Outcome State Fault Refusal := done (s.tapSelect 0x04 bypassOut)

def execHighz (s : State) : Host.Outcome State Fault Refusal := done (s.tapSelect 0x05 bypassOut)

def execBypass (s : State) : Host.Outcome State Fault Refusal := done (s.tapSelect 0xFF bypassOut)

/-! ### The DTAPs -/

/-- The die instructions act: in reset hold, in safe state, or with T1838_EN set (R352). -/
def State.dieAccess (s : State) : Bool := decide (s.devState = 2) || decide (s.devState = 3) || s.flag STK.CTRL_T1838_EN

/-- The dies in the chain, in ascending order. -/
def State.chain (s : State) : List Nat :=
  (List.range s.dies).map (· + 1) |>.filter (fun d => bitAt (s.fget STK.T1838_STAT_DIES_SEL) (d - 1))

/-- The instruction of a die's DTAP and its data register as (width, bits). -/
def State.dtap (s : State) (d : Nat) : Nat × Nat × Nat := SMap.get (0x3F, 1, 0) s.tap.dtap d

/-- The chain's bits: the highest selected die lies nearest TDO. -/
def State.chainOut (s : State) : Nat × Nat :=
  s.chain.foldl (fun (a : Nat × Nat) d => let (_, w, b) := s.dtap d; (a.1 + w, a.2 * 2 ^ w + b % 2 ^ w)) (0, 0)

/-- STK_DTAP shifts the chain out. -/
def State.tapChain (s : State) : State :=
  if s.dieAccess then
    let (w, b) := s.chainOut
    s.tapSelect 0x39 (.word w b)
  else s.tapSelect 0x39 bypassOut

def execStkDsel (dies : Nat) (s : State) : Host.Outcome State Fault Refusal :=
  done (if s.dieAccess then
      (s.fset STK.T1838_STAT_DIES_SEL (dies % 2 ^ s.dies)).tapSelect 0x38 (.word 8 (s.fget STK.T1838_STAT_DIES_SEL))
    else s.tapSelect 0x38 bypassOut)

def execStkDtap (s : State) : Host.Outcome State Fault Refusal := done s.tapChain

/-- A selected die's DTAP takes an instruction: it acts only while the die instructions act. -/
def State.dieTap (s : State) (d : Nat) (f : State → State) : State :=
  if s.dieAccess ∧ s.chain.contains d then (f s).tapChain else s.tapChain

/-- The DTAP of a die holds an instruction and its data register. -/
def State.setDtap (s : State) (d ir w b : Nat) : State :=
  { s with tap := { s.tap with dtap := SMap.insert s.tap.dtap d (ir, w, b) } }

/-- IDCODE of a die; its stepping is a value the spec leaves to the die. -/
def execDtapIdcode (d : Nat) (s : State) : Host.Outcome State Fault Refusal :=
  done (s.dieTap d (fun s =>
    let (x, s) := s.fresh
    s.setDtap d 0x01 32 (x % 16 * 2 ^ 28 + d * 2 ^ 20 + 0x21 * 2 ^ 12 + 0x2E3 * 2 + 1)))

/-- SAMPLE captures the vias of the die's 17 masts. -/
def execDtapSample (d vias : Nat) (s : State) : Host.Outcome State Fault Refusal :=
  done (s.dieTap d (fun s => s.setDtap d 0x02 1088 (vias % 2 ^ 1088)))

/-- An instruction that takes over the die's masts may act (R354). -/
def State.mastsFree (s : State) (d : Nat) : Bool :=
  decide (s.devState = 2) || decide (s.devState = 3) ||
    ((dieEngines d).all s.engFenced && (decide (d ≤ 4) || decide (s.fget STK.ORG_RELAY_STATE = 2)))

/-- Such an instruction, or BYPASS with the block noted. -/
def State.takeMasts (s : State) (d : Nat) (f : State → State) : State :=
  s.dieTap d (fun s =>
    if s.mastsFree d then f s
    else ((s.setFlag STK.T1838_STAT_BLOCKED true).int I.stk 8).setDtap d 0x3F 1 0)

/-- Load the wrapper register of a die and drive from it; `vias` is what the cells captured before. -/
def State.driveDwr (s : State) (d ir vias value : Nat) : State :=
  let s := s.setDtap d ir 1088 (vias % 2 ^ 1088)
  { s with tap := { s.tap with dwr := SMap.set 0 s.tap.dwr d (value % 2 ^ 1088) } }

def execDtapExtest (d vias value : Nat) (s : State) : Host.Outcome State Fault Refusal :=
  done (s.takeMasts d (fun s => s.driveDwr d 0x03 vias value))

def execDtapIntest (d vias value : Nat) (s : State) : Host.Outcome State Fault Refusal :=
  done (s.takeMasts d (fun s => s.driveDwr d 0x04 vias value))

/-- The die BIST engine's self-check: bit 0 pass, the signature in bits [31:16]. -/
def execDieBist (d : Nat) (pass : Bool) (sig : Nat) (s : State) : Host.Outcome State Fault Refusal :=
  done (s.takeMasts d (fun s => s.setDtap d 0x08 32 (sig % 2 ^ 16 * 2 ^ 16 + b2n pass)))

def execDtapBypass (d : Nat) (s : State) : Host.Outcome State Fault Refusal :=
  done (s.dieTap d (fun s => s.setDtap d 0x3F 1 0))

end Sys2Proof.Machine
end

