-- ==== Sys2Proof/Machine/Cal.lean ====
section
/-! DEFINITION. Calibration (spec/12_calibration.md): triggers and the queue, die runs, lane tracking, and the trim of
FIO. -/

namespace Sys2Proof.Machine

open Sys2Proof.Reg

/-! ### Targets and the queue (R362 to R365) -/

/-- CAL may run masts, DRAM eyes and FIO: in Sail, with SPLL and MPLL locked and used, and CAL not gated (R364, R419). -/
def State.calGo (s : State) : Bool :=
  s.live && s.inSail && s.flag CLK.STATUS_PLL_READY && !bitAt (s.fget CLK.GATE_STAT_GATED) 9

/-- CAL may go on with masts, DRAM eyes and FIO: no Furl or Off entry is in progress either (Table 12.3). -/
def State.calMay (s : State) : Bool := s.calGo && !s.pw.entry.any (fun e => decide (3 ≤ e.target))

/-- A target waits in the queue, or a port's window runs. -/
def State.calQueued (s : State) (kind idx : Nat) : Bool :=
  s.cal.queue.any (fun j => j.kind = kind ∧ j.idx = idx) || (decide (kind = 1) && s.cal.windows.any (fun w => decide (w.1 = idx)))

/-- A target runs. -/
def State.calActive (s : State) (kind idx : Nat) : Bool :=
  match s.cal.run with
  | some r => decide (r.job.kind = kind ∧ r.job.idx = idx)
  | none => false

/-- Queue a target; one that waits already merges. -/
def State.calAdd (s : State) (j : CalJob) : State :=
  if s.calQueued j.kind j.idx then s else { s with cal := { s.cal with queue := s.cal.queue ++ [j] } }

/-- The temperature of a target: the die's, or the base die's for FIO. -/
def State.calTemp (s : State) (kind idx : Nat) : Int :=
  if kind = 0 then signed 10 (s.fget (DCH.TEMP_TJ (idx + 1))) else signed 10 (s.fget THM.BASE_EST_USED)

/-- The cause that a target's own conditions give now: 0 temperature, 1 period (Table 12.2). -/
def State.calCause (s : State) (kind idx : Nat) : Option Nat :=
  let then' : Int := if kind = 0 then signed 10 (s.fget (CAL.DIE_TEMP_TJ (idx + 1))) else s.cal.fioTemp
  let last := if kind = 0 then s.fget (CAL.DIE_TIME_LAST_MS (idx + 1)) else s.fget CAL.FIO_TIME_LAST_MS
  let min := s.fget CAL.TRIG_CFG_PERIOD_MIN
  if 4 * s.fget CAL.TRIG_CFG_TEMP_DELTA < (s.calTemp kind idx - then').natAbs then some 0
  else if min ≠ 0 ∧ 60000 * min ≤ (s.ms + 2 ^ 32 - last) % 2 ^ 32 then some 1
  else none

/-- The minimum interval since the target's previous run began has passed (R363). -/
def State.calRested (s : State) (kind idx : Nat) : Bool :=
  match SMap.get none (s.cal.starts.map (fun e => (e.1, some e.2))) (16 * kind + idx) with
  | some (t : Nat) => decide (t + s.fget CAL.TRIG_CFG_MIN_MS ≤ s.ms)
  | none => true

/-- Test a target's conditions: it is queued, or held until the minimum interval ends; one that runs is tested again
when its run ends (R363, R365). -/
def State.calTest (s : State) (kind idx : Nat) : State :=
  match s.calCause kind idx with
  | none => s
  | some c =>
    if s.calActive kind idx ∨ (kind = 2 ∧ ¬ s.flag CAL.CTRL_FIO_EN) then s
    else if s.calRested kind idx then s.calAdd ⟨kind, idx, c, none⟩
    else if s.cal.held.any (fun j => j.kind = kind ∧ j.idx = idx) then s
    else { s with cal := { s.cal with held := s.cal.held ++ [⟨kind, idx, c, none⟩] } }

/-- Test every die and the base die. -/
def State.calTrigger (s : State) : State :=
  ((List.range s.dies).foldl (fun (s : State) i => s.calTest 0 i) s).calTest 2 0

def execCalTrigger (s : State) : Host.Outcome State Fault Refusal :=
  done (if s.live ∧ s.ready then s.calTrigger else s)

/-- Channel 2 expires: the held targets whose interval is over are tested again. -/
def State.calRetest (s : State) : State :=
  let due := s.cal.held.filter (fun j => s.calRested j.kind j.idx)
  let s := { s with cal := { s.cal with held := s.cal.held.filter (fun j => !s.calRested j.kind j.idx) } }
  due.foldl (fun (s : State) j => s.calTest j.kind j.idx) s

def execCalHoldExpiry (s : State) : Host.Outcome State Fault Refusal := done (if s.live then s.calRetest else s)

/-! ### A die run (R360, R361) -/

/-- The die of a target. -/
def CalJob.die (j : CalJob) : Nat := if j.kind = 0 then j.idx + 1 else engDie j.idx

/-- An engine takes part in a phase: it is not fenced, its array is not retired, and a spare takes part while free,
testing, copying or serving, for its DRAM eyes only while it copies or serves. -/
def State.calTakes (s : State) (phase m : Nat) : Bool :=
  let st := s.fget (ECC.SPARE_STAT_STATE (engDie m))
  !s.engFenced m && (if engNo m = 16 then decide (st ≤ 3) && (decide (phase = 0) || decide (2 ≤ st)) else (s.servedBy m).isSome)

/-- The index whose lines an engine's DRAM phase reads: the one it serves, or of a spare the one whose copy it takes. -/
def State.calPc (s : State) (m : Nat) : Option Nat :=
  match s.servedBy m, s.ecc.evac with
  | some k, _ => some k
  | none, some e => if e.copying ∧ 17 * (e.pc / 16) + 16 = m then some e.pc else none
  | none, none => none

/-- The place of an engine in a phase: masts go by engine, DRAM eyes by index, where a spare that takes a copy follows the
engine it copies (R360). -/
def State.calRank (s : State) (phase m : Nat) : Nat :=
  if phase = 0 then engNo m
  else match s.calPc m with
    | some k => 2 * (k % 16) + b2n (decide (s.engineOf k ≠ m))
    | none => 32

/-- The engines of a run's phase that it has still to take, in order. -/
def State.calRest (s : State) (r : CalRun) : List Nat :=
  let on := if r.phase = 0 then s.flag CAL.CTRL_MAST_EN else s.flag CAL.CTRL_DRAM_EN && decide (r.job.kind = 0)
  let all := if r.job.kind = 3 then [r.job.idx]
    else (List.range 32).flatMap (fun i => (dieEngines r.job.die).filter (fun m => s.calRank r.phase m = i))
  if on then all.filter (fun m => decide (r.next ≤ s.calRank r.phase m) && s.calTakes r.phase m) else []

def State.setRun (s : State) (r : CalRun) : State := { s with cal := { s.cal with run := some r } }

/-- A run begins: the die's temperature and cause are recorded; a run of one mast leaves the temperature of the die's
last run as it is. -/
def State.calStart (s : State) : State :=
  match s.cal.run, s.cal.queue with
  | none, j :: rest =>
    if (j.kind ≠ 0 ∧ j.kind ≠ 3) ∨ ¬ s.calMay then s
    else
      let s := State.setRun { s with cal := { s.cal with queue := rest } } { job := j }
      let s := s.fset (CAL.DIE_TEMP_LAST_CAUSE j.die) j.cause
      let s := match j.op with
        | some id => s.runOp id
        | none => s
      if j.kind = 3 then s
      else
        let s := s.fset (CAL.DIE_TEMP_TJ j.die) (s.fget (DCH.TEMP_TJ j.die))
        { s with cal := { s.cal with starts := SMap.insert s.cal.starts j.idx s.ms } }
  | _, _ => s

/-- In the mast phase, masts are taken until four are at work; each asks for a slot of 1,000 ns. Once none is left the
DRAM phase follows, and once it has no engine left and no step owed the run is done. -/
def State.calFill : Nat → State → State
  | 0, s => s
  | n + 1, s =>
    match s.cal.run with
    | none => s
    | some r =>
      match s.calRest r with
      | m :: _ =>
        if r.phase = 0 ∧ r.masts.length < 4 then
          ((s.setRun { r with next := s.calRank 0 m + 1, masts := r.masts ++ [⟨m, false, []⟩] }).askSlot m 0 1000).calFill n
        else s
      | [] =>
        if r.masts ≠ [] then s
        else if r.phase = 0 then (s.setRun { r with phase := 1, next := 0, lines := 0, sent := 0 }).calFill n
        else s.setRun { r with phase := 2 }

/-- What a measurement finds of one setting: its owed steps, with the narrow eye and the end of the range noted
(R358, R367). -/
def State.calJudge (m : Nat) (a : State × CalRun × SMap Int) (x : Nat × Int × Nat) : State × CalRun × SMap Int :=
  let (s, r, owed) := a
  let (set, off, eye) := x
  let cur : Int := s.delay m set
  let aim := max 0 (min 127 (cur + off))
  let past := decide (aim ≠ cur + off)
  let d := engDie m
  let s := if eye < 32 then (s.int I.cal 1).fault (0x2A0 + d) 0x34 1 m else s
  let s := if past then (s.int I.cal 2).fault (0x2A0 + d) 0x34 1 (m + 256) else s
  let out := max r.outcome (if past then 2 else if eye < 32 then 1 else 0)
  let narrow := match r.eyeMin with
    | some e => min e eye
    | none => eye
  (s, { r with maxStep := max r.maxStep (aim - cur).natAbs, eyeMin := some narrow, outcome := out },
    if aim = cur then SMap.erase owed set else SMap.insert owed set (aim - cur))

/-- Analyse a measurement: of a mast settings 0 to 131, of a read eye settings 132 to 171. -/
def State.calMeasure (s : State) (r : CalRun) (m : Nat) (meas : List (Nat × Int × Nat)) : State × CalRun × SMap Int :=
  (meas.filter (fun x => if r.phase = 0 then x.1 < 132 else 132 ≤ x.1 ∧ x.1 < 172)).foldl (State.calJudge m) (s, r, [])

/-- Every owed setting of a mast moves one step. -/
def State.calStep (s : State) (m : Nat) (owed : SMap Int) : State :=
  owed.foldl (fun (s : State) e =>
    let v : Int := (s.delay m e.1 : Int) + (if 0 < e.2 then 1 else -1)
    s.setDelay m e.1 v.toNat) s

/-- The steps still owed after one. -/
def owedNext (owed : SMap Int) : SMap Int :=
  (owed.map (fun e => (e.1, if 0 < e.2 then e.2 - 1 else e.2 + 1))).filter (fun e => e.2 ≠ 0)

/-- A mast ends, or asks for the 120 ns slot of its next step. -/
def State.calOwe (s : State) (r : CalRun) (m : Nat) (owed : SMap Int) : State :=
  let others := r.masts.filter (fun x => x.eng ≠ m)
  if owed = [] then s.setRun { r with masts := others }
  else (s.setRun { r with masts := others ++ [⟨m, true, owed⟩] }).askSlot m 0 120

/-- The granted slot of a mast at work has ended: its measurement is analysed. One whose slot for a step passed without the step
asks for another. -/
def State.calSlot (s : State) (r : CalRun) (w : CalMast) (meas : List (Nat × Int × Nat)) : State :=
  if w.measured then s.calOwe r w.eng w.owed
  else
    let (s, r, owed) := s.calMeasure r w.eng meas
    s.calOwe r w.eng owed

/-- A mast or the DRAM eyes of a die may not be worked on: its die is in a reset (Table 12.3). -/
def State.calPaused (s : State) (m : Nat) : Bool :=
  decide (s.fget (DCH.STATUS_DIE_STATE (engDie m)) ≠ 0) || s.relayPauses (engDie m)

/-- CAL's slot has been granted for a step: every owed setting of the mast moves by one, while it is silent (R358, R360). -/
def State.calGranted (s : State) (m : Nat) : State :=
  match s.cal.run with
  | none => s
  | some r =>
    match r.masts.find? (fun w => w.eng = m) with
    | some w =>
      if ¬ w.measured ∨ s.slotAsked m 0 ∨ ¬ s.calMay ∨ s.calPaused m then s
      else (s.calStep m w.owed).calOwe r m (owedNext w.owed)
    | none => s

def execRefreshSlot (m : Nat) (s : State) : Host.Outcome State Fault Refusal :=
  done (if s.refreshed m then
      let waits := s.slotAsked m 0
      let s := (s.refreshSlot m).testGranted m
      if waits then s.calGranted m else s
    else s)

/-- A line offset of the array that an engine's DRAM phase reads is skipped: its slice or a queue holds the line (an open
merge entry closes), it is fenced, or, of a spare, it has not been copied yet (R269, R361). The probe that misses is the one
that then reads. -/
def State.calSkips (s : State) (m k off : Nat) : State × Bool :=
  let line := s.lineAt k off
  let c := lineSlice line
  let early : Bool := match s.ecc.evac with
    | some e => decide (s.engineOf k ≠ m) && decide (e.next ≤ off)
    | none => false
  if early ∨ s.lineFenced line then (s, true)
  else
    match (s.slc c).find line with
    | some (key, w) => (if w.st = .merge then (s.access c).closeMerge c key false else s.access c, true)
    | none => (s, ((s.slc c).inWb line).isSome || ((s.eng m).writeOf line).isSome)

/-- The next C63 read of the DRAM phase: its token is taken, and the read sent; a skipped line takes none. The pointer moves
on (R361). -/
def State.calIssue (s : State) (r : CalRun) (m : Nat) : State :=
  match s.calPc m with
  | none => s
  | some k =>
    let a := engArray m
    let off := SMap.get 0 s.cal.ptr a
    let line := s.lineAt k off
    let past (s : State) : State := { s with cal := { s.cal with ptr := SMap.set 0 s.cal.ptr a ((off + 1) % pcLines) } }
    let e := s.entry (.probe .cal) line (some (line, 0)) [] 63 s.now
    if s.tokens 63 < 1 ∨ ¬ (s.eng m).readRoom e then s
    else
      match s.calSkips m k off with
      | (s, true) => past s
      | (s, false) =>
        match s.spend 63 1 with
        | none => s
        | some s =>
          let s := (past s).setRun { r with sent := r.sent + 1 }
          if s.engineOf k = m then s.readLine .cal line 63 else s.enterRead m e line (some (line, 0))

/-- A C63 read that came back: its word goes to ECC as any array read does, and one of the 512 is done; a copy from above the
array, or a fenced answer, is skipped. -/
def State.calTake (s : State) (r : CalRun) (m m' : Nat) (t : Ret) (errs : List (Nat × Nat)) : State :=
  let s := s.dropRet m' t
  if t.fwd then (if m' = m then s.setRun { r with sent := r.sent - 1 } else s)
  else
    let (s, _, _, _) := s.retWord m' t 0 errs
    let s := if m' = m then s.setRun { r with lines := r.lines + 1 } else s
    match s.ecc.evac with
    | some e => if e.failing then s.abandonEvac 2 else s
    | none => s

/-- The pseudo-channel being measured: a read comes back, or the next of its 512 is sent; then its eyes are analysed and the
next one follows. One that was left, because of a fence or a switch, gives the next one none of its lines (Table 12.3). -/
def State.calDram (s : State) (r : CalRun) (m : Nat) (meas : List (Nat × Int × Nat)) (errs : List (Nat × Nat)) : State :=
  let rank := s.calRank 1 m
  let r := if r.next = rank then r else { r with next := rank, lines := 0, sent := 0 }
  let s := s.setRun r
  match s.readBack .cal with
  | some (m', t) => s.calTake r m m' t errs
  | none =>
    if 512 ≤ r.lines then
      let (s, r, owed) := s.calMeasure r m meas
      let r := { r with lines := 0, sent := 0, next := rank + 1 }
      if owed = [] then s.setRun r
      else (s.setRun { r with masts := r.masts ++ [⟨m, true, owed⟩] }).askSlot m 0 120
    else if s.mgc.paused ∨ 512 ≤ r.sent then s
    else s.calIssue r m

/-- Masts that have been fenced or retired leave the run. -/
def State.calDrop (s : State) : State :=
  match s.cal.run with
  | some r => s.setRun { r with masts := r.masts.filter (fun w => s.calTakes (if w.measured then 0 else r.phase) w.eng) }
  | none => s

/-- The run goes on at one engine of its die. -/
def State.calAt (s : State) (m : Nat) (meas : List (Nat × Int × Nat)) (errs : List (Nat × Nat)) : State :=
  match s.cal.run with
  | none => s
  | some r =>
    if s.calPaused m then s
    else
      match r.masts.find? (fun w => w.eng = m) with
      | some w => if s.slotAsked m 0 then s else s.calSlot r w meas
      | none => if r.phase = 1 ∧ (s.calRest r).head? = some m then s.calDram r m meas errs else s

/-- The head of the queue starts if no run is active; the active die run or mast run goes on. -/
def State.dieRun (s : State) (m : Nat) (meas : List (Nat × Int × Nat)) (errs : List (Nat × Nat)) : State :=
  let s := s.calStart
  match s.cal.run with
  | some r => if r.job.kind = 0 ∨ r.job.kind = 3 then (((s.calDrop.calFill 8).calAt m meas errs).calDrop).calFill 8 else s
  | none => s

def execDieRun (m : Nat) (meas : List (Nat × Int × Nat)) (errs : List (Nat × Nat)) (s : State) :
    Host.Outcome State Fault Refusal :=
  done (if s.calMay ∧ s.engExists m then s.dieRun m meas errs else s)

/-! ### The end of a run (R365, R368) -/

/-- What a target showed joins the result of its pending operation, which ends with its last target. -/
def State.calResult (s : State) (r : CalRun) : State :=
  match r.job.op with
  | none => s
  | some id =>
    let old := SMap.get (0, 255, 0) s.cal.res id
    let new : Nat × Nat × Nat := (max old.1 (min 255 r.maxStep), min old.2.1 (r.eyeMin.getD 255), max old.2.2 r.outcome)
    if s.cal.queue.any (fun j => j.op = some id) then { s with cal := { s.cal with res := SMap.insert s.cal.res id new } }
    else
      State.finishOp { s with cal := { s.cal with res := SMap.erase s.cal.res id } } id St.ok
        (new.1 * 65536 + (if new.2.1 = 255 then 0 else new.2.1) * 256 + new.2.2)

/-- A run ends. One of a single mast leaves what its die's registers say of whole die runs (DESIGN CHOICE, assumption 83). -/
def State.calEnd (s : State) (r : CalRun) : State :=
  let s := { s with cal := { s.cal with run := none } }
  let j := r.job
  let s := if j.kind = 0 then
      let s := (s.bumpSat (CAL.DIE_CAL_RUN_CNT j.die) 1).fset (CAL.DIE_CAL_MAX_STEP j.die) (min 255 r.maxStep)
      (s.fset (CAL.DIE_CAL_EYE_MIN j.die) (min 255 (r.eyeMin.getD 0))).fset (CAL.DIE_TIME_LAST_MS j.die) (s.ms % 2 ^ 32)
    else if j.kind = 2 then s.fset CAL.FIO_TIME_LAST_MS (s.ms % 2 ^ 32)
    else s
  let s := (s.int I.cal 0).calResult r
  if j.kind = 0 ∨ j.kind = 2 then s.calTest j.kind j.idx else s

def execRunDone (s : State) : Host.Outcome State Fault Refusal :=
  done (match s.cal.run with
  | some r => if s.live ∧ r.phase = 2 then s.calEnd r else s
  | none => s)

/-- A port's window ends: its pending operation answers with the largest step count, the narrowest eye and the outcome (R368). -/
def State.endWindow (s : State) (p steps eye outcome : Nat) : State :=
  match s.cal.windows.find? (fun w => w.1 = p) with
  | some (_, id) =>
    let s : State := { s with cal := { s.cal with windows := SMap.erase s.cal.windows p } }
    (s.int I.cal 0).finishOp id St.ok (steps * 65536 + eye * 256 + outcome)
  | none => s

/-- The active run is abandoned: a Furl or Off entry, a trip or a reset of CAL (Table 12.3). Steps applied stay. -/
def State.calAbandon (s : State) : State :=
  let s := match s.cal.run with
    | some r =>
      let s := r.masts.foldl (fun (s : State) (w : CalMast) => s.dropSlot w.eng 0) s
      State.calResult { s with cal := { s.cal with run := none, trimStep := none } } { r with outcome := 3 }
    | none => s
  let jobs := s.cal.queue
  let s := { s with cal := { s.cal with queue := [], held := [] } }
  let s := jobs.foldl (fun (s : State) j => s.calResult { job := j, outcome := 3 }) s
  s.cal.windows.foldl (fun (s : State) (w : Nat × Nat) => s.endWindow w.1 0 0 3) s

/-- The CAL block is reset: CAL is idle, and a pending CAL_RUN ends ABORTED (R483). -/
def State.calReset (s : State) : State :=
  (s.abortOps (fun o => o.opcode = 0x80)).calAbandon

/-! ### Lane tracking (R359) -/

/-- The step that a window's counts above and below a threshold ask for: toward the lower count. -/
def laneStep (hyst above below : Nat) : Option Bool :=
  let diff := if above < below then below - above else above - below
  if 256 * diff ≤ hyst * (above + below) then none else some (decide (above < below))

/-- The counts of one threshold of a lane that was ACTIVE for the whole window: its step waits for the next marker. A
threshold at the end of its range stays there, and that is noted. The largest step count and the outcome go along. -/
def State.trackLane (p : Nat) (a : State × Nat × Nat) (x : Nat × Nat × Nat × Nat) : State × Nat × Nat :=
  let (s, n, out) := a
  let (m, t, above, below) := x
  if 4 ≤ m ∨ 3 ≤ t ∨ ¬ (s.lane p m).tracked then a
  else
    match laneStep (s.fget CAL.LANE_CFG_HYST) above below with
    | none => a
    | some up =>
      let v := s.fget (if t = 0 then PRT.SLICER_THR_HI p m else if t = 1 then PRT.SLICER_THR_MID p m else PRT.SLICER_THR_LO p m)
      if v = (if up then 0x3FF else 0) then ((s.int I.cal 2).fault 0x2A0 0x34 1 (p + 256), n, 2)
      else
        let l := s.lane p m
        (s.setLane p m { l with steps := l.steps.filter (fun e => e.1 ≠ t) ++ [(t, up)] }, 1, out)

/-- The eye that a window finds on a lane: the spec gives EYE no value (a free one). One narrower than 0.25 UI is noted (R367). -/
def State.showEye (p : Nat) (a : State × Nat × Nat) (m : Nat) : State × Nat × Nat :=
  let (s, eye, out) := a
  if ¬ (s.lane p m).tracked then a
  else
    let (h, s) := s.fresh
    let (v, s) := s.fresh
    let s := (s.fset (PRT.EYE_H_MARGIN p m) (h % 256)).fset (PRT.EYE_V_MARGIN p m) (v % 256)
    if h % 256 < 32 then ((s.int I.cal 1).fault 0x2A0 0x34 1 p, min eye (h % 256), max out 1) else (s, min eye (h % 256), out)

/-- A new window begins on a port: the lanes that are ACTIVE now may fill it (R359, R368). -/
def State.newWindow (s : State) (p : Nat) : State :=
  (List.range 4).foldl (fun (s : State) m =>
    if s.laneState p m = 7 then s.setLane p m { s.lane p m with tracked := true } else s) s

/-- A window of 1,024 markers ends on a port, and the next one begins; its counts are (lane, threshold, samples above, samples
below). A window that a CAL_RUN began ends abandoned where no lane was ACTIVE for all of it (DESIGN CHOICE, assumption 90). -/
def State.trackWindow (s : State) (p : Nat) (counts : List (Nat × Nat × Nat × Nat)) : State :=
  if bitAt (s.fget CLK.GATE_STAT_GATED) 9 ∨ (¬ s.flag CAL.CTRL_LANE_EN ∧ ¬ s.calQueued 1 p) then s
  else
    let any := (List.range 4).any (fun m => (s.lane p m).tracked)
    let (s, n, out) := counts.foldl (State.trackLane p) (s, 0, 0)
    let (s, eye, out) := (List.range 4).foldl (State.showEye p) (s, 255, out)
    (s.newWindow p).endWindow p n (if any then eye else 0) (if any then out else 3)

/-- A port's window that a CAL_RUN began is abandoned once the port is not UP any more (DESIGN CHOICE, assumption 90). -/
def State.windowTick (s : State) : State :=
  s.cal.windows.foldl (fun (s : State) w => if s.portState w.1 = 5 then s else s.endWindow w.1 0 0 3) s

def execLaneTrackWindow (p : Nat) (counts : List (Nat × Nat × Nat × Nat)) (s : State) : Host.Outcome State Fault Refusal :=
  done (if isPort p ∧ s.live ∧ s.ready then s.trackWindow p counts else s)

/-! ### FIO (R366, R384) -/

/-- FIO takes the head of the queue. -/
def State.fioStart (s : State) : State :=
  match s.cal.run, s.cal.queue with
  | none, j :: rest =>
    if j.kind = 2 ∧ s.calMay then
      let c := { s.cal with queue := rest, fioTemp := signed 10 (s.fget THM.BASE_EST_USED) }
      let s := State.setRun { s with cal := { c with starts := SMap.insert c.starts 32 s.ms } } { job := j }
      match j.op with
      | some id => s.runOp id
      | none => s
    else s
  | _, _ => s

/-- No measurement runs: its target is done with. -/
def State.fioSkip (s : State) (r : CalRun) : State := { s with cal := { s.cal with run := none } }.calResult r

/-- One count of FIO cycles over 65,536 XA cycles, nominal 1,048,576; beyond 1,049 the trim moves one step. -/
def State.fioMeasure (s : State) (r : CalRun) (count : Nat) : State :=
  if ¬ s.flag CLK.STATUS_XA_VALID then (s.int I.cal 3).fioSkip r
  else if ¬ s.flag CAL.CTRL_FIO_EN then s.fioSkip r
  else if count ≤ 1049625 ∧ 1047527 ≤ count then s.setRun { r with phase := 2 }
  else if s.cal.trimStep.isSome then s
  else
    let s := { s with cal := { s.cal with trimStep := some (decide (count < 1048576)) } }
    s.setRun { r with maxStep := r.maxStep + 1 }

def execFioTrimMeasure (count : Nat) (s : State) : Host.Outcome State Fault Refusal :=
  done (if s.calMay then
    let s := s.fioStart
    match s.cal.run with
    | some r => if r.job.kind = 2 ∧ r.phase = 0 then s.fioMeasure r count else s
    | none => s
  else s)

/-- MCLK is idle: no halyard packet executes or waits. -/
def State.mclkIdle (s : State) : Bool :=
  s.mclk && s.mgc.inq.isEmpty && s.mgc.twq.isNone && s.mgc.quiesce.isEmpty && s.mgc.commit.isNone &&
    !s.otp.job.any (fun j => j.ans.isSome)

/-- The CAL trim without the compensation offset is kept beside the code in force, which is their sum within 0 to 255
(R384). -/
def State.showTrim (s : State) : State :=
  s.fset CAL.FIO_STAT_TRIM (max 0 (min 255 ((s.cal.trim : Int) + s.cal.comp))).toNat

/-- The trim moves one step; at the end of its range it stays, and that is noted (R367). -/
def State.trimMove (s : State) (up : Bool) : State :=
  let v := s.cal.trim
  let s := { s with cal := { s.cal with trimStep := none } }
  if v = (if up then 255 else 0) then
    let s := match s.cal.run with
      | some r => s.setRun { r with outcome := max r.outcome 2, phase := 2 }
      | none => s
    (s.int I.cal 2).fault 0x2A0 0x34 1 256
  else State.bumpSat { s with cal := { s.cal with trim := if up then v + 1 else v - 1 } } CAL.FIO_STAT_COUNT 1

/-- At an MCLK-idle boundary the trim and the compensation offset each move by the step that waits; that of the trim only while
FIO may be calibrated (R364). -/
def State.fioStep (s : State) : State :=
  let s := match s.cal.trimStep with
    | some up => if s.calMay then s.trimMove up else s
    | none => s
  let s := match s.cal.compStep with
    | some up => { s with cal := { s.cal with comp := if up then s.cal.comp + 1 else s.cal.comp - 1, compStep := none } }
    | none => s
  s.showTrim

def execFioTrimStep (s : State) : Host.Outcome State Fault Refusal := done (if s.mclkIdle then s.fioStep else s)

/-! ### Halyard packets (Table 12.5) -/

/-- The index field's range for a kind; a kind without an index has 0. -/
def State.badTarget (s : State) (w : Nat) : Bool :=
  let kind := bits w 28 4
  let i := bits w 0 3
  decide (4 ≤ kind) || decide (bits w 3 25 ≠ 0) || (decide (kind = 0) && decide (s.dies ≤ i)) ||
    (decide (2 ≤ kind) && decide (i ≠ 0))

/-- The targets that a TARGET word names, as (kind, index). -/
def State.calTargets (s : State) (w : Nat) : List (Nat × Nat) :=
  let kind := bits w 28 4
  if kind = 3 then (List.range s.dies).map (fun i => (0, i)) ++ [(2, 0)] else [(kind, bits w 0 3)]

def execCalRun (h : Halyard) (s : State) : Host.Outcome State Fault Refusal :=
  done (s.packet 0x80 h (fixedLen 1) (fun s _ =>
    let w := arg h 0
    let kind := bits w 28 4
    let ts := s.calTargets w
    if s.badTarget w then s.replyBad 0x80 h 0
    else if ¬ s.inSail ∨ (kind = 1 ∧ s.portState (bits w 0 3) ≠ 5) ∨ (kind = 2 ∧ ¬ s.flag CLK.STATUS_XA_VALID) then
      s.replySt 0x80 h St.notInState
    else if ts.any (fun t => s.calQueued t.1 t.2) then s.replySt 0x80 h St.busy
    else if kind = 1 then s.accept 0x80 h 1 w (fun s id =>
      State.newWindow { s with cal := { s.cal with windows := SMap.insert s.cal.windows (bits w 0 3) id } } (bits w 0 3))
    else s.accept 0x80 h 0 w (fun s id => ts.foldl (fun (s : State) t => s.calAdd ⟨t.1, t.2, 2, some id⟩) s)))

def execCalStatus (h : Halyard) (s : State) : Host.Outcome State Fault Refusal :=
  done (s.packet 0x81 h (fixedLen 1) (fun s _ =>
    let w := arg h 0
    let kind := bits w 28 4
    let i := bits w 0 3
    if s.badTarget w ∨ kind = 3 then s.replyBad 0x81 h 0
    else
      let regs := if kind = 0 then [CAL.DIE_CAL (i + 1), CAL.DIE_TIME (i + 1), CAL.DIE_TEMP (i + 1)]
        else if kind = 1 then [CAL.LANE_CAL i] else [CAL.FIO_STAT, CAL.FIO_TIME]
      s.replyOk 0x81 h (regs.map (fun a => (s.reg a).toNat))))

def execCalCfg (h : Halyard) (s : State) : Host.Outcome State Fault Refusal :=
  done (s.packet 0x82 h (fixedLen 1) (fun s _ =>
    let w := arg h 0
    if bits w 24 8 < 2 ∨ 30 < bits w 24 8 ∨ bits w 8 16 < 100 then s.replyBad 0x82 h 0
    else (s.setReg CAL.TRIG_CFG (BitVec.ofNat 32 w)).replyOk 0x82 h []))

end Sys2Proof.Machine
end

