-- ==== Sys2Proof/Machine/Endings.lean ====
section
/-! DEFINITION. What a thermal trip, a Furl or Off entry, limp state and a reset end (R380, R395, R429): ports, requests,
pending operations and activities; and a flush that runs to its end at once. -/

namespace Sys2Proof.Machine

open Sys2Proof.Reg

/-! ### Ports -/

/-- A port goes to DISABLED and its lanes to OFF, with the enable that software gave it kept. -/
def State.forceDisable (s : State) (p : Nat) : State :=
  (s.disablePort p).setFlag (PRT.CTRL_EN p) (s.flag (PRT.CTRL_EN p))

/-- Every port goes to DISABLED. -/
def State.disableAll (s : State) : State := (List.range 8).foldl State.forceDisable s

/-- Firmware enables the ports that software has enabled. -/
def State.enableAll (s : State) : State :=
  (List.range 8).foldl (fun (s : State) p => if s.flag (PRT.CTRL_EN p) then s.enablePort p else s) s

/-! ### Requests -/

/-- Every outstanding request and scan is discarded without an answer, with what is on its way for it. -/
def State.discardRequests (s : State) : State :=
  let slices : SMap SliceSt := s.slices.map (fun (c : Nat × SliceSt) =>
    (c.1, { c.2 with pend := [], input := [], miss := [],
                     ways := (c.2.ways.filter (fun e => decide (e.2.st ≠ WaySt.fill))).map (fun (e : Nat × Way) =>
                       if e.2.closing then (e.1, { e.2 with closing := false, retry := true }) else e) }))
  let engs : SMap EngSt := s.engs.map (fun (g : Nat × EngSt) => (g.1, { g.2 with rdq := [], ret := [] }))
  let s := { s with txns := [], slices := slices, engs := engs }
  State.scnRegs { s with scn := { s.scn with queue := [], spill := [], runs := [] } }

/-- What the receive buffers hold is discarded (R94). -/
def State.discardReceived (s : State) : State :=
  { s with links := s.links.map (fun (l : Nat × LinkSt) =>
      (l.1, { l.2 with owed := [], asm := [], unit := ⟨0, 0, 0, []⟩, rx := [], replay := [], tx := [], part := [] })) }

/-! ### Halyard packets that still execute -/

/-- A COMMIT, an OTP_LOCK and every QUIESCE that still execute are answered with a status. -/
def State.endPackets (s : State) (status : Nat) : State :=
  let s := match s.mgc.commit with
    | some c => State.replySt { s with mgc := { s.mgc with commit := none } } 0x38 c.pkt status
    | none => s
  let s := match s.otp.job with
    | some j => (match j.ans with
      | some h => State.replySt { s with otp := { s.otp with job := some { j with ans := none } } } 0x53 h status
      | none => s)
    | none => s
  let qs := s.mgc.quiesce
  let s := { s with mgc := { s.mgc with quiesce := [] } }
  qs.foldl (fun (s : State) q => s.replySt 0x3A q.pkt status) s

/-- The staged areas are discarded and staging is released (R150). -/
def State.dropStaging (s : State) : State :=
  ({ s with mgc := { s.mgc with staged := {} } }.fset MGC.COMMIT_STAGE_DIRTY 0).setReg MGC.STAGE_OWNER 0

/-! ### Activities (Table 14.6) -/

/-- What runs stops: the evacuation before its switch, with its result, the fast scrub, the tests, the calibration run, the
row spares that packets asked for, the hardenings that wait, a BBX_COMMIT; and every pending operation but one ends ABORTED. -/
def State.endActivity (s : State) (keep : Option Nat) : State :=
  let s := State.abandonEvac { s with ecc := { s.ecc with evacQ := [] } } 4
  let s := s.abortOps (fun o => decide (some o.id ≠ keep))
  let s : State := { s with otp := { s.otp with wait := s.otp.wait.filter (fun e => decide (some e.2 = keep)) } }
  let s : State := { s with ecc := { s.ecc with fast := none, spares := s.ecc.spares.filter (fun j => j.op.isNone) }, stk := { s.stk with bist := none, tests := [] } }
  let s := ((s.setFlag STK.STATUS_BIST_BUSY false).setFlag PWR.WAKE_STAT_SCRUB_BUSY false).calAbandon
  let s : State := { s with bbx := { s.bbx with commit := none } }
  (if s.ecc.sweep.isSome then s else s.setC60).setFlag BBX.STATUS_COMMIT_BUSY false

/-! ### A flush at once -/

/-- Lines of an index can be stored now: its engine is not fenced and its die is in no reset. -/
def State.storable (s : State) (k : Nat) : Bool := !s.engFenced (s.engineOf k) && s.dieRuns k

/-- Store a code word at the array of an index, and at the spare it is being copied to. -/
def State.storeWord (s : State) (line : Nat) (w : List Nat) : State :=
  let l := s.locate (64 * line)
  let a := s.arrayOf l.pc
  let s := s.setWord a (s.arrayLine a l) w
  match s.ecc.evac with
  | some v =>
    let b := 128 + l.pc / 16
    if v.copying ∧ v.pc = l.pc then s.setWord b (s.arrayLine b l) w else s
  | none => s

/-- Encode and store a line. -/
def State.storeLine (s : State) (line : Nat) (data : List Nat) (utag dev : Nat) : State :=
  let (s, w) := s.encode (s.pcOf line) line data utag (bitAt dev 7) (bitAt dev 6)
  s.storeWord line w

/-- The engines write their queues. -/
def State.drainWrites (s : State) : State :=
  s.engs.foldl (fun (s : State) g =>
    let m := g.1
    if s.engFenced m ∨ s.fget (DCH.STATUS_DIE_STATE (engDie m)) ≠ 0 then s
    else
      let s := g.2.wrq.foldl (fun (s : State) e => e.lines.foldl (fun (s : State) l =>
        s.setWord (engArray m) (s.entLine m e l.col) e.word) s) s
      s.setEng m { s.eng m with wrq := [] }) s

/-- The word in the array under a line, decoded, and whether it was uncorrectable. -/
def State.underWord (s : State) (line : Nat) : State × List Nat × Bool :=
  let l := s.locate (64 * line)
  let a := s.arrayOf l.pc
  let (s, w, d) := s.decode a l line 2 (s.word a (s.arrayLine a l))
  (s, w, d.ue)

/-- The user tag of a word that a line's own tag is taken from: 0 and counted where the word is uncorrectable (R256, R263). -/
def State.tagUnder (s : State) (w : List Nat) (ue : Bool) : State × Nat :=
  if ue then ((s.bumpSat LCH.TAG_LOST_CNT_COUNT 1).int I.lch 3, 0) else (s, wordTag w)

/-- A way that holds bytes the array does not: MODIFIED, waiting for its write-back, staging, or a merge entry. -/
def Way.unsaved (w : Way) : Bool :=
  decide (w.st = WaySt.modified) || decide (w.st = WaySt.merge) || w.wbWait || w.staging

/-- A way with unsaved bytes is read, and its SECDED code checked: what a double-bit error has lost is poisoned, and of a
merge entry the bytes are lost (R255). -/
def State.readUnsaved (s : State) (k key : Nat) : State × Option Way :=
  let s := s.sramInject k key
  match s.wayAt k key with
  | none => (s, none)
  | some w =>
    let s := s.sramFixed w
    if w.doubles = 0 then (s, some w)
    else (s.sramLost w, some { w with dev := setBit w.dev 7 true, mask := if w.st = WaySt.merge then 0 else w.mask })

/-- One way is written back; a merge entry over the word beneath it (R263), a pending tag from that word (R256). -/
def State.saveWay (s : State) (w : Way) : State :=
  if w.st = WaySt.merge then
    let (s, u, ue) := s.underWord w.line
    let full := decide (w.mask = fullMask)
    let dev := b2n ((!full && (ue || wordPoison u)) || bitAt w.dev 7) * 128 + b2n (!full && s.wordLost (s.pcOf w.line) u) * 64 + 1
    let (s, tag) := if full then s.tagUnder u ue else (s, wordTag u)
    s.storeLine w.line (overlay u w.data w.mask) tag dev
  else if w.tagPend then
    let (s, u, ue) := s.underWord w.line
    let (s, tag) := s.tagUnder u ue
    s.storeLine w.line w.data tag w.dev
  else s.storeLine w.line w.data w.utag w.dev

/-- A line whose index cannot be written now enters its engine's write queue where that has room, to be written once
the index serves again; else it is dropped, and its number noted (R211, R239, Table 13.4). -/
def holdLine (a : State × List Nat) (line : Nat) (data : List Nat) (utag dev : Nat) (whole : Bool) : State × List Nat :=
  let (s, lost) := a
  let pc := s.pcOf line
  if whole && !s.engPerm (s.engineOf pc) && s.wbRoom pc line then
    let (s, w) := s.encode pc line data utag (bitAt dev 7) (bitAt dev 6)
    let e := s.entry .write line none w 64 s.now
    ((s.wrqPut (s.engineOf pc) e line).mirror pc line e, lost)
  else (s, lost ++ [line])

/-- A way with unsaved bytes is written back, or its line held or dropped; an open merge entry and a pending tag need
the array and cannot be held. -/
def State.flushWay (k : Nat) (a : State × List Nat) (key : Nat) : State × List Nat :=
  match a.1.readUnsaved k key with
  | (s, none) => (s, a.2)
  | (s, some w) =>
    if s.storable (s.pcOf w.line) then (s.saveWay w, a.2)
    else holdLine (s, a.2) w.line w.data w.utag w.dev (decide (w.st ≠ WaySt.merge) && !w.tagPend)

/-- A line of the write-back buffer is written back, or held or dropped. -/
def State.flushBuffer (a : State × List Nat) (b : WbLine) : State × List Nat :=
  if a.1.storable (a.1.pcOf b.line) then (a.1.storeLine b.line b.data b.utag b.dev, a.2)
  else holdLine a b.line b.data b.utag b.dev true

/-- One slice is flushed; the indices whose lines could not be written and were dropped, one for each line. -/
def State.flushSlice (a : State × List Nat) (k : Nat) : State × List Nat :=
  let (s, lost) := a
  let c := s.slc k
  let ways := (c.ways.filter (fun e => e.2.unsaved)).map (·.1)
  let (s, gone) := ways.foldl (State.flushWay k) (c.wb.foldl State.flushBuffer (s, []))
  let kept : SMap Way := (c.ways.filter (fun e => !gone.contains e.2.line && decide (e.2.st ≠ WaySt.merge))).map
    (fun (e : Nat × Way) => if e.2.unsaved then (e.1, { e.2 with st := .clean, wbWait := false, staging := false, tagPend := false, errs := [] }) else e)
  (s.setSlc k { s.slc k with wb := [], ways := kept }, lost ++ gone.map s.pcOf)

/-- The engines write their queues, and every MODIFIED line is written back; the indices of the lines dropped. -/
def State.flushAll (s : State) : State × List Nat :=
  (List.range 32).foldl State.flushSlice (s.drainWrites, [])

end Sys2Proof.Machine
end

