-- ==== Sys2Proof/Machine/Thm.lean ====
section
/-! DEFINITION. Thermal sensing, the throttle flag and the warning, the shutdown and the restart (spec/13_thermal.md).
Temperatures are in 0.25 °C. Die 0 is the base die. -/

namespace Sys2Proof.Machine

open Sys2Proof.Reg

/-! ### Sensors (R370 to R372) -/

/-- What THM holds of a die. -/
def State.die (s : State) (d : Nat) : DieTherm := SMap.get {} s.thm.dies d

def State.setDie (s : State) (d : Nat) (v : DieTherm) : State := { s with thm := { s.thm with dies := SMap.set {} s.thm.dies d v } }

/-- The sensors of a die. -/
def sensorsOf (d : Nat) : List Nat := List.range (if d = 0 then 8 else 4)

def DieTherm.sensor (t : DieTherm) (i : Nat) : Sensor := SMap.get {} t.sensors i

/-- A temperature as 10 bits, two's complement, at the ends of the field's range where it lies beyond. -/
def tj10 (v : Int) : Nat := toBits 10 (max (-512) (min 511 v))

/-- A temperature as 16 bits, two's complement. -/
def tj16 (v : Int) : List Nat := beBytes 2 (toBits 16 v)

/-- The field that shows a sensor. -/
def sensorFld (d i : Nat) : Fld :=
  if d = 0 then (if i % 2 = 1 then THM.BASE_SENS_S_ODD (i / 2) else THM.BASE_SENS_S_EVEN (i / 2))
  else if i = 0 then THM.SENS_A_S0 d else if i = 1 then THM.SENS_A_S1 d else if i = 2 then THM.SENS_B_S2 d else THM.SENS_B_S3 d

/-- One sample of a sensor: none, or a value; outside −40 °C to 150 °C it is bad. -/
def Sensor.sample (x : Sensor) (v : Option Int) : Sensor :=
  match v with
  | some t =>
    if -160 ≤ t ∧ t ≤ 600 then
      let good := if x.failed then x.good + 1 else 0
      if 100 ≤ good then { x with value := t, bad := 0, good := 0, failed := false } else { x with value := t, bad := 0, good := good }
    else { x with bad := x.bad + 1, good := 0, failed := x.failed || decide (3 ≤ x.bad + 1) }
  | none => { x with bad := x.bad + 1, good := 0, failed := x.failed || decide (3 ≤ x.bad + 1) }

/-- A sensor of a die is sampled; one that fails now is reported. -/
def State.sampleSensor (d : Nat) (vals : List (Nat × Int)) (s : State) (i : Nat) : State :=
  let t := s.die d
  let x := t.sensor i
  let y := x.sample ((vals.find? (fun e => e.1 = i)).map (·.2))
  let s := s.setDie d { t with sensors := SMap.set {} t.sensors i y }
  let s := s.fset (sensorFld d i) (if y.failed then 0x200 else tj10 y.value)
  let s := if d = 0 then s else s.fset (THM.DIE_STAT_FAILED d) (setBit (s.fget (THM.DIE_STAT_FAILED d)) i y.failed)
  if y.failed && !x.failed then (s.fault (0x2B0 + d) 0x30 1 i).int I.thm 4 else s

/-- A base-die sensor more than 6 °C below both the model and the highest other sensor is left out while that holds. -/
def DieTherm.baseLow (t : DieTherm) (i : Nat) : Bool :=
  let v := (t.sensor i).value
  let others := ((List.range 8).filter (fun j => j ≠ i ∧ ¬ (t.sensor j).failed)).map (fun j => (t.sensor j).value)
  decide (v < t.model - 24) && others.any (fun o => decide (v < o - 24))

/-- A sensor is excluded. -/
def DieTherm.excluded (t : DieTherm) (d i : Nat) : Bool := (t.sensor i).failed || (decide (d = 0) && t.baseLow i)

/-- The mask of a die's excluded sensors. -/
def DieTherm.exclMask (t : DieTherm) (d : Nat) : Nat := maskOf 8 (fun i => decide (i ∈ sensorsOf d) && t.excluded d i)

/-- The reading: the highest sensor that is not excluded (Table 13.2). -/
def DieTherm.readingOf (t : DieTherm) (d : Nat) : Option Int :=
  ((sensorsOf d).filter (fun i => !t.excluded d i)).foldl (fun r i =>
    let v := (t.sensor i).value
    match r with
    | none => some v
    | some w => some (max v w)) none

/-! ### The temperature of a die (R373 to R376) -/

/-- The used temperature of a die. -/
def State.used (s : State) (d : Nat) : Int := signed 10 (if d = 0 then s.fget THM.BASE_EST_USED else s.fget (THM.DIE_STAT_USED d))

/-- The neighbour value of a core die; a mean between two values of the field is rounded down (DESIGN CHOICE, assumption
61). -/
def State.neighbour (s : State) (d : Nat) : Int :=
  if d < s.dies then (s.used (d - 1) + s.used (d + 1)) / 2 else 2 * s.used (d - 1) - s.used (d - 2)

/-- The substituted value of a core die. -/
def DieTherm.subst (t : DieTherm) : Int := max t.model t.neighbour + 12

/-- A die's flags in every register that shows them. -/
def State.setSubst (s : State) (d : Nat) (on : Bool) : State :=
  ((s.setFlag (THM.DIE_STAT_SUBST d) on).setFlag (DCH.STATUS_SUBST d) on).fset THM.STATUS_SUBST
    (setBit (s.fget THM.STATUS_SUBST) (d - 1) on)

/-- The highest used temperature now and since PORST_N. -/
def State.showMax (s : State) : State :=
  let best := (List.range s.dies).foldl (fun (b : Nat × Int) i => if b.2 < s.used (i + 1) then (i + 1, s.used (i + 1)) else b)
    (0, s.used 0)
  let s := (s.fset THM.MAX_TJ_NOW (tj10 best.2)).fset THM.MAX_TJ_NOW_DIE best.1
  if signed 10 (s.fget THM.MAX_TJ_PEAK) < best.2 then s.fset THM.MAX_TJ_PEAK (tj10 best.2) else s

/-- Since when a core die stays at or below 83.0 °C (R229). -/
def State.noteCool (s : State) (d : Nat) (v : Int) : State :=
  let old := SMap.get none s.thm.cool d
  let new := if 332 < v then none else some (old.getD s.now)
  { s with thm := { s.thm with cool := SMap.set none s.thm.cool d new } }

/-- The used temperature of a die becomes `v`. -/
def State.setUsed (s : State) (d : Nat) (v : Int) : State :=
  let s := if d = 0 then s.fset THM.BASE_EST_USED (tj10 v)
    else
      let s := (s.fset (THM.DIE_STAT_USED d) (tj10 v)).fset (DCH.TEMP_TJ d) (tj10 v)
      let s := if signed 10 (s.fget (THM.DIE_STAT_PEAK d)) < v then s.fset (THM.DIE_STAT_PEAK d) (tj10 v) else s
      s.noteCool d v
  s.showMax

/-- The bytes of SENSOR_SUSPECT (Table 13.7). -/
def suspectDetail (d : Nat) (t : DieTherm) : List Nat :=
  [d, t.exclMask d] ++ tj16 (t.reading.getD 0) ++ tj16 t.model ++ tj16 t.neighbour ++ tj16 t.subst

/-- The low condition and the suspicion of a core die at a sample (R375), not before the model is armed (R374); it ends once the reading has stayed close to
the estimates for 1 s. -/
def State.suspicion (s : State) (d : Nat) : State :=
  let t := s.die d
  let armed := s.flag THM.STATUS_MODEL_ARMED
  let low := match t.reading with
    | some r => armed && decide (r < t.model - 24) && decide (r < t.neighbour - 24)
    | none => false
  let near := match t.reading with
    | some r => decide (max t.model t.neighbour - 12 ≤ r)
    | none => false
  let cnt := if low then t.lowCnt + 1 else 0
  let since := if near then some (t.nearFrom.getD s.now) else none
  let s := s.setDie d { t with lowCnt := cnt, nearFrom := since }
  let was := s.flag (THM.DIE_STAT_SUSPECT d)
  if !was && (decide (10 ≤ cnt) || (armed && t.reading.isNone)) then
    let s := ((s.setFlag (THM.DIE_STAT_SUSPECT d) true).setSubst d true).int I.thm 3
    (s.event 0x0022 1 (suspectDetail d t)).fault (0x2B0 + d) 0x30 1 16
  else if was && (match since with
      | some f => decide (f + 1000000000 ≤ s.now)
      | none => false) then
    (s.setFlag (THM.DIE_STAT_SUSPECT d) false).setSubst d t.held
  else s

/-- A reset of a die's logic holds its sensors: the substituted value is used without suspicion (R376). -/
def State.holdSensors (s : State) (d : Nat) : State :=
  let s := (s.setDie d { s.die d with held := true }).setSubst d true
  s.setUsed d (s.die d).subst

/-- The first good sample after the reset. -/
def State.unholdSensors (s : State) (d : Nat) (good : Bool) : State :=
  if (s.die d).held && good then (s.setDie d { s.die d with held := false }).setSubst d (s.flag (THM.DIE_STAT_SUSPECT d)) else s

/-- The reading becomes the used temperature; a free value where every sensor is excluded, for which Table 13.2 has none. -/
def State.useReading (s : State) (d : Nat) (r : Option Int) : State :=
  match r with
  | some v => s.setUsed d v
  | none =>
    let (x, s) := s.fresh
    s.setUsed d (signed 10 (x % 1024))

/-- A die's reading, its estimates and its used temperature from its sensors (Table 13.2). -/
def State.formTemp (s : State) (d : Nat) : State :=
  let t := s.die d
  let t := { t with reading := t.readingOf d, neighbour := if d = 0 then 0 else s.neighbour d }
  let s := s.setDie d t
  if d = 0 then s.useReading 0 t.reading
  else
    let s := (s.fset (THM.DIE_EST_NEIGHBOUR d) (tj10 t.neighbour)).suspicion d
    if s.flag (THM.DIE_STAT_SUBST d) then s.setUsed d t.subst else s.useReading d t.reading

/-! ### Fast sampling, throttle and warning (R371, R378, R379) -/

/-- A die is sampled fast from 95.0 °C on until it has stayed below 93.0 °C for 100 ms. -/
def State.fastSample (s : State) (d : Nat) : State :=
  let u := s.used d
  let t := s.die d
  let was := bitAt (s.fget THM.STATUS_FAST) d
  let since := if u < 372 then some (t.slowFrom.getD s.now) else none
  let s := s.setDie d { t with slowFrom := since }
  let past := match since with
    | some f => decide (f + 100000000 ≤ s.now)
    | none => false
  let fast := if was then !past else decide (380 ≤ u)
  let s := s.fset THM.STATUS_FAST (setBit (s.fget THM.STATUS_FAST) d fast)
  if d = 0 then s else s.setFlag (THM.DIE_STAT_FAST d) fast

/-- The dies from the base die up. -/
def State.allDies (s : State) : List Nat := List.range (s.dies + 1)

/-- The throttle level in force. -/
def State.throttleTj (s : State) : Int :=
  min (signed 10 (s.fget THM.THR_CFG_THROTTLE_TJ)) (s.fget THM.WARN_CFG_WARN_TJ : Int)

/-- The throttle flag. -/
def State.throttle (s : State) : State :=
  let level := s.throttleTj
  let hyst : Int := s.fget THM.THR_CFG_THROTTLE_HYST
  let was := s.flag THM.STATUS_THROTTLE
  if !was && s.allDies.any (fun d => decide (level ≤ s.used d)) then (s.setFlag THM.STATUS_THROTTLE true).int I.thm 2
  else if was && s.allDies.all (fun d => decide (s.used d < level - hyst)) then s.setFlag THM.STATUS_THROTTLE false
  else s

/-- The bytes of THERMAL_WARN and THERMAL_CLEAR. -/
def State.warnDetail (s : State) (d : Nat) : List Nat :=
  [d] ++ tj16 (s.used d) ++ [if d = 0 then 0 else b2n (s.flag (THM.DIE_STAT_SUBST d))]

/-- STATUS.WARN, and the thermal cause of ALERT_N that follows it (R379, R489). -/
def State.showWarn (s : State) : State :=
  let on := s.allDies.any (fun d => (s.die d).warned)
  (s.setFlag THM.STATUS_WARN on).alert 0 on

/-- A die warns at WARN_TJ; since when a warned die stays below the level that clears it is kept. -/
def State.warn (s : State) (d : Nat) : State :=
  let level : Int := s.fget THM.WARN_CFG_WARN_TJ
  let hyst : Int := s.fget THM.WARN_CFG_WARN_HYST
  let t := s.die d
  let u := s.used d
  if !t.warned && decide (level ≤ u) then
    let s := (s.setDie d { t with warned := true, coolFrom := none }).showWarn
    (s.int I.thm 0).event 0x0020 1 (s.warnDetail d)
  else s.setDie d { t with coolFrom := if t.warned && decide (u < level - hyst) then some (t.coolFrom.getD s.now) else none }

/-- A reset holds the sensors of a die: its used temperature is the substituted one from now on, and is acted on (R376). -/
def State.holdDie (s : State) (d : Nat) : State := ((s.holdSensors d).fastSample d).throttle.warn d

/-- A warned die that has stayed below the level for 100 ms clears (R379). -/
def State.thermalClear (s : State) (d : Nat) : State :=
  let t := s.die d
  let past := match t.coolFrom with
    | some f => decide (f + 100000000 ≤ s.now)
    | none => false
  if t.warned && past then
    let s := (s.setDie d { t with warned := false, coolFrom := none }).showWarn
    (s.int I.thm 1).event 0x0021 0 (s.warnDetail d)
  else s

def execThermalClear (d : Nat) (s : State) : Host.Outcome State Fault Refusal :=
  done (if d ≤ s.dies ∧ ¬ s.frozen ∧ s.pwr ≤ 2 then s.thermalClear d else s)

/-! ### The shutdown (R380, R381) -/

/-- Step 4 of Table 13.4: the flush, and the lines dropped at its end. -/
def State.tripFlush (s : State) : State :=
  let (s, lost) := s.flushAll
  let s : State := { s with thm := { s.thm with lostPcs := lost.foldl (fun l k => if l.contains k then l else l ++ [k]) [] } }
  if lost = [] then s else (s.bumpSat LCH.DROP_CNT_COUNT lost.length).int I.lch 4

/-! ### What PWR shows, and the end of a PWR_SET -/

/-- A port's bring-up has not ended: it is on its way to UP. -/
def State.comesUp (s : State) (p : Nat) : Bool := [1, 2, 3, 4, 8].contains (s.portState p)

/-- The step of the exit from Furl that waits for its ports: 8 until every one of them has entered LINK_INIT, then 9 (Table
14.9). -/
def State.wakeStep (s : State) : Nat :=
  if (List.range 8).any (fun p => s.comesUp p && decide (s.portState p ≠ 4)) then 8 else 9

/-- The transition and the pending slot in PWR.STATE. No abort point is left in an exit (R400). -/
def State.showPwr (s : State) : State :=
  let (t, k) := match s.pw.entry with
    | some e => (e.target, e.step)
    | none => (s.pwr, if s.pw.waking.isSome then s.wakeStep else 0)
  let s := ((s.fset PWR.STATE_TARGET t).fset PWR.STATE_STEP k).fset PWR.STATE_NEXT_ABORT (if k ≤ lastAbort t then k else 0)
  (s.setFlag PWR.STATE_PEND_VALID s.pw.slot.isSome).fset PWR.STATE_PEND_TARGET ((s.pw.slot.map (·.1)).getD 0)

/-- A RESULT of PWR_SET (Table 14.11). -/
def pwrResult (reached abort cause code : Nat) : Nat := reached * 2 ^ 20 + abort * 2 ^ 16 + cause * 2 ^ 8 + code

/-- A PWR_SET ends: LAST_RESULT and its pending operation. -/
def State.endPwrSet (s : State) (op : Option Nat) (status result : Nat) : State :=
  let s := s.setReg PWR.LAST_RESULT (BitVec.ofNat 32 (status * 2 ^ 24 + result))
  match op with
  | some id => s.finishOp id status result
  | none => s

/-- The PWR_SETs of the transition, of those that wait for its unwinding and of the pending slot. -/
def State.pwrOps (s : State) : List Nat :=
  (match s.pw.entry with
   | some e => e.op.toList
   | none => []) ++ s.pw.sail ++ (s.pw.slot.map (·.2)).toList

/-- A power-state transition stops at its step, and the requests for one end ABORTED with the state reached and the thermal
cause (R405, R406); an exit from Furl goes on after the restart. -/
def State.tripPower (s : State) : State :=
  let s := s.pwrOps.foldl (fun (s : State) id => s.endPwrSet (some id) St.aborted (pwrResult (s.fget PWR.STATE_CUR) 0 3 0)) s
  State.showPwr { s with pw := { s.pw with entry := none, slot := none, sail := [], wake := none, took := none,
                                           hold := s.pw.waking.isSome } }

/-- The audit counts of the assembled indices now, with the always-on time. -/
def State.noteAudit (s : State) : State :=
  let counts : SMap Nat := (List.range s.pcs).map (fun k => (k, (s.eng (s.engineOf k)).audit))
  { s with thm := { s.thm with audit := counts, tripAon := s.aon } }

/-- A value at or above 105.00 °C trips the device (Table 13.4). -/
def State.trip (s : State) (d : Nat) (v : Int) (subst : Bool) : State :=
  if s.tripped then s
  else
    let n := min 255 (s.fget THM.TRIP_STAT_COUNT + 1)
    let s := s.setReg THM.TRIP_STAT (BitVec.ofNat 32 (n * 2 ^ 24 + d * 2 ^ 20 + b2n subst * 2 ^ 19 + tj10 v))
    let s : State := { s with thm := { s.thm with pin := true, holdFrom := none } }
    let s := (s.record 0x08 0 0 (0x2B0 + d) ([d] ++ tj16 v ++ [b2n subst]) true).int I.thm 5
    let s := s.fault (0x2B0 + d) 0x31 3 (tj10 v)
    let s := (s.endPackets St.aborted).tripPower.endActivity (s.otp.job.bind (·.op))
    let s := State.stopFlush s.disableAll.discardRequests
    let s : State := { s with mgc := { s.mgc with inq := [] } }
    let s := s.tripFlush
    let s := s.engines.foldl (fun (s : State) m => if s.engPerm m ∨ s.engSr m then s else s.enterSr m) s
    (s.noteAudit).setFlag THM.STATUS_TRIPPED true

/-- The comparator tests a die's reading, and its substituted value where that is used. -/
def State.tripTest (s : State) (d : Nat) : State :=
  let t := s.die d
  let s := match t.reading with
    | some r => if 420 ≤ r then s.trip d r false else s
    | none => s
  if 0 < d ∧ s.flag (THM.DIE_STAT_SUBST d) ∧ 420 ≤ t.subst then s.trip d t.subst true else s

/-! ### Samples (R371) -/

/-- While the device is tripped with AUTO_RESTART, every value below 80.00 °C starts the hold of 1 s; any other value, or
AUTO_RESTART cleared, ends it (R382). -/
def State.restartHold (s : State) : State :=
  if ¬ s.tripped then s
  else
    let cold := s.flag THM.CTRL_AUTO_RESTART && s.allDies.all (fun d => decide (s.used d < 320) && (sensorsOf d).all (fun i =>
      (s.die d).excluded d i || decide (((s.die d).sensor i).value < 320)))
    let since := if cold then some (s.thm.holdFrom.getD s.aon) else none
    State.setFlag { s with thm := { s.thm with holdFrom := since } } THM.STATUS_RESTART_HOLD cold

/-- A die's sensors are sampled; a sensor without a value returned no sample. A reset of the die's logic holds them. -/
def State.sampleDie (s : State) (d : Nat) (vals : List (Nat × Int)) : State :=
  let s := if 0 < d ∧ s.fget (DCH.STATUS_DIE_STATE d) ≠ 0 then s.holdSensors d
    else
      let s := (sensorsOf d).foldl (State.sampleSensor d vals) s
      let good := (sensorsOf d).any (fun i => ((s.die d).sensor i).bad = 0 && !((s.die d).sensor i).failed)
      (s.unholdSensors d good).formTemp d
  (((s.fastSample d).throttle.warn d).tripTest d).restartHold

def execThmSample (d : Nat) (vals : List (Nat × Int)) (s : State) : Host.Outcome State Fault Refusal :=
  done (if d ≤ s.dies ∧ ¬ s.frozen ∧ s.pwr ≤ 2 ∧ s.devState ≤ 1 then s.sampleDie d vals else s)

/-- Once per second the always-on domain samples every sensor in Furl, limp state and freeze: a reading at or above
105.00 °C drives THERMTRIP_N; in Furl the restart condition of R382, every value below 80.00 °C for 1 s with AUTO_RESTART,
releases it (R381, R500). -/
def State.aonSample (s : State) (temps : List Int) : State :=
  if temps.any (fun t => decide (420 ≤ t)) then { s with thm := { s.thm with pin := true, holdFrom := none } }
  else if s.pwr ≠ 3 ∨ s.devState = 4 ∨ s.frozen ∨ ¬ s.thm.pin then s
  else if ¬ s.flag THM.CTRL_AUTO_RESTART ∨ temps.any (fun t => decide (320 ≤ t)) then
    { s with thm := { s.thm with holdFrom := none } }
  else
    match s.thm.holdFrom with
    | some f => if f + 1000000000 ≤ s.aon then { s with thm := { s.thm with pin := false, holdFrom := none } } else s
    | none => { s with thm := { s.thm with holdFrom := some s.aon } }

def execAonThermalSample (temps : List Int) (s : State) : Host.Outcome State Fault Refusal :=
  done (if s.pwr = 3 ∨ s.devState = 4 ∨ s.frozen then s.aonSample temps else s)

/-! ### Restart (R382, Table 13.5) -/

/-- An index whose refresh audit falls short by more than 1% of the elapsed time, or that lost lines in the trip. -/
def State.tripLost (s : State) (k : Nat) : Bool :=
  let grown := (s.eng (s.engineOf k)).audit - SMap.get 0 s.thm.audit k
  s.thm.lostPcs.contains k || decide (3900000 * grown < 1980 * (s.aon - s.thm.tripAon))

/-- The device restarts in Sail: SRX, the retention test, THERMTRIP_N released, and firmware enables the ports. -/
def State.restart (s : State) : State :=
  let lost := (List.range s.pcs).filter (fun k => !s.engPerm (s.engineOf k) && s.tripLost k)
  let s := s.srxAll
  let s := lost.foldl State.markLost s
  let s : State := { s with thm := { s.thm with pin := false, holdFrom := none, lostPcs := [], audit := [] } }
  let s := ((s.setFlag THM.STATUS_TRIPPED false).setFlag THM.STATUS_RESTART_HOLD false).int I.thm 6
  let s := (s.fset PWR.STATE_CUR 0).fset PWR.STATE_TARGET 0
  s.enableAll.startSweep

def execRestart (s : State) : Host.Outcome State Fault Refusal :=
  done (match s.thm.holdFrom with
  | some f =>
    if s.tripped ∧ s.flag THM.CTRL_AUTO_RESTART ∧ f + 1000000000 ≤ s.aon ∧ ¬ s.frozen then s.restart else s
  | none => s)

/-! ### Halyard packets (Table 13.6) -/

/-- Two 10-bit temperatures in a word. -/
def pair10 (a b : Nat) : Nat := a * 65536 + b

/-- Sixteen-bit values in pairs, the first of each pair in [31:16]. -/
def pair16 : List Nat → List Nat
  | a :: b :: r => (a * 65536 + b) :: pair16 r
  | [a] => [a * 65536]
  | [] => []

/-- One 16-bit value for the base die and D1 to D8, 0x8000 for an absent die. -/
def State.perDie (s : State) (f : Nat → Nat) : List Nat :=
  pair16 ((List.range 9).map (fun d => if d ≤ s.dies then f d % 65536 else 0x8000) ++ [0])

def execReadTelemetry (h : Halyard) (s : State) : Host.Outcome State Fault Refusal :=
  done (s.packet 0x02 h (fixedLen 0) (fun s _ =>
    let rails := (List.range 7).map (fun i =>
      let r := s.thm.rails.getD i (0, 0)
      r.1 % 65536 * 65536 + r.2 % 65536)
    s.replyOk 0x02 h ([s.fget THM.ROUND_COUNT] ++ rails ++ [s.fget THM.POWER_PKG_MW * 65536] ++
      s.perDie (fun d => toBits 16 (s.thm.temps.getD d 0)))))

/-- THM_READ. The reading of a die whose every sensor is excluded shows as 0 (DESIGN CHOICE, assumption 84). -/
def execThmRead (h : Halyard) (s : State) : Host.Outcome State Fault Refusal :=
  done (s.packet 0x90 h (fixedLen 1) (fun s _ =>
    let d := bits (arg h 0) 0 4
    if s.dies < d ∨ bits (arg h 0) 4 28 ≠ 0 then s.replyBad 0x90 h 0
    else
      let t := s.die d
      let sens := (List.range 4).map (fun i => if d = 0 ∨ i < 2 then
        pair10 (s.fget (sensorFld d (2 * i + 1))) (s.fget (sensorFld d (2 * i))) else 0)
      let model := if d = 0 then s.fget THM.BASE_EST_MODEL else s.fget (THM.DIE_EST_MODEL d)
      let near := if d = 0 then 0 else s.fget (THM.DIE_EST_NEIGHBOUR d)
      let dbl := decide (0 < d) && s.flag (DCH.STATUS_REF_DOUBLE d)
      let sub := decide (0 < d) && s.flag (THM.DIE_STAT_SUBST d)
      let flags := t.exclMask d * 2 ^ 24 + 8 * b2n sub + 4 * b2n dbl + 2 * b2n t.warned + b2n (bitAt (s.fget THM.STATUS_FAST) d)
      s.replyOk 0x90 h (sens ++ [pair10 (tj10 (t.reading.getD 0)) model, pair10 near (tj10 (s.used d)), flags])))

/-- Every die is tested again at the levels in force. -/
def State.retestLevels (s : State) : State := (s.allDies.foldl State.warn s).throttle

def execThmSetWarn (h : Halyard) (s : State) : Host.Outcome State Fault Refusal :=
  done (s.packet 0x91 h (fixedLen 1) (fun s _ =>
    let thr := bits (arg h 0) 16 10
    let warn := bits (arg h 0) 0 10
    let next := if warn = 0 then s.fget THM.WARN_CFG_WARN_TJ else warn
    if warn ≠ 0 ∧ (warn < 0x0F0 ∨ 0x17C < warn) then s.replyBad 0x91 h 0
    else if thr ≠ 0 ∧ (thr < 280 ∨ next < thr) then s.replyBad 0x91 h 0
    else
      let s := s.fset THM.WARN_CFG_WARN_TJ next
      let s := if thr = 0 then s else s.fset THM.THR_CFG_THROTTLE_TJ thr
      s.retestLevels.replyOk 0x91 h []))

def execThmModel (h : Halyard) (s : State) : Host.Outcome State Fault Refusal :=
  done (s.packet 0x92 h (fixedLen 0) (fun s _ =>
    let armed := s.flag THM.STATUS_MODEL_ARMED
    s.replyOk 0x92 h ([b2n armed * 2 ^ 31 + (if armed then min 0xFFFF s.thm.armedFor else 0)] ++
      s.perDie (fun d => toBits 16 (s.die d).model) ++ s.perDie (fun d => min 0xFFFF (SMap.get 0 s.thm.power d)))))

/-! ### The housekeeping round (R383, R384) -/

/-- Power of a rail in milliwatts, rounded down (DESIGN CHOICE, assumption 61). -/
def railMw (r : Nat × Nat) : Nat := r.1 * r.2 / 1000

/-- The node powers (R374): the base die has the power of its own rails, and the core dies share that of VDDQ_S and VPP_S by
their activity, equally where none had any (DESIGN CHOICE, assumption 61). -/
def State.nodePowers (s : State) (activity : List Nat) (array base : Nat) : SMap Nat :=
  let w := (List.range s.dies).map (fun i => nth activity i)
  let all := w.sum
  (0, base) :: (List.range s.dies).map (fun i => (i + 1, if all = 0 then array / s.dies else array * nth activity i / all))

/-- Steps 1 and 2: the rails and the node powers. -/
def State.measure (s : State) (o : RoundObs) : State :=
  let rail (i : Nat) : Nat := railMw (o.rails.getD i (0, 0))
  let pkg := ((List.range 7).map rail).sum
  let array := rail 3 + rail 4
  let s : State := { s with thm := { s.thm with rails := o.rails, power := s.nodePowers o.activity array (pkg - array) } }
  (s.fset THM.POWER_PKG_MW (min 65535 pkg)).fset THM.POWER_ARRAY_MW (min 65535 array)

/-- Step 3: the model advances; its base-die node is the base-die reading. A die that uses its substituted value takes
the new one, and the comparator tests it; a value of 80 °C or more ends the hold before a restart (R382). -/
def State.advanceModel (s : State) (o : RoundObs) : State :=
  let base := ((s.die 0).reading).getD (s.die 0).model
  let s := (s.setDie 0 { s.die 0 with model := base }).fset THM.BASE_EST_MODEL (tj10 base)
  let s : State := { s with thm := { s.thm with board := o.board } }
  let s := (List.range s.dies).foldl (fun (s : State) i =>
    let d := i + 1
    let m := o.model.getD i 0
    let s := (s.setDie d { s.die d with model := m }).fset (THM.DIE_EST_MODEL d) (tj10 m)
    if s.flag (THM.DIE_STAT_SUBST d) then (((s.setUsed d (s.die d).subst).fastSample d).warn d).tripTest d else s) s
  let s := s.throttle.restartHold
  if s.flag THM.STATUS_MODEL_ARMED then { s with thm := { s.thm with armedFor := s.thm.armedFor + 1 } }
  else if s.ready ∧ s.inSail then
    let n := s.thm.rounds + 1
    let s : State := { s with thm := { s.thm with rounds := n } }
    s.setFlag THM.STATUS_MODEL_ARMED (decide (max 1 (s.fget THM.MODEL_CFG_ARM_ROUNDS) ≤ n))
  else s

/-- The quotient rounded to the nearest integer, a half upward (DESIGN CHOICE, assumption 61). -/
def roundDiv (a b : Int) : Int := (2 * a + b) / (2 * b)

/-- Step 4: the FIO compensation; where it differs from the offset applied, one step waits for MCLK idle, and none without
FIO_COMP_EN; and the second-order correction of the references (R384). -/
def State.fioComp (s : State) : State :=
  let s : State := { s with thm := { s.thm with corrAt := some (s.used 0) } }
  if ¬ s.flag THM.CTRL_FIO_COMP_EN then { s with cal := { s.cal with compStep := none } }
  else
    let comp := roundDiv (signed 8 (s.fget THM.MODEL_CFG_FIO_TC) * (s.used 0 - 180)) 256
    { s with cal := { s.cal with compStep := if comp = s.cal.comp then none else some (decide (s.cal.comp < comp)) } }

/-- The audit comparison of R230: growth of the core die's count, less the REFs that the core die timed itself in
self-refresh (R231; DEDUCED, assumption 26), against growth of ENG_REF. -/
def State.auditEngine (compare : Bool) (s : State) (m : Nat) : State :=
  let g := s.eng m
  let d := engDie m
  let ref := s.fget (DCH.ENG_REF_COUNT d (engNo m))
  let s := s.setEng m { g with lastRef := ref, lastAudit := g.audit, srRefs := 0 }
  if compare ∧ g.audit - g.lastAudit - g.srRefs ≠ (ref + 2 ^ 32 - g.lastRef) % 2 ^ 32 then
    (s.int (I.dch d) 0).fault (0x080 + m) 0x27 2 0
  else s

/-- REFs that a core die did not execute, by engine: its count falls behind. -/
def State.missRefs (s : State) (missed : List (Nat × Nat)) : State :=
  missed.foldl (fun (s : State) x =>
    let g := s.eng x.1
    (s.setEng x.1 { g with audit := g.audit - x.2 }).fset (DCH.AUDIT_COUNT (engDie x.1) (engNo x.1)) (g.audit - x.2)) s

/-- The comparison runs in Sail, and skips the first round after a resume (R503). -/
def State.auditRound (s : State) : State :=
  let compare := s.inSail && !s.cns.skipAudit
  s.engines.foldl (State.auditEngine compare) { s with cns := { s.cns with skipAudit := false } }

/-- The power limit in milliwatts (R408). -/
def State.limitMw (s : State) : Int := (100 * max 100 (min 300 (s.fget PWR.GOV_CFG_LIMIT)) : Nat)

/-- The action that the governor takes (Table 14.14): what of its registers changed. -/
def govAction (a b : State) (low : Bool) : Nat :=
  let scan (x : State) : Nat := x.fget SCH.GOV_CEIL_SCAN_CEIL
  let link (x : State) : Nat := x.fget SCH.GOV_CEIL_LINK_CEIL
  if scan b < scan a then 1 else if b.sch.half ∧ ¬ a.sch.half then 2 else if link b < link a then 3
  else if link a < link b then 4 else if a.sch.half ∧ ¬ b.sch.half then 5 else if scan a < scan b then 6
  else if low then 7 else 0

/-- Step 5: the governor, with what it did. -/
def State.governStep (s : State) : State :=
  let h := s.limitMw - (s.fget THM.POWER_PKG_MW : Int)
  let hot := s.flag THM.STATUS_THROTTLE
  let t := s.governor h hot
  let t := (t.fset PWR.GOV_STAT_HEADROOM (toBits 16 (max (-32768) (min 32767 h)))).setFlag PWR.GOV_STAT_C60_HALF t.sch.half
  t.fset PWR.GOV_STAT_LAST_ACTION (govAction s t (hot || decide (h < 500)))

/-- A wake scrub that waits for its admission test tries again (R403). -/
def State.wakeScrub (s : State) : State :=
  if s.pw.scrubWait ∧ ¬ s.pw.hold ∧ s.pw.fill = 0 ∧ ¬ s.ecc.fast.isSome ∧ ¬ s.ecc.sweep.isSome ∧ s.admits s.fastView then
    let mask := maskOf 128 (fun k => decide (k < s.pcs) && bitAt s.pw.ret k && !s.fenced k)
    let s : State := { s with pw := { s.pw with scrubWait := false }, ecc := { s.ecc with fast := some ⟨mask, 0, none, 0, []⟩ } }
    (s.setFlag PWR.WAKE_STAT_SCRUB_BUSY true).setC60
  else s

/-- READ_TELEMETRY shows the used temperatures of the last round. -/
def State.latchTemps (s : State) : State := { s with thm := { s.thm with temps := s.allDies.map s.used } }

/-- One housekeeping round. After a trip the blocks of the audit and of the scheduler's model stand (R380). -/
def State.round (s : State) (o : RoundObs) : State :=
  let s := (((s.measure o).bump THM.ROUND_COUNT 1).advanceModel o).fioComp
  let s := if s.tripped then s else (s.missRefs o.missed).auditRound
  let s := s.governStep.latchTemps
  if s.tripped then s
  else
    let s := s.recompute true
    if s.ready then s.wakeScrub else s

/-- The first round, at boot step 3 on FIO, after the first base-die reading (R383). -/
def State.firstRound (s : State) (o : RoundObs) (temp : Int) : State :=
  ((s.setDie 0 { s.die 0 with reading := some temp }).setUsed 0 temp).round o

end Sys2Proof.Machine
end

