-- ==== Sys2Proof/Machine/Power.lean ====
section
/-! DEFINITION. Power states (spec/14_power_states.md): the wake sources, the entries to Reef, Furl and Off with their
steps and abort points, unwinding, the exit from Reef, and the power-state packets. The exit from Furl is in
FurlExit.lean, with the boot operations that it shares. -/

namespace Sys2Proof.Machine

open Sys2Proof.Reg

/-! ### Requests -/

/-- A pending request ends SUPERSEDED (R404). -/
def State.supersede (s : State) : State :=
  match s.pw.slot with
  | none => s
  | some (_, id) =>
    let s := State.endPwrSet { s with pw := { s.pw with slot := none } } (some id) St.superseded (pwrResult (s.fget PWR.STATE_CUR) 0 0 0)
    (s.int I.pwr 2).showPwr

/-! ### Idleness (R390) -/

/-- A slot other than idle flits has come to a port and waits in its receive buffer or for the rest of its request. -/
def State.slotsWait (s : State) : Bool :=
  (List.range 8).any (fun p => !(s.link p).rx.isEmpty || !(s.link p).asm.isEmpty)

/-- The device is idle: no slot received, no request outstanding, no scan, no halyard packet executing, and no activity of
R390 in progress. -/
def State.idleDevice (s : State) : Bool :=
  !s.slotsWait && s.txns.isEmpty && s.scn.queue.isEmpty && s.scn.runs.isEmpty && s.mgc.inq.isEmpty && s.mgc.twq.isNone &&
    s.mgc.commit.isNone && s.mgc.quiesce.isEmpty && s.ecc.evac.isNone && s.ecc.evacQ.isEmpty && s.ecc.sweep.isNone &&
    s.ecc.sweepQ.isEmpty && s.ecc.fast.isNone && s.ecc.spares.isEmpty && s.stk.bist.isNone && s.stk.tests.isEmpty &&
    s.stk.relay.isNone && s.cal.run.isNone && s.cal.windows.isEmpty &&
    !(match s.otp.job with
      | some j => j.ans.isSome
      | none => false)

/-! ### The steps of an entry -/

/-- The indices retained by the entry: those latched at step 1, without absent and permanently fenced ones. -/
def State.retained (s : State) : List Nat :=
  (List.range s.pcs).filter (fun k => bitAt s.pw.ret k && !s.engPerm (s.engineOf k))

/-- RET_MASK as one mask. -/
def State.retMask (s : State) : Nat := maskOf 128 (fun k => bitAt (s.reg (PWR.RET_MASK (k / 32))).toNat (k % 32))

/-- Ports in a state with an idle entry still ordered. -/
def State.idlePending (s : State) (st : Nat) : Bool :=
  (List.range 8).any (fun p => s.portState p = st && (s.port p).idleWant.isSome)

/-- The step of the entry in progress has ended (Tables 14.3 and 14.5). -/
def State.entryDone (s : State) (e : PwrEntry) : Bool :=
  if e.target = 1 then decide (e.step = 1) || !s.idlePending 5
  else if e.target = 2 then
    if e.step = 2 then s.flush.isNone else decide (e.step ≠ 4) || !s.idlePending 6
  else if e.step = 1 then
    s.mgc.commit.isNone && s.stk.relay.isNone && s.ecc.sweep.isNone && s.ecc.sweepQ.isEmpty && s.ecc.spares.isEmpty
  else if e.step = 3 then s.txns.all (fun t => decide (t.stage ≠ 2) && decide (t.stage ≠ 3))
  else decide (e.step ≠ 4) || s.flush.isNone

/-- A wake event of the entry has been seen (R396): for Reef, any activity too. -/
def State.wakeSeen (s : State) (e : PwrEntry) : Bool := s.pw.wake.isSome || (decide (e.target ≤ 2) && !s.idleDevice)

/-- The power controller's flush: a flush that runs already goes on as its own, and is that of its orderer again where the entry
unwinds before its end (R396). -/
def State.powerFlush (s : State) (inv : Bool) : State :=
  let old := match s.flush with
    | some f => f.inv
    | none => false
  State.startFlush { s with flush := none, pw := { s.pw with took := s.flush } } (inv || old) 1

/-- The entry's flush ends with its unwinding: the walker stops, or goes on for whoever ordered the flush that was taken over
(R273, R396). -/
def State.yieldFlush (s : State) : State :=
  let s := match s.flush with
    | some f => if f.by_ ≠ 1 then s
      else match s.pw.took with
        | some g => { s with flush := some g }
        | none => s.stopFlush
    | none => s
  { s with pw := { s.pw with took := none } }

/-- The ports in a state are ordered to enter idle. -/
def State.orderIdle (s : State) (st : Nat) (deep : Bool) : State :=
  (List.range 8).foldl (fun (s : State) p =>
    if s.portState p = st then s.setPort p { s.port p with idleWant := some deep, idleAnnounced := false } else s) s

/-- Idle entries that were ordered and not made are withdrawn. -/
def State.withdrawIdle (s : State) : State :=
  (List.range 8).foldl (fun (s : State) p =>
    if (s.port p).idleWant.isSome then
      s.setPort p { s.port p with idleWant := none, idleAnnounced := false, announce := 0 }
    else s) s

/-- A state is entered: CUR, its time and the transition's end. -/
def State.enterPwr (s : State) (cur : Nat) : State :=
  State.showPwr { (s.fset PWR.STATE_CUR cur) with pw := { s.pw with entry := none, since := s.aon } }

/-- One step of a Reef-1 entry after its first: the ports go to light idle, then every engine to active power-down
(R391). -/
def State.reef1Step (s : State) (k : Nat) : State :=
  if k = 2 then s.orderIdle 5 false
  else
    let s := s.engines.foldl (fun (s : State) m => if s.engSr m then s else s.enterPd m) s
    (s.enterPwr 1).bump PWR.STATE_CNT_REEF1 1

/-- One step of a Reef-2 entry after its first (Table 14.3). A port whose LPLL stops abandons its bring-up (R49). -/
def State.reef2Step (s : State) (k : Nat) : State :=
  if k = 2 then s.powerFlush false
  else if k = 3 then
    s.drainWrites.engines.foldl (fun (s : State) m => if s.engSr m then s else s.enterSr m) s.drainWrites
  else if k = 4 then s.orderIdle 6 true
  else
    let s := (List.range 4).foldl (fun (s : State) j =>
      [2 * j, 2 * j + 1].foldl State.abandonBringup
        ((s.setFlag (CLK.PLL_STAT_EN (2 + j)) false).setFlag (CLK.PLL_STAT_LOCKED (2 + j)) false)) s
    let s := [3, 4].foldl (fun (s : State) i => s.setFlag (CLK.MON_STAT_ARMED i) false) s
    (s.enterPwr 2).bump PWR.STATE_CNT_REEF2 1

/-- Admission and internal traffic stop, and activity ends as Table 14.6 gives; the requests that wait in the slot or for
unwinding stay (R404). -/
def State.stopForEntry (s : State) (op : Option Nat) : State :=
  let kept := s.pw.sail ++ (s.pw.slot.map (·.2)).toList
  let s := State.abortScans { s with pw := { s.pw with hold := true } } 3 (fun _ => true)
  let saved := s.mgc.ops.filter (fun o => kept.contains o.id)
  let s : State := { s with pw := { s.pw with evacs := (s.ecc.evac.map (·.pc)).toList ++ s.ecc.evacQ } }
  let s := State.endActivity { s with mgc := { s.mgc with ops := s.mgc.ops.filter (fun o => !kept.contains o.id) } } op
  let s : State := { s with mgc := { s.mgc with ops := s.mgc.ops ++ saved } }
  (List.range 8).foldl (fun (s : State) p => if s.portState p = 9 then s.setFlag (PRT.CTRL_TEST_EN p) false else s) s.dropStaging

/-- The bytes of a retention seal (Table 14.8). -/
def sealBytes (seq pc : Nat) : List Nat :=
  beBytes 4 seq ++ [pc, 0, 0, 0] ++ (List.range 56).map (fun i => if i % 2 = 0 then 0xA5 else 0x5A)

/-- The seal of an index is written, read back and compared; a mismatch is logged (R399). -/
def State.writeSeal (s : State) (k : Nat) : State :=
  let data := sealBytes (s.fget PWR.SEAL_SEQ_SEQ) k
  let a := s.arrayOf k
  let (s, w) := s.encode k (sealNum k 0) data 0 false false
  let s := s.setWord a (sealLine 0) w
  let d := decodeLine (s.erasedMat k) (s.word a (sealLine 0))
  if d.ue ∨ slice d.word 0 64 ≠ data then s.record 0x06 0 0 (0x140 + k) (List.replicate 8 0 ++ [s.engineOf k]) true else s

/-- The shadow is saved (R398). -/
def State.saveShadow (s : State) : State :=
  { s with pw := { s.pw with shadow := some ⟨s.regs, s.mgc.reqmap, s.mgc.evt, [], 0⟩ } }

/-- The audit counts of the retained indices and the AON time go into the shadow. -/
def State.captureAudit (s : State) : State :=
  let counts : SMap Nat := s.retained.map (fun k => (k, (s.eng (s.engineOf k)).audit))
  { s with pw := { s.pw with shadow := s.pw.shadow.map (fun h => { h with audit := counts, aon := s.aon }) } }

/-- The arrays that stay powered keep their contents; those of the others are lost. -/
def State.dropArrays (s : State) (keep : Nat → Bool) : State :=
  { s with mem := s.mem.filter (fun c => keep (c.1 / (80 * 33554432))) }

/-- Step 6: POWER_STATE is sent, the PWR_SET ends OK, the ports go to DISABLED and firmware halts. -/
def State.entryStep6 (s : State) (e : PwrEntry) : State :=
  let ms := min (2 ^ 32 - 1) ((s.aon - s.pw.since) / 1000000)
  let s := s.event 0x0050 0 ([0, e.target, 0, 0] ++ beBytes 4 ms ++ beBytes 4 (s.fget PWR.SEAL_SEQ_SEQ))
  let s := s.endPwrSet e.op St.ok (pwrResult e.target 0 0 0)
  let s := (List.range s.mgc.evq.length).foldl (fun (s : State) _ => s.sendEvent) s
  let s := s.disableAll.discardReceived.discardRequests
  let s : State := { s with mgc := { s.mgc with inq := [], twq := none, quiesce := [], evq := [], twEvq := [] } }
  s.fset MGC.STATUS_FW_STATE 0

/-- Step 7: the retained indices enter self-refresh with their audit counts captured, and every other array and the mast
domain lose power. In an Off entry everything does. -/
def State.entryStep7 (s : State) (e : PwrEntry) : State :=
  if e.target = 3 then
    let s := s.retained.foldl (fun (s : State) k => if s.engSr (s.engineOf k) then s else s.enterSr (s.engineOf k)) s
    let keep := s.retained.map s.arrayOf
    s.captureAudit.dropArrays keep.contains
  else s.dropArrays (fun _ => false)

/-- PLLs and FIO stop with the monitors of the sources that stop, and ACLK runs on XB if it may (R394, R416, R422). -/
def State.clocksOff (s : State) : State :=
  let s := [0, 1, 3, 4].foldl (fun (s : State) i =>
    (s.setFlag (CLK.MON_STAT_ARMED i) false).setFlag (CLK.MON_STAT_VALID i) false) s
  let s := [CLK.STATUS_XA_VALID, CLK.STATUS_FIO_ARMED, CLK.STATUS_REFCLK0_VALID, CLK.STATUS_REFCLK1_VALID, CLK.STATUS_PLL_READY,
    CLK.STATUS_STRETCH].foldl (fun (s : State) f => s.setFlag f false) s
  let s := (List.range 6).foldl (fun (s : State) j =>
    ((s.setFlag (CLK.PLL_STAT_EN j) false).setFlag (CLK.PLL_STAT_LOCKED j) false).setFlag (CLK.PLL_STAT_HOLDOVER j) false) s
  let s := s.setFlag CLK.STATUS_ACLK_XB (s.flag CLK.STATUS_XB_VALID && s.flag CLK.CTRL_XB_USE)
  { s with clk := { mons := s.clk.mons.filter (fun e => e.1 = 2), moved := 0 } }

/-- Step 8: the state is reached. A request pending when Off is reached ends without an answer. -/
def State.entryStep8 (s : State) (e : PwrEntry) : State :=
  let s := (s.clocksOff.enterPwr e.target).int I.pwr 0
  let s : State := { s with pw := { s.pw with xbLost := !s.flag CLK.STATUS_XB_VALID },
                            bbx := { s.bbx with ring := [], ringLost := true } }
  let s := s.ringRegs
  if e.target = 3 then s.bumpSat PWR.STATE_CNT_FURL 1
  else State.showPwr { s with pw := { s.pw with slot := none, sail := [] }, mgc := { s.mgc with ops := [] } }

/-- One step of a Furl or Off entry after its first (Table 14.5, R397). -/
def State.furlStep (s : State) (e : PwrEntry) (k : Nat) : State :=
  if k = 2 then s.stopForEntry e.op
  else if k = 3 then s
  else if k = 4 then s.powerFlush true
  else if k = 5 then
    let s := if e.target = 3 then
        let s := s.bump PWR.SEAL_SEQ_SEQ 1
        s.retained.foldl State.writeSeal s
      else s
    let s := (s.commitRecords 16384).1
    if e.target = 3 then s.saveShadow else s
  else if k = 6 then s.entryStep6 e
  else if k = 7 then s.entryStep7 e
  else s.entryStep8 e

/-- The next step of the entry begins. -/
def State.nextStep (s : State) (e : PwrEntry) : State :=
  let k := e.step + 1
  let s := State.showPwr { s with pw := { s.pw with entry := some { e with step := k } } }
  if e.target = 1 then s.reef1Step k else if e.target = 2 then s.reef2Step k else s.furlStep e k

/-- The entry goes on by itself: a step that has ended is followed by the next one, unless a wake event was seen at the
abort point between them, where ENTRY_UNWIND follows (R396). -/
def State.entryTick (s : State) : State :=
  match s.pw.entry with
  | none => s
  | some e =>
    if s.frozen ∨ s.tripped ∨ ¬ s.entryDone e ∨ (e.step ≤ lastAbort e.target ∧ s.wakeSeen e) then s else s.nextStep e

/-- An entry begins with its step 1 (R394): a Furl or Off entry latches its settings. -/
def State.startEntry (s : State) (target : Nat) (op : Option Nat) : State :=
  let e : PwrEntry := ⟨target, s.fget PWR.STATE_CUR, op, 1⟩
  let s := match op with
    | some id => s.runOp id
    | none => s
  let s : State := { s with pw := { s.pw with entry := some e, wake := none, took := none } }
  let s : State := if target ≤ 2 then s else
    { s with pw := { s.pw with ret := s.retMask, cfg := (s.reg PWR.WAKE_CFG).toNat, scrub := s.flag PWR.CTRL_WAKE_SCRUB } }
  s.showPwr

/-! ### Unwinding (R396) -/

/-- The cause of an unwinding, from the wake source: 8 a PWR_SET Sail, 9 a watchdog restart. -/
def unwindCause (code : Nat) : Nat := if code = 8 then 2 else if code = 9 then 5 else 1

/-- The engines go back to what the origin of an unwound entry has: serving in Sail, active power-down in Reef-1. -/
def State.restoreEngines (s : State) (origin : Nat) : State :=
  s.srxAll.engines.foldl (fun (s : State) m => if origin = 1 ∧ ¬ s.engSr m then s.enterPd m else s) s.srxAll

/-- A trigger of Table 10.3 or a lost mast still asks for the evacuation of an index: an erased mat, overflows of its bucket,
a bank without spare rows or a full remap table, uncorrectable lines within 1 s. -/
def State.evacDue (s : State) (k : Nat) : Bool :=
  let a := s.arrayOf k
  s.flag (ECC.PC_MAT_ERASED k) || s.mastGone k || decide (max 1 (s.fget ECC.HEAL_CFG_OVF_EVAC) ≤ s.fget (ECC.PC_BUCKET_OVF_24H k)) ||
    decide (256 ≤ s.remapUsed a) || (List.range 64).any (fun b => (s.freeSpares a b).isEmpty) ||
    decide (max 1 (s.fget ECC.HEAL_CFG_UE_FENCE_THR) ≤ ((SMap.get [] s.ecc.ueLines k).filter (fun e => s.now < e.2 + 1000000000)).length)

/-- Firmware queues again the evacuations that the entry ended and whose trigger still holds (R395). -/
def State.requeueEvac (s : State) : State :=
  let s := s.pw.evacs.foldl (fun (s : State) k => if s.evacDue k ∧ ¬ s.onSpare k then s.wantEvac k else s) s
  { s with pw := { s.pw with evacs := [] } }

/-- The entry is abandoned at its present step and unwinds to the state it began in. -/
def State.unwind (s : State) (e : PwrEntry) (cause code : Nat) : State :=
  let s := s.yieldFlush.withdrawIdle
  let s := if e.target = 2 then s.restoreEngines e.origin else s
  let sails := s.pw.sail
  let keepWake := e.target ≤ 2
  let s : State := { s with pw := { s.pw with entry := none, sail := [], hold := decide (s.pw.fill ≠ 0),
                                              wake := if keepWake then s.pw.wake else none } }
  let s := (if 3 ≤ e.target ∧ 2 ≤ e.step then s.requeueEvac else s).showPwr.int I.pwr 3
  let s := if 3 ≤ e.target then s.endPwrSet e.op St.aborted (pwrResult e.origin e.step cause (if code = 9 then 0 else code)) else s
  sails.foldl (fun (s : State) id => s.endPwrSet (some id) St.ok (pwrResult e.origin 0 0 0)) s

def execEntryUnwind (s : State) : Host.Outcome State Fault Refusal :=
  done (match s.pw.entry with
  | none => s
  | some e =>
    if s.live ∧ e.step ≤ lastAbort e.target ∧ s.entryDone e ∧ s.wakeSeen e then
      let code := (s.pw.wake.map (·.1)).getD 0
      s.unwind e (unwindCause code) code
    else s)

/-- Draining at step 3 takes longer than 100 ms: the entry unwinds at A3 with cause 4 (R394). -/
def execDrainTimeout (s : State) : Host.Outcome State Fault Refusal :=
  done (match s.pw.entry with
  | none => s
  | some e => if s.live ∧ 3 ≤ e.target ∧ e.step = 3 ∧ ¬ s.entryDone e then s.unwind e 4 0 else s)

/-! ### Reef -/

/-- Firmware may begin a Reef entry: in Sail or Reef-1 with nothing going on. -/
def State.mayReef (s : State) : Bool :=
  s.live && s.ready && s.pw.entry.isNone && s.pw.waking.isNone && s.pw.slot.isNone && s.pw.wake.isNone && decide (s.pw.fill = 0) && s.idleDevice

def execReef1Entry (s : State) : Host.Outcome State Fault Refusal :=
  done (if s.pwr = 0 ∧ s.flag PWR.CTRL_REEF1_EN ∧ s.mayReef then s.startEntry 1 none else s)

/-- Step 1 of Table 14.3: slices and engines are ungated. -/
def execReef2Entry (s : State) : Host.Outcome State Fault Refusal :=
  done (if s.pwr = 1 ∧ s.flag PWR.CTRL_REEF2_EN ∧ s.mayReef then
      (s.engines.foldl State.leavePd s).startEntry 2 none
    else s)

/-- The LPLLs start again and relock, so that a bring-up that the stop cut short restarts (R49), and the monitors of their
REFCLKs are armed again (R422); one in holdover stays so. -/
def State.relockLplls (s : State) : State :=
  (List.range 4).foldl (fun (s : State) k =>
    let s := s.setFlag (CLK.PLL_STAT_EN (2 + k)) true
    let ref := s.fget (CLK.PLL_STAT_REF (2 + k))
    let s := if ref = 4 ∨ ref = 5 then s.setFlag (CLK.MON_STAT_ARMED (ref - 1)) true else s
    if s.flag (CLK.PLL_STAT_HOLDOVER (2 + k)) then s else s.leavePllWait k) s

/-- Activity or a wake source returns the device to Sail (R391, R392): the ports leave light idle in `ns` nanoseconds or
begin their deep exit, the engines leave power-down or self-refresh. -/
def State.reefExit (s : State) (ns : Nat) : State :=
  let deep := decide (s.pwr = 2)
  let s := if deep then s.relockLplls else s
  let s := s.withdrawIdle
  let s := (List.range 8).foldl (fun (s : State) p => if deep then s.deepExit p else s.lightExit p ns) s
  let s := if deep then s.restoreEngines 0 else s.engines.foldl State.leavePd s
  let s := match s.pw.wake with
    | some (code, port) => (s.fset PWR.WAKE_STAT_SOURCE code).fset PWR.WAKE_STAT_PORT port
    | none =>
      if s.slotsWait ∨ ¬ s.txns.isEmpty ∨ ¬ s.mgc.inq.isEmpty then (s.fset PWR.WAKE_STAT_SOURCE 6).fset PWR.WAKE_STAT_PORT 0
      else if s.mgc.twq.isSome then (s.fset PWR.WAKE_STAT_SOURCE 7).fset PWR.WAKE_STAT_PORT 0
      else s
  State.enterPwr { s with pw := { s.pw with wake := none } } 0

/-- A Reef exit starts with activity or a wake source (R390, R393). -/
def execReefExit (ns : Nat) (s : State) : Host.Outcome State Fault Refusal :=
  done (if s.live ∧ (s.pwr = 1 ∨ s.pwr = 2) ∧ s.pw.entry.isNone ∧ (s.pw.wake.isSome ∨ ¬ s.idleDevice) then s.reefExit ns else s)

/-! ### Wake sources (Table 14.4) -/

/-- A wake detector can see its source: power is applied and the always-on domain is not frozen. -/
def State.wakeable (s : State) : Bool := !s.frozen && !s.tripped && decide (s.pwr ≤ 3) && decide (s.devState ≤ 1)

def execWakePin (s : State) : Host.Outcome State Fault Refusal := done (if s.wakeable ∧ ¬ s.pinsTaken then s.wakeEvent 2 0 else s)

def execFurlWakeTimer (s : State) : Host.Outcome State Fault Refusal :=
  done (if s.wakeable ∧ s.pwr = 3 then s.wakeEvent 4 0 else s)

def execCustomerWakeTimer (s : State) : Host.Outcome State Fault Refusal :=
  done (if s.wakeable then s.wakeEvent 5 0 else s)

/-! ### PWR_SET (R404) -/

/-- The target of the transition in progress, or the present state. -/
def State.curTarget (s : State) : Nat :=
  match s.pw.entry with
  | some e => e.target
  | none => s.pwr

/-- Is an entry in progress that can still unwind? -/
def State.beforeLastAbort (s : State) : Bool :=
  match s.pw.entry with
  | some e => decide (e.step ≤ lastAbort e.target)
  | none => false

/-- Table 14.10. -/
def State.resolvePwr (s : State) (h : Halyard) (t : Nat) : State :=
  if t = s.curTarget then (s.supersede.endPwrSet none St.ok (pwrResult t 0 0 0)).replyOk 0x20 h []
  else if t = 0 ∧ s.beforeLastAbort then
    s.accept 0x20 h 1 t (fun s id =>
      let s := s.supersede
      State.wakeEvent { s with pw := { s.pw with sail := s.pw.sail ++ [id] } } 8 0)
  else s.accept 0x20 h 0 t (fun s id =>
      let s := s.supersede
      if s.pw.entry.isNone ∧ s.pw.waking.isNone then s.startEntry t (some id)
      else State.showPwr { s with pw := { s.pw with slot := some (t, id) } })

def execPwrSet (h : Halyard) (s : State) : Host.Outcome State Fault Refusal :=
  done (s.packet 0x20 h (fixedLen 1) (fun s _ =>
    if ¬ [0, 3, 4].contains (arg h 0) then s.replyBad 0x20 h 0
    else if s.tripped ∨ s.devState ≠ 1 then s.replySt 0x20 h St.notInState
    else s.resolvePwr h (arg h 0)))

/-- The pending request runs when the transition in progress has ended: it ends OK where the state reached is its
target; from Furl the device first exits to Sail (R404). -/
def execPendingPowerRequest (s : State) : Host.Outcome State Fault Refusal :=
  done (match s.pw.slot with
  | none => s
  | some (t, id) =>
    if s.pw.entry.isSome ∨ s.pw.waking.isSome ∨ ¬ s.wakeable then s
    else if t = s.pwr then
      State.showPwr (State.endPwrSet { s with pw := { s.pw with slot := none } } (some id) St.ok (pwrResult t 0 0 0))
    else if s.pwr = 0 then (State.startEntry { s with pw := { s.pw with slot := none } } t (some id))
    else if s.pw.wake.isNone then { s with pw := { s.pw with wake := some (if s.pwr = 3 then 8 else 7, 0) } }
    else s)

/-! ### The other packets (Table 14.11) -/

def execPwrGet (h : Halyard) (s : State) : Host.Outcome State Fault Refusal :=
  done (s.packet 0x21 h (fixedLen 0) (fun s _ =>
    let pend := (s.pw.slot.map (·.1)).getD 15
    let w1 := s.fget PWR.STATE_CUR * 2 ^ 28 + s.curTarget * 2 ^ 24 + pend * 2 ^ 20 + s.fget PWR.STATE_STEP * 2 ^ 8 +
      s.fget PWR.STATE_NEXT_ABORT
    let op := match s.pw.entry with
      | some e => e.op.getD 0
      | none => 0
    let w2 := op * 65536 + (s.pw.slot.map (·.2)).getD 0
    s.replyOk 0x21 h [w1, w2, (s.reg PWR.LAST_RESULT).toNat]))

/-- The first of the mask words that names an absent or permanently fenced index (R406). -/
def State.badRetWord (s : State) (p : List Nat) : Option Nat :=
  (List.range 4).find? (fun i => (List.range 32).any (fun b =>
    let k := 32 * (3 - i) + b
    bitAt (nth p i) b && (decide (s.pcs ≤ k) || s.engPerm (s.engineOf k))))

/-- The masks of indices in RET_MASK. -/
def State.setRetMask (s : State) (mask : Nat) : State :=
  (List.range 4).foldl (fun (s : State) k => s.setReg (PWR.RET_MASK k) (BitVec.ofNat 32 (mask / 2 ^ (32 * k)))) s

def execSetRetention (h : Halyard) (s : State) : Host.Outcome State Fault Refusal :=
  done (s.packet 0x22 h (fixedLen 5) (fun s _ =>
    match s.badRetWord h.payload with
    | some i => s.replyBad 0x22 h i
    | none =>
      if 2 ≤ arg h 4 then s.replyBad 0x22 h 4
      else ((s.setRetMask (maskWords h.payload)).setFlag PWR.CTRL_WAKE_SCRUB (decide (arg h 4 = 1))).replyOk 0x22 h []))

def execSetWake (h : Halyard) (s : State) : Host.Outcome State Fault Refusal :=
  done (s.packet 0x23 h (fixedLen 2) (fun s _ =>
    let w := arg h 0
    if w / 2 ^ 16 ≠ 0 ∨ bits w 5 3 ≠ 0 ∨ bits w 0 5 = 0 ∨ (bitAt w 0 ∧ bits w 8 8 = 0) then s.replyBad 0x23 h 0
    else if bitAt w 2 ∧ arg h 1 = 0 then s.replyBad 0x23 h 1
    else ((s.setReg PWR.WAKE_CFG (BitVec.ofNat 32 w)).setReg PWR.FURL_TIMER (BitVec.ofNat 32 (arg h 1))).replyOk 0x23 h []))

end Sys2Proof.Machine
end

