-- ==== Sys2Proof/Machine/Otp.lean ====
section
/-! DEFINITION. The fuse array (spec/16_reset_boot_and_fuses.md): sensing at three margins and the region checks, REPAIR
entries, programming, reblowing and locking, and the hardening of repairs. -/

namespace Sys2Proof.Machine

open Sys2Proof.Reg

/-! ### Words and regions (R444, Table 16.5) -/

/-- A word as it is stored; one never programmed reads 0. -/
def State.fword (s : State) (w : Nat) : FuseWord := SMap.get (fuseStrong 0) s.otp.words w

/-- A word read at a margin, its copies combined: 1 program-verify, 2 blank-verify, else normal. -/
def fuseRead (f : FuseWord) (m : Nat) : Nat :=
  if m = 1 then f.aProg ||| f.bProg else if m = 2 then f.aBlank ||| f.bBlank else f.aNorm ||| f.bNorm

/-- A word whose three reads are not identical (R450). -/
def fuseMarginal (f : FuseWord) : Bool := decide (fuseRead f 0 ≠ fuseRead f 1) || decide (fuseRead f 0 ≠ fuseRead f 2)

/-- The first word of a region and how many it has. -/
def regionSpan (r : Nat) : Nat × Nat :=
  if r = 0 then (0x000, 16) else if r = 1 then (0x010, 8) else if r = 2 then (0x018, 16) else if r = 3 then (0x028, 96)
  else if r = 4 then (0x088, 128) else if r = 5 then (0x108, 632) else (0x380, 112)

/-- The region of a word, its CHECK word included; none for the words reserved for Hexri. -/
def wordRegion (w : Nat) : Option Nat :=
  if 0x3F0 ≤ w then (if w < 0x3F7 then some (w - 0x3F0) else none)
  else (List.range 7).find? (fun r => decide ((regionSpan r).1 ≤ w) && decide (w < (regionSpan r).1 + (regionSpan r).2))

/-- The margin in use of a key of `used`: a failed region's words are used as they read. -/
def State.usedMargin (s : State) (key : Nat) : Nat :=
  let m := SMap.get 0 s.otp.used key
  if m = 3 then 0 else m

/-- A word at the margin in use of its region's check. -/
def State.fuseAt (s : State) (m w : Nat) : Nat := fuseRead (s.fword w) m

/-- The declared length of a region, with the words of CUST read at margin `m`. LOCK has none: its check covers words
0x011 to 0x017. -/
def State.regionLen (s : State) (r m : Nat) : Nat :=
  let lm := s.usedMargin 1
  if r = 0 then s.fuseAt lm 0x011 / 65536 else if r = 1 then 7 else if r = 2 then s.fuseAt lm 0x011 % 65536
  else if r = 3 then s.fuseAt lm 0x012 / 65536 else if r = 4 then s.fuseAt lm 0x012 % 65536
  else if r = 5 then s.fuseAt lm 0x013 / 65536 else s.fuseAt m 0x380 / 65536

/-- The words that a region's CRC runs over. -/
def State.regionWords (s : State) (r m : Nat) : List Nat :=
  let start := if r = 1 then 0x011 else (regionSpan r).1
  (List.range (s.regionLen r m)).map (start + ·)

/-- CUST is empty (R445). -/
def State.custEmpty (s : State) (m : Nat) : Bool := decide (s.fuseAt m 0x380 = 0) && decide (s.fuseAt m 0x3F6 = 0)

/-- A region passes its check with the reads at a margin (R445). -/
def State.regionPass (s : State) (r m : Nat) : Bool :=
  let n := s.regionLen r m
  let crc := s.fuseAt m (0x3F0 + r)
  if (n = 0 ∧ crc = 0) ∨ (r = 6 ∧ s.custEmpty m) then true
  else decide (n ≤ (regionSpan r).2) && decide (crc32 ((s.regionWords r m).flatMap (fun w => beBytes 4 (s.fuseAt m w))) = crc)

/-! ### REPAIR entries (R448) -/

/-- The CHK of an entry is right. -/
def chkOk (x : Nat) : Bool := decide (repairWord (x / 8 * 8) = x)

/-- A nonzero entry that is skipped: its CHK fails, it has no type, or it is for an absent die. -/
def State.entryBad (s : State) (x : Nat) : Bool :=
  decide (x ≠ 0) && (!chkOk x || decide (x / 2 ^ 30 = 0) || decide (17 * s.dies ≤ bits x 22 8))

/-- The value in use of a word (R451). -/
def State.inUse (s : State) (w : Nat) : Nat :=
  if w = 0x010 then s.fuseAt 0 w
  else
    match wordRegion w with
    | some r =>
      if r = 5 ∧ w < 0x380 ∧ 0x108 + s.regionLen 5 0 ≤ w then s.fuseAt (s.usedMargin (8 + w)) w
      else s.fuseAt (s.usedMargin r) w
    | none => s.fuseAt 0 w

/-- The entries in use, in ascending order. -/
def State.repairEntries (s : State) : List (Nat × Nat) := (List.range 632).map (fun n => (0x108 + n, s.inUse (0x108 + n)))

/-- REPAIR_STAT from the entries in use. -/
def State.showRepair (s : State) : State :=
  let e := s.repairEntries
  let bad := (e.filter (fun x => s.entryBad x.2)).length
  let free := (e.filter (fun x => x.2 = 0)).length
  s.setReg OTP.REPAIR_STAT (BitVec.ofNat 32 ((632 - free - bad) * 2 ^ 22 + free * 2 ^ 12 + bad * 4))

/-- Every bad entry is recorded. -/
def State.noteBadEntries (s : State) : State :=
  s.repairEntries.foldl (fun (s : State) x =>
    if s.entryBad x.2 then
      ((s.fset OTP.ENTRY_ERR_WORD x.1).int I.otp 4).record 0x07 0 0 0x2E0 (beBytes 2 x.1 ++ [1] ++ beBytes 4 x.2) true
    else s) s

/-! ### Sensing (R450, R451) -/

/-- The first candidate of a region that passes decides its margin; none is a failure. -/
def State.senseRegion (s : State) (r : Nat) : State :=
  let m := ((List.range 3).find? (s.regionPass r)).getD 3
  let s : State := { s with otp := { s.otp with used := SMap.set 0 s.otp.used r m } }
  let s := s.fset ⟨OTP.REGION_MARGIN, 2 * r, 2⟩ m
  s.setFlag ⟨OTP.STATUS, r, 1⟩ (decide (m ≠ 3))

/-- A REPAIR entry beyond REPAIR_VLEN is judged alone, by its own CHK. -/
def State.senseEntry (s : State) (w : Nat) : State :=
  let m := ((List.range 3).find? (fun m => chkOk (s.fuseAt m w))).getD 0
  { s with otp := { s.otp with used := SMap.set 0 s.otp.used (8 + w) m } }

/-- The margin in use of a word. -/
def State.wordMargin (s : State) (w : Nat) : Nat :=
  match wordRegion w with
  | some r => if r = 5 ∧ w < 0x380 ∧ 0x108 + s.regionLen 5 0 ≤ w then s.usedMargin (8 + w) else s.usedMargin r
  | none => 0

/-- The entry of MARG_LIST for a word. -/
def State.margEntry (s : State) (w : Nat) : Nat :=
  let f := s.fword w
  2 ^ 31 + ((wordRegion w).getD 7) * 2 ^ 28 + s.wordMargin w * 2 ^ 26 + b2n (decide (fuseRead f 0 ≠ fuseRead f 2)) * 2 ^ 25 +
    b2n (decide (fuseRead f 0 ≠ fuseRead f 1)) * 2 ^ 24 + w

/-- Marginal words are counted, the first 16 are listed, and each is recorded. -/
def State.noteMarginal (s : State) : State :=
  let ws := (s.otp.words.filter (fun e => fuseMarginal e.2)).map (·.1)
  let s := s.fset OTP.MARG_CNT_COUNT ws.length
  let s := (List.range 16).foldl (fun (s : State) k =>
    s.setReg (OTP.MARG_LIST k) (BitVec.ofNat 32 (if k < ws.length then s.margEntry (nth ws k) else 0))) s
  ws.foldl (fun (s : State) w =>
    (s.int I.otp 3).record 0x07 0 0 0x2E0 (beBytes 2 w ++ [0] ++ beBytes 4 (s.inUse w) ++ [s.wordMargin w]) true) s

/-- A lock field reads set when any of its bits reads 1 (R446). -/
def State.lockSet (s : State) (r : Nat) : Bool := decide (bits (s.fuseAt 0 0x010) (3 * r) 3 ≠ 0)

/-- LOCK_STAT from the lock word. -/
def State.showLocks (s : State) : State :=
  (s.fset OTP.LOCK_STAT_LOCKED (maskOf 7 s.lockSet)).setFlag OTP.LOCK_STAT_VTM_DIS (s.lockSet 7)

/-- CUST passed, with what it says (R445, R447). -/
def State.loadCust (s : State) : State :=
  let m := s.usedMargin 6
  let ok := s.flag ⟨OTP.STATUS, 6, 1⟩
  let empty := s.custEmpty m
  let cfg := if ok ∧ ¬ empty then s.inUse 0x381 else 0
  let s := (s.setFlag DEV.BOOT_CUST_VALID ok).setFlag DEV.BOOT_CUST_EMPTY empty
  let s := (s.setReg OTP.CUST_CFG (BitVec.ofNat 32 cfg)).fset OTP.LEN_C_CUST_LEN (if ok ∧ ¬ empty then s.regionLen 6 m else 0)
  let wait := if cfg % 65536 = 0 then 50 else cfg % 65536
  (s.fset DEV.READY_CFG_READY_WAIT_MS wait).fset DEV.PORT_BOOT_PORTS (255 - bits cfg 16 8)

/-- The lengths that LOCK declares. -/
def State.loadLens (s : State) : State :=
  let s := (s.fset OTP.LEN_A_ID_LEN (s.regionLen 0 0)).fset OTP.LEN_A_FEATURE_LEN (s.regionLen 2 0)
  let s := (s.fset OTP.LEN_B_TRIM_LEN (s.regionLen 3 0)).fset OTP.LEN_B_PATCH_LEN (s.regionLen 4 0)
  s.fset OTP.LEN_C_REPAIR_VLEN (s.regionLen 5 0)

/-- The parts by DIE_COUNT and SCAN_EN of FEATURE (R1, R447). -/
def partOf (dies : Nat) (scan : Bool) : Option Part :=
  if dies = 2 then some (if scan then .sk2_032S else .sk2_032)
  else if dies = 4 then some (if scan then .sk4_064S else .sk4_064)
  else if dies = 8 then some (if scan then .sk8_128S else .sk8_128)
  else none

/-- DEV.ID and UNIQUE_ID; PART reads 0 if ID or FEATURE failed. -/
def State.loadId (s : State) : State :=
  let ok := s.flag ⟨OTP.STATUS, 0, 1⟩ && s.flag ⟨OTP.STATUS, 2, 1⟩
  let w := s.inUse 0x000
  let s := (s.fset DEV.ID_PART (if ok then s.inUse 0x018 / 2 ^ 24 else 0)).fset DEV.ID_STEP_MAJOR (bits w 4 4)
  let s := s.fset DEV.ID_STEP_MINOR (bits w 0 4)
  (s.setReg DEV.UID_HI (BitVec.ofNat 32 (s.inUse 0x001))).setReg DEV.UID_LO (BitVec.ofNat 32 (s.inUse 0x002))

/-- Boot step 2: every fuse word is sensed, the regions are checked, and TRIM values are loaded. -/
def State.senseFuses (s : State) : State :=
  let s : State := { s with otp := { s.otp with used := [] } }
  let s := [1, 0, 2, 3, 4, 5, 6].foldl State.senseRegion s
  let own := (s.otp.words.map (·.1)).filter (fun w => decide (0x108 + s.regionLen 5 0 ≤ w) && decide (w < 0x380))
  let s := own.foldl State.senseEntry s
  let s := s.loadLens.loadCust.showLocks.loadId
  let s : State := match partOf (bits (s.inUse 0x018) 20 4) (bitAt (s.inUse 0x018) 19) with
    | some p => if s.flag ⟨OTP.STATUS, 2, 1⟩ then { s with part := p } else s
    | none => s
  let s := if s.flag ⟨OTP.STATUS, 3, 1⟩ then
      s.otp.trim.foldl (fun (s : State) e => s.setReg e.1 (BitVec.ofNat 32 e.2)) s
    else s
  s.showRepair.noteMarginal.noteBadEntries

/-- The region whose failure stops the boot: the first but CUST. -/
def State.failedRegion (s : State) : Option Nat := (List.range 6).find? (fun r => !s.flag ⟨OTP.STATUS, r, 1⟩)

/-! ### Programming (R452, R453) -/

/-- A program pulse on the bits of `todo`: what each copy reads at each margin after it. A programmed bit stays so. -/
def fusePulse (f : FuseWord) (todo : Nat) (o : FuseWord) : FuseWord :=
  ⟨f.aNorm ||| (o.aNorm &&& todo), f.aProg ||| (o.aProg &&& todo), f.aBlank ||| (o.aBlank &&& todo),
    f.bNorm ||| (o.bNorm &&& todo), f.bProg ||| (o.bProg &&& todo), f.bBlank ||| (o.bBlank &&& todo)⟩

/-- The loop of R452, at most `fuel` pulses: the word, and how many pulses it took. -/
def fuseLoop (value : Nat) : Nat → FuseWord → Nat → List FuseWord → FuseWord × Nat
  | 0, f, _, _ => (f, 0)
  | fuel + 1, f, todo, obs =>
    let f := fusePulse f todo (obs.headD (fuseStrong 0))
    let todo := lessBits value (f.aProg &&& f.bProg)
    if todo = 0 then (f, 1)
    else
      let r := fuseLoop value fuel f todo obs.tail
      (r.1, r.2 + 1)

/-- Write a word of the array. -/
def State.setFword (s : State) (w : Nat) (f : FuseWord) : State :=
  { s with otp := { s.otp with words := SMap.set (fuseStrong 0) s.otp.words w f } }

/-- A fuse pulse that a reset or a freeze cuts short may leave its bits weakly programmed: what they read is open (R435, R499). -/
def State.cutPulse (s : State) : State :=
  match s.otp.job with
  | none => s
  | some j =>
    let v := fun (i : Nat) => Config.freeValue (s.free + i)
    let f := fusePulse (s.fword j.word) j.value ⟨v 0, v 1, v 2, v 3, v 4, v 5⟩
    State.setFword { s with free := s.free + 6 } j.word f

/-- A fuse operation is running. -/
def State.fuseBusy (s : State) : Bool := s.otp.job.isSome

/-- Programming is possible: Sail, READY and at most 85 °C on the base die (R452). -/
def State.fuseState (s : State) : Bool := s.ready && s.live && s.inSail && decide (s.used 0 ≤ 340)

/-- A fuse operation starts. -/
def State.startFuse (s : State) (j : FuseJob) : State :=
  let s : State := { s with otp := { s.otp with job := some j } }
  (s.setFlag OTP.STATUS_BUSY true).fset OTP.STATUS_OP (if j.kind = 4 then 1 else j.kind)

/-- The lowest free REPAIR word beyond the first REPAIR_VLEN words. -/
def State.freeEntry (s : State) : Option Nat :=
  ((List.range 632).find? (fun n => decide (s.regionLen 5 0 ≤ n) && decide (s.inUse (0x108 + n) = 0))).map (0x108 + ·)

/-- Firmware starts the next hardening once no fuse operation runs; where REPAIR is locked or full it is dropped. -/
def State.hardenNext (s : State) : State :=
  if s.fuseBusy ∨ ¬ s.fuseState ∨ ¬ s.flag OTP.CTRL_PROG_EN then s
  else
    let (next, s) : Option (Nat × Option Nat) × State := match s.otp.wait, s.ecc.hardQ.find? s.hardensNow with
      | (x, id) :: rest, _ => (some (x, some id), { s with otp := { s.otp with wait := rest } })
      | [], some x => (some (x, none), { s with ecc := { s.ecc with hardQ := s.ecc.hardQ.filter (· ≠ x) } })
      | [], none => (none, s)
    match next with
    | none => s
    | some (x, op) =>
      match (if s.lockSet 5 then none else s.freeEntry), op with
      | some w, _ =>
        let s := match op with
          | some id => s.runOp id
          | none => s
        s.startFuse ⟨w, x, 4, op, none⟩
      | none, some id => s.finishOp id St.verifyFail 0
      | none, none => s

/-- What a finished operation leaves in PROG_STAT and answers: `result` 0 OK, 1 VERIFY_FAIL, 2 ABORTED. -/
def State.endFuse (s : State) (j : FuseJob) (pulses weak failed result : Nat) : State :=
  let s : State := { s with otp := { s.otp with job := none } }
  let s := (s.setFlag OTP.STATUS_BUSY false).fset OTP.STATUS_OP 0
  let s := s.setReg OTP.PROG_STAT (BitVec.ofNat 32 (j.word * 2 ^ 22 + pulses * 2 ^ 18 + weak * 2 ^ 12 + failed * 2 ^ 6 + result * 2 ^ 4))
  let s := (s.bumpSat OTP.PROG_CNT_COUNT pulses).int I.otp 0
  let s := if result = 1 then s.int I.otp 2 else s
  let s := s.record 0x07 0 0 0x2E0 (beBytes 2 j.word ++ [2] ++ beBytes 4 (s.inUse j.word) ++ [result]) true
  let st := if result = 0 then St.ok else if result = 1 then St.verifyFail else St.aborted
  let s := match j.op with
    | some id => s.finishOp id st (if j.kind = 4 then 0 else pulses * 2 ^ 20 + weak * 2 ^ 8 + failed)
    | none => s
  match j.ans with
  | some h => s.replySt 0x53 h st
  | none => s

/-- After a reblow whose three margins agree, the word leaves MARG_LIST (R453). -/
def State.clearMarg (s : State) (w : Nat) : State :=
  if fuseMarginal (s.fword w) then s
  else (List.range 16).foldl (fun (s : State) k =>
    if s.flag (OTP.MARG_LIST_VALID k) ∧ s.fget (OTP.MARG_LIST_WORD k) = w then s.setReg (OTP.MARG_LIST k) 0 else s) s

/-- The operation's pulses have run: after a thermal trip only the current one, and it ends ABORTED (R452). -/
def State.fuseDone (s : State) (j : FuseJob) (pulses : List FuseWord) : State :=
  let old := s.fword j.word
  let todo := if j.kind = 2 then j.value else lessBits j.value (fuseRead old 0)
  let (f, n) := fuseLoop j.value (if s.tripped then 1 else 8) old todo pulses
  let weak := popcount 32 (lessBits j.value (f.aProg &&& f.bProg) &&& (f.aProg ||| f.bProg))
  let bad := lessBits j.value (f.aProg ||| f.bProg)
  let failed := popcount 32 bad
  let missed := if j.kind = 3 then decide (bad = j.value) else decide (failed ≠ 0)
  let s := s.setFword j.word f
  let s := if j.kind = 2 then s.clearMarg j.word else s
  let s := if j.kind = 4 then s.showRepair else s
  let s := if j.kind = 3 ∧ ¬ missed then (s.showLocks).int I.otp 1 else s.showLocks
  s.endFuse j n weak failed (if s.tripped then 2 else if missed then 1 else 0)

def execProgDone (pulses : List FuseWord) (s : State) : Host.Outcome State Fault Refusal :=
  done (match s.otp.job with
  | some j => if s.frozen ∨ 3 ≤ s.pwr ∨ 2 ≤ s.devState then s else (s.fuseDone j pulses).hardenNext
  | none => s.hardenNext)

/-! ### The fuse packets (Table 16.7) -/

def execOtpRead (h : Halyard) (s : State) : Host.Outcome State Fault Refusal :=
  done (s.packet 0x50 h (fixedLen 2) (fun s _ =>
    let w := bits (arg h 0) 0 10
    let m := bits (arg h 0) 16 2
    let n := arg h 1
    if bits (arg h 0) 10 6 ≠ 0 ∨ bits (arg h 0) 18 14 ≠ 0 then s.replyBad 0x50 h 0
    else if n = 0 ∨ 56 < n ∨ 0x400 < w + n then s.replyBad 0x50 h 1
    else if s.fuseBusy then s.replySt 0x50 h St.busy
    else s.replyOk 0x50 h ((List.range n).map (fun i => if m = 3 then s.inUse (w + i) else s.fuseAt m (w + i)))))

/-- A word that OTP_PROGRAM may write: of CUST with its CHECK word, or in vendor test mode any but REPAIR's; not in a
locked region (R454, R455). -/
def State.mayProgram (s : State) (w : Nat) : Bool :=
  match wordRegion w with
  | some r => (decide (r = 6) || (s.otp.vtm && !(decide (0x108 ≤ w) && decide (w < 0x380)))) && !s.lockSet r
  | none => s.otp.vtm

def execOtpProgram (h : Halyard) (s : State) : Host.Outcome State Fault Refusal :=
  done (s.packet 0x51 h (fixedLen 2) (fun s _ =>
    let w := arg h 0
    let v := arg h 1
    if 0x400 ≤ w then s.replyBad 0x51 h 0
    else if v = 0 ∨ lessBits (s.fuseAt 0 w) v ≠ 0 then s.replyBad 0x51 h 1
    else if ¬ s.mayProgram w ∨ ¬ s.flag OTP.CTRL_PROG_EN then s.replySt 0x51 h St.denied
    else if ¬ s.fuseState then s.replySt 0x51 h St.notInState
    else if s.fuseBusy then s.replySt 0x51 h St.busy
    else s.accept 0x51 h 1 w (fun s id => s.startFuse ⟨w, v, 1, some id, none⟩)))

def execOtpReblow (h : Halyard) (s : State) : Host.Outcome State Fault Refusal :=
  done (s.packet 0x52 h (fixedLen 1) (fun s _ =>
    let w := arg h 0
    if 0x400 ≤ w ∨ s.inUse w = 0 then s.replyBad 0x52 h 0
    else if ¬ s.flag OTP.CTRL_PROG_EN then s.replySt 0x52 h St.denied
    else if ¬ s.fuseState then s.replySt 0x52 h St.notInState
    else if s.fuseBusy then s.replySt 0x52 h St.busy
    else s.accept 0x52 h 1 w (fun s id => s.startFuse ⟨w, s.inUse w, 2, some id, none⟩)))

/-- A region may be locked: its declared words all read nonzero, its CRC word is programmed, and it passes with the
values in use (R454). -/
def State.lockable (s : State) (r : Nat) : Bool :=
  let m := s.usedMargin r
  (s.regionWords r m).all (fun w => decide (s.inUse w ≠ 0)) && decide (s.inUse (0x3F0 + r) ≠ 0) && s.regionPass r m

/-- OTP_LOCK answers when its pulses are done. -/
def execOtpLock (h : Halyard) (s : State) : Host.Outcome State Fault Refusal :=
  done (s.packet 0x53 h (fixedLen 1) (fun s _ =>
    let r := arg h 0
    if 7 ≤ r then s.replyBad 0x53 h 0
    else if (r ≠ 5 ∧ r ≠ 6 ∧ ¬ s.otp.vtm) ∨ ¬ s.flag OTP.CTRL_PROG_EN then s.replySt 0x53 h St.denied
    else if s.lockSet r then s.replyOk 0x53 h []
    else if ¬ s.lockable r then s.replySt 0x53 h St.denied
    else if ¬ s.fuseState then s.replySt 0x53 h St.notInState
    else if s.fuseBusy then s.replySt 0x53 h St.busy
    else s.startFuse ⟨0x010, 7 * 2 ^ (3 * r), 3, none, some h⟩))

def execOtpMargin (h : Halyard) (s : State) : Host.Outcome State Fault Refusal :=
  done (s.packet 0x54 h (fixedLen 0) (fun s _ =>
    if s.fuseBusy then s.replySt 0x54 h St.busy
    else
      let l := ((List.range 16).filter (fun k => s.flag (OTP.MARG_LIST_VALID k))).map (fun k => (s.reg (OTP.MARG_LIST k)).toNat)
      s.replyOk 0x54 h (s.fget OTP.MARG_CNT_COUNT :: l)))

/-- ROW_SPARE_HARD records a soft-spared row in a REPAIR entry (R319). -/
def execRowSpareHard (h : Halyard) (s : State) : Host.Outcome State Fault Refusal :=
  done (s.packet 0x43 h (fixedLen 1) (fun s _ =>
    let j := rowArg (arg h 0)
    let m := s.engineOf j.pc
    let b := j.bg * 16 + j.bank
    if rowReserved (arg h 0) ∨ s.pcs ≤ j.pc ∨ ¬ s.ecc.soft.contains ((engArray m * 64 + b) * 8192 + j.row) then s.replyBad 0x43 h 0
    else if s.lockSet 5 ∨ ¬ s.flag OTP.CTRL_PROG_EN then s.replySt 0x43 h St.denied
    else if s.freeEntry.isNone ∨ ¬ s.fuseState then s.replySt 0x43 h St.notInState
    else s.accept 0x43 h 0 0 (fun s id =>
      State.hardenNext { s with otp := { s.otp with wait := s.otp.wait ++ [(rowEntry m j.bg j.bank j.row, id)] } })))

end Sys2Proof.Machine
end

