-- ==== Sys2Proof/Machine/Clock.lean ====
section
/-! DEFINITION. Clock generation and monitoring (spec/15_clocks.md): the monitors and what the failure of a source does,
lock loss of a PLL, dead-source takeovers, limp state, gating by block, and which domains run and run from FIO. -/

namespace Sys2Proof.Machine

open Sys2Proof.Reg

/-! ### Domains (Table 15.3) -/

/-- The domains of SPLL, and of MPLL, that move to FIO when it loses lock: bit n - 1 for domain n. -/
def pllDomains (j : Nat) : Nat :=
  let l := if j = 0 then [17, 18, 19, 28, 35, 40] else [20, 21, 22, 23, 24, 25, 26, 27, 36, 37]
  l.foldl (fun m n => m + 2 ^ (n - 1)) 0

/-- A monitor beyond its registers. -/
def State.mon (s : State) (i : Nat) : MonSt := SMap.get {} s.clk.mons i

/-- FIO runs: from boot step 3, until Furl, Off, reset hold or limp. -/
def State.fioRuns (s : State) : Bool :=
  decide (s.pwr ≤ 2) && decide (s.devState ≤ 2) && s.flag CLK.STATUS_FIO_ARMED

/-- SPLL (0) or MPLL (1) feeds its domains. -/
def State.pllFeeds (s : State) (j : Nat) : Bool := decide (s.pwr ≤ 2) && decide (s.devState ≤ 2) && s.flag (CLK.PLL_STAT_EN j)

/-- The roots run: not stopped in Reef-2. -/
def State.rootsRun (s : State) : Bool := decide (s.pwr ≤ 1)

/-- A domain runs, freeze aside. After a trip the base logic stands, but for what steps 5 and 6 of Table 13.4 leave running: MCLK
from FIO, the two-wire ports, TCK, HCLK and FIO itself. -/
def State.domain (s : State) (n : Nat) : Bool :=
  let gated (b : Nat) : Bool := bitAt (s.fget CLK.GATE_STAT_GATED) b
  if s.devState = 4 then decide (n = 29) || decide (n = 30) || decide (n = 32)
  else if s.tripped ∧ (n ≤ 27 ∨ n = 35 ∨ n = 36 ∨ n = 37 ∨ n = 40) then false
  else if n ≤ 16 then
    let p := (n - 1) % 8
    !gated p && decide (s.portState p ≠ 0) && decide (s.portState p ≠ 10) &&
      (List.range 4).any (fun m => decide (s.laneState p m ≠ 0) && decide (s.laneState p m ≠ 9))
  else if n ≤ 18 then s.pllFeeds 0 && s.rootsRun
  else if n = 19 then s.pllFeeds 0 && s.rootsRun && !gated 8 && (!s.flag SCN.CTRL_CLK_AUTO || !s.scn.runs.isEmpty)
  else if n ≤ 27 then s.pllFeeds 1 && s.rootsRun && decide (n - 19 ≤ s.dies)
  else if n = 28 then s.mclk && decide (s.fget MGC.STATUS_FW_STATE ≠ 0)
  else if n = 31 then decide (s.fget TWB.PM_STAT_STATE ≠ 0)
  else if n = 33 then s.fuseBusy
  else if n = 34 ∨ n = 39 then s.fioRuns
  else if n = 35 then s.pllFeeds 0 && s.rootsRun && !gated 9 && (s.cal.run.isSome || !s.cal.windows.isEmpty)
  else if n = 36 then s.pllFeeds 1 && s.rootsRun && (s.stk.bist.isSome || s.ecc.evac.any (fun e => !e.copying))
  else if n = 37 then s.pllFeeds 1
  else if n = 38 then decide (s.pwr ≤ 2) && !(s.mon 0).failed && (s.flag CLK.STATUS_XA_VALID || decide (s.devState ≤ 1))
  else if n = 40 then s.pllFeeds 0 && s.rootsRun && decide (s.trc.src ≠ 0)
  else true

/-- A domain runs. In freeze every root is stopped but ACLK and TCK, and QCLK where refresh goes on (R499). -/
def State.domRuns (s : State) (n : Nat) : Bool :=
  if s.frozen then decide (n = 29) || decide (n = 32) || (decide (n = 37) && s.cns.refreshRuns) else s.domain n

/-- A domain runs from FIO, directly or through a PLL referenced to FIO (R416): of the lane domains those of a transmitter
whose LPLL has its reference input on FIO (R47). -/
def State.domFio (s : State) (n : Nat) : Bool :=
  s.domRuns n && (decide (n ≤ 8) && decide (s.fget (CLK.PLL_STAT_REF (2 + (n - 1) / 2)) = 1) || decide (n = 31) || decide (n = 33) || decide (n = 34) || decide (n = 39) || bitAt s.clk.moved (n - 1) ||
    (s.tripped && decide (n = 28)) ||
    (s.flag CLK.STATUS_REF_FIO && (bitAt (pllDomains 0) (n - 1) || bitAt (pllDomains 1) (n - 1))))

/-- PLL_READY and STRETCH follow (R415, R417). -/
def State.showClk (s : State) : State :=
  let locked := s.flag (CLK.PLL_STAT_LOCKED 0) && s.flag (CLK.PLL_STAT_LOCKED 1)
  let off := s.clk.moved &&& (pllDomains 0 ||| pllDomains 1)
  let dram := bits s.clk.moved 19 8 + bits s.clk.moved 36 1
  (s.setFlag CLK.STATUS_PLL_READY (locked && decide (off = 0))).setFlag CLK.STATUS_STRETCH
    (s.flag CLK.STATUS_REF_FIO || decide (dram ≠ 0))

/-- Domains move to their fallback, or back. -/
def State.moveDomains (s : State) (mask : Nat) (away : Bool) : State :=
  let m := if away then s.clk.moved ||| mask else lessBits s.clk.moved mask
  State.showClk { s with clk := { s.clk with moved := m } }

/-! ### Clock events (R424) -/

/-- Every port to DISABLED, every domain but the always-on ones stopped (R429). -/
def State.limp (s : State) (reason : Nat) : State :=
  let s := (s.endPackets St.aborted).disableAll.discardRequests.discardReceived
  let s : State := { s with cal := { s.cal with run := none, queue := [], windows := [] },
                            pw := { s.pw with entry := none, slot := none, sail := [], wake := none },
                            clk := { s.clk with moved := 0 } }
  let s := ((s.fset DEV.STATE_DEV_STATE 4).fset DEV.STATE_REASON reason).fset MGC.STATUS_FW_STATE 0
  let s := (s.setFlag CLK.STATUS_ACLK_XB false).setFlag CNS.STATUS_FROZEN false
  (s.recordState reason 4).alert 3 true

/-- The actions common to every failure but that of FIO: the alert, the message and CLOCK_FAIL. -/
def State.clockFail (s : State) (mon reason count mask source kind loc : Nat) : State :=
  let s := if s.frozen then s else s.alert 1 true
  let s := s.fault source kind (if kind = 0x25 then 3 else 2) loc
  s.event 0x0010 3 ([mon, reason] ++ beBytes 2 count ++ beBytes 5 mask)

/-- Write it. -/
def State.setMon (s : State) (i : Nat) (m : MonSt) : State := { s with clk := { s.clk with mons := SMap.set {} s.clk.mons i m } }

/-- The nominal count of a monitor and its pass range (Table 15.5). -/
def State.monRange (s : State) (i : Nat) : Nat × Nat × Nat :=
  if i = 0 then (256, if s.fget THM.ROUND_COUNT = 0 then (236, 276) else (249, 263))
  else if i = 1 then (12800, 10240, 15360)
  else if i = 2 then (1024, 901, 1147)
  else if s.flag (CLK.MON_STAT_ALT_REF i) then (1600, 1552, 1648)
  else (6400, 6392, 6408)

/-- REFCLK monitors count against XA while it is valid, else against FIO; a window in progress restarts. -/
def State.refMonitors (s : State) (alt : Bool) : State :=
  [3, 4].foldl (fun (s : State) i =>
    let s := s.setFlag (CLK.MON_STAT_ALT_REF i) alt
    s.fset (CLK.MON_CNT_NOMINAL i) (s.monRange i).1) s

/-- The STATUS bit that shows a source valid. -/
def validFld (i : Nat) : Fld :=
  if i = 0 then CLK.STATUS_XA_VALID else if i = 2 then CLK.STATUS_XB_VALID else if i = 3 then CLK.STATUS_REFCLK0_VALID
  else CLK.STATUS_REFCLK1_VALID

/-- A source is valid, or is not. -/
def State.setValid (s : State) (i : Nat) (b : Bool) : State :=
  (s.setFlag (validFld i) b).setFlag (CLK.MON_STAT_VALID i) b

/-- Table 15.6: what the failure of a source does; the domains it switched. -/
def State.sourceFailed (s : State) (i : Nat) : State × Nat :=
  if i = 0 then
    let s := [0, 1].foldl (fun (s : State) j => s.fset (CLK.PLL_STAT_REF j) 14) ((s.setValid 0 false).bumpSat CLK.FAIL_CNT_XA 1)
    let s := [0, 1].foldl (fun (s : State) j =>
      if s.flag (CLK.PLL_STAT_EN j) then s.setFlag (CLK.PLL_STAT_LOCKED j) false else s) s
    (((s.setFlag CLK.STATUS_REF_FIO true).showClk.refMonitors true).int I.clk 0, 0)
  else if i = 2 then
    let onXb := s.flag CLK.STATUS_ACLK_XB
    let s := ((s.setValid 2 false).bumpSat CLK.FAIL_CNT_XB 1).setFlag CLK.STATUS_AON_SIO (!s.flag CLK.STATUS_SIO_FAILED)
    let s : State := { s.setFlag CLK.STATUS_ACLK_XB false with pw := { s.pw with xbLost := true } }
    (s.int I.clk 0, if onXb then 2 ^ 28 else 0)
  else
    let s := (s.setValid i false).bumpSat (if i = 3 then CLK.FAIL_CNT_REFCLK0 else CLK.FAIL_CNT_REFCLK1) 1
    let s := (List.range 4).foldl (fun (s : State) k =>
      if s.fget (CLK.PLL_STAT_REF (2 + k)) = i + 1 ∧ s.flag (CLK.PLL_STAT_EN (2 + k)) ∧ ¬ s.flag (CLK.PLL_STAT_HOLDOVER (2 + k)) then
        s.enterHoldover k else s) s
    (s.int I.clk 1, 0)

/-- SIO is judged failed instead of FIO (R423): ACLK moves to FIO, the always-on timer to XB where it is valid. -/
def State.sioFailed (s : State) (count reason : Nat) : State :=
  let s := (s.setFlag CLK.STATUS_SIO_FAILED true).setFlag CLK.STATUS_AON_SIO false
  let s := s.moveDomains (2 ^ 28) true
  (s.int I.clk 0).clockFail 1 reason count (2 ^ 28) 0x2C9 0x25 count

/-- A monitor declares its source failed (R422 to R424). FIO that fails in the first window after its stability count gives
reason 0x0401, in a later one 0x0402 (R428). -/
def State.declareFailed (s : State) (i count reason : Nat) : State :=
  let m := s.mon i
  if i = 1 then
    if s.flag CLK.STATUS_XA_VALID ∧ (s.mon 0).bad = 0 ∧ (s.mon 0).passed then s.sioFailed count reason
    else s.limp (if m.passed ∨ 2 ≤ m.bad then 0x0402 else 0x0401)
  else
    let s := s.setMon i { m with good := 0, stable := decide (3 ≤ i), failed := true }
    let (s, mask) := (s.setFlag (CLK.MON_STAT_FAILED i) true).sourceFailed i
    s.clockFail i reason count mask (0x2C8 + i) 0x25 count

/-- A failed source is valid again (R425). -/
def State.sourceBack (s : State) (i : Nat) : State :=
  let s := ((s.setMon i { s.mon i with failed := false }).setValid i true).int I.clk 6
  if i = 0 then s.refMonitors false
  else if i = 2 then (s.setFlag CLK.STATUS_AON_SIO false).setFlag CLK.STATUS_ACLK_XB (decide (3 ≤ s.pwr) && s.flag CLK.CTRL_XB_USE)
  else s

/-- A source that FAILED is valid once its stability count and 16 consecutive windows are good; a REFCLK that never
failed is valid after one. -/
def State.revive (s : State) (i : Nat) : State :=
  let m := s.mon i
  if i = 1 ∨ s.flag (CLK.MON_STAT_VALID i) then s
  else if m.failed then (if m.stable ∧ 16 ≤ m.good then s.sourceBack i else s)
  else if 3 ≤ i then s.setValid i true
  else s

/-- A window of a monitor ends with a count. -/
def State.window (s : State) (i count : Nat) : State :=
  let (_, lo, hi) := s.monRange i
  let m := s.mon i
  let s := s.fset (CLK.MON_CNT_LAST i) count
  if lo ≤ count ∧ count ≤ hi then (s.setMon i { m with bad := 0, good := m.good + 1, passed := true }).revive i
  else
    let reason := if count = 0 then 2 else if count < lo then 0 else 1
    let s := (s.bumpSat (CLK.MON_STAT_BAD_WINDOWS i) 1).fset (CLK.MON_STAT_LAST_REASON i) reason
    let s := s.setMon i { m with bad := m.bad + 1, good := 0 }
    if ¬ m.failed ∧ (2 ≤ m.bad + 1 ∨ count = 0) then s.declareFailed i count reason else s

/-- A REFCLK window out of range while monitor 0 has a failing window in progress is discarded (R422). -/
def State.windowDiscarded (s : State) (i count : Nat) : Bool :=
  decide (3 ≤ i) && decide ((s.mon 0).bad ≠ 0) && s.flag CLK.STATUS_XA_VALID &&
    !(decide ((s.monRange i).2.1 ≤ count) && decide (count ≤ (s.monRange i).2.2))

/-- Once SIO is judged failed, the windows of the monitors that count against it decide nothing: R421 gives no other
reference for them (DESIGN CHOICE, assumption 62). -/
def State.windowBlind (s : State) (i : Nat) : Bool :=
  s.flag CLK.STATUS_SIO_FAILED && (decide (i = 1) || decide (i = 2))

def execMonitorWindow (i count : Nat) (s : State) : Host.Outcome State Fault Refusal :=
  done (if i < 5 ∧ s.devState ≠ 4 ∧ s.flag (CLK.MON_STAT_ARMED i) ∧ ¬ s.windowBlind i ∧ ¬ s.windowDiscarded i count then
      s.window i count
    else s)

/-- SPLL and MPLL, started on FIO ÷ 16 while XA was not yet valid, go over to XA (R415). -/
def State.refBack (s : State) : State :=
  let s := [0, 1].foldl (fun (s : State) j => s.fset (CLK.PLL_STAT_REF j) 2) s
  ((s.setFlag CLK.STATUS_REF_FIO false).showClk).refMonitors false

/-- XB becomes valid for the first time since VDD_AON came up: the always-on timer moves to it, and in Furl and Off ACLK
does where it may (R411, R414, Table 15.8). -/
def State.xbStable (s : State) : State :=
  let s := ((s.setValid 2 true).setFlag CLK.STATUS_AON_SIO false).fset CLK.STARTUP_B_XB_STABLE_MS (min 65535 (s.aon / 1000000))
  s.setFlag CLK.STATUS_ACLK_XB (decide (3 ≤ s.pwr) && s.flag CLK.CTRL_XB_USE)

/-- A source completes its stability count: it is valid unless it failed, and its monitor is armed. -/
def State.countEnd (s : State) (i : Nat) : State :=
  let s := s.setMon i { s.mon i with stable := true }
  let s := s.setFlag (CLK.MON_STAT_ARMED i) true
  let s := if i = 1 then (s.setFlag CLK.STATUS_FIO_ARMED true).setFlag (CLK.MON_STAT_VALID 1) true else s
  if i = 1 ∨ (s.mon i).failed then s.revive i
  else if i = 2 then s.xbStable
  else if i = 0 ∧ s.flag CLK.STATUS_REF_FIO then s.refBack.setValid 0 true
  else s.setValid i true

def execStabilityCountEnd (i : Nat) (s : State) : Host.Outcome State Fault Refusal :=
  done (if i < 3 ∧ s.devState ≠ 4 ∧ (i = 2 ∨ s.pwr ≤ 2) ∧ ¬ (s.mon i).stable then s.countEnd i else s)

/-- A failed source is restarted every 100 ms, and repeats its full count (R413). -/
def execSourceRestart (i : Nat) (s : State) : Host.Outcome State Fault Refusal :=
  done (if (i = 0 ∨ i = 2) ∧ (s.mon i).failed ∧ s.devState ≠ 4 ∧ (i = 2 ∨ s.pwr ≤ 2) then
      s.setMon i { s.mon i with stable := false, good := 0, bad := 0 }
    else s)

/-- XB has not completed its count in 2 s (R412). -/
def execXbAbsent (s : State) : Host.Outcome State Fault Refusal :=
  done (if s.flag CLK.STATUS_XB_VALID ∨ (s.mon 2).stable ∨ s.devState = 4 ∨ s.frozen then s else s.int I.clk 5)

/-! ### PLLs and takeovers (R418, R427) -/

/-- While DCLK runs from FIO every engine is in self-refresh, its queues held. Afterwards those of dies that serve resume,
in Reef-1 in power-down (R391). -/
def State.holdEngines (s : State) (on : Bool) : State :=
  s.engines.foldl (fun (s : State) m =>
    if on then (if s.engSr m then s else s.enterSr m)
    else if s.engFenced m ∨ s.fget (DCH.STATUS_DIE_STATE (engDie m)) ≠ 0 then s
    else if s.pwr = 1 then (s.leaveSr m).enterPd m
    else s.leaveSr m) s

/-- A PLL loses lock. -/
def State.unlock (s : State) (j : Nat) : State :=
  let s := (s.setFlag (CLK.PLL_STAT_LOCKED j) false).bumpSat (CLK.PLL_STAT_UNLOCK_CNT j) 1
  if 2 ≤ j then [2 * (j - 2), 2 * (j - 2) + 1].foldl State.abandonBringup s
  else
    let s := (s.moveDomains (pllDomains j) true).int I.clk 4
    let s := if j = 1 ∧ s.pwr ≤ 1 then s.holdEngines true else s
    s.clockFail (5 + j) 3 0 (pllDomains j) (0x2D0 + j) 0x24 (if j = 0 then 1 else 0)

def execPllUnlock (j : Nat) (s : State) : Host.Outcome State Fault Refusal :=
  done (if j < 6 ∧ s.live ∧ s.flag (CLK.PLL_STAT_EN j) ∧ s.flag (CLK.PLL_STAT_LOCKED j) then s.unlock j else s)

/-- A PLL relocks: its consumers move back, and the engines resume. -/
def State.relock (s : State) (j lockUs : Nat) : State :=
  let s := (s.setFlag (CLK.PLL_STAT_LOCKED j) true).fset (CLK.PLL_STAT_LOCK_US j) (min 255 lockUs)
  if 2 ≤ j then s.lpllLocked (j - 2) lockUs
  else
    let was := bitAt s.clk.moved 19
    let s := s.moveDomains (pllDomains j) false
    if j = 1 ∧ was ∧ s.pwr ≤ 1 then s.holdEngines false else s

def execPllRelock (j lockUs : Nat) (s : State) : Host.Outcome State Fault Refusal :=
  done (if j < 6 ∧ s.live ∧ s.flag (CLK.PLL_STAT_EN j) ∧ ¬ s.flag (CLK.PLL_STAT_LOCKED j) then s.relock j lockUs else s)

/-- A switch forces itself to its new clock. -/
def execDeadSource (sw old new : Nat) (s : State) : Host.Outcome State Fault Refusal :=
  done (if sw = 0 ∨ 46 < sw ∨ s.devState = 4 then s
    else
      let s := ((s.bumpSat CLK.TAKEOVER_COUNT 1).fset CLK.TAKEOVER_SWITCH sw).fset CLK.TAKEOVER_OLD old
      let s := ((s.fset CLK.TAKEOVER_NEW new).int I.clk 3).fault 0x2D6 0x26 1 sw
      s.event 0x0011 1 [sw, old % 256, new % 256, if sw ≤ 40 then sw else 0])

/-! ### Gating by block (R419, R420) -/

/-- A peripheral block is idle, so that its gate may close (Table 15.4). -/
def State.blockIdle (s : State) (b : Nat) : Bool :=
  if b < 8 then decide (s.portState b = 0)
  else if b = 8 then s.scn.queue.isEmpty && s.scn.runs.isEmpty && s.scn.spill.isEmpty &&
    (List.range 16).all (fun i => !s.flag (SCN.RES_ENG_VALID i))
  else s.cal.run.isNone && s.cal.queue.isEmpty && s.cal.windows.isEmpty

/-- A block that GATE can gate; SCN of a part without scan engines is gated for good. -/
def State.gateable (s : State) (b : Nat) : Bool := decide (b < 8) || (decide (b = 8) && s.part.scan) || decide (b = 9)

/-- Set a bit of GATE, GATED and PEND. -/
def State.setGate (s : State) (b : Nat) (en gated pend : Bool) : State :=
  let s := s.fset ⟨CLK.GATE, b, 1⟩ (b2n en)
  let s := s.fset CLK.GATE_STAT_GATED (setBit (s.fget CLK.GATE_STAT_GATED) b gated)
  let s := s.fset CLK.GATE_STAT_PEND (setBit (s.fget CLK.GATE_STAT_PEND) b pend)
  if b = 8 then s.setC62 else s

/-- A 1 written to GATE ungates the block. -/
def State.ungate (s : State) (b : Nat) : State := if s.gateable b then s.setGate b true false false else s

/-- A 0 written to GATE asks for the gate; it closes once the block is idle. -/
def State.askGate (s : State) (b : Nat) : State :=
  if s.gateable b ∧ ¬ bitAt (s.fget CLK.GATE_STAT_GATED) b then s.setGate b false false true else s

def execGateUngate (b : Nat) (s : State) : Host.Outcome State Fault Refusal := done (if s.live then s.ungate b else s)

def execGateRequest (b : Nat) (s : State) : Host.Outcome State Fault Refusal := done (if s.live then s.askGate b else s)

def execGateTakesEffect (b : Nat) (s : State) : Host.Outcome State Fault Refusal :=
  done (if s.live ∧ b < 10 ∧ bitAt (s.fget CLK.GATE_STAT_PEND) b ∧ s.blockIdle b then s.setGate b false true false else s)

/-- An access to a gated block is counted, and has no other effect (R17, R420). -/
def execGatedAccess (addr : Nat) (write : Bool) (s : State) : Host.Outcome State Fault Refusal :=
  done (if s.live ∧ s.gated addr then s.countGated addr write else s)

end Sys2Proof.Machine
end

