-- ==== Sys2Proof/Machine/Twb.lean ====
section
/-! DEFINITION. The two-wire ports (spec/17_two_wire_ports.md): frames of the target port with their checks, the read
frame, time-outs and the attention pulse; the mailbox, polls and bus recovery of the controller port; and the housekeeping
round, which polls (R383, R471). -/

namespace Sys2Proof.Machine

open Sys2Proof.Reg

/-! ### The target port (R459 to R468) -/

/-- A two-wire packet is queued or executing (R462). -/
def State.twBusy (s : State) : Bool :=
  s.mgc.twq.isSome || s.mgc.quiesce.any (fun q => q.pkt.src = .twoWire) ||
    (match s.mgc.commit with
     | some c => decide (c.pkt.src = .twoWire)
     | none => false) ||
    (match s.otp.job with
     | some j => (match j.ans with
       | some h => decide (h.src = .twoWire)
       | none => false)
     | none => false)

/-- The address byte is the port's own. -/
def State.twMine (s : State) (addr : Nat) : Bool := !s.inReset && !s.pinsTaken && decide (addr / 2 = s.fget TWB.STATUS_ADDR)

/-- The packet of a frame of `l` bytes. -/
def twPacket (l : Nat) (b : List Nat) : QPacket :=
  ⟨nth b 0, { src := .twoWire, bytes := l, seq := nth b 1, len := nth b 2, flags := nth b 3,
              payload := (List.range ((l - 8) / 4)).map (fun i => ofBe (slice b (8 + 4 * i) 4)) }⟩

/-- Set LAST_ERR. -/
def State.twErr (s : State) (e : Nat) : State := s.fset TWB.STATUS_LAST_ERR e

/-- An accepted frame replaces the kept response at the moment it is queued, unless it is identical (R462, R137). -/
def State.twAccept (s : State) (l : Nat) (b : List Nat) : State :=
  let q := twPacket l b
  let s := s.bumpSat TWB.TGT_XFER_CNT_FRAMES 1
  let s : State := if s.isRepeat q then { s with twb := { s.twb with unread := true, respNew := true } }
    else { s with mgc := { s.mgc with lastTw := none }, twb := { s.twb with unread := false, respNew := false } }
  { s with mgc := { s.mgc with twq := some q } }

/-- A write frame whose PEC is wrong, or missing where it is required, is discarded (R461). -/
def State.twPec (s : State) : State := ((s.bumpSat TWB.PEC_ERR_CNT_COUNT 1).int I.twb 2).twErr 1

/-- A protocol error (R460, R464). -/
def State.twProto (s : State) (e : Nat) : State := ((s.bumpSat TWB.PROTO_ERR_CNT_COUNT 1).int I.twb 1).twErr e

/-- The bytes after the address byte of a write frame, as far as the frame went. -/
def State.twWrite (s : State) (addr : Nat) (bytes : List Nat) : State :=
  match bytes with
  | [] => s.twProto 2
  | l :: b =>
    if l < 8 ∨ 240 < l then s.twErr 4
    else if b.length < l then s.twProto 2
    else if b.length = l then (if s.flag TWB.CTRL_PEC_REQ then s.twPec else s.twAccept l b)
    else if b.length = l + 1 then
      if crc8 (addr :: l :: b.take l) = nth b l then s.twAccept l (b.take l) else s.twPec
    else (s.twErr 3).twAccept l (b.take l)

/-- The port sees its address: wake source 3 (Table 14.4); without effect on a device that is awake. -/
def State.twMatch (s : State) : State := if s.wakeable then s.wakeEvent 3 0 else s

/-- The sleeping port acknowledges its address and holds SB_SCL low until it can take the next byte (R467). -/
def State.twStretch (s : State) (f : TwFrame) : State :=
  let s := s.twMatch
  { s with twb := { s.twb with held := some f } }

/-- A write transaction: address byte, then the bytes that the controller sent before its STOP or repeated START.
`badStart` says that it ended with a repeated START where an acknowledge was due (after the address byte of a read too). -/
def execTwWriteFrame (addr : Nat) (bytes : List Nat) (badStart : Bool) (s : State) : Host.Outcome State Fault Refusal :=
  done (if ¬ s.twMine addr ∨ (addr % 2 = 1 ∧ ¬ badStart) ∨ s.twb.held.isSome then s
    else if s.twAsleep then s.twStretch ⟨addr, bytes, badStart, 0, s.aon⟩
    else if s.twBusy ∧ addr % 2 = 0 then s.twMatch.bumpSat TWB.TGT_XFER_CNT_NACKED 1
    else if badStart then s.twMatch.twProto 5
    else s.twMatch.twWrite addr bytes)

/-- TW_STAT (R463). -/
def State.twStat (s : State) : Nat :=
  let resp := s.mgc.lastTw.isSome && s.twb.unread
  b2n resp * 128 + b2n (!s.mgc.twEvq.isEmpty) * 64 + b2n s.twBusy * 32 + b2n s.fwRuns * 16 + s.fget TWB.STATUS_LAST_ERR

/-- The bytes of a read frame (Table 17.1), its PEC last; 0xFF follows. -/
def State.readFrame (s : State) (addr : Nat) : List Nat :=
  let kept := match s.mgc.lastTw with
    | some (_, b) => if s.twBusy then [] else b
    | none => []
  let b := [s.twStat, kept.length] ++ kept
  b ++ [crc8 (addr :: b)]

/-- A read transaction of `count` bytes. -/
def State.twRead (s : State) (addr count : Nat) : State :=
  let f := s.readFrame addr
  let sent := (List.range count).map (fun i => if i < f.length then nth f i else 0xFF)
  let s : State := { s with twb := { s.twb with sent := sent } }
  let s : State := if 1 ≤ count then { s with twb := { s.twb with evtNew := false, respNew := false } } else s
  let s := if 2 ≤ count then s.twErr 0 else s
  if 4 ≤ f.length ∧ f.length ≤ count + 1 then { s with twb := { s.twb with unread := false } } else s

def execTwReadFrame (addr count : Nat) (s : State) : Host.Outcome State Fault Refusal :=
  done (if ¬ s.twMine addr ∨ addr % 2 = 0 ∨ s.twb.held.isSome then s
    else if s.twAsleep then s.twStretch ⟨addr, [], false, count, s.aon⟩
    else s.twMatch.twRead addr count)

/-- The port releases SB_SCL as soon as it can take the next byte, or after 10 ms; the transaction goes on (R467). -/
def State.twTick (s : State) : State :=
  match s.twb.held with
  | none => s
  | some f =>
    if (s.twAsleep ∨ (f.addr % 2 = 0 ∧ s.twBusy)) ∧ s.aon < f.since + 10000000 then s
    else
      let s : State := { s with twb := { s.twb with held := none } }
      if f.badStart then s.twProto 5 else if f.addr % 2 = 1 then s.twRead f.addr f.count else s.twWrite f.addr f.bytes

/-- A line held low beyond the low-time timeout (R465). -/
def execTwTimeout (scl : Bool) (s : State) : Host.Outcome State Fault Refusal :=
  done (if s.inReset ∨ s.twAsleep ∨ s.pinsTaken ∨ s.twb.held.isSome then s else ((s.bumpSat (if scl then TWB.TO_CNT_SCL_LOW else TWB.TO_CNT_SDA_LOW) 1).int I.twb 3).twErr 6)

/-- The device wants attention (R466). -/
def State.attention (s : State) : Bool :=
  s.flag TWB.CTRL_ATTN_EN && !s.twAsleep && s.twb.held.isNone && ((!s.mgc.twEvq.isEmpty && s.twb.evtNew) ||
    (s.flag TWB.TGT_CFG_ATTN_RESP && s.mgc.lastTw.isSome && s.twb.unread && s.twb.respNew))

/-- The attention pulse, which a collision cuts short; without a repeat interval there is one only. -/
def execAttentionPulse (collision : Bool) (s : State) : Host.Outcome State Fault Refusal :=
  done (if ¬ s.attention then s
    else if collision then s.bumpSat TWB.ATTN_CNT_COLLISIONS 1
    else
      let s := (s.bumpSat TWB.ATTN_CNT_PULSES 1).int I.twb 0
      if s.fget TWB.TGT_CFG_ATTN_REPEAT_MS = 0 then { s with twb := { s.twb with evtNew := false, respNew := false } } else s)

/-- The comparator sees the device's address in Reef-2 or in Furl: wake source 3 (R467). -/
def execSleepAddressMatch (s : State) : Host.Outcome State Fault Refusal :=
  done (if s.twAsleep then s.twMatch else s)

/-! ### The controller port (R470 to R475) -/

/-- The commands of Table 17.4. -/
def pmCommands : List Nat := [0x01, 0x03, 0x21, 0x25, 0x26, 0x79, 0x8B, 0x8C, 0x8D]

/-- The commands of a poll, in order (R471). -/
def pollCommands : List Nat := [0x8B, 0x8C, 0x8D, 0x79]

/-- A mailbox transaction is refused without any bus activity (R472). -/
def State.pmRefused (s : State) (k cmd : Nat) : Bool :=
  let rail := s.fget (TWB.PM_DEV_RAIL k)
  !pmCommands.contains cmd || !s.flag (TWB.PM_DEV_EN k) ||
    ([0x01, 0x21, 0x25, 0x26].contains cmd && (decide (rail = 4) || decide (rail = 5)) && s.stk.relay.isSome)

/-- A transaction of the controller port ended. -/
def State.pmResult (s : State) (k cmd result : Nat) : State :=
  let s := (s.fset TWB.PM_STAT_LAST_RESULT result).fset TWB.PM_STAT_LAST_ADDR (s.fget (TWB.PM_DEV_ADDR k))
  let s := s.fset TWB.PM_STAT_LAST_CMD cmd
  if result = 0 then s else s.int I.twb 6

/-- The arbitration losses of a transaction. -/
def State.pmLosses (s : State) (n : Nat) : State :=
  let s := (List.range (min 3 n)).foldl (fun (s : State) _ => (s.bumpSat TWB.ARB_LOST_CNT_COUNT 1).int I.twb 5) s
  s.fset TWB.PM_STAT_ATTEMPT (min 3 n)

/-- One mailbox transaction, or its refusal. -/
def State.pmXfer (s : State) (o : PmOutcome) : State :=
  let k := s.fget TWB.PM_XFER_ENTRY
  let cmd := s.fget TWB.PM_XFER_CMD
  let (s, r, sent) : State × Nat × Bool :=
    if ¬ s.flag TWB.CTRL_PM_EN then (s, 8, false)
    else if s.pmRefused k cmd then (s, 7, false)
    else (s.pmLosses o.losses, if 3 ≤ o.losses then 3 else min 6 o.result, true)
  let s := if r = 4 then s.bumpSat TWB.PM_HANG_CNT_FAILED 1 else s
  let s := s.fset TWB.PM_XFER_STAT_RESULT r
  let s := if r = 0 ∧ [0x79, 0x8B, 0x8C, 0x8D].contains cmd then s.fset TWB.PM_XFER_STAT_RDATA o.rdata else s
  let s := if sent then s.pmResult k cmd r else s.int I.twb 6
  s.int I.twb 4

/-- Writing PM_XFER: its fields, and the transaction where START is 1. -/
def State.writePmXfer (s : State) (v : Nat) (o : PmOutcome) : State :=
  let s := s.setReg TWB.PM_XFER (BitVec.ofNat 32 (bits v 16 11 * 65536 + bits v 0 16))
  if bitAt v 31 ∧ ¬ s.flag TWB.PM_XFER_STAT_BUSY then s.pmXfer o else s

def execPmXfer (value : Word) (outcome : PmOutcome) (s : State) : Host.Outcome State Fault Refusal :=
  done (if s.live ∧ s.pwr ≤ 1 then s.writePmXfer (value.toNat % 2 ^ 32) outcome else s)

/-- A hung bus: PM_SDA reads high after so many clocks, or is still low after 9 (R474). -/
def execPmbusHangRecovery (clocks : Option Nat) (s : State) : Host.Outcome State Fault Refusal :=
  done (if ¬ s.live ∨ 2 ≤ s.pwr ∨ ¬ s.flag TWB.CTRL_PM_EN then s
    else
      match clocks with
      | some n => if n ≤ 9 then s.bumpSat TWB.PM_HANG_CNT_RECOVERED 1 else s
      | none => ((s.bumpSat TWB.PM_HANG_CNT_FAILED 1).fset TWB.PM_STAT_LAST_RESULT 4).int I.twb 6)

/-- A report of firmware to FLT: its code is the firmware's own (Table 18.3). -/
def State.fwReport (s : State) (source hint : Nat) : State :=
  let (v, s) := s.fresh
  s.fault source 0x3F hint (v % 2 ^ 30)

/-- One transaction of a poll, of the command at place `i` of `pollCommands`: its word is kept, and firmware reports a
failure, and a STATUS_WORD that is not zero (R471). Arbitration lost three times, or a hung bus, ends the poll until the
next round (R473, R474). -/
def State.pollXfer (k : Nat) (a : State × Bool) (x : Nat × PmOutcome) : State × Bool :=
  let (s, on) := a
  if !on then a
  else
    let cmd := nth pollCommands x.1
    let s := s.pmLosses x.2.losses
    let r := if 3 ≤ x.2.losses then 3 else min 6 x.2.result
    let s := if r = 4 then s.bumpSat TWB.PM_HANG_CNT_FAILED 1 else s
    let s := s.pmResult k cmd r
    if r ≠ 0 then (s.fwReport 0x2E9 1, decide (r ≠ 3) && decide (r ≠ 4))
    else
      let words := (SMap.get [] s.twb.polled k ++ List.replicate 4 0).take 4
      let s : State := { s with twb := { s.twb with polled := SMap.set [] s.twb.polled k (words.set x.1 x.2.rdata) } }
      (if x.1 = 3 ∧ x.2.rdata ≠ 0 then s.fwReport 0x2E9 1 else s, true)

/-- The poll of one regulator (R471). -/
def State.pollOne (poll : List (Nat × List PmOutcome)) (s : State) (k : Nat) : State :=
  if ¬ s.flag (TWB.PM_DEV_EN k) ∨ ¬ s.flag (TWB.PM_DEV_POLL k) then s
  else
    match (poll.find? (fun x => x.1 = k)).map (·.2) with
    | some l => (((List.range 4).zip l).foldl (State.pollXfer k) (s, true)).1
    | none => s

/-- The housekeeping sequencer runs: in Sail, Reef-1 and Reef-2 (R383). -/
def State.housekeeps (s : State) : Bool :=
  !s.frozen && decide (s.pwr ≤ 2) && decide (s.devState ≤ 1) && decide (8 ≤ s.fget DEV.BOOT_STEP)

/-- Every 10 ms: the round, firmware's PMBus polls, and the end of the slow divider, in a round that computes the
compensation (R383, R471, R475). -/
def execHousekeepingRound (obs : RoundObs) (s : State) : Host.Outcome State Fault Refusal :=
  done (if s.housekeeps then
      let s := s.round obs
      let s := if s.flag TWB.CTRL_PM_EN ∧ s.fwRuns then (List.range 8).foldl (State.pollOne obs.poll) s else s
      if s.flag THM.CTRL_FIO_COMP_EN then s.setFlag TWB.PM_STAT_SLOW_DIV false else s
    else s)

end Sys2Proof.Machine
end

