-- ==== Sys2Proof/Machine/Fault.lean ====
section
/-! DEFINITION. FLT (spec/18_faults_black_box_freeze.md): classification of fault messages, reactions and their shadows,
fences that it holds, die-logic and mast-domain resets as it orders them, the restart of the management controller, and
the packets of FLT. -/

namespace Sys2Proof.Machine

open Sys2Proof.Reg

/-! ### Messages (R477 to R479) -/

/-- The 48 bits of a message (Table 18.1). -/
def FaultMsg.word (m : FaultMsg) : Nat := m.source * 2 ^ 38 + m.kind * 2 ^ 32 + m.hint * 2 ^ 30 + m.locator

/-- The message that 48 bits spell. -/
def msgOf (x : Nat) : FaultMsg := { source := bits x 38 10, kind := bits x 32 6, hint := bits x 30 2, locator := bits x 0 30 }

/-- The kind reaction (Table 18.3); 0 none. -/
def FaultMsg.kindReaction (m : FaultMsg) : Nat :=
  if m.kind = 0x20 ∨ m.kind = 0x21 ∨ m.kind = 0x22 ∨ m.kind = 0x35 then 1
  else if m.kind = 0x23 then (if bits m.locator 0 8 = 2 then 1 else 0)
  else if m.kind = 0x24 then (if bitAt m.locator 0 then 2 else 0)
  else if m.kind = 0x27 ∨ m.kind = 0x29 then 6
  else if m.kind = 0x28 then 3
  else if m.kind = 0x2A then 4
  else if m.kind = 0x2C then 7
  else if m.kind = 0x2D then 8
  else if m.kind = 0x32 then 10
  else if m.kind = 0x33 then (if m.source = 0x071 then 8 else if m.source = 0x2A0 then 9 else if m.source = 0x2EA then 11 else 0)
  else 0

/-! ### Targets and blast sets (Table 18.5) -/

/-- The port of a PRT or LNK source. -/
def portOf (src : Nat) : Option Nat :=
  if 0x010 ≤ src ∧ src < 0x050 ∧ (src - 0x010) % 8 ≤ 4 then some ((src - 0x010) / 8)
  else if 0x050 ≤ src ∧ src < 0x058 then some (src - 0x050)
  else none

/-- The die of a DCH, ECC, STK, CAL or THM source. -/
def dieOf (src : Nat) : Option Nat :=
  if 0x080 ≤ src ∧ src < 0x108 then some ((src - 0x080) / 17 + 1)
  else if 0x108 ≤ src ∧ src < 0x110 then some (src - 0x107)
  else if 0x140 ≤ src ∧ src < 0x1C0 then some ((src - 0x140) / 16 + 1)
  else if 0x1C0 ≤ src ∧ src < 0x1C8 then some (src - 0x1BF)
  else if 0x200 ≤ src ∧ src < 0x288 then some ((src - 0x200) / 17 + 1)
  else if 0x2A1 ≤ src ∧ src ≤ 0x2A8 then some (src - 0x2A0)
  else if 0x2B1 ≤ src ∧ src ≤ 0x2B8 then some (src - 0x2B0)
  else none

/-- The source is an ECC index, a DCH engine or an STK mast. -/
def namesIndex (src : Nat) : Bool :=
  (decide (0x140 ≤ src) && decide (src < 0x1C0)) || (decide (0x080 ≤ src) && decide (src < 0x108)) ||
    (decide (0x200 ≤ src) && decide (src < 0x288))

/-- A reaction that a source can target (R483). Codes 0 and 12 to 31 name none. -/
def canTarget (code src : Nat) : Bool :=
  if code = 1 then (portOf src).isSome
  else if code = 3 ∨ code = 4 then namesIndex src
  else if code = 5 then decide (src = 0x061)
  else if code = 6 then (dieOf src).isSome
  else true

/-- The index of an ECC source, or the one that a DCH engine or STK mast source serves. -/
def State.indexOf (s : State) (src : Nat) : Option Nat :=
  if 0x140 ≤ src ∧ src < 0x1C0 then some (src - 0x140)
  else if 0x080 ≤ src ∧ src < 0x108 then s.servedBy (src - 0x080)
  else if 0x200 ≤ src ∧ src < 0x288 then s.servedBy (src - 0x200)
  else none

/-- The target of a reaction that a message of a source orders; 0 where the reaction has none. -/
def State.targetOf (s : State) (code src : Nat) : Option Nat :=
  if code = 0 ∨ 11 < code then none
  else if code = 1 then portOf src
  else if code = 3 ∨ code = 4 then s.indexOf src
  else if code = 5 then (if src = 0x061 ∧ ¬ s.flag RGD.DENY_INFO_NOWIN then some (s.fget RGD.DENY_INFO_WINDOW) else none)
  else if code = 6 then dieOf src
  else if code = 7 then (if s.dies = 8 then some 0 else none)
  else some 0

/-- The sources of a die and of its spare. -/
def dieSource (d src : Nat) : Bool := decide (dieOf src = some d)

/-- The sources of an index and of the engine and mast that serve it. -/
def State.indexSource (s : State) (k src : Nat) : Bool :=
  decide (src = 0x140 + k) || decide (src = 0x080 + s.engineOf k) || decide (src = 0x200 + s.engineOf k)

/-- The blast set of a reaction (Table 18.5). -/
def State.inBlast (s : State) (code target src : Nat) : Bool :=
  if code = 1 then decide (portOf src = some target)
  else if code = 2 then decide (0x010 ≤ src) && decide (src ≤ 0x058)
  else if code = 3 ∨ code = 4 then s.indexSource target src
  else if code = 5 then decide (src = 0x061)
  else if code = 6 then dieSource target src
  else if code = 7 then [5, 6, 7, 8].any (fun d => dieSource d src) || decide (src = 0x288)
  else if code = 8 then (decide (0x130 ≤ src) && decide (src ≤ 0x13F)) || decide (src = 0x071) || decide (src = 0x068)
  else if code = 9 then decide (0x2A0 ≤ src) && decide (src ≤ 0x2A8)
  else if code = 10 then decide (src ≤ 0x003)
  else decide (0x2E8 ≤ src) && decide (src ≤ 0x2EA)

/-! ### What a reaction does -/

/-- Firmware is restarted (R128): what executes is answered ABORTED, and every pending operation but the power-state
transitions ends ABORTED. -/
def State.restartMgc (s : State) : State :=
  let s := s.fset MGC.STATUS_FW_STATE 3
  let s := s.endPackets St.aborted
  let s : State := { s with otp := { s.otp with wait := [] } }
  s.abortOps (fun o => !s.pwrOps.contains o.id)

/-- Firmware runs again, within the 20 ms of R128. -/
def State.restartEnds (s : State) : State :=
  if s.fget MGC.STATUS_FW_STATE = 3 ∧ s.mclk then
    (s.fset MGC.STATUS_FW_STATE 2).endReaction 10 0
  else s

/-- Table 7.5, steps 1 to 4: the engines stop and their pseudo-channels enter self-refresh. -/
def State.dieReset (s : State) (d : Nat) : State :=
  let s := (dieEngines d).foldl (fun (s : State) m => if s.engPerm m ∨ s.engSr m then s else s.enterSr m) s
  (s.fset (DCH.STATUS_DIE_STATE d) 1).holdDie d

/-- A die-logic reset, or its wait for a mast-domain reset (R485). -/
def State.orderDieReset (s : State) (d : Nat) : State :=
  if 5 ≤ d ∧ s.stk.relay.isSome then { s with flt := { s.flt with waiting := s.flt.waiting ++ [(6, d)] } } else s.dieReset d

/-- A mast-domain reset, or its wait for a die-logic reset of D4 (R31, R485). -/
def State.orderRelay (s : State) (cause : Nat) : State :=
  if s.dieResetting 4 then { s with flt := { s.flt with waiting := s.flt.waiting ++ [(7, cause)] } } else s.startRelay cause

/-- FLT no longer holds a temporary fence of an index. -/
def State.dropHold (s : State) (k : Nat) : State :=
  { s with flt := { s.flt with holds := s.flt.holds.filter (fun h => h.index ≠ k) } }

/-- A permanent fence, which replaces a temporary one (R485); an index that has one keeps it. -/
def State.fencePerm (s : State) (k cause : Nat) : State :=
  if s.engPerm (s.engineOf k) then s else ((s.permFence k cause).dropHold k).endReaction 3 k

/-- A temporary fence, with its hold (R241, R488). -/
def State.fenceTemp (s : State) (k : Nat) : State :=
  let s := s.fenceEngine (s.engineOf k) false
  { s with flt := { s.flt with holds := s.flt.holds ++ [⟨k, s.now, s.now⟩] } }

/-- The reset of TWB: what a bus transaction was doing is abandoned. -/
def State.resetTwb (s : State) : State := { s with twb := { s.twb with sent := [], held := none } }

/-- The cause of a permanent fence (R326): a PC_FAILED message carries it; for another message the spec gives none. -/
def State.fenceCause (s : State) (m : FaultMsg) : Nat × State :=
  if m.kind = 0x2A then (m.locator % 4, s)
  else
    let (x, s) := s.fresh
    (x % 256, s)

/-- A guard window is fenced (R173); a staged copy of it keeps the fence whatever was staged (R175). -/
def State.fenceWin (s : State) (w : Nat) : State :=
  let s := s.setFlag (RGD.WIN_FENCE w) true
  let win := s.mgc.staged.win.map (fun (e : Nat × Nat) => if e.1 = w then (w, e.2 ||| 2 ^ 31) else e)
  State.int { s with mgc := { s.mgc with staged := { s.mgc.staged with win := win } } } I.rgd 1

/-- Run a reaction; those that end at once end here. -/
def State.react (s : State) (m : FaultMsg) (code target : Nat) : State :=
  if code = 1 then s.enterRetrain target 0
  else if code = 2 then
    let up := (List.range 8).filter (fun p => decide (s.portState p = 5))
    let s := up.foldl (fun (s : State) p => s.enterRetrain p 0) s
    if up = [] then s.endReaction 2 0 else s
  else if code = 3 then s.fenceTemp target
  else if code = 4 then
    let (cause, s) := s.fenceCause m
    (s.fencePerm target cause).endReaction 4 target
  else if code = 5 then (s.fenceWin target).endReaction 5 target
  else if code = 6 then s.orderDieReset target
  else if code = 7 then s.orderRelay (if m.kind = 0x2C then m.locator % 4 else 0)
  else if code = 8 then s.resetScn.endReaction 8 0
  else if code = 9 then s.calReset.endReaction 9 0
  else if code = 10 then s.restartMgc
  else s.resetTwb.endReaction 11 0

/-! ### Ordering (R484 to R487) -/

/-- The reaction ID after one: it counts modulo 65,536 and skips 0. -/
def nextReactionId (n : Nat) : Nat := if 65535 ≤ n then 1 else n + 1

/-- SHADOW[k] opens. -/
def State.openShadow (s : State) (k code target id : Nat) : State :=
  (((s.setReg (FLT.SHADOW k) 0).setFlag (FLT.SHADOW_VALID k) true).fset (FLT.SHADOW_REACT k) code).fset
    (FLT.SHADOW_TARGET k) target |>.fset (FLT.SHADOW_ID k) id |>.bump FLT.STATUS_SHADOWS 1

/-- A reaction takes the next ID and opens a shadow, if one of the 16 is free. -/
def State.openReaction (s : State) (code target since : Nat) : State × Nat :=
  let id := nextReactionId (s.fget FLT.STATUS_LAST_ID)
  let s := ((s.fset FLT.STATUS_LAST_ID id).bump FLT.REACT_CNT_COUNT 1).bumpSat (FLT.REACT_CFG_COUNT code) 1
  let slot := (List.range 16).find? (fun k => !s.flag (FLT.SHADOW_VALID k))
  let s := match slot with
    | some k => s.openShadow k code target id
    | none => s.int I.flt 3
  let r : Reaction := { code := code, target := target, id := id, since := since, slot := slot }
  (State.int { s with flt := { s.flt with reactions := s.flt.reactions ++ [r] } } I.flt 1, id)

/-- A reaction of a code on a target is in progress. -/
def State.inProgress (s : State) (code target : Nat) : Option Reaction :=
  s.flt.reactions.find? (fun r => decide (r.code = code) && decide (r.target = target) && !r.ended)

/-- Reactions may be ordered at all (R485). -/
def State.reactsNow (s : State) : Bool := decide (s.devState ≠ 4) && decide (s.pwr ≤ 2) && !s.frozen && !s.tripped

/-- The state of the target lets the reaction be ordered (R484). -/
def State.mayOrder (s : State) (code target : Nat) : Bool :=
  if code = 1 then s.canRetrain target
  else if code = 3 then !s.fenced target
  else true

/-- What an order came to: the code and ID that the message carries, and the target where the reaction is new. -/
structure Ordered where
  code : Nat
  id : Nat
  run : Option Nat
  deriving DecidableEq, Repr

/-- Order a reaction for a message: merged into the one in progress, or new (R484). -/
def State.order (s : State) (m : FaultMsg) (code : Nat) : State × Option Ordered :=
  match s.targetOf code m.source with
  | none => (s, none)
  | some t =>
    match s.inProgress code t with
    | some r => (s, some ⟨code, r.id, none⟩)
    | none =>
      if s.mayOrder code t then
        let (s, id) := s.openReaction code t s.flt.posted
        (s, some ⟨code, id, some t⟩)
      else (s, none)

/-- A SELF_RETRAIN is adopted: the port is already entering RETRAIN (R484). -/
def State.adopt (s : State) (m : FaultMsg) : State × Option Ordered :=
  match portOf m.source with
  | none => (s, none)
  | some p =>
    match s.inProgress 1 p with
    | some r => (s, some ⟨1, r.id, none⟩)
    | none =>
      let (s, id) := s.openReaction 1 p (m.num + 1)
      (if s.portState p = 5 ∨ s.portState p = 10 then s.endReaction 1 p else s, some ⟨1, id, none⟩)

/-- The kind reaction of a message. -/
def State.orderKind (s : State) (m : FaultMsg) : State × Option Ordered :=
  if m.kindReaction = 0 then (s, none) else if m.kind = 0x35 then s.adopt m else s.order m m.kindReaction

/-- Run what was ordered anew. -/
def State.runOrdered (s : State) (m : FaultMsg) (o : Option Ordered) : State :=
  match o with
  | some ⟨code, _, some t⟩ => s.react m code t
  | _ => s

/-! ### Classification (R480 to R482) -/

/-- The classifier entry of a source. -/
def State.clsEntry (s : State) (src : Nat) : ClassEntry := SMap.get ⟨0xC81C0100, 0, false, 0⟩ s.flt.table src

/-- Write it. -/
def State.setClsEntry (s : State) (src : Nat) (e : ClassEntry) : State :=
  { s with flt := { s.flt with table := SMap.set ⟨0xC81C0100, 0, false, 0⟩ s.flt.table src e } }

/-- The window of an entry in units of 100 µs. -/
def ClassEntry.window (e : ClassEntry) : Nat := 2 ^ bits e.cfg 17 5

/-- The state word of an entry (Table 18.4) at a time. -/
def ClassEntry.stateWord (e : ClassEntry) (now : Nat) : Nat :=
  e.count * 2 ^ 24 + b2n e.fired * 2 ^ 23 + min (2 ^ 23 - 1) ((e.winEnd - now) / 100000)

/-- The classifier on one counted message: the entry after it, and whether it fired. -/
def ClassEntry.count1 (e : ClassEntry) (t : Nat) : ClassEntry × Bool :=
  let e : ClassEntry := if e.count = 0 ∨ e.winEnd ≤ t then { e with count := 0, fired := false, winEnd := t + e.window * 100000 } else e
  let e := { e with count := min (e.count + 1) 255 }
  if max (bits e.cfg 8 8) 1 ≤ e.count ∧ ¬ e.fired then ({ e with fired := true }, true) else (e, false)

/-- The severity at firing. -/
def ClassEntry.severity (e : ClassEntry) (hint : Nat) : Nat :=
  if bitAt e.cfg 27 then max (bits e.cfg 28 2) hint else bits e.cfg 28 2

/-- The reaction that makes a message consequential: the oldest whose shadow it arrived in (R486). -/
def State.shadowOf (s : State) (m : FaultMsg) : Option Reaction :=
  s.flt.reactions.find? (fun r => r.slot.isSome && decide (r.since ≤ m.num) &&
    (match r.closed with
     | some c => decide (m.num < c)
     | none => true) && s.inBlast r.code r.target m.source)

/-- Reactions that no message still in the queue can meet are forgotten. -/
def State.pruneReactions (s : State) : State :=
  { s with flt := { s.flt with reactions := s.flt.reactions.filter (fun r =>
      !r.ended || (match r.slot, r.closed with
        | none, _ => false
        | some _, none => true
        | some _, some c => s.flt.ingress.any (fun m => m.num < c))) } }

/-- A counted message of a temporary fence's blast set restarts its hold (R488). -/
def State.restartHolds (s : State) (src : Nat) : State :=
  { s with flt := { s.flt with holds := s.flt.holds.map (fun h => if s.inBlast 3 h.index src then { h with lastMsg := s.now } else h) } }

/-- The FAULT record of a message (Table 18.9). -/
def State.faultRecord (s : State) (m : FaultMsg) (flags shadow sev code id count : Nat) : State :=
  s.record 0x01 (flags + 8 * b2n m.injected) shadow m.source (beBytes 6 m.word ++ [sev, code] ++ beBytes 2 id ++ [count])
    (decide (s.fget BBX.CTRL_NV_MIN ≤ sev))

/-- FAULT_NOTIFY (R482). -/
def State.faultNotify (s : State) (m : FaultMsg) (e : ClassEntry) (sev code id : Nat) : State :=
  let s := s.event 0x0060 sev ([sev, code] ++ beBytes 2 id ++ [e.count] ++ beBytes 4 e.window ++
    [2 * b2n (bitAt e.cfg 27) + b2n (bitAt e.cfg 30)]) m.word
  let s := ((s.int I.flt 0).alert 2 true).bump FLT.NOTIFY_CNT_COUNT 1
  s.setReg FLT.LAST_NOTIFY (BitVec.ofNat 32 (m.source * 2 ^ 22 + m.kind * 2 ^ 16 + sev * 2 ^ 14 + code * 2 ^ 9))

/-- A message is accepted: counted, shown and traced. -/
def State.acceptMsg (s : State) (m : FaultMsg) : State :=
  let s := (s.bump FLT.MSG_CNT_COUNT 1).fset FLT.LAST_MSG_HI_MSG (m.word / 2 ^ 32)
  (s.fset FLT.LAST_MSG_LO_MSG (m.word % 2 ^ 32)).trace 1 0 (m.word / 2 ^ 16)

/-- A message that is not consequential: counted where its entry is enabled, its reactions ordered, recorded, notified;
then its reactions run. -/
def State.judge (s : State) (m : FaultMsg) : State :=
  let e0 := s.clsEntry m.source
  let en := bitAt e0.cfg 31
  let (e, fired) := if en then e0.count1 m.arrival else (e0, false)
  let s := s.setClsEntry m.source e
  let s := if en then s.restartHolds m.source else s
  let sev := if fired then e.severity m.hint else m.hint
  let orders := s.reactsNow && !m.logged && !m.noReact
  let (s, a) := if orders then s.orderKind m else (s, none)
  let code := bits e.cfg 22 5
  let (s, b) := if orders ∧ fired ∧ s.flag FLT.CTRL_REACT_EN ∧ code ≠ m.kindReaction then s.order m code else (s, none)
  let shown := match a, b with
    | some o, _ => (o.code, o.id)
    | none, some o => (o.code, o.id)
    | none, none => (0, 0)
  let s := if m.logged then s else s.faultRecord m (2 * b2n en + 4 * b2n fired) 0 sev shown.1 shown.2 e.count
  let s := if fired ∧ bitAt e.cfg 30 ∧ s.fget FLT.CTRL_NOTIFY_MIN ≤ sev then s.faultNotify m e sev shown.1 shown.2 else s
  (s.runOrdered m a).runOrdered m b

/-- A consequential message is logged with its shadow's reaction ID, and nothing else (R486). -/
def State.consequential (s : State) (m : FaultMsg) (r : Reaction) : State :=
  let s := s.bump FLT.CONSEQ_CNT_COUNT 1
  if m.logged then s else s.faultRecord m 1 r.id m.hint 0 0 (s.clsEntry m.source).count

/-- FLT takes the oldest message of its queue. -/
def State.classifyOne (s : State) : State :=
  match s.flt.ingress with
  | [] => s
  | m :: rest =>
    let s : State := { s with flt := { s.flt with ingress := rest } }
    let s := if m.logged then s else s.acceptMsg m
    State.pruneReactions (match s.shadowOf m with
      | some r => s.consequential m r
      | none => s.judge m)

/-- While MCLK is stopped, BBX logs the oldest message that it has not logged, unclassified (R480). -/
def State.logOne (s : State) : State :=
  match s.flt.ingress.find? (fun m => !m.logged) with
  | none => s
  | some m =>
    let q : List FaultMsg := s.flt.ingress.map (fun (x : FaultMsg) => if x.num = m.num then { x with logged := true } else x)
    let s : State := { s with flt := { s.flt with ingress := q } }
    (s.acceptMsg m).faultRecord m 0 0 m.hint 0 0 0

/-- A message is sent by its source; a fault of a scan engine also sets SCN.INT_STAT.ENG_FAULT (R293). -/
def State.arrive (s : State) (src kind hint loc : Nat) : State :=
  let s := if 0x130 ≤ src ∧ src ≤ 0x13F ∧ kind = 0x2D ∧ s.scnPresent then s.int I.scn 4 else s
  s.fault src kind hint loc

/-- A message arrives, if one does, and FLT takes the oldest of its queue. -/
def execFaultMessage (arrives : Option (Nat × Nat × Nat × Nat)) (s : State) : Host.Outcome State Fault Refusal :=
  let s := match arrives with
    | some (src, kind, hint, loc) => s.arrive (src % 1024) (kind % 64) (hint % 4) (loc % 2 ^ 30)
    | none => s
  done (if s.mclk then s.classifyOne else s.logOne)

/-! ### Ends (R486, R488) -/

/-- SHADOW[k] closes SHADOW_US after its reaction has ended (R486). -/
def State.closeShadow (s : State) (k : Nat) : State :=
  match s.flt.reactions.find? (fun r => r.ended && decide (r.slot = some k) && r.closed.isNone) with
  | none => s
  | some r =>
    if s.now < r.endAt + 1000 * max 1 (s.fget (FLT.REACT_CFG_SHADOW_US r.code)) then s else
    let s := (s.setFlag (FLT.SHADOW_VALID k) false).fset FLT.STATUS_SHADOWS (s.fget FLT.STATUS_SHADOWS - 1)
    let rs : List Reaction := s.flt.reactions.map (fun (x : Reaction) =>
      if x.id = r.id ∧ x.slot = some k then { x with closed := some s.flt.posted } else x)
    State.pruneReactions { s with flt := { s.flt with reactions := rs } }

def execShadowEnd (k : Nat) (s : State) : Host.Outcome State Fault Refusal := done (if k < 16 then s.closeShadow k else s)

/-- A temporary fence is lifted; while its die is in a reset, or PWR holds it in self-refresh, the lift waits (R241). -/
def State.liftHold (s : State) (k : Nat) : State :=
  let m := s.engineOf k
  let s := s.dropHold k
  if s.fget (DCH.STATUS_DIE_STATE (engDie m)) ≠ 0 ∨ s.pwr = 2 then s.setEng m { s.eng m with liftWaits := true }
  else s.startLift m

/-- A lift whose held write-backs are issued ends: the fence clears, and with it reaction 3 (R241). -/
def State.endLift (s : State) (m : Nat) : State :=
  if s.liftOver m then
    let s := s.clearFence m
    match s.servedBy m with
    | some k => s.endReaction 3 k
    | none => s
  else s

/-- A temporarily fenced engine confirms that its pseudo-channel refreshes itself: AUDIT must advance within 10 µs of the
entry, else a fault message follows (R241). -/
def State.checkSr (s : State) (m : Nat) : State :=
  match (s.eng m).srCheck with
  | none => s
  | some (was, by') =>
    let done' (s : State) : State := s.setEng m { s.eng m with srCheck := none }
    if s.fget (DCH.AUDIT_COUNT (engDie m) (engNo m)) ≠ was then done' s
    else if by' ≤ s.now then (done' s).fault (0x080 + m) 0x27 2 0
    else s

/-- FENCE_HOLD in nanoseconds. -/
def State.holdTime (s : State) : Nat := 10000000 * max 1 (s.fget FLT.CTRL_FENCE_HOLD)

/-- FENCE_HOLD has passed without a counted message from the fence's blast set (R488). -/
def execFenceHoldExpiry (k : Nat) (s : State) : Host.Outcome State Fault Refusal :=
  done (if s.mclk ∧ s.flt.holds.any (fun h => decide (h.index = k) && decide (h.lastMsg + s.holdTime ≤ s.now)) then
      s.liftHold k
    else s)

/-- A temporary fence held for 10 s becomes permanent (R488); the spec gives its CAPACITY_LOSS no cause code. -/
def execFencePermanent (k : Nat) (s : State) : Host.Outcome State Fault Refusal :=
  done (if s.mclk ∧ s.flt.holds.any (fun h => decide (h.index = k) && decide (h.since + 10000000000 ≤ s.now)) then
      let (x, s) := s.fresh
      s.fencePerm k (x % 256)
    else s)

/-- The reactions that waited for a reset start (R485). -/
def State.startWaiting (s : State) : State :=
  let ready := fun (w : Nat × Nat) => if w.1 = 6 then s.stk.relay.isNone else !s.dieResetting 4
  let go := s.flt.waiting.filter ready
  let s : State := { s with flt := { s.flt with waiting := s.flt.waiting.filter (fun w => !ready w) } }
  go.foldl (fun (s : State) w => if w.1 = 6 then s.orderDieReset w.2 else s.orderRelay w.2) s

/-- The D4 mast domain holds a die: Table 11.5 is past its step 2. -/
def State.relayHolding (s : State) (d : Nat) : Bool :=
  decide (5 ≤ d) && (match s.stk.relay with
    | some r => decide (3 ≤ r.step)
    | none => false)

/-- Table 7.5, step 7: tXS has passed and the lifts that waited have ended; issue resumes, unless the mast domain holds the
die. -/
def State.resetEnd (s : State) (d len : Nat) : State :=
  let s := s.fset (DCH.STATUS_DIE_STATE d) (if s.relayHolding d then 2 else 0)
  let s := (s.bumpSat (DCH.RESET_STAT_COUNT d) 1).fset (DCH.RESET_STAT_LAST_US d) (min 0xFFFF len)
  ((s.int (I.dch d) 4).endReaction 6 d).startWaiting

/-- Step 7 has come for a die whose reset was released. -/
def State.resetOver (s : State) (d : Nat) : Bool :=
  (dieEngines d).all (fun m => (s.engSr m && (s.engFenced m || decide (s.pwr = 2) || s.relayHolding d)) || (!s.engSr m && decide ((s.eng m).ready ≤ 8 * s.now) && !(s.eng m).lifting))

/-- The die-logic resets that were released go on by themselves; SRX follows where the mast domain or PWR held it back. -/
def State.resetTick (s : State) : State :=
  let s := s.flt.resuming.foldl (fun (s : State) x => if s.relayHolding x.1 ∨ s.pw.entry.isSome then s else s.srxDie x.1) s
  let ended := s.flt.resuming.filter (fun x => s.resetOver x.1)
  let s : State := { s with flt := { s.flt with resuming := s.flt.resuming.filter (fun x => !ended.contains x) } }
  ended.foldl (fun (s : State) x => if s.dieResetting x.1 then s.resetEnd x.1 x.2 else s) s

/-- Table 7.5, steps 5 and 6: the reset is released, and SRX follows but where the mast domain holds the die; step 7 follows
by itself. `len` is the length of the sequence in units of 100 ns. -/
def State.resetDone (s : State) (d len : Nat) : State :=
  let s := if s.relayHolding d then s else s.srxDie d
  { s with flt := { s.flt with resuming := s.flt.resuming ++ [(d, len)] } }

def execResetDone (d len : Nat) (s : State) : Host.Outcome State Fault Refusal :=
  done (if s.live ∧ 1 ≤ d ∧ d ≤ s.dies ∧ s.dieResetting d ∧ ¬ s.flt.resuming.any (fun x => x.1 = d) then s.resetDone d len else s)

/-- The mast-domain reset goes on: once it holds D5 to D8 it holds their sensors (R376), and once it has ended, what waited for it
follows. -/
def State.relayReset (s : State) (trained : Option (List (Nat × List ViaTrain))) : State :=
  match s.stk.relay with
  | none => s
  | some r =>
    let s := s.relayStep r trained
    let s := if r.step = 1 ∧ s.stk.relay.any (fun x => decide (x.step = 3)) then [5, 6, 7, 8].foldl State.holdDie s else s
    if s.stk.relay.isSome then s else s.startWaiting

def execRelayReset (trained : Option (List (Nat × List ViaTrain))) (s : State) : Host.Outcome State Fault Refusal :=
  done (if s.live then s.relayReset trained else s)

/-- The engines go on by themselves: audit samples once per 1 µs of self-refresh while an engine runs, the check of a fenced
engine, the end of a lift, long waits of promoted requests, row spares, the scrub of Reef-2, the end of die-logic resets, field tests that fell due and port windows (R237, R241, R245, R310, R317, R347, R368). -/
def State.engTick (s : State) : State :=
  if ¬ s.live then s
  else
    let s := s.engs.foldl (fun (s : State) g =>
      let m := g.1
      let s := if s.now % 1000 = 0 ∧ s.engSr m then s.auditSample m else s
      ((s.checkSr m).endLift m).promoWait m) s
    (s.spareTick.reefTick).resetTick.dueTest.windowTick

/-! ### The firmware watchdog (R128, R438) -/

/-- Safe state: the lanes stay off and the hardware responder answers (R332). -/
def State.safeState (s : State) (reason : Nat) : State :=
  let s := (s.endPackets St.aborted).disableAll.discardRequests.discardReceived
  let s := ((s.fset DEV.STATE_DEV_STATE 2).fset DEV.STATE_REASON reason).fset MGC.STATUS_FW_STATE 0
  s.recordState reason 2

/-- Every message of the queue is classified, the newest last. -/
def State.classifyAll (s : State) : State := (List.range s.flt.ingress.length).foldl (fun (s : State) _ => s.classifyOne) s

/-- Firmware was not serviced: FLT orders the restart; the third before READY ends in safe state. -/
def State.watchdog (s : State) : State :=
  let s := (s.wakeEvent 9 0).fault 0x000 0x32 2 0
  let s := s.classifyAll
  if s.fget MGC.STATUS_FW_STATE = 3 then
    let s := (s.bumpSat MGC.STATUS_RESTART_CNT 1).int I.mgc 3
    if s.devState = 0 then
      let s := s.bumpSat DEV.FW_STAT_BOOT_RESTARTS 1
      if 3 ≤ s.fget DEV.FW_STAT_BOOT_RESTARTS then s.safeState 0x0702 else s
    else s
  else s

def execWatchdogRestart (s : State) : Host.Outcome State Fault Refusal :=
  done (if s.mclk ∧ (s.fget MGC.STATUS_FW_STATE = 1 ∨ s.fget MGC.STATUS_FW_STATE = 2) then s.watchdog else s)

/-! ### Packets (Table 18.10) -/

/-- The FAULT records of the ring, newest first, as FLT_READ returns them. -/
def State.faultWords (s : State) (n : Nat) : List (List Nat) :=
  ((s.bbx.ring.filter (fun r => r.rtype = 1)).reverse.take n).map (fun r =>
    let x := ofBe (slice r.body 0 6)
    [x / 2 ^ 16, x % 2 ^ 16 * 2 ^ 16 + r.flags * 2 ^ 8 + nth r.body 6 % 4, r.timeUs])

def execFltRead (h : Halyard) (s : State) : Host.Outcome State Fault Refusal :=
  done (s.packet 0x60 h (fixedLen 1) (fun s _ =>
    let n := bits (arg h 0) 0 5
    if n = 0 ∨ 18 < n then s.replyBad 0x60 h 0
    else
      let f := s.faultWords n
      s.replyOk 0x60 h (f.length :: f.flatMap id)))

def execFltInject (h : Halyard) (s : State) : Host.Outcome State Fault Refusal :=
  done (s.packet 0x61 h (fixedLen 2) (fun s _ =>
    let m := msgOf (arg h 0 % 2 ^ 16 * 2 ^ 32 + arg h 1)
    if bits (arg h 0) 16 15 ≠ 0 ∨ ¬ s.sourceExists m.source ∨ m.kind = 0x1F then s.replyBad 0x61 h 0
    else if ¬ s.inSail then s.replySt 0x61 h St.notInState
    else (s.post { m with injected := true, noReact := bitAt (arg h 0) 31 }).replyOk 0x61 h []))

/-- LEN of FLT_TABLE: 1 to read, 1 + COUNT to write. -/
def tableLen (p : List Nat) : Option Nat :=
  if p.length = (if bitAt (nth p 0) 31 then 1 + bits (nth p 0) 0 6 else 1) then none else some 0

/-- A config word that FLT_TABLE refuses for a source. -/
def badConfig (src w : Nat) : Bool :=
  bitAt w 16 || decide (w % 256 ≠ 0) || !canTarget (bits w 22 5) src

/-- The first config word at fault, as its INDEX. -/
def badTable (first : Nat) (words : List Nat) : Option Nat :=
  (List.range words.length).find? (fun i => badConfig (first + i) (nth words i)) |>.map (· + 1)

/-- Written entries restart with COUNT 0. -/
def State.writeTable (s : State) (first : Nat) (words : List Nat) : State :=
  (List.range words.length).foldl (fun (s : State) i => s.setClsEntry (first + i) ⟨nth words i, 0, false, 0⟩) s

def execFltTable (h : Halyard) (s : State) : Host.Outcome State Fault Refusal :=
  done (s.packet 0x65 h tableLen (fun s _ =>
    let w := arg h 0
    let first := bits w 16 10
    let n := bits w 0 6
    if bits w 26 5 ≠ 0 ∨ bits w 6 10 ≠ 0 ∨ n = 0 ∨ 28 < n ∨ 0x400 < first + n then s.replyBad 0x65 h 0
    else if bitAt w 31 then
      match badTable first h.payload.tail with
      | some i => s.replyBad 0x65 h i
      | none => (s.writeTable first h.payload.tail).replyOk 0x65 h []
    else s.replyOk 0x65 h ((List.range n).flatMap (fun i =>
      let e := s.clsEntry (first + i)
      [e.cfg, e.stateWord s.now]))))

def execAlertClear (h : Halyard) (s : State) : Host.Outcome State Fault Refusal :=
  done (s.packet 0x66 h (fixedLen 1) (fun s _ =>
    let s := if bitAt (arg h 0) 1 then s.alert 1 false else s
    let s := if bitAt (arg h 0) 2 then s.alert 2 false else s
    s.replyOk 0x66 h []))

end Sys2Proof.Machine
end

