-- ==== Sys2Proof/Machine/Crow.lean ====
section
/-! DEFINITION. The packets and commits of the black box (R492 to R495), the debug trace's packets (R496), and the crow's
nest: freeze and resume (R497 to R503). The freeze image itself is in Image.lean. -/

namespace Sys2Proof.Machine

open Sys2Proof.Reg

/-! ### The black box -/

/-- A full commit ends: everything uncommitted is in the store (R493). -/
def State.fullCommit (s : State) : State × Nat :=
  let (s, n) := s.commitRecords s.uncommitted
  (State.int { s with bbx := { s.bbx with commit := none } } I.bbx 0, n)

/-- INC_MAX as the incremental commit uses it. -/
def State.incMax (s : State) : Nat := max 1 (min 4096 (s.fget BBX.INC_CFG_INC_MAX))

/-- Always-on channel 6 fires (R493). -/
def execIncrementalCommit (s : State) : Host.Outcome State Fault Refusal :=
  done (if s.fget BBX.INC_CFG_INC_S = 0 ∨ s.bbx.ringLost ∨ s.inReset then s
    else ((s.commitRecords s.incMax).1).int I.bbx 0)

/-- The full commit that ends a BBX_COMMIT, where one runs. -/
def State.endCommit (s : State) : State :=
  match s.bbx.commit with
  | none => s.fullCommit.1
  | some id =>
    let (s, n) := s.fullCommit
    (s.setFlag BBX.STATUS_COMMIT_BUSY false).finishOp id St.ok n

/-- A BBX_COMMIT ends. -/
def execCommitDone (s : State) : Host.Outcome State Fault Refusal := done (if s.bbx.commit.isSome then s.endCommit else s)

def execBbxCommit (h : Halyard) (s : State) : Host.Outcome State Fault Refusal :=
  done (s.packet 0x63 h (fixedLen 0) (fun s _ =>
    if s.bbx.commit.isSome then s.replySt 0x63 h St.busy
    else s.accept 0x63 h 1 0 (fun s id =>
      State.setFlag { s with bbx := { s.bbx with commit := some id } } BBX.STATUS_COMMIT_BUSY true)))

/-- The slots of the store that hold a valid record, newest first. -/
def State.slotsByAge (s : State) : List Nat :=
  let head := s.fget BBX.STATUS_NV_HEAD
  let valid := (s.bbx.nv.filter (fun e => nvValid e.2)).map (·.1)
  (valid.filter (fun k => decide (k ≤ head))).reverse ++ (valid.filter (fun k => decide (head < k))).reverse

/-- The records that BBX_READ may return for a SEL, by INDEX, from an index on: up to three, ascending. -/
def State.bbxSelect (s : State) (sel index count : Nat) : List (List Nat) :=
  if sel = 0 then
    (((s.bbx.ring.dropWhile (fun r => decide (r.rseq % 2 ^ 24 ≠ index))).take count).map BbxRec.bytes)
  else
    let ages := s.slotsByAge
    let slot := fun i => if sel = 1 then (if i < 4096 then some i else none) else ages[i]?
    ((List.range count).map (fun j => (slot (index + j)).bind (fun k => (s.bbx.nv.find? (fun e => e.1 = k)).map (·.2)))).takeWhile
      Option.isSome |>.filterMap id

/-- A record's 64 bytes as 16 words. -/
def wordsOf (b : List Nat) : List Nat := (groupsOf 4 16 b).map ofBe

/-- BBX_READ: firmware or the hardware responder answers it (R129, R494). -/
def execBbxRead (h : Halyard) (s : State) : Host.Outcome State Fault Refusal :=
  done (s.packet 0x62 h (fixedLen 2) (fun s _ =>
    let sel := bits (arg h 0) 30 2
    let index := bits (arg h 0) 0 24
    let count := bits (arg h 1) 0 2
    if sel = 3 then s.replyBad 0x62 h 0
    else if count = 0 then s.replyBad 0x62 h 1
    else if sel = 0 ∧ s.bbx.ringLost then s.replySt 0x62 h St.notInState
    else
      let recs := s.bbxSelect sel index count
      if recs = [] then s.replyBad 0x62 h 0
      else s.replyOk 0x62 h ((recs.length * 2 ^ 24 + index) :: recs.flatMap wordsOf)))

/-- The 64 bytes of a slot; what a slot that was never written holds is open. -/
def State.slotBytes (s : State) (k : Nat) : List Nat :=
  match s.bbx.nv.find? (fun e => e.1 = k) with
  | some e => e.2
  | none => (List.range 64).map (fun i => Config.blankByte (64 * k + i) % 256)

/-- BBX_DUMP shifts out the whole store. -/
def execBbxDump (s : State) : Host.Outcome State Fault Refusal :=
  done (s.tapSelect 0x3E (.store ((List.range 4096).map s.slotBytes)))

/-! ### The debug trace (R495, R496) -/

def execTraceCfg (h : Halyard) (s : State) : Host.Outcome State Fault Refusal :=
  done (s.packet 0xF0 h (fixedLen 1) (fun s _ =>
    let w := arg h 0
    if 6 ≤ bits w 0 4 then s.replyBad 0xF0 h 0
    else
      let t : TraceSt := { s.trc with src := bits w 0 4, sel := bits w 8 8, pins := bitAt w 16 }
      State.replyOk { s with trc := t } 0xF0 h []))

def execTraceRead (h : Halyard) (s : State) : Host.Outcome State Fault Refusal :=
  done (s.packet 0xF1 h (fixedLen 1) (fun s _ =>
    let n := bits (arg h 0) 0 6
    if n = 0 ∨ 56 < n then s.replyBad 0xF1 h 0
    else
      let out := s.trc.buf.take n
      let left := s.trc.buf.drop n
      State.replyOk { s with trc := { s.trc with buf := left } } 0xF1 h (left.length :: out)))

/-! ### Freeze (R497 to R500) -/

/-- Where a freeze is ignored (R497). -/
def State.freezeIgnored (s : State) : Bool := decide (3 ≤ s.pwr) || decide (s.devState = 4)

/-- A freeze is ignored and counted. -/
def State.ignoreFreeze (s : State) : State :=
  State.int ({ s with cns := { s.cns with pending := false } }.bumpSat CNS.COUNTS_IGNORED 1) I.cns 0

/-- Table 18.11, step 1; cause 0 the pin, 1 the packet. -/
def State.startFreeze (s : State) (cause : Nat) : State :=
  let keep := s.flag CNS.CTRL_KEEP_REFRESH
  let s := s.setReg CNS.STATUS (BitVec.ofNat 32 (2 ^ 31 + cause * 2 ^ 30 + b2n keep * 2 ^ 29))
  let s := ((s.fset CNS.IMG_PTR_BIT 0).fset CNS.FREEZE_MS_MS 0).bumpSat CNS.COUNTS_FREEZES 1
  { s with cns := { s.cns with pending := false, entered := false, aonAt := s.aon } }

/-- Steps 2 to 4: a fuse pulse is cut short, refresh is kept or stops, the black box takes a FREEZE record and commits
everything. -/
def State.enterFreeze (s : State) : State :=
  let s := s.cutPulse
  let keep := s.flag CNS.STATUS_REFRESH_KEPT
  let s : State := { s with cns := { s.cns with entered := true, refreshRuns := keep, sr := s.engines.filter s.engSr } }
  let s := if keep then
      s.engines.foldl (fun (s : State) m => if s.engPerm m ∨ s.engSr m then s else s.enterSr m) s
    else s
  let s := s.record 0x09 0 0 0 ([s.fget CNS.STATUS_CAUSE, b2n keep] ++ beBytes 4 s.uncommitted) true
  s.endCommit

/-- A falling edge of FREEZE_N. -/
def execFreezeN (s : State) : Host.Outcome State Fault Refusal :=
  done (if ¬ s.flag CNS.CTRL_PIN_EN ∨ s.frozen ∨ s.inReset ∨ s.pinsTaken then s
    else if s.freezeIgnored then s.ignoreFreeze
    else s.startFreeze 0)

/-- FREEZE sets KEEP_REFRESH and answers OK; the freeze takes effect afterwards (R498). -/
def execFreeze (h : Halyard) (s : State) : Host.Outcome State Fault Refusal :=
  done (s.packet 0x64 h (fixedLen 1) (fun s _ =>
    let s := (s.setFlag CNS.CTRL_KEEP_REFRESH (bitAt (arg h 0) 0)).replyOk 0x64 h []
    { s with cns := { s.cns with pending := true } }))

/-- A freeze that was recognised, or that FREEZE ordered, is entered. -/
def execFreezeEntry (s : State) : Host.Outcome State Fault Refusal :=
  done (if s.frozen then (if s.cns.entered then s else s.enterFreeze)
    else if s.cns.pending then (if s.freezeIgnored then s.ignoreFreeze else (s.startFreeze 1).enterFreeze)
    else s)

/-- 32 ms without refresh: memory contents are lost (Table 18.11, step 5). -/
def execDataLost (s : State) : Host.Outcome State Fault Refusal :=
  done (if s.frozen ∧ ¬ s.flag CNS.STATUS_REFRESH_KEPT ∧ s.cns.aonAt + 32000000 ≤ s.aon then
      (s.setFlag CNS.STATUS_DATA_LOST true).dropArrays (fun _ => false)
    else s)

/-- DBG0 and DBG1 in freeze, once entered: the acknowledge, and KEEP_REFRESH; else they carry the trace (Table 18.11, R496). -/
def State.freezeAck (s : State) : Option (Bool × Bool) :=
  if s.frozen ∧ s.cns.entered then some (true, s.flag CNS.STATUS_REFRESH_KEPT) else none

/-- The length of the present freeze in milliseconds. -/
def State.freezeMs (s : State) : Nat := min (2 ^ 32 - 1) ((s.aon - s.cns.aonAt) / 1000000)

/-- The engines that the freeze put into self-refresh leave it; in Reef-1 they go back to power-down. -/
def State.thawEngines (s : State) : State :=
  s.engines.foldl (fun (s : State) m =>
    if s.cns.sr.contains m ∨ s.engPerm m then s
    else
      let s := s.srxEng m
      if s.pwr = 1 then s.enterPd m else s) s

/-- FLT orders the retrain of every port in UP. -/
def State.orderRetrainAll (s : State) : State :=
  if ¬ s.reactsNow ∨ (s.inProgress 2 0).isSome then s
  else ((s.openReaction 2 0 s.flt.posted).1).react (msgOf 0) 2 0

/-- The part resumes (R503). -/
def State.resume (s : State) : State :=
  let ms := s.freezeMs
  let s := (s.setFlag CNS.STATUS_FROZEN false).fset CNS.FREEZE_MS_MS ms
  let s := (s.bumpSat CNS.COUNTS_RESUMES 1).thawEngines
  let s : State := { s with cns := { s.cns with entered := false, refreshRuns := true, skipAudit := true, sr := [] } }
  let s := (List.range 8).foldl (fun (s : State) p => s.setLink p { s.link p with dropTxns := true }) s
  let s := s.orderRetrainAll
  (s.record 0x0B 0 0 0 (beBytes 4 ms) true).int I.cns 1

/-- CNS_RESUME: Update-DR with 1 resumes where refresh was kept, the image is at its start and FREEZE_N is high (`pin`). -/
def execCnsResume (pin update : Bool) (s : State) : Host.Outcome State Fault Refusal :=
  let s := s.tapSelect 0x3C bypassOut
  done (if ¬ s.frozen ∨ ¬ update then s
    else if s.flag CNS.STATUS_REFRESH_KEPT ∧ s.fget CNS.IMG_PTR_BIT = 0 ∧ pin then s.resume
    else s.setFlag CNS.STATUS_RESUME_DENIED true)

/-- DEV_STATE_RD: the TAP reads DEV.STATE (R440). -/
def execDevStateRd (s : State) : Host.Outcome State Fault Refusal :=
  done (s.tapSelect 0x3A (.word 32 (s.reg DEV.STATE).toNat))

/-! ### Opcodes without a meaning of their own (R140, R545) -/

/-- The vendor opcodes: DENIED outside vendor test mode; inside it the spec gives them no status. -/
def execVendorOpcode (op : Nat) (h : Halyard) (s : State) : Host.Outcome State Fault Refusal :=
  done (if op = 0xFE ∨ op = 0xFF then
      s.packet op h (fun _ => none) (fun s _ =>
        let (x, s) := s.fresh
        s.replySt op h (x % 256))
    else s)

/-- An unassigned or fused-off opcode; LEN is checked where the opcode is defined (R544, R545). -/
def execBadOpcode (op : Nat) (h : Halyard) (s : State) : Host.Outcome State Fault Refusal :=
  done (if s.noOpcode op then s.packet op h (fixedLen (if op = 0x70 ∨ op = 0x72 then 2 else 1)) (fun s _ => s.replySt op h St.badOpcode) else s)

end Sys2Proof.Machine
end

