-- ==== Sys2Proof/Machine/Regs.lean ====
section
/-! DEFINITION. What a register shows (R14, R15, R17): the word at its home, with the fields that show another part of the
state, the registers behind a selector, and the blocks that do not answer. -/

namespace Sys2Proof.Machine

open Sys2Proof.Reg

/-! ### Homes -/

/-- The unit that a selector register selects, for the registers shown through it. -/
def State.selected (s : State) (addr : Nat) : Nat :=
  let b := bits addr 16 8
  if b = 0x28 then (if addr % 0x10000 < 0x60 then s.fget SCH.CLS_SEL_CLASS else s.fget SCH.PC_SEL_PC)
  else if 0x30 ≤ b ∧ b ≤ 0x37 then s.fget (DCH.ENG_SEL_ENGINE (b - 0x2F))
  else if b = 0x40 then s.fget LCH.SLICE_SEL_SLICE
  else if b = 0x50 then s.fget ECC.PC_SEL_PC
  else s.fget STK.MAST_SEL_MAST

/-- Where a register has its home: at the bank of the selected unit where a selector shows it; none for a unit that does
not exist. -/
def State.home (s : State) (r : RegRow) (addr : Nat) : Option Nat :=
  if r.bank = 0 then some addr
  else if s.selected addr < r.bank then some (addr + 0x1000000 * (s.selected addr + 1))
  else none

/-- A register of an absent die, index or mast in a block that exists (R327, R356, R369, R387). -/
def State.absentUnit (s : State) (addr : Nat) : Bool :=
  let b := bits addr 16 8
  let off := addr % 0x10000
  if 0x100 ≤ off ∧ off < 0x180 then [0x50, 0x58, 0x60, 0x68].contains b && decide (s.dies ≤ (off - 0x100) / 16)
  else if b = 0x50 ∧ 0x44 ≤ off ∧ off < 0x80 then decide (s.pcs ≤ s.fget ECC.PC_SEL_PC)
  else b = 0x58 && decide (0x40 ≤ off) && decide (off < 0x60) && !s.engExists (s.fget STK.MAST_SEL_MAST)

/-- What such a register reads: zero, but for SPARE_STAT.STATE (5) and MAST_STAT.STATE (4). -/
def absentUnitView (addr : Nat) : Nat :=
  let b := bits addr 16 8
  let off := addr % 0x10000
  if b = 0x50 ∧ 0x100 ≤ off ∧ off % 16 = 0 then 5 * 2 ^ 29 else if b = 0x58 ∧ off = 0x40 then 4 * 2 ^ 29 else 0

/-! ### Fields that show other state -/

/-- A word with a field replaced. -/
def putFld (w : Nat) (f : Fld) (v : Nat) : Nat := Fld.put f w v

/-- Requests of a class that wait at admission. -/
def State.heldIn (s : State) (c : Nat) : Nat :=
  (s.txns.filter (fun t => decide (t.stage = 1) && decide (t.cls = c))).length

/-- LNK: the table of outstanding requests, the event queue and the replay buffers. -/
def State.viewLnk (s : State) (addr w : Nat) : Nat :=
  if addr = LNK.OUTSTANDING then putFld w LNK.OUTSTANDING_COUNT s.txns.length
  else if addr = LNK.EVT_STAT then putFld w LNK.EVT_STAT_DEPTH s.mgc.evq.length
  else match (List.range 8).find? (fun p => addr = LNK.UNACKED p) with
    | some p => putFld w (LNK.UNACKED_COUNT p) (s.link p).replay.length
    | none => w

/-- The entries that wait in the engine of an index. -/
def State.waitingEnts (s : State) (k : Nat) : List QEnt := (s.eng (s.engineOf k)).rdq ++ (s.eng (s.engineOf k)).wrq

/-- How many of them, not promoted, have an urgency, as the last tick set it (R189). -/
def State.urgent (s : State) (k u : Nat) : Nat :=
  min 255 ((s.waitingEnts k).filter (fun e => !e.promoted && decide (e.u = u))).length

/-- SCH: time, what waits at admission and in the engines. -/
def State.viewSch (s : State) (addr w : Nat) : Nat :=
  let c := s.fget SCH.CLS_SEL_CLASS
  let k := s.fget SCH.PC_SEL_PC
  if addr = SCH.TIMEBASE then s.us % 2 ^ 32
  else if addr = SCH.HOLD_TOTAL then (s.txns.filter (fun t => decide (t.stage = 1))).length
  else if addr = SCH.CLS_HOLD 0 % 0x1000000 then putFld w (SCH.CLS_HOLD_HELD_NOW c) (s.heldIn c)
  else if addr = SCH.PC_QUEUE 0 % 0x1000000 then
    s.urgent k 3 * 2 ^ 24 + s.urgent k 2 * 2 ^ 16 + s.urgent k 1 * 2 ^ 8 + s.urgent k 0
  else if addr = SCH.PC_PROMO 0 % 0x1000000 then
    putFld w (SCH.PC_PROMO_WAITING k) (min 255 ((s.waitingEnts k).filter (·.promoted)).length)
  else if 0x280100 ≤ addr ∧ addr < 0x280500 ∧ addr % 16 = 12 then
    let n := (addr - 0x280100) / 16
    putFld w (SCH.CLS_STAT_HELD n) (b2n (decide (0 < s.heldIn n)))
  else w

/-- DCH: the selected engine's queues and state, and the REFs that run stack-wide. -/
def State.viewDch (s : State) (d addr w : Nat) : Nat :=
  let e := s.fget (DCH.ENG_SEL_ENGINE d)
  let m := 17 * (d - 1) + e
  if addr = DCH.REF_STAT d then putFld w (DCH.REF_STAT_STACK_INFLIGHT d) s.refsRunning
  else if addr = DCH.ENG_STAT d 0 - 0x1000000 ∧ e < 17 then
    let g := s.eng m
    let opened := (g.segs.filter (fun x => x.2.isSome)).length
    let idx := (s.servedBy m).getD 0x7F
    min 32 g.rdq.length * 2 ^ 26 + min 16 g.wrq.length * 2 ^ 21 + opened * 2 ^ 14 + b2n (s.engSr m) * 2 ^ 13 +
      b2n (s.engPd m) * 2 ^ 12 + b2n (s.engFenced m) * 2 ^ 11 + b2n (decide (e = 16) && (s.servedBy m).isSome) * 2 ^ 10 + idx
  else w

/-- LCH: the lines and merge entries of the slices. -/
def State.viewLch (s : State) (addr w : Nat) : Nat :=
  let count := fun (c : SliceSt) (f : Way → Bool) => (c.ways.filter (fun e => f e.2)).length
  let merges := fun (c : SliceSt) => count c (fun x => decide (x.st = WaySt.merge))
  let c := s.slc (s.fget LCH.SLICE_SEL_SLICE)
  if addr = LCH.STATUS then putFld w LCH.STATUS_MERGE_OPEN ((s.slices.map (fun e => merges e.2)).sum)
  else if addr = LCH.S_OCC 0 % 0x1000000 then
    count c (fun x => decide (x.st = WaySt.modified)) * 2 ^ 18 + count c (·.staging) * 2 ^ 6 + c.wb.length
  else if addr = LCH.S_MERGE 0 % 0x1000000 then merges c * 2 ^ 16 + c.pendUsed
  else w

/-- The fewest free spare rows in a bank of an array. -/
def State.minFree (s : State) (a : Nat) : Nat :=
  (List.range 64).foldl (fun n b =>
    min n ((if b = 0 then 63 else 64) - popcount 64 (SMap.get 0 s.ecc.spareUsed (a * 64 + b)))) 64

/-- ECC.STATUS.SCRUB_STATE. -/
def State.scrubState (s : State) : Nat :=
  if s.pwr = 2 then (if s.flag ECC.SCRUB_CFG_REEF2 then 3 else 1)
  else if s.ecc.fast.isSome ∨ s.ecc.sweep.isSome then 2
  else if s.mgc.paused ∨ s.entryPaused then 1
  else 0

/-- ECC: what runs, and the selected index. -/
def State.viewEcc (s : State) (addr w : Nat) : Nat :=
  let k := s.fget ECC.PC_SEL_PC
  if addr = ECC.STATUS then
    let w := putFld (putFld w ECC.STATUS_SCRUB_STATE s.scrubState) ECC.STATUS_EVAC_BUSY (b2n s.ecc.evac.isSome)
    let w := putFld (putFld w ECC.STATUS_SWEEP_BUSY (b2n s.ecc.sweep.isSome)) ECC.STATUS_SPARING s.ecc.spares.length
    putFld w ECC.STATUS_EVAC_PC ((s.ecc.evac.map (·.pc)).getD 0)
  else if addr = ECC.PC_SPARE 0 % 0x1000000 then
    putFld (putFld w (ECC.PC_SPARE_USED k) (s.remapUsed (s.arrayOf k))) (ECC.PC_SPARE_MIN_FREE k) (s.minFree (s.arrayOf k))
  else if addr = ECC.PC_HEAL 0 % 0x1000000 then
    putFld w (ECC.PC_HEAL_TRK k) ((List.range 16).filter (fun i =>
      s.flag (ECC.ROW_TRK_VALID i) && decide (s.fget (ECC.ROW_TRK_PC i) = k))).length
  else match ([1, 2, 3, 4, 5, 6, 7, 8] : List Nat).find? (fun d => addr = ECC.CAP_LOSS d) with
    | some d => if s.fget (ECC.SPARE_STAT_STATE d) = 4 then putFld w (ECC.CAP_LOSS_SPARE_LOST d) 1 else w
    | none => w

/-- STK: the field test, and the selected mast: one that serves no index is powered off but while its array is tested, or takes
a copy (R342, R320). -/
def State.viewStk (s : State) (addr w : Nat) : Nat :=
  let m := s.fget STK.MAST_SEL_MAST
  if addr = STK.STATUS then putFld w STK.STATUS_FT_BUSY (b2n (decide (s.stk.tests ≠ [])))
  else if addr = STK.MAST_STAT 0 % 0x1000000 then
    let st := s.fget (STK.MAST_STAT_STATE m)
    let spare := decide (engNo m = 16) && within 1 2 (s.fget (ECC.SPARE_STAT_STATE (engDie m)))
    let bist := s.stk.bist.any (fun b => decide (b.1 = m))
    let off := ((s.servedBy m).isNone || s.engPerm m) && !spare && !bist
    let w := putFld w (STK.MAST_STAT_STATE m) (if st = 3 then 3 else if off then 5 else st)
    putFld w (STK.MAST_STAT_INDEX m) ((s.servedBy m).getD 0x7F)
  else w

/-- CAL.STATUS: the dies and FIO that wait, and what runs; a port's window shows where nothing else runs (DESIGN CHOICE,
assumption 90). -/
def State.viewCal (s : State) (addr w : Nat) : Nat :=
  if addr ≠ CAL.STATUS then w
  else
    let dies := (List.range 8).filter (fun i => s.cal.queue.any (fun j => (j.kind = 0 ∨ j.kind = 3) ∧ j.die = i + 1))
    let w := putFld w CAL.STATUS_QUEUED (dies.length + b2n (s.cal.queue.any (fun j => j.kind = 2)))
    match s.cal.run with
    | none =>
      let kind := if s.cal.windows = [] then 0 else 3
      putFld (putFld (putFld w CAL.STATUS_ACTIVE kind) CAL.STATUS_DIE 0) CAL.STATUS_CLK_WAIT (b2n (!s.calGo))
    | some r =>
      let kind := if r.job.kind = 0 then 1 else if r.job.kind = 3 then 2 else 4
      let die := if r.job.kind = 0 ∨ r.job.kind = 3 then r.job.die - 1 else 0
      putFld (putFld (putFld w CAL.STATUS_ACTIVE kind) CAL.STATUS_DIE die) CAL.STATUS_CLK_WAIT (b2n (!s.calGo))

/-- THM: DIE_STAT.DOUBLE is DCH.STATUS.REF_DOUBLE of the die. -/
def State.viewThm (s : State) (addr w : Nat) : Nat :=
  match ([1, 2, 3, 4, 5, 6, 7, 8] : List Nat).find? (fun d => addr = THM.DIE_STAT d) with
  | some d => putFld w (THM.DIE_STAT_DOUBLE d) (s.fget (DCH.STATUS_REF_DOUBLE d))
  | none => w

/-- CLK: the domains that run, and those on FIO. -/
def State.viewClk (s : State) (addr w : Nat) : Nat :=
  let word := fun (f : Nat → Bool) (lo n : Nat) => maskOf n (fun i => f (lo + i + 1))
  if addr = CLK.DOM_RUN_LO then word s.domRuns 0 32
  else if addr = CLK.DOM_RUN_HI then word s.domRuns 32 8
  else if addr = CLK.DOM_FIO_LO then word s.domFio 0 32
  else if addr = CLK.DOM_FIO_HI then word s.domFio 32 8
  else w

/-- PWR: always-on time and what a wake still does. -/
def State.viewPwr (s : State) (addr w : Nat) : Nat :=
  if addr = PWR.AON_TIME_LO then s.aonCycles % 2 ^ 32
  else if addr = PWR.WAKE_STAT then putFld w PWR.WAKE_STAT_FILL_BUSY (b2n (decide (s.pw.fill ≠ 0)))
  else w

/-- TWB.STATUS, as TW_STAT, with the stretch of a sleeping port (R467). -/
def State.viewTwb (s : State) (addr w : Nat) : Nat :=
  if addr = TWB.STATUS then
    let t := s.twStat
    let w := putFld w TWB.STATUS_TGT_STATE (if s.twb.held.isSome then 3 else 0)
    putFld (putFld (putFld (putFld w TWB.STATUS_RESP (bits t 7 1)) TWB.STATUS_EVT (bits t 6 1)) TWB.STATUS_BUSY (bits t 5 1))
      TWB.STATUS_HW_RESP (b2n s.hwAnswers)
  else w

/-- FLT: the selected classifier entry; the codes without a reaction have no register. -/
def State.viewFlt (s : State) (addr w : Nat) : Nat :=
  let e := s.clsEntry (s.fget FLT.TBL_SEL_SOURCE)
  if addr = FLT.TBL_CFG then e.cfg
  else if addr = FLT.TBL_STATE then e.stateWord s.now
  else if addr = FLT.REACT_CFG 0 ∨ (FLT.REACT_CFG 12 ≤ addr ∧ addr ≤ FLT.REACT_CFG 31) then 0
  else w

/-- What a register shows, its block at work: the word at its home with what shows other state. -/
def State.shows (s : State) (addr w : Nat) : Nat :=
  let b := bits addr 16 8
  if b = 0x01 then (if addr = MGC.PEND then s.mgc.ops.length else w)
  else if b = 0x18 then s.viewLnk addr w
  else if b = 0x21 then (if addr = RGD.CTRL then putFld w RGD.CTRL_WIN_COUNT s.winCount else w)
  else if b = 0x28 then s.viewSch addr w
  else if 0x30 ≤ b ∧ b ≤ 0x37 then s.viewDch (b - 0x2F) addr w
  else if b = 0x40 then s.viewLch addr w
  else if b = 0x50 then s.viewEcc addr w
  else if b = 0x58 then s.viewStk addr w
  else if b = 0x60 then s.viewCal addr w
  else if b = bits (THM.DIE_STAT 1) 16 8 then s.viewThm addr w
  else if b = 0x70 then s.viewPwr addr w
  else if b = 0x78 then s.viewClk addr w
  else if b = 0x88 then s.viewTwb addr w
  else if b = 0x90 then s.viewFlt addr w
  else if b = 0x92 then (if addr = CNS.FREEZE_MS ∧ s.frozen then s.freezeMs else w)
  else w

/-- The register at an assigned address, without the effects that a read has. -/
def State.view (s : State) (addr : Nat) : Nat :=
  match regRow addr with
  | none => 0
  | some r =>
    if s.absentUnit addr then absentUnitView addr
    else match s.home r addr with
      | none => 0
      | some h => s.shows addr (s.reg h).toNat

/-! ### Blocks that answer (R3, R17, R129) -/

/-- The blocks of the always-on domain. -/
def aonBlock (b : Nat) : Bool := [0x00, 0x70, 0x88, 0x90, 0x91, 0x92].contains b

/-- The blocks whose clocks go on after a trip beside the always-on ones: THM, CLK and MGC (R380). -/
def tripBlock (b : Nat) : Bool := [0x01, 0x68, 0x78].contains b

/-- The clocks of a block run, so that its registers can be read. -/
def State.blockClocked (s : State) (addr : Nat) : Bool :=
  aonBlock (bits addr 16 8) || ((!s.tripped || tripBlock (bits addr 16 8)) &&
    (!s.frozen && decide (s.pwr ≤ 2) && (decide (s.devState = 2) || (decide (s.devState ≤ 1) && decide (8 ≤ s.fget DEV.BOOT_STEP)))))

/-- The block of an absent die. -/
def State.absentBlock (s : State) (addr : Nat) : Bool :=
  let b := bits addr 16 8
  decide (0x30 ≤ b) && decide (b ≤ 0x37) && decide (s.dies < b - 0x2F)

/-- What the block of an absent die reads: DIE_STATE 3, and else zero. -/
def absentView (addr : Nat) : Nat := if addr % 0x10000 = 4 then 3 * 2 ^ 30 else 0

/-- Every register address of a block, by offset. -/
def blockAddrs (b : Nat) : List Nat :=
  match blockRows b with
  | none => []
  | some rows => (List.range 16384).filterMap (fun i => (rowAt rows (4 * i)).map (fun _ => b * 0x10000 + 4 * i))

end Sys2Proof.Machine
end

