-- ==== Sys2Proof/Machine/Image.lean ====
section
/-! DEFINITION. The freeze image (R501, R502): its words, its read-out over the TAP and through IMG_WIN. Where Table 18.12
names a content without a layout, the word is an open value of Config over what the part holds there. -/

namespace Sys2Proof.Machine

open Sys2Proof.Reg

/-- The length of the image in words and in bits. -/
abbrev imgLen : Nat := 65027

abbrev imgBits : Nat := 2080864

/-- The blocks of Table 4.9 by number. -/
def imgBlocks : List Nat :=
  [0x00, 0x01, 0x10, 0x11, 0x12, 0x13, 0x14, 0x15, 0x16, 0x17, 0x18, 0x20, 0x21, 0x28, 0x30, 0x31, 0x32, 0x33, 0x34, 0x35,
   0x36, 0x37, 0x40, 0x48] ++ [0x50, 0x58, 0x60, 0x68, 0x70, 0x78, 0x80, 0x88, 0x90, 0x91, 0x92]

/-- The register word of the image at place `i` of its 6,206. -/
def State.imgReg (s : State) (i : Nat) : Nat :=
  match (imgBlocks.flatMap blockAddrs)[i]? with
  | none => 0
  | some a =>
    if s.gated a ∨ s.absentBlock a then 0
    else if CNS.IMG_WIN 0 ≤ a ∧ a ≤ CNS.IMG_WIN 7 then Config.imageWord (4 + i) []
    else s.view a

/-- A request's header as received (Table 3.8). -/
def headerOf (r : Req) : Nat :=
  reqHeader r.opcode r.reqId r.tag r.stackId r.len + r.cls * 2 ^ 114 + r.deadline * 2 ^ 104 + r.addr * 2 ^ 28 + r.flags

/-- The outstanding table: entry `j` holds the request that arrived `j`-th among those held; an empty entry is open. -/
def State.imgTxn (s : State) (i : Nat) : Nat :=
  match s.txns[i / 4]? with
  | some t => bits (headerOf t.req) (32 * (3 - i % 4)) 32
  | none => Config.imageWord (6210 + i) []

/-- An engine's queue, entry `j` of its 48. -/
def State.imgEng (s : State) (i : Nat) : Nat :=
  let m := i / 144
  let j := i / 3 % 48
  let e := ((s.eng m).rdq ++ (s.eng m).wrq)[j]?
  Config.imageWord (22594 + i) (match e with
    | some e => [(e.next.map (·.line)).getD 0, e.cls, s.urgency e, e.age, b2n e.promoted]
    | none => [])

/-- A slice's pending table. -/
def State.imgSlice (s : State) (i : Nat) : Nat :=
  Config.imageWord (42178 + i) (match (s.slc (i / 128)).pend[i / 2 % 64]? with
    | some o => [o.txn, o.idx, o.line, o.cls]
    | none => [])

/-- Link state of a port. -/
def State.imgLink (s : State) (i : Nat) : Nat :=
  let l := s.link (i / 64)
  Config.imageWord (46274 + i) [s.view (LNK.PSTAT (i / 64)), l.ackTx, l.acked, l.replay.length, l.rxCredRqh, l.rxCredRqd, l.rxCredMgq,
    l.owed.length]

/-- A word of the image but the last (Table 18.12). -/
def State.imgBody (s : State) (i : Nat) : Nat :=
  let aon := s.cns.aonAt * 32768 / 1000000000
  if i = 0 then 0x434E5301
  else if i = 1 then imgLen
  else if i = 2 then aon / 2 ^ 32 % 2 ^ 32
  else if i = 3 then aon % 2 ^ 32
  else if i < 6210 then s.imgReg (i - 4)
  else if i < 22594 then s.imgTxn (i - 6210)
  else if i < 42178 then s.imgEng (i - 22594)
  else if i < 46274 then s.imgSlice (i - 42178)
  else if i < 46786 then s.imgLink (i - 46274)
  else if i < 47042 then Config.imageWord i []
  else if i < 47554 then Config.imageWord i [s.view (SCN.ENG_STAT ((i - 47042) / 32)), s.view (SCN.ENG_PROG ((i - 47042) / 32))]
  else if i < 48578 then (s.clsEntry (i - 47554)).stateWord s.now
  else if i < 48642 then Config.imageWord i (s.flt.ingress.map FaultMsg.word)
  else match s.trc.buf[i - 48642]? with
    | some x => x
    | none => Config.imageWord i []

/-- A word of the image, 32 bits; the last is the CRC over those before it. -/
def State.imgWord (s : State) (i : Nat) : Nat :=
  if i + 1 = imgLen then crc32 ((List.range (imgLen - 1)).flatMap (fun j => beBytes 4 (s.imgBody j))) else s.imgBody i % 2 ^ 32

/-- Bit `i` of the image, from word 0 bit 31 on. -/
def State.imgBit (s : State) (i : Nat) : Bool := bitAt (s.imgWord (i / 32)) (31 - i % 32)

/-- CNS_READ: `shifts` Shift-DRs. -/
def execCnsRead (shifts : Nat) (s : State) : Host.Outcome State Fault Refusal :=
  let p := s.fget CNS.IMG_PTR_BIT
  let out := maskOf shifts (fun j => s.imgBit ((p + j) % imgBits))
  done ((s.fset CNS.IMG_PTR_BIT ((p + shifts) % imgBits)).tapSelect 0x3B (.word shifts out))

/-- IMG_WIN[j] as it reads now. -/
def State.imgWin (s : State) (j : Nat) : Nat :=
  let p := s.fget CNS.IMG_PTR_BIT
  if p % 256 ≠ 0 ∨ imgLen ≤ p / 32 + j then 0 else s.imgWord (p / 32 + j)

/-- A read of IMG_WIN[7] moves to the next window. -/
def State.nextWin (s : State) : State :=
  let p := s.fget CNS.IMG_PTR_BIT
  if p % 256 ≠ 0 then s else s.fset CNS.IMG_PTR_BIT (if imgBits ≤ p + 256 then 0 else p + 256)

def execImgWin (j : Nat) (s : State) : Host.Outcome State Fault Refusal := done (if j % 8 = 7 then s.nextWin else s)

end Sys2Proof.Machine
end

