-- ==== Sys2Proof/Machine/RegCmds.lean ====
section
/-! DEFINITION. Register accesses (R14 to R17, R143 to R147): what a read does besides showing the word, what a write does by
the access type of each field and in the registers whose write acts, and the commands that make them. -/

namespace Sys2Proof.Machine

open Sys2Proof.Reg

/-! ### Reads -/

/-- The lane whose register of the given offset (0x08 RX_EQ, 0x0C RX_FFE) an address is. -/
def laneReg (addr off : Nat) : Option (Nat × Nat) :=
  if 0x100000 ≤ addr ∧ addr < 0x180000 ∧ 0x100 ≤ addr % 0x10000 ∧ addr % 0x10000 < 0x200 ∧ addr % 0x40 = off then
    some ((addr - 0x100000) / 0x10000, (addr % 0x10000 - 0x100) / 0x40)
  else none

/-- Reading RX_FFE: the selected tap as the loop left it; taps 12 to 15 read 0. -/
def State.readRxFfe (s : State) (p m : Nat) : State :=
  let tap := s.fget (PRT.RX_FFE_TAP p m)
  let s := s.adaptNow p m
  s.fset (PRT.RX_FFE_VALUE p m) (if 12 ≤ tap then 0 else SMap.get 0 (s.lane p m).ffe tap)

/-- AON_TIME_LO is read: the high word of that moment is held in AON_TIME_HI (R410). -/
def State.latchAon (s : State) : State := s.setReg PWR.AON_TIME_HI (BitVec.ofNat 32 (s.aonCycles / 2 ^ 32))

/-- Read a register: the state that the read leaves and the word. -/
def State.readReg (s : State) (addr : Nat) : State × Nat :=
  if ¬ s.blockClocked addr then (s, 0)
  else if s.gated addr then (s.countGated addr false, 0)
  else if s.absentBlock addr then (s, absentView addr)
  else if addr = PWR.AON_TIME_LO then (s.latchAon, s.view addr)
  else if CNS.IMG_WIN 0 ≤ addr ∧ addr ≤ CNS.IMG_WIN 7 then
    let j := (addr - CNS.IMG_WIN 0) / 4
    (if j = 7 then s.nextWin else s, s.imgWin j)
  else
    let s := match laneReg addr 0x08, laneReg addr 0x0C with
      | some (p, m), _ => s.adaptNow p m
      | none, some (p, m) => s.readRxFfe p m
      | none, none => s
    (s, s.view addr)

/-! ### Writes -/

/-- The RWL fields of a register's block are locked: its lock bit, the one W1S bit of the block, is set. -/
def State.locked (s : State) (addr : Nat) : Bool :=
  let b := bits addr 16 8
  match (blockRows b).bind (fun rows => rows.find? (fun r => decide (r.w1s ≠ 0))) with
  | some r => decide ((s.reg (b * 0x10000 + r.off)).toNat &&& r.w1s ≠ 0)
  | none => false

/-- The word after a write of `v`, by the access type of each bit (Table 0.5). -/
def RegRow.next (r : RegRow) (locked : Bool) (old v : Nat) : Nat :=
  let sets := r.rw ||| (if locked then 0 else r.rwl)
  let x := old - (old &&& sets) + (v &&& sets)
  (x - (x &&& v &&& r.w1c)) ||| (v &&& r.w1s)

/-- The interrupt block whose INT_STAT has an address. -/
def intBlkAt (addr : Nat) : Option IntBlk :=
  (((List.range 8).map (fun p => I.prt p)) ++ ((List.range 8).map (fun d => I.dch (d + 1))) ++
    [I.mgc, I.lnk, I.amp, I.rgd, I.sch, I.lch, I.scn, I.ecc, I.stk, I.cal, I.thm, I.pwr, I.clk, I.otp, I.twb, I.flt, I.bbx,
      I.cns]).find? (fun b => b.stat = addr)

/-- A write by access type alone; a register of a unit that does not exist ignores it. -/
def State.plainWrite (s : State) (r : RegRow) (addr v : Nat) : State :=
  if s.absentUnit addr then s
  else match s.home r addr with
  | none => s
  | some h => s.setReg h (BitVec.ofNat 32 (r.next (s.locked addr) (s.reg h).toNat v))

/-- A write to an INT_STAT register while hardware sets the flags `setNow` in the same cycle: a flag that is cleared and
set stays 1, and SETAGAIN sets (R16). -/
def State.writeInt (s : State) (r : RegRow) (b : IntBlk) (addr v setNow : Nat) : State :=
  let flags := r.w1c % 2 ^ 31
  let s := s.plainWrite r addr v
  let s := ((List.range 31).filter (bitAt (setNow &&& flags))).foldl (fun s i => s.int b i) s
  if v &&& setNow &&& flags = 0 then s else s.fset ⟨addr, 31, 1⟩ 1

/-- PRT.CTRL: fewer than two lanes in LANE_EN leave that field as it is; then EN, TEST_EN and RETRAIN act (R57, R58, R75).
DESIGN CHOICE (assumption 73): a new LANE_EN moves no lane of a port that is brought up already; it acts at the next
bring-up. -/
def State.writePrtCtrl (s : State) (r : RegRow) (p v : Nat) : State :=
  let en := s.flag (PRT.CTRL_EN p)
  let test := s.flag (PRT.CTRL_TEST_EN p)
  let v := if 2 ≤ popcount 4 (bits v 12 4) then v else Fld.put (PRT.CTRL_LANE_EN p) v (s.fget (PRT.CTRL_LANE_EN p))
  let s := s.plainWrite r (PRT.CTRL p) v
  if ¬ s.live then s
  else
    let s := if bitAt v 0 ∧ ¬ en then s.enablePort p else if ¬ bitAt v 0 ∧ en then s.disablePort p else s
    let s := if bitAt v 9 ≠ test then s.testMode p (bitAt v 9) [] [] else s
    if bitAt v 1 then s.writeRetrain p else s

/-- TX_FIR: the coefficients' magnitudes sum to 63 at most, else the write is ignored in whole; it takes effect at the next
marker boundary (R69). -/
def State.writeFir (s : State) (p m v : Nat) : State :=
  let mag := fun (lo : Nat) => (signed 6 (bits v lo 6)).natAbs
  if s.locked (PRT.TX_FIR p m) ∨ 63 < mag 24 + mag 18 + bits v 12 6 + mag 6 + mag 0 then s
  else s.setLane p m { s.lane p m with fir := some (v % 2 ^ 30) }

/-- RX_EQ: with OVERRIDE = 0 in the word written, CTLE, VGA and DFE1 keep their values (R67); a write that stops the loop
holds what it has reached (R66). -/
def State.writeRxEq (s : State) (r : RegRow) (p m v : Nat) : State :=
  let s := s.adaptNow p m
  let old := (s.reg (PRT.RX_EQ p m)).toNat
  let v := if bitAt v 29 then v else v / 2 ^ 29 * 2 ^ 29 + old % 2 ^ 29
  s.plainWrite r (PRT.RX_EQ p m) v

/-- TEST_CFG: a check that is selected starts its counts at 0, and on a port in TEST the lanes newly in LANE_SEL join the
test; one taken out stays in TEST, without a check, until TEST_EN returns to 0 (R75, Table 2.4). -/
def State.writeTestCfg (s : State) (r : RegRow) (p v : Nat) : State :=
  let s := s.plainWrite r (PRT.TEST_CFG p) v
  let s := if s.portState p = 9 then s.testLanes p else s
  if bits v 2 3 = 0 then s
  else (List.range 4).foldl (fun s m => (s.setReg (PRT.PRBS_ERR p m) 0).setReg (PRT.PRBS_BITS p m) 0) s

/-- LNK.CREDIT_INIT: counts below the minima, or more than 256 slots in all, are ignored (R96). -/
def State.writeCredits (s : State) (r : RegRow) (v : Nat) : State :=
  let q := bits v 0 12
  let d := bits v 12 12
  let m := bits v 24 8
  if q < 8 ∨ d < 8 ∨ m < 2 ∨ 256 < q + d + m then s else s.plainWrite r LNK.CREDIT_INIT v

/-- AMP.XLATE_LO: the address is translated under the live map (R178). -/
def State.writeXlate (s : State) (v : Nat) : State :=
  let s := s.setReg AMP.XLATE_LO (BitVec.ofNat 32 v)
  s.setReg AMP.XLATE_OUT (BitVec.ofNat 32 (s.xlate (s.fget AMP.XLATE_HI_ADDR_HI * 2 ^ 32 + v)))

/-- What the cache holds of an address, as PROBE_OUT (Table 8.8). -/
def State.probeOut (s : State) (a : Nat) : Nat :=
  if ¬ s.inRange a then 0
  else
    let line := a / 64
    let c := s.slc (homeSlice a)
    let at_ := 2 ^ 31 + homeSlice a * 2 ^ 26 + homeSet a * 2 ^ 16
    match c.find line with
    | some (key, w) =>
      let st := if w.staging then 6 else match w.st with
        | .clean => 1
        | .modified => 2
        | .fill => 3
        | .merge => 4
      at_ + key % 16 * 2 ^ 12 + st * 2 ^ 9 + b2n w.tagPend * 2 ^ 8 + b2n (bitAt w.dev 7 || bitAt w.dev 6) * 2 ^ 7 +
        w.rrv % 4 * 2 ^ 5
    | none => match c.inWb line with
      | some w => at_ + 5 * 2 ^ 9 + b2n (bitAt w.dev 7 || bitAt w.dev 6) * 2 ^ 7
      | none => at_

/-- LCH.PROBE_LO: the address is probed, which changes nothing else (R275). -/
def State.writeProbe (s : State) (v : Nat) : State :=
  let s := s.setReg LCH.PROBE_LO (BitVec.ofNat 32 v)
  s.setReg LCH.PROBE_OUT (BitVec.ofNat 32 (s.probeOut (s.fget LCH.PROBE_HI_ADDR_HI * 2 ^ 32 + v)))

/-- CLK.GATE: each bit of a block asks for its gate or ungates it (R419). -/
def State.writeGate (s : State) (v : Nat) : State :=
  (List.range 10).foldl (fun s b => if bitAt v b then s.ungate b else s.askGate b) s

/-- THM.WARN_CFG: the level is held to 60 to 95 °C, and the dies are tested again (R373). -/
def State.writeWarn (s : State) (r : RegRow) (v : Nat) : State :=
  State.retestLevels (s.plainWrite r THM.WARN_CFG (Fld.put THM.WARN_CFG_WARN_TJ v (max 0x0F0 (min 0x17C (bits v 16 10)))))

/-- A write in the block of a port. -/
def State.writePrt (s : State) (r : RegRow) (addr v : Nat) : State :=
  let p := (addr - 0x100000) / 0x10000
  let off := addr % 0x10000
  if off = 0 then s.writePrtCtrl r p v
  else if addr = PRT.SLIP p then (if s.live then s.writeSlip p (bits v 6 2) (bits v 0 6) else s)
  else if addr = PRT.TEST_CFG p then s.writeTestCfg r p v
  else match laneReg addr 0x04, laneReg addr 0x08 with
    | some (p, m), _ => s.writeFir p m v
    | none, some (p, m) => s.writeRxEq r p m v
    | none, none => s.plainWrite r addr v

/-- A write that reaches its block. -/
def State.actWrite (s : State) (r : RegRow) (addr v setNow : Nat) (o : PmOutcome) : State :=
  match intBlkAt addr with
  | some b => s.writeInt r b addr v setNow
  | none =>
    if 0x100000 ≤ addr ∧ addr < 0x180000 then s.writePrt r addr v
    else if addr = LNK.CREDIT_INIT then s.writeCredits r v
    else if addr = AMP.XLATE_LO then s.writeXlate v
    else if addr = LCH.PROBE_LO then s.writeProbe v
    else if addr = LCH.FLUSH_CTRL then (if bitAt v 0 then s.startFlush (bitAt v 1) 0 else s)
    else if addr = CLK.GATE then s.writeGate v
    else if addr = THM.WARN_CFG then s.writeWarn r v
    else if addr = THM.THR_CFG then (s.plainWrite r addr v).throttle
    else if addr = TWB.PM_XFER then s.writePmXfer v o
    else if addr = FLT.TBL_CFG ∨ addr = FLT.REACT_CFG 0 ∨ (FLT.REACT_CFG 12 ≤ addr ∧ addr ≤ FLT.REACT_CFG 31) then s
    else if addr = SCN.CTRL then State.scnRegs (State.setC62 (s.plainWrite r addr v))
    else s.plainWrite r addr v

/-- Write a register: dropped where its block has no clock, is gated (and counted) or belongs to an absent die, and where
no register is assigned. DEDUCED (assumption 58): any access to a gated block counts, also one to an offset of it to which
no register is assigned, read or written; R14 and R17 drop both and R420 counts each access to the block. -/
def State.writeReg (s : State) (addr v setNow : Nat) (o : PmOutcome) : State :=
  if ¬ s.blockClocked addr then s
  else if s.gated addr then s.countGated addr true
  else if s.absentBlock addr then s
  else match regRow addr with
    | none => s
    | some r => s.actWrite r addr (v % 2 ^ 32) setNow o

def execRegisterWrite (addr : Nat) (value setNow : Word) (s : State) : Host.Outcome State Fault Refusal :=
  done (s.writeReg addr value.toNat setNow.toNat {})

def execXlateLo (value : Word) (s : State) : Host.Outcome State Fault Refusal :=
  done (s.writeReg AMP.XLATE_LO value.toNat 0 {})

def execProbeLo (value : Word) (s : State) : Host.Outcome State Fault Refusal :=
  done (s.writeReg LCH.PROBE_LO value.toNat 0 {})

def execAonTimeLo (s : State) : Host.Outcome State Fault Refusal := done s.latchAon

/-! ### The register opcodes (Table 4.8) -/

/-- The first of `n` words from an address whose register is not assigned, or runs out of its block (R144). -/
def rangeBad (addr n : Nat) : Option Nat :=
  (List.range n).find? (fun k => (regRow (addr + 4 * k)).isNone || decide ((addr + 4 * k) / 0x10000 ≠ addr / 0x10000))

/-- The address word names an assigned register. -/
def addrOk (w : Nat) : Bool := decide (w < 2 ^ 24) && (regRow w).isSome

/-- The word of a list that names no register. -/
def listBad (l : List Nat) : Option Nat := (List.range l.length).find? (fun i => !addrOk (nth l i))

/-- A firmware-owned register (R147). -/
def owned (addr : Nat) : Bool := ((regRow addr).map (·.owned)).getD false

/-- Read registers in order; their words. -/
def State.readRegs (s : State) (l : List Nat) : State × List Nat :=
  l.foldl (fun (r : State × List Nat) a => ((r.1.readReg a).1, r.2 ++ [(r.1.readReg a).2])) (s, [])

/-- COUNT of a range, from payload word 1. -/
def countOf (h : Halyard) : Nat := bits (arg h 1) 0 6

/-- The INDEX at fault of a range, if any (R144). DESIGN CHOICE (assumption 74): COUNT is judged first, so a packet whose COUNT
and address are both bad is answered with INDEX 1. -/
def rangeFault (h : Halyard) (most : Nat) : Option Nat :=
  let n := countOf h
  if n = 0 ∨ most < n then some 1 else if 2 ^ 24 ≤ arg h 0 then some 0 else rangeBad (arg h 0) n

def execRegRead (h : Halyard) (s : State) : Host.Outcome State Fault Refusal :=
  done (s.packet 0x10 h (fixedLen 2) (fun s _ =>
    match rangeFault h 57 with
    | some i => s.replyBad 0x10 h i
    | none =>
      let r := s.readRegs ((List.range (countOf h)).map (fun k => arg h 0 + 4 * k))
      r.1.replyOk 0x10 h r.2))

/-- REG_WRITE needs LEN = 2 + COUNT, else INDEX 1 (R544). -/
def regWriteLen (p : List Nat) : Option Nat := if 2 ≤ p.length ∧ p.length = 2 + bits (nth p 1) 0 6 then none else some 1

def execRegWrite (h : Halyard) (obs : WriteObs) (s : State) : Host.Outcome State Fault Refusal :=
  done (s.packet 0x11 h regWriteLen (fun s _ =>
    match rangeFault h 56 with
    | some i => s.replyBad 0x11 h i
    | none =>
      if (List.range (countOf h)).any (fun k => owned (arg h 0 + 4 * k)) then s.replySt 0x11 h St.denied
      else
        let s := (List.range (countOf h)).foldl (fun (s : State) k =>
          s.writeReg (arg h 0 + 4 * k) (arg h (2 + k)) (nth obs.setNow k) obs.xfer) s
        s.replyOk 0x11 h []))

/-- The word that REG_RMW writes (R146): outside MASK, the old value in RW and RWL fields and 0 in W1C, W1S and WO fields. -/
def rmwWord (r : RegRow) (old mask v : Nat) : Nat :=
  let keep := old &&& (r.rw ||| r.rwl)
  keep - (keep &&& mask) + (v &&& mask)

def execRegRmw (h : Halyard) (obs : WriteObs) (s : State) : Host.Outcome State Fault Refusal :=
  done (s.packet 0x12 h (fixedLen 3) (fun s _ =>
    let a := arg h 0
    match (if a < 2 ^ 24 then regRow a else none) with
    | none => s.replyBad 0x12 h 0
    | some r =>
      if r.owned then s.replySt 0x12 h St.denied
      else
        let x := s.readReg a
        let y := (x.1.writeReg a (rmwWord r x.2 (arg h 1) (arg h 2)) (nth obs.setNow 0) obs.xfer).readReg a
        y.1.replyOk 0x12 h [x.2, y.2]))

/-- REG_READ_LIST takes 1 to 57 words. -/
def readListLen (p : List Nat) : Option Nat := if 1 ≤ p.length ∧ p.length ≤ 57 then none else some 0

def execRegReadList (h : Halyard) (s : State) : Host.Outcome State Fault Refusal :=
  done (s.packet 0x13 h readListLen (fun s _ =>
    match listBad h.payload with
    | some i => s.replyBad 0x13 h i
    | none =>
      let r := s.readRegs h.payload
      r.1.replyOk 0x13 h r.2))

end Sys2Proof.Machine
end

