-- ==== Sys2Proof/Machine/Commit.lean ====
section
/-! DEFINITION. Configuration commit (R150 to R156, R174 to R177, R183, R188): staging, its owner, validation, the instant
at which a commit applies, quiescing, and reading the live tables. -/

namespace Sys2Proof.Machine

open Sys2Proof.Reg

/-! ### Staging (R150, R151) -/

/-- Staging is owned. -/
def State.stageOwned (s : State) : Bool := decide (s.fget MGC.STAGE_OWNER_SRC ≠ 0)

/-- The sender owns staging. -/
def State.ownsStage (s : State) (h : Halyard) : Bool :=
  match h.src with
  | .inband _ reqId _ _ => decide (s.fget MGC.STAGE_OWNER_SRC = 1) && decide (s.fget MGC.STAGE_OWNER_REQ_ID = reqId)
  | .twoWire => decide (s.fget MGC.STAGE_OWNER_SRC = 2)

/-- The sender becomes the owner, and every live area is copied into staging. -/
def State.takeStage (s : State) (h : Halyard) : State :=
  if s.stageOwned then s
  else
    let s := s.dropStaging
    match h.src with
    | .inband _ reqId _ _ => (s.fset MGC.STAGE_OWNER_SRC 1).fset MGC.STAGE_OWNER_REQ_ID reqId
    | .twoWire => s.fset MGC.STAGE_OWNER_SRC 2

/-- A staging packet: `bad` is the entry at fault, if any; `put` stages its entries in order. BUSY while another source owns
staging or a commit runs. -/
def State.stage (s : State) (op area : Nat) (h : Halyard) (bad : Option Nat) (put : Staged → Staged) : State :=
  match bad with
  | some i => s.replyBad op h i
  | none =>
    if (s.stageOwned && !s.ownsStage h) || s.mgc.commit.isSome then s.replySt op h St.busy
    else
      let s := s.takeStage h
      let s : State := { s with mgc := { s.mgc with staged := put s.mgc.staged } }
      (s.fset MGC.COMMIT_STAGE_DIRTY (setBit (s.fget MGC.COMMIT_STAGE_DIRTY) area true)).replyOk op h []

/-- The entries of a payload, `n` words each. -/
def entriesOf (n : Nat) (p : List Nat) : List (List Nat) := groupsOf n p.length p

/-- The first entry that fails a range check. -/
def firstBad (l : List (List Nat)) (bad : List Nat → Bool) : Option Nat :=
  (List.range l.length).find? (fun i => bad (l.getD i []))

/-- The length of a staging packet: a whole number of entries of `n` words, `most` at most (R176, R183). -/
def stageLen (n most : Nat) (p : List Nat) : Option Nat :=
  if p.length % n = 0 ∧ 1 ≤ p.length / n ∧ p.length / n ≤ most then none else some 0

/-- A class entry out of range (R183). -/
def classBad (e : List Nat) : Bool :=
  let window := bits (nth e 1) 12 12
  let age := bits (nth e 3) 0 16
  decide (60 ≤ nth e 0) || decide (window = 0) || decide (4000 < window) || (decide (1 ≤ age) && decide (age ≤ 19)) ||
    decide (bits (nth e 1) 27 2 = 3) || decide (bits (nth e 1) 0 12 ≠ 0) || decide (bits (nth e 2) 24 8 ≠ 0)

def execStageClass (h : Halyard) (s : State) : Host.Outcome State Fault Refusal :=
  done (s.packet 0x30 h (stageLen 4 14) (fun s _ =>
    let l := entriesOf 4 h.payload
    s.stage 0x30 0 h (firstBad l classBad) (fun t =>
      { t with cls := l.foldl (fun (m : SMap (List Nat)) e => SMap.insert m (nth e 0) (e.drop 1)) t.cls })))

/-- A requester entry out of range (R183, R35). -/
def reqmapBad (e : List Nat) : Bool :=
  let w := nth e 0
  decide (60 ≤ bits w 0 6) || decide (bits w 6 10 ≠ 0) || decide (bits w 28 4 ≠ 0)

def execStageReqmap (h : Halyard) (s : State) : Host.Outcome State Fault Refusal :=
  done (s.packet 0x31 h (stageLen 1 58) (fun s _ =>
    let l := entriesOf 1 h.payload
    s.stage 0x31 1 h (firstBad l reqmapBad) (fun t =>
      { t with reqmap := h.payload.foldl (fun (m : SMap Nat) w => SMap.insert m (bits w 16 12) (bits w 0 6)) t.reqmap })))

/-- An address map word out of range (R176). -/
def addrmapBad (e : List Nat) : Bool :=
  let w := nth e 0
  decide (bits w 4 3 = 7) || decide (bits w 2 2 ≠ 0) || decide (w / 128 ≠ 0)

def execStageAddrmap (h : Halyard) (s : State) : Host.Outcome State Fault Refusal :=
  done (s.packet 0x32 h (stageLen 1 1) (fun s _ =>
    s.stage 0x32 2 h (firstBad [h.payload] addrmapBad) (fun t => { t with addrmap := some (arg h 0) })))

/-- A guard entry out of range (R176). -/
def guardBad (e : List Nat) : Bool :=
  let w := nth e 0
  let sel := bits w 30 2
  let index := bits w 0 8
  let x := nth e 1
  let size := bits x 9 5
  decide (bits w 8 22 ≠ 0) || decide (sel = 3) ||
    (decide (sel = 0) && (decide (17 < size) || decide (bits x 14 17 % 2 ^ size ≠ 0) || decide (nth e 2 ≠ 0))) ||
    (decide (sel = 1) && (decide (15 < index) || decide (bits (nth e 2) 28 4 ≠ 0))) ||
    (decide (sel = 2) && (decide (index ≠ 0) || decide (1 < x) || decide (nth e 2 ≠ 0)))

/-- Stage one guard entry. -/
def Staged.putGuard (t : Staged) (e : List Nat) : Staged :=
  let w := nth e 0
  let sel := bits w 30 2
  if sel = 0 then { t with win := SMap.insert t.win (bits w 0 8) (nth e 1) }
  else if sel = 1 then { t with masks := SMap.insert t.masks (bits w 0 8) (nth e 1, nth e 2) }
  else { t with allow := some (nth e 1) }

def execStageGuard (h : Halyard) (s : State) : Host.Outcome State Fault Refusal :=
  done (s.packet 0x33 h (stageLen 3 19) (fun s _ =>
    let l := entriesOf 3 h.payload
    s.stage 0x33 3 h (firstBad l guardBad) (fun t => l.foldl Staged.putGuard t)))

/-- The event codes of Table 4.14, in ascending order. -/
def eventCodes : List Nat :=
  [0x0001, 0x0002, 0x0003, 0x0004, 0x0010, 0x0011, 0x0020, 0x0021, 0x0022, 0x0030, 0x0031, 0x0032, 0x0033, 0x0034, 0x0035,
   0x0036, 0x0040, 0x0041, 0x0042, 0x0050, 0x0060]

/-- An event configuration entry out of range (R158): CLOCK_FAIL is the code of severity 3. -/
def evtcfgBad (e : List Nat) : Bool :=
  let w := nth e 0
  let sel := bits w 30 2
  if sel = 0 then decide (bits w 12 2 = 3) || decide (bits w 14 14 ≠ 0)
  else if sel = 1 then
    !eventCodes.contains (bits w 0 16) || decide (bits w 16 11 ≠ 0) || (decide (bits w 0 16 = 0x0010) && !bitAt w 27)
  else true

/-- Stage one entry of the event configuration. -/
def Staged.putEvt (t : Staged) (w : Nat) : Staged :=
  if bits w 30 2 = 0 then { t with sinks := SMap.insert t.sinks (bits w 28 2) (bits w 12 2, bits w 0 12) }
  else { t with codes := SMap.insert t.codes (bits w 0 16) (bitAt w 27, bits w 28 2) }

def execStageEvtcfg (h : Halyard) (s : State) : Host.Outcome State Fault Refusal :=
  done (s.packet 0x34 h (stageLen 1 58) (fun s _ =>
    s.stage 0x34 4 h (firstBad (entriesOf 1 h.payload) evtcfgBad) (fun t => h.payload.foldl Staged.putEvt t)))

/-- DISCARD: DENIED where nobody owns staging, BUSY for another source or during a commit. -/
def execDiscard (h : Halyard) (s : State) : Host.Outcome State Fault Refusal :=
  done (s.packet 0x39 h (fixedLen 0) (fun s _ =>
    if ¬ s.stageOwned then s.replySt 0x39 h St.denied
    else if ¬ s.ownsStage h ∨ s.mgc.commit.isSome then s.replySt 0x39 h St.busy
    else s.dropStaging.replyOk 0x39 h []))

/-- Ten seconds without a staging opcode: the staged areas are discarded (R151). -/
def execStageTimeout (s : State) : Host.Outcome State Fault Refusal :=
  done (if s.mclk ∧ s.stageOwned ∧ s.mgc.commit.isNone then s.dropStaging.int I.mgc 2 else s)

/-! ### COMMIT (Table 4.12) -/

/-- A class as the commit of an area mask would leave it. -/
def State.clsStaged (s : State) (mask n : Nat) : ClsView :=
  match (if bitAt mask 0 then s.mgc.staged.cls.find? (fun e => e.1 = n) else none) with
  | some (_, w) => ⟨bits (nth w 0) 29 3, bitAt (nth w 0) 24, bits (nth w 0) 12 12, bits (nth w 1) 0 24⟩
  | none => s.clsNext n

/-- Step 4: a class that is reserved and has no budget (R183). -/
def State.stagedFault (s : State) (mask : Nat) : Option Nat :=
  (List.range 60).find? (fun n => bitAt mask 0 && (s.clsStaged mask n).rsv && decide ((s.clsStaged mask n).budget = 0))

/-- Step 5: the admission test, for CLASS, REQMAP and ADDRMAP. -/
def State.commitFits (s : State) (mask : Nat) : Bool := decide (mask % 8 = 0) || s.admits (s.clsStaged mask)

/-- A commit past step 4 begins: its flush under the old map, or its admission test. -/
def State.goCommit (s : State) (h : Halyard) (mask : Nat) : State :=
  if bitAt mask 2 then
    State.startFlush { s with flush := none, mgc := { s.mgc with commit := some ⟨mask, h, true, false⟩ } } true 2
  else if s.commitFits mask then { s with mgc := { s.mgc with commit := some ⟨mask, h, false, false⟩ } }
  else State.replySt { s with mgc := { s.mgc with commit := none } } 0x38 h St.overcommit

/-- A commit under an address map whose flush has ended meets its admission test (R174). -/
def State.commitStep (s : State) : State :=
  match s.mgc.commit with
  | none => s
  | some c =>
    if s.stk.relay.isSome then s
    else if c.held then s.goCommit c.pkt c.mask
    else if ¬ c.flushing ∨ s.flush.isSome then s
    else if s.commitFits c.mask then { s with mgc := { s.mgc with commit := some { c with flushing := false } } }
    else State.respond { s with mgc := { s.mgc with commit := none } } 0x38 c.pkt St.overcommit 0 0 []

/-- A commit past step 4: during a mast-domain reset it waits (R351). -/
def State.startCommit (s : State) (h : Halyard) (mask : Nat) : State :=
  if s.stk.relay.isSome then { s with mgc := { s.mgc with commit := some ⟨mask, h, false, true⟩ } } else s.goCommit h mask

def execCommit (h : Halyard) (s : State) : Host.Outcome State Fault Refusal :=
  done (s.packet 0x38 h (fixedLen 1) (fun s _ =>
    let mask := bits (arg h 0) 0 5
    if ¬ s.stageOwned then s.replySt 0x38 h St.denied
    else if ¬ s.ownsStage h then s.replySt 0x38 h St.busy
    else if mask = 0 ∨ mask &&& s.fget MGC.COMMIT_STAGE_DIRTY ≠ mask then s.replyBad 0x38 h 0
    else if ¬ s.inSail ∨ s.pw.entry.isSome ∨ s.pw.slot.isSome then s.replySt 0x38 h St.notInState
    else if s.mgc.commit.isSome then s.replySt 0x38 h St.busy
    else if bitAt mask 2 ∧ s.fget MGC.QUIESCE_PORTS ≠ 0xFF then s.replySt 0x38 h St.notInState
    else match s.stagedFault mask with
      | some n => s.replyBad 0x38 h n
      | none => s.startCommit h mask))

/-! ### The instant T (R153, R188) -/

/-- A class entry becomes live: BUDGET and RSV from its next window start on; a new WINDOW starts at T with a full refill. -/
def State.applyClass (s : State) (n : Nat) (w : List Nat) : State :=
  let rsv := s.fget (SCH.CLS_CFG_RSV n)
  let moved := decide (s.fget (SCH.CLS_CFG_WINDOW n) ≠ bits (nth w 0) 12 12)
  let s := (s.setReg (SCH.CLS_CFG n) (BitVec.ofNat 32 (nth w 0))).fset (SCH.CLS_CFG_RSV n) rsv
  let s := (s.setReg (SCH.CLS_LAT n) (BitVec.ofNat 32 (nth w 2))).budgetAtWindow n (bits (nth w 1) 0 24) (bitAt (nth w 0) 24)
  let s := if s.fget (SCH.CLS_LAT_LAT_TARGET n) = 0 then s.fset (SCH.CLS_STAT_TRACK n) 0 else s
  if moved then
    let s := s.applyBudget n
    s.setTokens n (s.fget (SCH.CLS_STAT_EFF_BUDGET n))
  else s

/-- The areas of a mask become live. -/
def State.applyStaged (s : State) (mask : Nat) : State :=
  let t := s.mgc.staged
  let s := if bitAt mask 0 then t.cls.foldl (fun (s : State) e => s.applyClass e.1 e.2) s else s
  let s : State := if bitAt mask 1 then
    { s with mgc := { s.mgc with reqmap := t.reqmap.foldl (fun (m : SMap Nat) e => SMap.set 0 m e.1 e.2) s.mgc.reqmap } } else s
  let s := if bitAt mask 2 then (s.setReg AMP.MAP (BitVec.ofNat 32 (t.addrmap.getD (s.reg AMP.MAP).toNat))).int I.amp 1 else s
  let s := if bitAt mask 3 then
    let s := t.win.foldl (fun (s : State) e => s.setReg (RGD.WIN e.1) (BitVec.ofNat 32 e.2)) s
    let s := t.masks.foldl (fun (s : State) e =>
      (s.setReg (RGD.MASK_LO e.1) (BitVec.ofNat 32 e.2.1)).setReg (RGD.MASK_HI e.1) (BitVec.ofNat 32 e.2.2)) s
    let s := match t.allow with
      | some x => s.fset RGD.CTRL_DEFAULT_ALLOW x
      | none => s
    s.int I.rgd 2
    else s
  if bitAt mask 4 then
    let e := s.mgc.evt
    let sinks := t.sinks.foldl (fun (m : SMap (Nat × Nat)) x => SMap.set (0, 0) m x.1 x.2) e.sinks
    let codes := t.codes.foldl (fun (m : SMap (Bool × Nat)) x => SMap.set (true, 0) m x.1 x.2) e.codes
    { s with mgc := { s.mgc with evt := ⟨sinks, codes⟩ } }
  else s

/-- The staged areas of a mask leave staging, which is released; the others stay staged (R151, R152). -/
def State.releaseStage (s : State) (mask : Nat) : State :=
  let t := s.mgc.staged
  let t : Staged := if bitAt mask 0 then { t with cls := [] } else t
  let t : Staged := if bitAt mask 1 then { t with reqmap := [] } else t
  let t : Staged := if bitAt mask 2 then { t with addrmap := none } else t
  let t : Staged := if bitAt mask 3 then { t with win := [], masks := [], allow := none } else t
  let t : Staged := if bitAt mask 4 then { t with sinks := [], codes := [] } else t
  let dirty := s.fget MGC.COMMIT_STAGE_DIRTY
  let s : State := { s with mgc := { s.mgc with staged := t, commit := none } }
  (s.fset MGC.COMMIT_STAGE_DIRTY (dirty - (dirty &&& mask))).setReg MGC.STAGE_OWNER 0

/-- COMMIT_APPLIED: the commit takes effect, COMMIT_GEN counts, and the answer and the event carry it (R153). -/
def State.applyCommit (s : State) (c : CommitSt) : State :=
  let s := (s.applyStaged c.mask).releaseStage c.mask
  let s := s.bump MGC.COMMIT_COMMIT_GEN 1
  let gen := s.fget MGC.COMMIT_COMMIT_GEN
  (s.replyOk 0x38 c.pkt [gen]).event 0x0002 0 (beBytes 2 gen ++ [c.mask])

def execCommitApplied (s : State) : Host.Outcome State Fault Refusal :=
  let s := if s.mclk then s.commitStep else s
  done (match s.mgc.commit with
  | some c => if s.mclk ∧ ¬ c.flushing ∧ ¬ c.held ∧ s.stk.relay.isNone then s.applyCommit c else s
  | none => s)

/-! ### QUIESCE (R155) -/

/-- No line of scrub, of a sweep, of the copy or of calibration is being read or rewritten. -/
def State.innerIdle (s : State) : Bool :=
  [Reader.patrol, .fast, .sweep, .copy, .cal].all (fun who => !s.reading who) &&
    s.engs.all (fun g => g.2.wrq.all (fun e => decide (e.cls ≠ 60) && decide (e.cls ≠ 61)))

/-- No request that was taken from these ports is outstanding; with all eight ports, the internal traffic has paused at a
line boundary too. -/
def State.drained (s : State) (mask : Nat) : Bool :=
  s.txns.all (fun t => !bitAt mask t.req.port) && (decide (mask ≠ 0xFF) || s.innerIdle)

/-- Every QUIESCE whose ports have drained is answered OK. -/
def State.quiesceDone (s : State) : State :=
  let gone := s.mgc.quiesce.filter (fun q => s.drained q.mask)
  let s : State := { s with mgc := { s.mgc with quiesce := s.mgc.quiesce.filter (fun q => !s.drained q.mask) } }
  gone.foldl (fun (s : State) q => s.replyOk 0x3A q.pkt []) s

def execQuiesce (h : Halyard) (s : State) : Host.Outcome State Fault Refusal :=
  done (s.packet 0x3A h (fixedLen 1) (fun s _ =>
    if ¬ s.inSail then s.replySt 0x3A h St.notInState
    else
      let mask := bits (arg h 0) 0 8
      let s := s.fset MGC.QUIESCE_PORTS (s.fget MGC.QUIESCE_PORTS ||| mask)
      let mgc : MgcSt := { s.mgc with paused := s.mgc.paused || decide (mask = 0xFF), quiesce := s.mgc.quiesce ++ [⟨mask, h⟩] }
      State.quiesceDone { s with mgc := mgc }))

def execQuiesceDrained (s : State) : Host.Outcome State Fault Refusal := done (if s.mclk then s.quiesceDone else s)

/-- The oldest QUIESCE has drained for longer than 100 ms: TIMEOUT, and its ports stay quiesced. -/
def execQuiesceTimeout (s : State) : Host.Outcome State Fault Refusal :=
  done (match s.mgc.quiesce with
  | q :: rest => if s.mclk then State.replySt { s with mgc := { s.mgc with quiesce := rest } } 0x3A q.pkt St.timeout else s
  | [] => s)

/-- A commit of the address map runs: it applies while every port is quiesced (R153). -/
def State.mapCommits (s : State) : Bool := s.mgc.commit.any (fun c => bitAt c.mask 2)

/-- UNQUIESCE. DEDUCED (assumption 60): the interpreter executes one packet at a time, so an UNQUIESCE waits in its queue
while a COMMIT of the address map executes (R134, R153). -/
def execUnquiesce (h : Halyard) (s : State) : Host.Outcome State Fault Refusal :=
  done (if s.mapCommits then s.holdPacket ⟨0x3B, h⟩ else s.packet 0x3B h (fixedLen 1) (fun s _ =>
    let ports := s.fget MGC.QUIESCE_PORTS
    let s := s.fset MGC.QUIESCE_PORTS (ports - (ports &&& bits (arg h 0) 0 8))
    State.replyOk { s with mgc := { s.mgc with paused := false } } 0x3B h []))

/-! ### READ_MODEL and TABLE_READ (R198, R156, R177) -/

def execReadModel (h : Halyard) (s : State) : Host.Outcome State Fault Refusal :=
  done (s.packet 0x3C h (fixedLen 0) (fun s _ =>
    let s := s.modelRegs
    let r := fun (a : Nat) => (s.reg a).toNat
    let dem := [r SCH.DEM_LINK, r SCH.DEM_ACT, r SCH.DEM_BURST]
    let d := fullDemand (s.clsStaged 1)
    let staged := if s.fget MGC.COMMIT_STAGE_DIRTY = 0 then dem else [d.link.floor, d.act.floor, d.burst.floor]
    s.replyOk 0x3C h ([r SCH.MODEL_LINK, r SCH.MODEL_ACT, r SCH.MODEL_BURST] ++ dem ++ [s.derate, r SCH.GOV_CEIL] ++ staged)))

/-- Entries of an area, and words of an entry. -/
def areaSize (area : Nat) : Nat × Nat :=
  if area = 0 then (64, 4) else if area = 1 then (4096, 1) else if area = 2 then (1, 1) else if area = 3 then (273, 3) else (25, 1)

/-- A live guard entry in its staging words. -/
def State.guardEntry (s : State) (e : Nat) : List Nat :=
  if e < 256 then [e, (s.reg (RGD.WIN e)).toNat, 0]
  else if e < 272 then
    let k := e - 256
    [2 ^ 30 + k, (s.reg (RGD.MASK_LO k)).toNat, (s.reg (RGD.MASK_HI k)).toNat]
  else [2 ^ 31, s.fget RGD.CTRL_DEFAULT_ALLOW, 0]

/-- A live entry of the event configuration. -/
def State.evtEntry (s : State) (e : Nat) : Nat :=
  if e < 4 then
    let k := SMap.get (0, 0) s.mgc.evt.sinks e
    e * 2 ^ 28 + k.1 * 2 ^ 12 + k.2
  else
    let code := nth eventCodes (e - 4)
    let c := SMap.get (true, 0) s.mgc.evt.codes code
    2 ^ 30 + c.2 * 2 ^ 28 + b2n c.1 * 2 ^ 27 + code

/-- A live entry in its staging words. -/
def State.tableEntry (s : State) (area e : Nat) : List Nat :=
  if area = 0 then [e, (s.reg (SCH.CLS_CFG e)).toNat, (s.reg (SCH.CLS_BUDGET e)).toNat, (s.reg (SCH.CLS_LAT e)).toNat]
  else if area = 1 then [e * 2 ^ 16 + SMap.get 0 s.mgc.reqmap e]
  else if area = 2 then [(s.reg AMP.MAP).toNat]
  else if area = 3 then s.guardEntry e
  else [s.evtEntry e]

def execTableRead (h : Halyard) (s : State) : Host.Outcome State Fault Refusal :=
  done (s.packet 0x3D h (fixedLen 2) (fun s _ =>
    let area := bits (arg h 0) 24 8
    let first := bits (arg h 0) 0 16
    let n := arg h 1
    let (entries, words) := areaSize area
    if 4 < area ∨ bits (arg h 0) 16 8 ≠ 0 ∨ entries ≤ first then s.replyBad 0x3D h 0
    else if n = 0 ∨ 57 < n ∨ n % words ≠ 0 ∨ entries < first + n / words then s.replyBad 0x3D h 1
    else s.replyOk 0x3D h ((List.range (n / words)).flatMap (fun i => s.tableEntry area (first + i)))))

end Sys2Proof.Machine
end

