-- ==== Sys2Proof/Machine/Halyard.lean ====
section
/-! DEFINITION. The halyard packets of the management controller itself: IDENTIFY and DEV_STATUS (R141), PENDING_STATUS
(R142) and EVT_READ (R159). -/

namespace Sys2Proof.Machine

open Sys2Proof.Reg

/-- Indices permanently fenced (R325). -/
def State.lostGib (s : State) : Nat :=
  ((List.range s.dies).map (fun d => popcount 16 (s.fget (ECC.CAP_LOSS_LOST (d + 1))))).sum

/-- Dies whose spare is free. -/
def State.sparesFree (s : State) : Nat :=
  ((List.range s.dies).filter (fun d => decide (s.fget (ECC.SPARE_STAT_STATE (d + 1)) = 0))).length

/-- The words of IDENTIFY (Table 4.6); the hardware responder has no firmware version and no word 6. -/
def State.identity (s : State) (hw : Bool) : List Nat :=
  let up := maskOf 8 (fun p => decide (s.portState p = 5))
  [(s.reg DEV.ID).toNat, (if hw then 0 else s.fget DEV.FW_STAT_FW_VERSION) * 2 ^ 16 + s.fget DEV.FW_STAT_PATCHES * 2 ^ 8 + s.dies,
   (s.reg DEV.UID_HI).toNat, (s.reg DEV.UID_LO).toNat,
   s.fget LNK.STACK_ID_STACK_ID * 2 ^ 20 + up * 2 ^ 12 + s.fget PWR.STATE_CUR * 2 ^ 8 + s.devState,
   if hw then 0 else (s.pcs - s.lostGib) * 2 ^ 16 + s.lostGib * 2 ^ 8 + s.sparesFree]

def execIdentify (h : Halyard) (s : State) : Host.Outcome State Fault Refusal :=
  done (s.packet 0x00 h (fixedLen 0) (fun s hw => s.replyOk 0x00 h (s.identity hw)))

/-- The words of DEV_STATUS (Table 4.7). -/
def State.devWords (s : State) : List Nat :=
  let reason := if s.ready then 0 else s.fget DEV.STATE_REASON
  let risk := min 255 ((List.range s.pcs).filter (fun k => s.flag (ECC.PC_HEAL_AT_RISK k))).length
  [s.devState * 2 ^ 24 + reason * 2 ^ 8 + s.fget PWR.STATE_CUR * 2 ^ 4 + b2n (s.flag SCH.SHORT_STAT_ACTIVE) * 8 +
     b2n (decide (s.fget MGC.QUIESCE_PORTS ≠ 0)) * 4,
   (s.reg FLT.ALERT_CAUSE).toNat, s.fget MGC.COMMIT_COMMIT_GEN * 2 ^ 16 + s.mgc.ops.length, s.lostGib * 2 ^ 24 + risk * 2 ^ 16]

def execDevStatus (h : Halyard) (s : State) : Host.Outcome State Fault Refusal :=
  done (s.packet 0x01 h (fixedLen 0) (fun s _ => s.replyOk 0x01 h s.devWords))

/-- The operations in PEND_ID order. -/
def insertOp (o : PendOp) : List PendOp → List PendOp
  | [] => [o]
  | x :: r => if o.id ≤ x.id then o :: x :: r else x :: insertOp o r

/-- The two words of an entry. -/
def PendOp.words (o : PendOp) : List Nat :=
  [o.id * 2 ^ 16 + o.opcode * 2 ^ 8 + o.state * 2 ^ 4, o.final * 2 ^ 24 + o.result % 2 ^ 24]

def execPendingStatus (h : Halyard) (s : State) : Host.Outcome State Fault Refusal :=
  done (s.packet 0x04 h (fixedLen 1) (fun s _ =>
    let id := arg h 0
    let said := fun (o : PendOp) => decide (id = 0xFFFF) || decide (o.id = id)
    let l := (s.mgc.ops.filter said).foldr insertOp []
    if id ≠ 0xFFFF ∧ l = [] then s.replyBad 0x04 h 0
    else
      let s : State := { s with mgc := { s.mgc with ops := s.mgc.ops.filter (fun o => !(said o && decide (o.state = 2))) } }
      s.replyOk 0x04 h (l.flatMap PendOp.words)))

/-- The words of an event's body, with LOST where events were dropped before it. -/
def Event.words (e : Event) (lost : Bool) : List Nat :=
  let b := (if lost then { e with eflags := e.eflags ||| 1 } else e : Event).body
  (List.range 16).map (fun i => ofBe (slice b (4 * i) 4))

/-- EVT_READ: up to three events, oldest first; word 0 carries the number still queued, where another answer has PEND_ID. -/
def execEvtRead (h : Halyard) (s : State) : Host.Outcome State Fault Refusal :=
  done (s.packet 0x05 h (fixedLen 0) (fun s _ =>
    let l := s.mgc.twEvq.take 3
    let rest := s.mgc.twEvq.drop 3
    let words := (l.mapIdx (fun (i : Nat) (e : Event) => e.words (decide (i = 0) && s.mgc.twLost))).flatten
    let s : State := { s with mgc := { s.mgc with twEvq := rest, twLost := s.mgc.twLost && l.isEmpty } }
    s.respond 0x05 h St.ok 0 rest.length words))

end Sys2Proof.Machine
end

