-- ==== Sys2Proof/Machine/Boot.lean ====
section
/-! DEFINITION. Resets and boot (spec/16_reset_boot_and_fuses.md, spec/11_stack_test_and_repair.md): what PORST_N and a warm
reset clear, the boot sequence with its tests and repairs, the states in which a part that cannot boot rests, and READY. -/

namespace Sys2Proof.Machine

open Sys2Proof.Reg

/-! ### What a reset clears (Table 16.1) -/

/-- XB and the always-on timer go on through a reset: its monitor, what shows it valid and when it became so. -/
def State.keepXb (s t : State) : State :=
  let t : State := { t with clk := { mons := s.clk.mons.filter (fun e => e.1 = 2), moved := 0 } }
  let t := t.fset CLK.STARTUP_B_XB_STABLE_MS (s.fget CLK.STARTUP_B_XB_STABLE_MS)
  if s.flag CLK.STATUS_XB_VALID then
    ((t.setValid 2 true).setFlag CLK.STATUS_AON_SIO false).setFlag (CLK.MON_STAT_ARMED 2) true
  else t.setFlag (CLK.MON_STAT_ARMED 2) (s.flag (CLK.MON_STAT_ARMED 2))

/-- BOOT and RSEQ of a record as one number. -/
def nvKey (b : List Nat) : Nat := ofBe (slice b 2 6)

/-- The slot of the record that comes first by an order on (BOOT, RSEQ). -/
def nvFirst (before : Nat → Nat → Bool) (l : SMap (List Nat)) : Option (Nat × List Nat) :=
  l.foldl (fun (m : Option (Nat × List Nat)) e => match m with
    | none => some e
    | some x => if before (nvKey e.2) (nvKey x.2) then some e else some x) none

/-- BBX scans the store after PORST_N: the newest and the oldest valid record, and the BOOT of this power-on (R492). -/
def State.scanStore (s : State) : State :=
  let valid : SMap (List Nat) := s.bbx.nv.filter (fun e => nvValid e.2)
  let s := (s.setFlag BBX.STATUS_SCAN_DONE true).fset BBX.NV_VALID_COUNT valid.length
  let s := match nvFirst (fun a b => decide (a < b)) valid with
    | some e => s.fset BBX.NV_OLDEST_SLOT e.1
    | none => s
  match nvFirst (fun a b => decide (b < a)) valid with
  | some e => (s.fset BBX.STATUS_NV_HEAD e.1).fset BBX.BOOT_CNT_BOOT (nvKey e.2 / 2 ^ 32 + 1)
  | none => s.fset BBX.BOOT_CNT_BOOT 1

/-- PORST_N: everything but the always-on timer, XB and the nonvolatile store (R434). -/
def State.coldReset (s : State) : State :=
  let s := s.cutPulse
  let bbx : BbxSt := { nv := s.bbx.nv, nvBad := s.bbx.nvBad }
  let otp : OtpSt := { words := s.otp.words, trim := s.otp.trim }
  let t : State := { part := s.part, aon := s.aon, free := s.free, pending := s.pending, bbx := bbx, otp := otp }
  (s.keepXb t).scanStore

/-! ### What a warm reset leaves -/

/-- The bits of a register outside the always-on blocks that hold until PORST_N, or count since PORST_N: the lock bit of
every block (R15); RETRAIN_CNT and DROP_CNT (R76); COMMIT_GEN (R149); MAX_WAIT_NS (R209); the flush count (R275); the lines
that a scan engine read (R295); OVF_TOTAL (R327); lost capacity (R326); what training and boot repair gave the masts and
dies, the failure records and the last test of a mast (R331, R337, R338, R343); trips and peak temperatures; failed clocks
(R433); fuse pulses (R456); and of the engines the permanent fences and the refresh audit (R242, R244). -/
def lastMask (addr : Nat) : Nat :=
  let b := bits addr 16 8
  let off := addr % 0x10000
  let lock := match regRow addr with
    | some r => r.w1s
    | none => 0
  let kept : Nat :=
    if b = 0x01 then (if off = 0x08 then 0xFFFF0000 else 0)
    else if 0x10 ≤ b ∧ b ≤ 0x17 then (if off = 0x28 then 0xFFFFFFFF else 0)
    else if b = 0x28 then (if off = 0x68 then 0xFFFF else 0)
    else if 0x30 ≤ b ∧ b ≤ 0x37 then (if off = 0x3C ∨ (0x100 ≤ off ∧ off < 0x144) then 0xFFFFFFFF else 0)
    else if b = 0x40 then (if off = 0x1C then 0xFFFF else 0)
    else if b = 0x48 then (if 0x100 ≤ off ∧ off < 0x200 ∧ off % 16 = 8 then 0xFFFFFFFF else 0)
    else if b = 0x50 then
      (if off = 0x44 then 0xFFFF else if 0x100 ≤ off ∧ off < 0x180 ∧ off % 16 = 12 then 0xFFFFFFFF else 0)
    else if b = 0x58 then
      (if off = 0x14 then 0xFF0000
      else if off = 0x40 ∨ off = 0x44 ∨ off = 0x48 ∨ off = 0x4C ∨ off = 0x5C ∨ (0x200 ≤ off ∧ off < 0x240) then 0xFFFFFFFF
      else if 0x100 ≤ off ∧ off < 0x180 then
        (if off % 16 = 4 then 0xFFF000 else if off % 16 = 8 ∨ off % 16 = 12 then 0xFFFFFFFF else 0)
      else 0)
    else if b = 0x68 then
      (if off = 0x18 then 0xFF000000 else if off = 0x34 then 0x3FF0000
      else if 0x100 ≤ off ∧ off < 0x180 ∧ off % 16 = 12 then 0xFFC00 else 0)
    else if b = 0x78 then (if 0x40 ≤ off ∧ off < 0x80 ∧ off % 8 = 0 then 0x20000000 else 0)
    else if b = 0x80 then (if off = 0x30 then 0xFFFFFFFF else 0)
    else 0
  lock ||| kept

/-- A register after a warm reset: its value after PORST_N, with the bits that last. -/
def warmWord (addr : Nat) (w : Word) : Word :=
  if aonBlock (bits addr 16 8) then w
  else
    let m := BitVec.ofNat 32 (lastMask addr)
    (resetOf addr &&& ~~~m) ||| (w &&& m)

/-- An LPLL keeps the reference that firmware gave it until the next Furl exit or PORST_N (R425). -/
def State.warmRef (s : State) (t : State) (k : Nat) : State :=
  let ref := s.fget (CLK.PLL_STAT_REF (2 + k))
  if ref = 4 ∨ ref = 5 then t.fset (CLK.PLL_STAT_REF (2 + k)) ref else t

/-- The registers after a warm reset. -/
def State.warmRegs (s : State) (t : State) : State :=
  (List.range 4).foldl s.warmRef (s.regs.foldl (fun (t : State) e => t.setReg e.1 (warmWord e.1 e.2)) t)

/-- A permanent fence, a substitution and a failed spare hold until PORST_N (R242, R323, R326, R342). -/
def State.warmIndex (s : State) (t : State) (k : Nat) : State :=
  let perm := s.engPerm (s.engineOf k)
  let t := if s.onSpare k then t.setFlag (pcStateFld k 6) true else t
  if perm then t.setFlag (pcStateFld k 7) true else t

/-- The spare of a die that serves, or has failed, still does. -/
def State.warmSpare (s : State) (t : State) (d : Nat) : State :=
  let t := t.fset (DCH.FENCE_ENG d) (s.fget (DCH.FENCE_PERM_ENG d))
  if 3 ≤ s.fget (ECC.SPARE_STAT_STATE d) then
    (t.fset (ECC.SPARE_STAT_STATE d) (s.fget (ECC.SPARE_STAT_STATE d))).fset (ECC.SPARE_STAT_INDEX d) (s.fget (ECC.SPARE_STAT_INDEX d))
  else t

/-- A trip without AUTO_RESTART lasts until PORST_N (R382). -/
def State.warmTrip (s : State) (t : State) : State :=
  if s.tripped ∧ ¬ s.flag THM.CTRL_AUTO_RESTART then
    let t : State := { t with thm := { t.thm with pin := s.thm.pin } }
    (t.setFlag THM.CTRL_AUTO_RESTART false).setFlag THM.STATUS_TRIPPED true
  else t

/-- A warm reset: everything but the always-on domain and the nonvolatile store, and but what the spec keeps until
PORST_N; the volatile ring is lost (R434, R492). -/
def State.warmReset (s : State) : State :=
  let bbx : BbxSt := { s.bbx with ring := [], commit := none }
  let otp : OtpSt := { words := s.otp.words, trim := s.otp.trim }
  let mgc : MgcSt := { lastTw := s.mgc.lastTw, evSeq := s.mgc.evSeq }
  let flt : FltSt := { s.flt with reactions := s.flt.reactions.map (fun r => if r.ended then r else { r with ended := true, endAt := s.now }),
                                  waiting := [], resuming := [], holds := [] }
  let pw : PwrSt := { ret := s.pw.ret, cfg := s.pw.cfg, scrub := s.pw.scrub }
  let ecc : EccSt := { spareUsed := s.ecc.spareUsed, soft := s.ecc.soft, hardQ := s.ecc.hardQ }
  let stk : StkSt := { last := s.stk.last, sramCols := s.stk.sramCols }
  let engs : SMap EngSt := s.engs.foldl (fun (m : SMap EngSt) e => SMap.set {} m e.1 { audit := e.2.audit, lastAudit := e.2.audit }) []
  let t : State := { part := s.part, now := s.now, aon := s.aon, free := s.free, pending := s.pending, bbx := bbx, otp := otp,
                     mgc := mgc, flt := flt, pw := pw, twb := s.twb, cns := s.cns, tap := s.tap, ecc := ecc, stk := stk,
                     remap := s.remap, engs := engs }
  let t := s.warmRegs t
  let t := (List.range s.pcs).foldl s.warmIndex t
  let t := s.keepXb (((List.range s.dies).map (· + 1)).foldl s.warmSpare t)
  let t := (s.warmTrip t).setReg DEV.STATE 0
  let t := ((t.setReg DEV.BOOT 0).fset DEV.BOOT_STEP 2).setReg DEV.BOOT_TIME 0
  let t := (t.setReg DEV.FW_STAT 0).fset DEV.RESET_STAT_LAST 1
  (t.bumpSat DEV.RESET_STAT_WARM_CNT 1).setFlag BBX.STATUS_COMMIT_BUSY false |>.ringRegs

/-! ### Where a part rests that cannot boot (R440) -/

/-- The BOOT record (Table 18.9). -/
def State.bootRecord (s : State) : State :=
  s.record 0x04 0 0 0 (beBytes 2 (s.fget DEV.STATE_REASON) ++ [s.devState, s.fget DEV.RESET_STAT_LAST] ++
    beBytes 4 (s.reg DEV.BOOT_TIME).toNat ++ beBytes 4 (s.reg STK.BIST_SUM).toNat ++ beBytes 4 (s.reg OTP.REPAIR_STAT).toNat) true

/-- Reset hold: only the always-on domain, the hardware responder, the TAP and the black box run. -/
def State.resetHold (s : State) (reason : Nat) : State :=
  let s := (s.endPackets St.aborted).disableAll.discardRequests.discardReceived
  let s := ((s.fset DEV.STATE_DEV_STATE 3).fset DEV.STATE_REASON reason).fset MGC.STATUS_FW_STATE 0
  s.recordState reason 3

/-- Boot ends in reset hold. -/
def State.holdBoot (s : State) (reason : Nat) : State := (s.resetHold reason).bootRecord

/-- Boot ends in safe state (R332, Table 11.4). -/
def State.safeBoot (s : State) (cause : Nat) : State :=
  let s := (s.setFlag STK.BIST_SUM_SAFE true).fset STK.BIST_SUM_SAFE_CAUSE cause
  ((s.fset STK.STATUS_BOOT_PHASE 7).safeState (0x0500 + cause)).bootRecord

/-! ### The BIST window (Table 16.3) -/

/-- The limits in table order, each with its reason. -/
def bootWindow (o : BootObs) : List (Bool × Nat) :=
  let mv := fun (i : Nat) => (o.rails.getD i (0, 0)).1
  let upTo := fun (t : Option Nat) (n : Nat) => match t with
    | some x => decide (x ≤ n)
    | none => false
  [(within 720 790 (mv 0), 0x0201), (within 1010 1100 (mv 3), 0x0202), (within 1730 1890 (mv 4), 0x0203),
   (within 815 890 (mv 2), 0x0204), (within 720 790 (mv 5), 0x0205), (within 1710 1890 (mv 6), 0x0206),
   (decide (0 ≤ o.temp) && decide (o.temp ≤ 380), 0x0207), (upTo o.xaUs 20000, 0x0303), (within 380000 420000 o.fioKhz, 0x0301),
   (within 21250 28750 o.xaKhz, 0x0302), (upTo o.pllUs 1000, 0x0304)]

/-- Step 3: FIO, XA and the PLLs start (Table 15.8), and the rails are measured. -/
def State.startClocks (s : State) (o : BootObs) : State :=
  let s := (s.countEnd 1).fset CLK.STARTUP_A_FIO_START_US (min 65535 (o.fioUs.getD 0))
  let s := s.setFlag TWB.PM_STAT_SLOW_DIV true
  let s := match o.xaUs with
    | some t => if t ≤ 20000 then ((s.countEnd 0).setValid 0 true).fset CLK.STARTUP_A_XA_STABLE_US t else s
    | none => s
  let s := match o.pllUs with
    | some t =>
      let s := [0, 1].foldl (fun (s : State) j =>
        ((s.setFlag (CLK.PLL_STAT_EN j) true).setFlag (CLK.PLL_STAT_LOCKED j) true).fset (CLK.PLL_STAT_LOCK_US j) (min 255 t)) s
      s.showClk.fset CLK.STARTUP_B_PLL_LOCK_US (min 65535 t)
    | none => s
  s.firstRound { rails := o.rails, activity := o.activity, model := o.model, board := o.board } o.temp

/-! ### The part that FEATURE declares (R1, R20, R29, R447) -/

/-- The registers that show the part. -/
def State.showPart (s : State) (found : List Nat) : State :=
  let n := s.dies
  let s := (s.fset STK.ORG_DIE_PRESENT (maskOf 8 (fun i => found.contains (i + 1)))).fset STK.ORG_DIE_COUNT n
  let s := s.setFlag STK.ORG_RELAY_PRESENT (decide (n = 8))
  let s := (s.fset AMP.CAP_CAP_GIB s.pcs).fset AMP.CAP_PC_BITS s.pcBits
  let s := if s.part.scan then s.setFlag CLK.GATE_SCN true
    else (s.setFlag CLK.GATE_SCN false).fset CLK.GATE_STAT_GATED (setBit (s.fget CLK.GATE_STAT_GATED) 8 true)
  let s := (s.setC60.applyBudget 60).setC62
  (s.applyBudget 62).modelRegs

/-- What TRIM and the first settings of the DRAM eyes give to calibration; training finds the strobe delays. -/
def State.loadTrim (s : State) (o : BootObs) : State :=
  let dly : SMap Nat := (o.delays.filter (fun e => 128 ≤ e.1 % 256)).foldl (fun (m : SMap Nat) e => SMap.set 64 m e.1 e.2) []
  { s with cal := { s.cal with trim := s.fget CAL.FIO_STAT_TRIM, dly := dly } }

/-! ### Hard repairs (R448) -/

/-- A spare row takes a row of an array. -/
def State.useSpare (s : State) (a bank row spare : Nat) : State :=
  let used := setBit (SMap.get 0 s.ecc.spareUsed (a * 64 + bank)) spare true
  let ecc : EccSt := { s.ecc with spareUsed := SMap.set 0 s.ecc.spareUsed (a * 64 + bank) used }
  { s with remap := SMap.insert s.remap ((a * 64 + bank) * 8192 + row) (8192 + spare), ecc := ecc }

/-- A hard row spare takes the lowest free spare row of its bank. -/
def State.hardRow (s : State) (m bank row : Nat) : State :=
  let a := engArray m
  match s.freeSpares a bank with
  | [] => s
  | spare :: _ => if s.physRow a bank row ≠ row ∨ 256 ≤ s.remapUsed a then s else s.useSpare a bank row spare

/-- A hard via remap, or a spare via that is unusable. -/
def State.hardRemap (s : State) (m g pos : Nat) : State :=
  if 16 ≤ s.fget (remapFld m g) then s
  else if pos = 15 then (s.fset (remapFld m g) 31).markVia m (60 + g)
  else ((s.fset (remapFld m g) (16 + pos)).markVia m (viaAt g pos)).mastRemapped m

/-- An index is served by its die's spare from now on. -/
def State.substitute (s : State) (k : Nat) : State :=
  ((s.setFlag (pcStateFld k 6) true).fset (ECC.SPARE_STAT_STATE (pcDie k)) 3).fset (ECC.SPARE_STAT_INDEX (pcDie k)) k

/-- The spare of a die has failed. -/
def State.failSpare (s : State) (d : Nat) : State :=
  let s := if s.fget (ECC.SPARE_STAT_STATE d) = 3 then s else s.fset (ECC.SPARE_STAT_INDEX d) 0x7F
  (s.fset (ECC.SPARE_STAT_STATE d) 4).setFlag (ECC.CAP_LOSS_SPARE_LOST d) true

/-- A fence that REPAIR carries: the index is fenced without an event and stays so. -/
def State.hardFence (s : State) (k : Nat) : State :=
  let d := pcDie k
  let m := s.engineOf k
  let s := (s.setEngBit DCH.FENCE_ENG m true).setEngBit DCH.FENCE_PERM_ENG m true
  let s := (s.setFlag (pcStateFld k 7) true).fset (ECC.CAP_LOSS_LOST d) (setBit (s.fget (ECC.CAP_LOSS_LOST d)) (k % 16) true)
  if s.onSpare k then s.failSpare d else s

/-- One REPAIR entry. -/
def State.hardEntry (s : State) (x : Nat) : State :=
  let m := bits x 22 8
  if x = 0 ∨ s.entryBad x then s
  else if x / 2 ^ 30 = 1 then s.hardRow m (bits x 20 2 * 16 + bits x 16 4) (bits x 3 13)
  else if x / 2 ^ 30 = 2 then s.hardRemap m (bits x 20 2) (bits x 16 4)
  else if engNo m = 16 then s
  else
    let k := 16 * (m / 17) + engNo m
    if s.fenced k then s
    else if bitAt x 21 then s.hardFence k
    else if s.onSpare k ∨ s.fget (ECC.SPARE_STAT_STATE (pcDie k)) ≠ 0 then s
    else s.substitute k

/-- The entries in use apply in ascending order. -/
def State.hardEntries (s : State) : State := s.repairEntries.foldl (fun (s : State) e => s.hardEntry e.2) s

/-! ### Mast training (R333) -/

/-- Training of every assembled mast. -/
def State.trainAll (s : State) (o : BootObs) : State := s.engines.foldl (fun (s : State) m => s.trainMast m (trainOf o.vias m)) s

/-- The D4 relays train in at most 3 attempts. -/
def State.trainRelays (s : State) (fails : Nat) : State :=
  if s.dies ≠ 8 then s
  else if 3 ≤ fails then s.fset STK.ORG_RELAY_STATE 0
  else (s.setFlag STK.ORG_RELAY_PWR true).fset STK.ORG_RELAY_STATE 2

/-! ### Quick BIST and repair (R334, R335, R338, Table 11.3) -/

/-- Soft row spares of the failing rows of an array; its failing spare rows are not used. -/
def State.spareRows (s : State) (m : Nat) (fails : List (Nat × Nat)) : State :=
  let a := engArray m
  let d := engDie m
  let rows := failRows fails
  rows.foldl (fun (s : State) r =>
    if r.2.2 then
      let used := setBit (SMap.get 0 s.ecc.spareUsed (a * 64 + r.1)) r.2.1 true
      { s with ecc := { s.ecc with spareUsed := SMap.set 0 s.ecc.spareUsed (a * 64 + r.1) used } }
    else
      match s.goodSpares a r.1 rows with
      | [] => s
      | spare :: _ =>
        let s := s.useSpare a r.1 r.2.1 spare
        let s : State := { s with ecc := { s.ecc with soft := s.ecc.soft ++ [(a * 64 + r.1) * 8192 + r.2.1] } }
        let s := (s.bumpSat STK.FAIL_CNT_ROWS_SPARED 1).bumpSat (STK.DIE_REPAIR_ROWS_BOOT d) 1
        s.hardenRow m (r.1 / 16) (r.1 % 16) r.2.1) s

/-- Records of quick BIST, with the engines that failed. -/
def State.noteBist (s : State) (m action : Nat) (fails : List (Nat × Nat)) : State :=
  let s := s.noteTest m 0 action fails
  if fails = [] then s
  else s.fset (STK.DIE_BIST_ENG_FAIL (engDie m)) (setBit (s.fget (STK.DIE_BIST_ENG_FAIL (engDie m))) (engNo m) true)

/-- A failed index that no spare takes is fenced, unless `n` failures beyond its spare came before it in this boot; their
number now (Table 11.4, cause 3). -/
def State.bootFence (s : State) (k e cause n : Nat) : State × Nat :=
  let d := pcDie k
  if 0 < n then (s, n + 1)
  else
    let s := (s.permFence k cause).bumpSat STK.BIST_SUM_PC_FENCED 1
    ((s.setFlag (STK.DIE_REPAIR_FENCE_VALID d) true).fset (STK.DIE_REPAIR_FENCE_ENG d) e, 1)

/-- A degraded mast whose index stays in service has its mat erased, at risk. -/
def State.keepDegraded (s : State) (m k : Nat) : State :=
  let s := (s.fset (ECC.PC_MAT_MAT k) (s.fget (STK.MAST_STAT_MAT m))).setFlag (ECC.PC_MAT_ERASED k) true
  (s.int I.ecc 3).setFlag (ECC.PC_HEAL_AT_RISK k) true

/-- The cause of a boot fence: 1 a lost mast, 2 a serving spare; for failing rows the spec gives none. -/
def State.bootCause (s : State) (m : Nat) : Nat × State :=
  if s.fget (STK.MAST_STAT_STATE m) = 3 then (1, s)
  else if engNo m = 16 then (2, s)
  else
    let r := s.fresh
    (r.1 % 256, r.2)

/-- Repair of the spare of a die, tested in round 0; how many failures of the die were beyond its spare. -/
def State.repairSpare (s : State) (d : Nat) (fails : List (Nat × Nat)) : State × Nat :=
  let m := 17 * (d - 1) + 16
  if s.engPerm m then (s, 0)
  else
    let out := s.testOutcome (engArray m) fails
    let st := s.fget (STK.MAST_STAT_STATE m)
    let serves := s.servedBy m
    if out = 2 ∨ st = 3 then
      let s := (s.noteBist m 4 fails).failSpare d
      match serves with
      | some k =>
        let (cause, s) := s.bootCause m
        s.bootFence k 16 cause 0
      | none => (s, 0)
    else
      let s := s.noteBist m (if out = 1 then 1 else 0) fails
      let s := if out = 1 then s.spareRows m fails else s
      match serves with
      | some k => (if st = 2 then s.keepDegraded m k else s, 0)
      | none => (s, 0)

/-- The spare of a die passed and is free. -/
def State.spareReady (s : State) (d : Nat) : Bool :=
  decide (s.fget (ECC.SPARE_STAT_STATE d) = 0) && decide (s.fget (STK.MAST_STAT_STATE (17 * (d - 1) + 16)) < 2)

/-- Repair of one pseudo-channel of engine 0 to 15, after `n` failures of its die beyond the spare; their number now. One
that is fenced, or that its spare serves, is not tested. -/
def State.repairPc (s : State) (m n : Nat) (fails : List (Nat × Nat)) : State × Nat :=
  let d := engDie m
  let k := 16 * (m / 17) + engNo m
  if s.engPerm m ∨ s.onSpare k then (s, n)
  else
    let out := s.testOutcome (engArray m) fails
    let st := s.fget (STK.MAST_STAT_STATE m)
    let spare := s.spareReady d
    if out = 2 ∨ st = 3 ∨ (st = 2 ∧ spare) then
      let s := s.noteBist m (if spare then 3 else if 0 < n then 5 else 4) fails
      if spare then
        let s := (s.substitute k).bumpSat STK.BIST_SUM_PC_SUBST 1
        let s := (s.setFlag (STK.DIE_REPAIR_SUBST_VALID d) true).fset (STK.DIE_REPAIR_SUBST_ENG d) (engNo m)
        (s.hardenIndex k false, n)
      else
        let (cause, s) := s.bootCause m
        s.bootFence k (engNo m) cause n
    else
      let s := s.noteBist m (if out = 1 then 1 else if st = 2 ∧ fails ≠ [] then 6 else 0) fails
      let s := if out = 1 then s.spareRows m fails else s
      (if st = 2 then s.keepDegraded m k else s, n)

/-- The repair of channel `k` of die `i` + 1, in round 0 after the die's spare; `n` failures beyond the spare so far (R335, R338). -/
def State.repairDie (found : Nat → List (Nat × Nat)) (s : State) (i k n : Nat) : State × Nat :=
  (List.range 4).foldl (fun (b : State × Nat) p => b.1.repairPc (17 * i + 4 * k + p) b.2 (found (17 * i + 4 * k + p)))
    (if k = 0 then s.repairSpare (i + 1) (found (17 * i + 16)) else (s, n))

/-- Round `k` of quick BIST and the repair of what it found: channel k of every die. `a.2` holds how many failures each die has
had beyond its spare (R335, R338). -/
def State.repairRound (found : Nat → List (Nat × Nat)) (a : State × SMap Nat) (k : Nat) : State × SMap Nat :=
  (List.range a.1.dies).foldl (fun (a : State × SMap Nat) i =>
    let r := State.repairDie found a.1 i k (SMap.get 0 a.2 i)
    (r.1, SMap.set 0 a.2 i r.2)) a

/-- Quick BIST and repair of every die, round by round; whether a die had a second failure beyond its spare. -/
def State.repairAll (s : State) (words : List (Nat × List (Nat × Nat))) : State × Bool :=
  let found := fun (m : Nat) => quickFails (((words.find? (fun e => e.1 = m)).map (·.2)).getD [])
  let r := (List.range 4).foldl (State.repairRound found) (s, [])
  (r.1, r.2.any (fun e => decide (2 ≤ e.2)))

/-! ### The steps of Table 16.2 -/

/-- While MCLK is stopped, BBX logs every message that the tests send (R480). -/
def State.logAll (s : State) : State := (List.range s.flt.ingress.length).foldl (fun (s : State) _ => s.logOne) s

/-- SRAM BIST replaces each failing column of line-cache data at once by one of the two spares of its sub-array, until PORST_N;
whether a failure is beyond repair (R331). -/
def State.sramBist (s : State) (o : BootObs) : State × Bool :=
  let r := o.sramCols.foldl (fun (a : List (Nat × Nat) × Bool) c =>
    if a.1.contains c then a
    else if (a.1.filter (fun x => x.1 = c.1)).length < 2 then (a.1 ++ [c], a.2)
    else (a.1, true)) (s.stk.sramCols, o.sramFail)
  let s : State := { s with stk := { s.stk with sramCols := r.1 } }
  ((s.fset STK.BIST_SUM_SRAM_COLS (min 255 r.1.length)).setFlag STK.BIST_SUM_SRAM_FAIL r.2, r.2)

/-- A phase of the power-up tests begins (Table 11.1). -/
def State.bootPhase (s : State) (step phase : Nat) : State := (s.fset DEV.BOOT_STEP step).fset STK.STATUS_BOOT_PHASE phase

/-- The phases of Table 11.1 up to the one the boot hangs in, with the safe-state cause that they end with; the last component
says that it hangs. -/
def State.powerUpTests (s : State) (o : BootObs) : State × Option Nat × Bool :=
  let hangs := fun (n : Nat) => decide (o.hang = some n)
  let s := s.bootPhase 4 1
  if hangs 1 then (s, none, true)
  else
    let s := s.fset STK.BIST_TIME_LOGIC_MS (min 255 (nth o.times 0))
    if o.logicFail then (s.setFlag STK.BIST_SUM_LOGIC_FAIL true, some 1, false)
    else
      let s := s.bootPhase 4 2
      if hangs 2 then (s, none, true)
      else
        let (s, sramFail) := s.sramBist o
        let s := (s.fset STK.BIST_TIME_SRAM_MS (min 255 (nth o.times 1))).bootPhase 5 3
        if hangs 3 then (s.hardEntries, none, true)
        else
          let s := ((s.hardEntries.trainRelays o.relayFails).trainAll o).fset STK.BIST_TIME_TRAIN_MS (min 255 (nth o.times 2))
          let s := s.bootPhase 5 4
          match [0, 1, 2, 3].find? (fun k => hangs (4 + k)) with
          | some k => (s.fset STK.STATUS_ROUND k, none, true)
          | none =>
            let badDies := o.dieFails.filter (fun d => decide (1 ≤ d) && decide (d ≤ s.dies))
            let s := badDies.foldl (fun (s : State) d => s.setFlag (STK.DIE_BIST_ENGINE_FAIL d) true) s
            let s := ((s.fset STK.STATUS_ROUND 3).fset STK.BIST_TIME_DRAM_MS (min 255 (nth o.times 3))).bootPhase 6 5
            if hangs 8 then (s, none, true)
            else
              let (s, second) := s.repairAll o.words
              ((s.fset STK.STATUS_BOOT_PHASE 6).logAll,
                if sramFail then some 2 else if s.dies = 8 ∧ 3 ≤ o.relayFails then some 4 else if badDies ≠ [] then some 5
                else if second then some 3 else none, false)

/-- Step 7: every line in service reads zeros, and no way, mark or mirror is left (R442). -/
def State.fillMemory (s : State) (fillMs : Nat) : State :=
  let s : State := { s with mem := [], slices := [] }
  (s.fset DEV.BOOT_STEP 7).fset DEV.BOOT_TIME_FILL_MS (min 65535 fillMs)

/-- PATCH entries with VALID are loaded into the comparators in ascending order: of two for one address the first wins
(R449). -/
def State.loadPatches (s : State) : State :=
  let l := ((List.range 64).filter (fun i => bitAt (s.inUse (0x088 + 2 * i)) 31)).map (fun i =>
    (s.inUse (0x088 + 2 * i) % 0x1000000, s.inUse (0x089 + 2 * i)))
  let s : State := { s with mgc := { s.mgc with patches := l } }
  (s.fset DEV.FW_STAT_PATCHES l.length).fset OTP.PATCH_STAT_APPLIED l.length

/-- The word that a patch puts in place of the ROM word at an address. -/
def State.patchAt (s : State) (addr : Nat) : Option Nat := (s.mgc.patches.find? (fun p => p.1 = addr)).map (·.2)

/-- Step 8: firmware runs, and enables the boot ports where VDD_LANE is within its operating conditions. -/
def State.releaseFirmware (s : State) (o : BootObs) : State :=
  let s := (s.loadPatches.fset DEV.FW_STAT_FW_VERSION o.fwVersion).fset DEV.BOOT_STEP 8
  let s := s.fset MGC.STATUS_FW_STATE 2
  let s : State := { s with mgc := { s.mgc with portsAt := s.now } }
  if within 825 875 (o.rails.getD 1 (0, 0)).1 ∧ ¬ s.tripped then
    (List.range 8).foldl (fun (s : State) p => if bitAt (s.fget DEV.PORT_BOOT_PORTS) p then s.enablePort p else s) s
  else s

/-- Steps 4 to 8. A step that hangs stays until BOOT_STEP_TIMEOUT. -/
def State.testAndRun (s : State) (o : BootObs) : State :=
  match s.powerUpTests o with
  | (s, _, true) => s
  | (s, some cause, false) => s.safeBoot cause
  | (s, none, false) => if o.hang = some 9 then s.fset DEV.BOOT_STEP 7 else (s.fillMemory (nth o.times 4)).releaseFirmware o

/-- Boot from step 2 to the release of firmware, or to where it stops. -/
def State.boot (s : State) (cold : Bool) (o : BootObs) : State :=
  let s : State := { s with now := s.now + 1000 * o.bootUs, aon := s.aon + 1000 * o.bootUs, pw := { s.pw with since := s.aon } }
  let s := (s.fset DEV.BOOT_STEP 2).senseFuses
  match s.failedRegion with
  | some r => s.holdBoot (0x0101 + r)
  | none =>
    let s := (s.showPart o.found).loadTrim o
    let s := if cold then s.setRetMask (2 ^ s.pcs - 1) else s
    if o.fioUs.isNone then (s.limp 0x0401).bootRecord
    else
      let s := (s.fset DEV.BOOT_STEP 3).startClocks o
      match (bootWindow o).find? (fun w => !w.1) with
      | some w => s.holdBoot w.2
      | none => if o.found.length ≠ s.dies then s.holdBoot 0x0601 else s.testAndRun o

/-- PORST_N is released: SB_ADDR is sampled, and the part boots from step 1 (R437, R459). -/
def State.bootCold (s : State) (o : BootObs) : State :=
  (s.coldReset.fset TWB.STATUS_ADDR (0x58 + o.sbAddr % 4)).boot true o

/-! ### The commands -/

/-- A low pulse of PORST_N; one shorter than 1 µs is ignored (R435), and while a rail holds the part in reset it changes
nothing; nor while the TAP has taken the pin (R355). -/
def execPorstN (lowNs : Nat) (obs : BootObs) (s : State) : Host.Outcome State Fault Refusal :=
  done (if lowNs < 1000 ∨ s.inReset ∨ s.pinsTaken then s else s.bootCold obs)

/-- A boot step runs too long. -/
def execBootStepTimeout (s : State) : Host.Outcome State Fault Refusal :=
  done (if s.devState = 0 ∧ ¬ s.inReset then s.holdBoot 0x0701 else s)

/-- Firmware reports READY (R438), and the boot trigger of calibration follows (R362). -/
def State.becomeReady (s : State) : State :=
  let s := ((s.fset DEV.STATE_DEV_STATE 1).fset DEV.BOOT_STEP 9).setFlag DEV.BOOT_READY true
  let s := (s.fset DEV.BOOT_TIME_READY_MS (min 65535 s.ms)).bootRecord
  (List.range s.dies).foldl (fun (s : State) i => s.calAdd ⟨0, i, 4, none⟩) s

/-- Every port of PORT_BOOT is UP, or READY_WAIT_MS has passed since firmware enabled them (R438). -/
def State.mayReport (s : State) : Bool :=
  (List.range 8).all (fun p => !bitAt (s.fget DEV.PORT_BOOT_PORTS) p || decide (s.portState p = 5)) ||
    decide (s.mgc.portsAt + 1000000 * s.fget DEV.READY_CFG_READY_WAIT_MS ≤ s.now)

def execReady (s : State) : Host.Outcome State Fault Refusal :=
  done (if s.fwRuns ∧ s.devState = 0 ∧ s.mayReport then s.becomeReady else s)

/-- A power-state transition is in progress or pending. -/
def State.powerMoves (s : State) : Bool := s.pw.entry.isSome || s.pw.slot.isSome || !s.inSail

/-- WARM_RESET: the answer, the commit of the ring, and 100 µs after the answer the reset (R436). -/
def execWarmReset (h : Halyard) (obs : BootObs) (s : State) : Host.Outcome State Fault Refusal :=
  done (s.packet 0x2F h (fixedLen 1) (fun s _ =>
    if arg h 0 ≠ 0x5741524D then s.replyBad 0x2F h 0
    else if s.powerMoves then s.replySt 0x2F h St.notInState
    else if s.fuseBusy then s.replySt 0x2F h St.busy
    else
      let s := (s.replyOk 0x2F h []).fullCommit.1
      (State.warmReset { s with now := s.now + 100000, aon := s.aon + 100000 }).boot false obs))

/-- The monitored rails and their minima in mV (R514). -/
def railMin (rail : Nat) : Option Nat :=
  if rail = 0 then some 720 else if rail = 3 then some 1010 else if rail = 4 then some 1730 else if rail = 5 then some 700 else none

/-- A monitored rail stays below its minimum: the part is in reset as under PORST_N. -/
def State.railReset (s : State) (rail : Nat) : State :=
  let s := s.coldReset
  let s : State := { s with inReset := true }
  if rail ≠ 5 then s
  else
    let s := (s.setValid 2 false).setFlag CLK.STATUS_AON_SIO true
    let s := (s.setFlag (CLK.MON_STAT_ARMED 2) false).fset CLK.STARTUP_B_XB_STABLE_MS 0
    { s with aon := 0, clk := {} }

def execRailDip (rail mv : Nat) (s : State) : Host.Outcome State Fault Refusal :=
  done (match railMin rail with
  | some lim => if mv < lim then s.railReset rail else s
  | none => s)

/-- Every monitored rail has been in range for 10 µs, after a dip or at power-up. -/
def execRailsInRange (obs : BootObs) (s : State) : Host.Outcome State Fault Refusal :=
  done (if s.inReset ∨ (s.devState = 0 ∧ s.fget DEV.BOOT_STEP = 1) then s.bootCold obs else s)

end Sys2Proof.Machine
end

