-- ==== Sys2Proof/Machine/FurlExit.lean ====
section
/-! DEFINITION. The exit from Furl (spec/14_power_states.md): what the shadow restores and what returns to reset, the clocks,
the retention check, the wake fill, and what the part raises once it is in Sail. -/

namespace Sys2Proof.Machine

open Sys2Proof.Reg

/-! ### The shadow (Table 14.7) -/

/-- The bits of a register that the shadow keeps beyond its RW, RWL and W1S fields: the class table, the address map, the
guard windows and mask sets, COMMIT_GEN and QUIESCE.PORTS, FFE taps and slicer thresholds, fences, substitutions, spare
states, erased mats and retention flags, the scrub and calibration settings; and what lasts until PORST_N: the first failure
records (R337), and the via remaps, failed vias and lost masts (R338; DEDUCED, assumption 89). -/
def shadowBits (addr : Nat) : Nat :=
  let a := addr % 0x1000000
  let off := addr % 0x10000
  let b := bits addr 16 8
  let full := 0xFFFFFFFF
  if b = 0x01 then (if a = MGC.COMMIT then 0xFFFF0000 else if a = MGC.QUIESCE then full else 0)
  else if 0x10 ≤ b ∧ b < 0x18 then (if 0x100 ≤ off ∧ (off % 64 = 0xC ∨ off % 64 = 0x10) then full else 0)
  else if b = 0x20 then (if a = AMP.MAP then full else if 0x100 ≤ off then 0xD0D0D0D0 else 0)
  else if b = 0x21 then (if off = 0 ∨ 0x100 ≤ off then full else 0)
  else if b = 0x28 then (if 0x100 ≤ off ∧ off % 16 ≠ 12 then full else 0)
  else if 0x30 ≤ b ∧ b ≤ 0x37 then (if off = 0x38 ∨ off = 0x3C then full else 0)
  else if b = 0x50 then
    if off = 0x10 then full else if off = 0x50 then 0x801F else if off = 0x78 then 0xF0000000
    else if 0x100 ≤ off ∧ off < 0x180 ∧ (off % 16 = 0 ∨ off % 16 = 12) then full else 0
  else if b = 0x58 then
    if 0x200 ≤ off ∨ off = 0x44 ∨ off = 0x48 ∨ off = 0x4C then full else if off = 0x40 then 0xFF000000
    else if 0x100 ≤ off ∧ (off % 16 = 8 ∨ off % 16 = 12) then full else 0
  else if a = CAL.TRIG_CFG then full
  else 0

/-- The word of a register after the exit: kept bits from the shadow, the others as the reset or the fuses left them. -/
def shadowWord (addr : Nat) (v cur : Word) : Word :=
  let keep := shadowBits addr ||| (match regRow (addr % 0x1000000) with
    | some r => r.rw ||| r.rwl ||| r.w1s
    | none => 0)
  (v &&& BitVec.ofNat 32 keep) ||| (cur &&& ~~~ BitVec.ofNat 32 keep)

/-- What a port keeps: the taps of its feed-forward equalisers and the transmit taps that wait. -/
def PortSt.furlKept (p : PortSt) : PortSt :=
  { lanes := p.lanes.map (fun (l : Nat × LaneSt) => (l.1, { fir := l.2.fir, ffe := l.2.ffe })) }

/-- The audit counter of an engine goes on; the round's comparison begins anew. -/
def EngSt.furlKept (g : EngSt) : EngSt := { audit := g.audit, lastAudit := g.audit }

/-- The PWR_SET that ended last: the shadow holds its final status and RESULT (Table 14.7). -/
def State.lastPwrSet (s : State) : List Nat :=
  let l := s.mgc.ops.filter (fun o => decide (o.opcode = 0x20) && decide (o.state = 2))
  (l.filter (fun o => l.all (fun x => decide (x.order ≤ o.order)))).map (·.id)

/-- The part as its base domains are switched on again: what is not in the always-on domain, not on the core dies and
not in the shadow is as after reset (R398). -/
def State.furlBase (s : State) (h : Shadow) : State :=
  let aon := s.regs.filter (fun e => aonBlock (bits e.1 16 8))
  let bbx : BbxSt := { s.bbx with ring := [], ringLost := false, commit := none }
  let ecc : EccSt := { spareUsed := s.ecc.spareUsed, soft := s.ecc.soft, hardQ := s.ecc.hardQ }
  let stk : StkSt := { last := s.stk.last, sramCols := s.stk.sramCols, due := s.stk.due }
  let cal : CalSt := { dly := s.cal.dly }
  let kept := s.mgc.ops.filter (fun o => decide (o.opcode = 0x20) && (decide (o.state ≠ 2) || s.lastPwrSet.contains o.id))
  let mgc : MgcSt := { s.mgc with inq := [], twq := none, inRow := 0, ops := kept, nextId := 1, reqmap := h.reqmap, evt := h.evt, staged := {}, commit := none,
                                  quiesce := [], paused := false }
  let t : State := { part := s.part, now := s.now, aon := s.aon, free := s.free, regs := aon, mem := s.mem, fillOne := s.fillOne,
                     ports := s.ports.map (fun (p : Nat × PortSt) => (p.1, p.2.furlKept)), nextRx := s.nextRx,
                     engs := s.engs.map (fun (g : Nat × EngSt) => (g.1, g.2.furlKept)), remap := s.remap, ecc := ecc, stk := stk, tap := s.tap,
                     cal := cal, thm := { rails := s.thm.rails, pin := s.thm.pin }, twb := s.twb, mgc := mgc, flt := { s.flt with resuming := [] }, bbx := bbx,
                     cns := s.cns, otp := { words := s.otp.words, trim := s.otp.trim, vtm := s.otp.vtm }, pw := s.pw, pending := s.pending }
  (s.keepXb t).ringRegs

/-- The shadow is restored, after the fuses were sensed (Table 14.9 steps 2 and 3): what it holds stands over TRIM values. -/
def State.restoreShadow (s : State) (h : Shadow) : State :=
  (h.regs.map (·.1) ++ s.otp.trim.map (·.1)).foldl (fun (s : State) a =>
    if aonBlock (bits a 16 8) then s else s.setReg a (shadowWord a (SMap.get (resetOf a) h.regs a) (s.reg a))) s

/-! ### Steps 1 to 6 (Table 14.9) -/

/-- FIO and the PLLs start; SPLL and MPLL on FIO ÷ 16 where XA is not valid yet (R415), and gates that CLK.GATE asks for
close once their blocks are idle. -/
def State.furlClocks (s : State) (o : FurlObs) : State :=
  let s := (s.countEnd 1).setFlag TWB.PM_STAT_SLOW_DIV true
  let s := if o.xaUs ≤ o.exitUs then s.countEnd 0
    else
      let s := [0, 1].foldl (fun (s : State) j => s.fset (CLK.PLL_STAT_REF j) 14) s
      (s.setFlag CLK.STATUS_REF_FIO true).refMonitors true
  let s := (List.range 6).foldl (fun (s : State) j =>
    ((s.setFlag (CLK.PLL_STAT_EN j) true).setFlag (CLK.PLL_STAT_LOCKED j) true).fset (CLK.PLL_STAT_LOCK_US j) (min 255 o.pllUs)) s
  let s := (List.range 10).foldl (fun (s : State) b => if bitAt (s.fget ⟨CLK.GATE, 0, 10⟩) b then s else s.askGate b) s
  s.showClk

/-- Via remaps that REPAIR holds are loaded where the mast has none yet. -/
def State.hardVias (s : State) : State :=
  s.repairEntries.foldl (fun (s : State) e => if e.2 / 2 ^ 30 = 2 then s.hardEntry e.2 else s) s

/-- The D4 mast domain is powered and its relay masts are trained from the saved delays. -/
def State.furlRelays (s : State) (o : FurlObs) : State :=
  if s.dies ≠ 8 then s
  else ((s.setFlag STK.ORG_RELAY_PWR true).fset STK.ORG_RELAY_STATE 2).trainRelayMasts o.vias

/-- SRX on the retained indices, with the sample of its audit counter (R245), and power to the other arrays; an engine
under a temporary fence stays in self-refresh. -/
def State.furlArrays (s : State) : State :=
  s.engines.foldl (fun (s : State) m =>
    if s.engPerm m then s
    else if s.engFenced m then s.setEngBit DCH.SR_STATE_ENG m true
    else (s.setEng m { s.eng m with ready := 8 * s.now + s.lim DCH.TIM_PD_TXS m }).auditSample m) s

/-! ### The retention check (R402, R403) -/

/-- The refresh count expected of an index in Furl: two refreshes every 3.9 µs of elapsed time. -/
def auditExpected (us : Nat) : Nat := us * 20 / 39

/-- The least growth that passes. -/
def auditLimit (expected : Nat) : Nat := expected * 99 / 100 - 4

/-- The growth of a 48-bit count. -/
def auditGrowth (before after : Nat) : Nat := (after + 2 ^ 48 - before) % 2 ^ 48

/-- The seal of an index is read through ECC: whether it is whole. An uncorrectable one is rewritten poisoned (R302). -/
def State.sealHolds (s : State) (k : Nat) (errs : List (Nat × Nat)) : State × Bool :=
  let line := sealNum k 0
  let a := s.arrayOf k
  let (s, w) := s.readWord a (sealLine 0) errs
  let (s, v, d) := s.decode a (s.placeOf line) line 1 w
  (s, !d.ue && decide (slice v 0 64 = sealBytes (s.fget PWR.SEAL_SEQ_SEQ) k))

/-- The check of one retained index: the masks of seal failures and of audit shortfalls so far. -/
def State.checkIndex (o : FurlObs) (h : Shadow) (skip : Bool) (expected : Nat) (a : State × Nat × Nat) (k : Nat) :
    State × Nat × Nat :=
  let (s, seals, audits) := a
  let (s, ok) := s.sealHolds k (((o.seals.find? (fun e => e.1 = k)).map (·.2)).getD [])
  let growth := auditGrowth (SMap.get 0 h.audit k) (s.eng (s.engineOf k)).audit
  let slow := !skip && decide (growth < auditLimit expected)
  let s := if ok ∧ ¬ slow then s else s.markLost k
  (s, if ok then seals else setBit seals k true, if slow then setBit audits k true else audits)

/-- AUDIT_EXP and AUDIT_WORST of a die. -/
def State.showAudit (s : State) (h : Shadow) (expected : Nat) (kept : List Nat) (d : Nat) : State :=
  let grown := (kept.filter (fun k => pcDie k = d)).map (fun k =>
    (engNo (s.engineOf k), auditGrowth (SMap.get 0 h.audit k) (s.eng (s.engineOf k)).audit))
  match grown with
  | [] => s
  | g :: rest =>
    let w := rest.foldl (fun (a b : Nat × Nat) => if b.2 < a.2 then b else a) g
    let ppm := if expected = 0 then 0 else (expected - w.2) * 1000000 / expected
    ((s.fset (PWR.AUDIT_EXP_COUNT d) expected).fset (PWR.AUDIT_WORST_ENGINE d) w.1).fset (PWR.AUDIT_WORST_SHORT_PPM d) ppm

/-- A mask of indices as four words in RET_LOST. -/
def State.setRetLost (s : State) (mask : Nat) : State :=
  (List.range 4).foldl (fun (s : State) k => s.setReg (PWR.RET_LOST k) (BitVec.ofNat 32 (mask / 2 ^ (32 * k)))) s

/-- The retention check of every retained index; the masks of what failed. -/
def State.retentionCheck (s : State) (o : FurlObs) (h : Shadow) (skip : Bool) : State × Nat × Nat :=
  let expected := auditExpected ((s.aon - h.aon) / 1000)
  let kept := s.retained
  let s := if skip then s else (List.range s.dies).foldl (fun (s : State) i => s.showAudit h expected kept (i + 1)) s
  let (s, seals, audits) := kept.foldl (State.checkIndex o h skip expected) (s, 0, 0)
  let s := (s.setRetLost (seals ||| audits)).setFlag PWR.WAKE_STAT_AUDIT_SKIP skip
  let s := if skip then
      let r := s.fresh
      r.2.fwReport 0x2C0 (r.1 % 4)
    else s
  (s, seals, audits)

/-! ### The wake fill (R401) -/

/-- The indices that the fill writes: in service and not retained. -/
def State.toFill (s : State) : List Nat :=
  (List.range s.pcs).filter (fun k => !s.retained.contains k && !s.engPerm (s.engineOf k))

/-- An index is filled with zeros under its EPOCH, and its retention marks are cleared. -/
def State.fillIndex (s : State) (k : Nat) : State :=
  let a := s.arrayOf k
  let others := s.fillOne.filter (· ≠ a)
  let one := decide (s.fget (ECC.PC_HEAL_EPOCH k) = 1)
  let s : State := { s with fillOne := if one then others ++ [a] else others }
  ((s.setFlag (pcStateFld k 4) false).setFlag (ECC.PC_HEAL_RL_ACTIVE k) false).setFlag (ECC.PC_HEAL_RL_IGNORE k) false

/-- The wake fill starts: admission opens only when it has ended and the exit has. -/
def State.wakeFill (s : State) : State :=
  let l := s.toFill
  let s := l.foldl State.fillIndex s
  let mask := l.foldl (fun (m : Nat) k => setBit m k true) 0
  { s with pw := { s.pw with fill := mask, hold := true } }

/-! ### The exit -/

/-- Bytes of a mask with PC 127 in bit 7 of the first (R407). -/
def maskBytes (m : Nat) : List Nat := beBytes 16 m

/-- The classes run on their own budgets; the internal ones follow at their next windows. -/
def State.furlBudgets (s : State) : State :=
  let s := (List.range 64).foldl (fun (s : State) n => s.setEff n (s.fget (SCH.CLS_BUDGET_BUDGET n)) false) s
  s.setC60.modelRegs

/-- Sail is reached: admission opens unless a wake fill is busy; POWER_STATE, then RETENTION_LOST (R400, R407). -/
def State.furlDone (s : State) (w : Waking) : State :=
  let ms := min (2 ^ 32 - 1) ((s.aon - s.pw.since) / 1000000)
  let s := s.fset PWR.WAKE_STAT_EXIT_US (min 65535 (w.us + (s.now - w.since) / 1000))
  let s := State.enterPwr { s with pw := { s.pw with waking := none, hold := decide (s.pw.fill ≠ 0), scrubWait := s.pw.scrub } } 0
  let s := (s.int I.pwr 1).event 0x0050 0 ([3, 0, 2, w.code] ++ beBytes 4 ms ++ beBytes 4 (s.fget PWR.SEAL_SEQ_SEQ))
  let s := if w.seals ||| w.audits = 0 then s
    else s.event 0x0036 2 (maskBytes w.seals ++ maskBytes w.audits ++ beBytes 4 w.sec ++ [b2n (s.flag PWR.WAKE_STAT_AUDIT_SKIP)])
  s.requeueEvac

/-- The exit ends when no port's bring-up goes on any more: each enabled port is UP, or DOWN (DEDUCED, assumption 91). -/
def State.wakeTick (s : State) : State :=
  match s.pw.waking with
  | none => s
  | some w =>
    if ¬ s.live then s
    else if (List.range 8).any s.comesUp then (if s.fget PWR.STATE_STEP = s.wakeStep then s else s.showPwr)
    else s.furlDone w

/-- The trim that CAL works from is the one FIO_STAT shows. -/
def State.takeTrim (s : State) : State := { s with cal := { s.cal with trim := s.fget CAL.FIO_STAT_TRIM } }

/-- From step 2 of the exit to the ports enabled: the clocks, the vias, the arrays and the wake fill (Table 14.8). -/
def State.furlBring (s : State) (o : FurlObs) (found : List Nat) : State :=
  let s := ((((s.showPart (found.map (· + 1))).furlClocks o).takeTrim.hardVias.furlRelays o).furlArrays).wakeFill
  (s.loadPatches.fset MGC.STATUS_FW_STATE 2).furlBudgets.enableAll

/-- The retention check; then the exit waits for its ports. -/
def State.furlEnd (s : State) (o : FurlObs) (h : Shadow) (code : Nat) (skip : Bool) : State :=
  let r := s.retentionCheck o h skip
  let s := if r.2.1 ||| r.2.2 = 0 then r.1 else r.1.int I.pwr 4
  let w : Waking := ⟨code, r.2.1, r.2.2, min (2 ^ 32 - 1) ((s.aon - h.aon) / 1000000000), o.exitUs, s.now⟩
  State.showPwr { s with pw := { s.pw with shadow := none, wake := none, xbLost := false, waking := some w } }

/-- The exit goes on where every fuse region senses good, and else the device holds in reset (R448). -/
def State.furlOrHold (s : State) (o : FurlObs) (h : Shadow) (code : Nat) (skip : Bool) (found : List Nat) : State :=
  match s.failedRegion with
  | some r => (s.dropArrays (fun _ => false)).resetHold (0x0101 + r)
  | none => (s.furlBring o found).furlEnd o h code skip

/-- The exit, from what the shadow holds. -/
def State.furlExit (s : State) (o : FurlObs) (h : Shadow) (code port : Nat) : State :=
  let skip := s.pw.xbLost || !s.flag CLK.STATUS_XB_VALID
  let s := (s.fset PWR.WAKE_STAT_SOURCE code).fset PWR.WAKE_STAT_PORT port
  let found := (List.range 8).filter (fun i => bitAt (s.fget STK.ORG_DIE_PRESENT) i)
  ((s.furlBase h).senseFuses.restoreShadow h).furlOrHold o h code skip found

def execFurlExit (obs : FurlObs) (s : State) : Host.Outcome State Fault Refusal :=
  done (match s.pw.shadow, s.pw.wake with
  | some h, some (code, port) => if s.pwr = 3 ∧ s.pw.entry.isNone ∧ ¬ s.frozen ∧ ¬ s.tripped ∧ s.devState = 1 then s.furlExit obs h code port else s
  | _, _ => s)

/-- The wake fill ends: admission opens. -/
def execWakeFillDone (s : State) : Host.Outcome State Fault Refusal :=
  done (if s.pw.fill = 0 ∨ ¬ s.live then s
    else State.int { s with pw := { s.pw with fill := 0, hold := s.entryPaused || s.pw.waking.isSome } } I.pwr 5)

end Sys2Proof.Machine
end

