-- ==== Sys2Proof/Machine/Requests.lean ====
section
/-! DEFINITION. Requests (R100 to R124): the checks of Table 3.14 in their order, the lines answered fenced at the
map stage, and what each opcode does from its arrival to its admission. -/

namespace Sys2Proof.Machine

open Sys2Proof.Reg

/-- The opcodes of Table 3.9 that the device takes. -/
def takenOps : List Nat := [0x10, 0x11, 0x12, 0x28, 0x29, 0x38, 0x40, 0x50, 0x68]

/-- The opcodes of Table 3.9 that only the device sends. -/
def sentOps : List Nat := [0x78, 0xC0, 0xC8, 0xC2]

/-- The sub-ops of Table 3.11. -/
def atomSubs : List Nat := [0x01, 0x02, 0x03, 0x04, 0x05, 0x06, 0x07, 0x08, 0x09, 0x0A, 0x11, 0x12]

/-- Check 2: the DETAIL of UNSUPPORTED for an opcode, a position, a LEN, an alignment or an absent feature. Where a condition
of DETAIL 0x02 and one of 0x03 both hold, it is 0x02 (DESIGN CHOICE, assumption 79). -/
def State.checkForm (s : State) (r : Req) : Option Nat :=
  if sentOps.contains r.opcode then some 7
  else if !takenOps.contains r.opcode then some 1
  else if r.pos ≠ 0 ∧ bitAt r.opcode 3 then some 8
  else if r.opcode = 0x29 then
    if r.len = 0 ∨ 256 < r.len then some 2 else if 256 < r.addr % 256 + r.len then some 3 else none
  else if r.opcode = 0x38 then
    if ¬ atomSubs.contains r.len then some 2 else if r.addr % atomWidth r.len ≠ 0 then some 3 else none
  else if r.opcode = 0x40 then
    let d := scanDesc r.data
    if !s.scnPresent then some 5 else if d.badFields then some 2 else if d.misaligned then some 3 else none
  else if r.opcode = 0x10 ∨ r.opcode = 0x28 then (if r.addr % 64 ≠ 0 then some 3 else none)
  else if r.opcode = 0x11 then (if r.addr % 128 ≠ 0 then some 3 else none)
  else if r.opcode = 0x12 then (if r.addr % 256 ≠ 0 then some 3 else none)
  else none

/-- Check 3: every line lies within the assembled capacity. -/
def State.checkRange (s : State) (r : Req) : Bool :=
  if r.opcode = 0x40 then
    let d := scanDesc r.data
    decide (d.inBase + 64 * d.inLines ≤ 2 ^ (30 + s.pcBits)) && decide (d.outBase + 64 * d.outLines ≤ 2 ^ (30 + s.pcBits))
  else s.inRange r.addr

/-- Check 4: the class may issue ATOM or SCAN. -/
def State.checkClass (s : State) (r : Req) (cls : Nat) : Bool :=
  if r.opcode = 0x38 then s.flag (SCH.CLS_CFG_ATOM_OK cls)
  else if r.opcode = 0x40 then s.flag (SCH.CLS_CFG_SCAN_OK cls)
  else true

/-- What a denial records: the address of the first line of the request, or of the range of a SCAN in which a right is
missing; the line at which it is missing, whose window decides; and whether only the write right is missing (R170, R172,
R277). -/
structure Denied where
  addr : Nat
  at_ : Nat
  write : Bool
  deriving DecidableEq, Repr

/-- Check 5: the right that is missing, if one is. -/
def State.checkGuard (s : State) (r : Req) (cls : Nat) : Option Denied :=
  if r.opcode = 0x40 then
    let d := scanDesc r.data
    match s.firstDenied cls d.inBase d.inLines false with
    | some a => some ⟨d.inBase, a, false⟩
    | none => (s.firstDenied cls d.outBase d.outLines true).map (fun a => ⟨d.outBase, a, true⟩)
  else
    let (rd, wr) := s.rights cls r.addr
    if (reqReads r || decide (r.opcode = 0x38)) && !rd then some ⟨r.addr, r.addr, false⟩
    else if !reqReads r && !wr then some ⟨r.addr, r.addr, true⟩
    else none

/-- Lines under a fenced window, and lines of a fenced index, are answered fenced at the map stage (R173, R240). -/
def State.mapFenced (s : State) (r : Req) : State × List LineRes :=
  let lines := reqLines r
  if s.winFenced r.addr then (s.bumpSat RGD.FENCE_CNT_COUNT lines.length, lines.map (fun _ => .fenced))
  else
    (lines.foldl (fun (s : State) l => if s.lineFenced l then s.countFenced l else s) s,
      lines.map (fun l => if s.lineFenced l then .fenced else .open_))

/-- A request that has a place in the table is checked and, where every check passes, admitted or held (Table 3.14,
R184). DESIGN CHOICE (assumption 70): a SCAN whose range lies under a fenced window reads its lines. -/
def State.checkTxn (s : State) (t : Txn) : State :=
  let r := t.req
  let cls := s.classOf r.reqId
  let t := { t with cls := cls }
  match s.checkForm r with
  | some d => s.refuseTxn t 6 d
  | none =>
    if !s.checkRange r then ((s.bumpSat AMP.RANGE_CNT_COUNT 1).int I.amp 0).refuseTxn t 3 0
    else if !s.checkClass r cls then s.refuseTxn t 6 4
    else
      match s.checkGuard r cls with
      | some x => (s.deny x.addr (s.decidingWin x.at_) cls r.reqId x.write).refuseTxn t 2 0
      | none =>
        if r.opcode = 0x40 then s.tryAdmit { t with lines := [] }
        else
          let (s, res) := s.mapFenced r
          let t := { t with lines := res }
          if res.any LineRes.isOpen then s.tryAdmit t else s.endTxn t (s.completion t)

/-- The request names lines of memory: a read, a write or an atomic. -/
def namesLines (r : Req) : Bool := [0x10, 0x11, 0x12, 0x28, 0x29, 0x38].contains r.opcode

/-- Two requests of one stream, REQ_ID and line, which stay in order (R121). -/
def sameLine (a b : Req) : Bool :=
  namesLines a && namesLines b &&
  decide (a.port = b.port) && decide (a.reqId = b.reqId) && (reqLines a).any (reqLines b).contains

/-- A request still at decode, received before the one with a receive number, goes first (R121). -/
def State.heldBehind (s : State) (r : Req) (num : Nat) : Bool :=
  s.txns.any (fun u => decide (u.stage = 0) && decide (u.num < num) && sameLine u.req r)

/-- A request of the same stream, REQ_ID and line stands in the receive buffer (R121). -/
def State.rxAhead (s : State) (r : Req) : Bool := (s.link r.port).rx.any (fun u => u.reqs.any (fun x => sameLine x.req r))

/-- The request's entry: the one it took when its slot left the receive buffer, else a new one (R97); none while an earlier
request of its stream, REQ_ID and line has not passed decode (R121). -/
def State.entryOf (s : State) (r : Req) : Option (State × Txn) :=
  match s.txns.find? (fun t => t.stage = 0 ∧ t.req = r) with
  | some t => if s.heldBehind r t.num then none else some (s, t)
  | none =>
    if s.txns.length < 4096 ∧ ¬ bitAt (s.fget MGC.QUIESCE_PORTS) r.port ∧ ¬ s.pw.hold ∧ ¬ s.heldBehind r s.nextRx ∧
        ¬ s.rxAhead r then
      let t : Txn := { num := s.nextRx, req := r, arrival := s.now }
      some ({ s with nextRx := s.nextRx + 1, txns := s.txns ++ [t] }, t)
    else none

/-- Drop a request's entry without an answer. -/
def State.forget (s : State) (t : Txn) : State := { s with txns := s.txns.filter (fun u => u.num ≠ t.num) }

/-- A request arrives at decode: the stack ID first (R116), then the rest. -/
def State.request (s : State) (r : Req) (f : State → Txn → State) : State :=
  if ¬ (isPort r.port ∧ s.live) then s
  else
    match s.entryOf r with
    | none => s
    | some (s, t) => if s.sidWrong r then (s.forget t).sidMismatch r (s.classOf r.reqId) t.arrival else f s t

/-- A memory request with its opcode. -/
def State.memRequest (s : State) (op : Nat) (r : Req) : State := s.request { r with opcode := op } (fun s t => s.checkTxn t)

def execRd64 (r : Req) (s : State) : Host.Outcome State Fault Refusal := done (s.memRequest 0x10 r)

def execRd128 (r : Req) (s : State) : Host.Outcome State Fault Refusal := done (s.memRequest 0x11 r)

def execRd256 (r : Req) (s : State) : Host.Outcome State Fault Refusal := done (s.memRequest 0x12 r)

def execWr64 (r : Req) (s : State) : Host.Outcome State Fault Refusal := done (s.memRequest 0x28 r)

def execWrp (r : Req) (s : State) : Host.Outcome State Fault Refusal := done (s.memRequest 0x29 r)

def execAtom (r : Req) (s : State) : Host.Outcome State Fault Refusal := done (s.memRequest 0x38 r)

def execScan (r : Req) (s : State) : Host.Outcome State Fault Refusal := done (s.memRequest 0x40 r)

/-- A MGMT request is delivered: from the receive buffer where it stands there as the port's first MGMT packet, else, with no
MGMT packet of the port before it, as it arrives (R112, R134). In a header position past the first it is no packet and is
answered at check 2 (R546). -/
def execMgmt (r : Req) (s : State) : Host.Outcome State Fault Refusal :=
  done (if ¬ (isPort r.port ∧ s.live) then s
    else if r.pos ≠ 0 then s.request { r with opcode := 0x68 } (fun s t => s.checkTxn t)
    else
      let rx := (s.link r.port).rx
      match rx.find? RxUnit.isMgmt with
      | some u => if u.reqs.any (fun x => x.req = r) ∧ s.mayLeave r.port u then s.releaseUnit r.port u else s
      | none => if s.queuedFrom r.port < 8 then s.deliverMgmt r s.now else s)

/-- A FENCE is recorded against the earlier requests of its REQ_ID; it is never held and never checked by the guard
(R122, Table 5.4, Table 6.3). -/
def execFence (r : Req) (s : State) : Host.Outcome State Fault Refusal :=
  done (s.request { r with opcode := 0x50 } (fun s t =>
    let t := { t with cls := s.classOf r.reqId, stage := 4 }
    s.setTxn { t with waits := s.fenceCovers t }))

/-- An opcode that the device does not take is answered UNSUPPORTED, at check 2 (R103, R546). -/
def execUnknownOpcode (r : Req) (s : State) : Host.Outcome State Fault Refusal :=
  done (if takenOps.contains r.opcode ∧ ¬ (r.pos ≠ 0 ∧ bitAt r.opcode 3) then s else s.request r (fun s t => s.checkTxn t))

/-- A request with the wrong stack ID (R116). -/
def execStackIdMismatch (r : Req) (s : State) : Host.Outcome State Fault Refusal :=
  done (if s.sidWrong r then s.request r (fun s _ => s) else s)

end Sys2Proof.Machine
end

