-- ==== Sys2Proof/Machine/Dispatch.lean ====
section
/-! DEFINITION. The dispatch: one arm per command, each one direct call of its meaning. -/

namespace Sys2Proof.Machine

def exec (i : Instr) (s : State) : Host.Outcome State Fault Refusal :=
  match i with
  | .porstN lowNs obs => Sys2Proof.Machine.execPorstN lowNs obs s
  | .bootStepTimeout => Sys2Proof.Machine.execBootStepTimeout s
  | .ready => Sys2Proof.Machine.execReady s
  | .warmReset h obs => Sys2Proof.Machine.execWarmReset h obs s
  | .railDip rail mv => Sys2Proof.Machine.execRailDip rail mv s
  | .trstN => Sys2Proof.Machine.execTrstN s
  | .portEnable p => Sys2Proof.Machine.execPortEnable p s
  | .portDisable p => Sys2Proof.Machine.execPortDisable p s
  | .prtCtrlRetrain p => Sys2Proof.Machine.execPrtCtrlRetrain p s
  | .testEn p on errs checked => Sys2Proof.Machine.execTestEn p on errs checked s
  | .prtSlip p lane count => Sys2Proof.Machine.execPrtSlip p lane count s
  | .lpllLock k lockUs => Sys2Proof.Machine.execLpllLock k lockUs s
  | .signalDetect p m => Sys2Proof.Machine.execSignalDetect p m s
  | .lossOfSignal p m sdLost => Sys2Proof.Machine.execLossOfSignal p m sdLost s
  | .cdrLock p m => Sys2Proof.Machine.execCdrLock p m s
  | .sdWaitExpiry p m => Sys2Proof.Machine.execSdWaitExpiry p m s
  | .trainLenExpiry p adapted => Sys2Proof.Machine.execTrainLenExpiry p adapted s
  | .bitSlipSearch p adapted => Sys2Proof.Machine.execBitSlipSearch p adapted s
  | .alignmentMarker p m marker parity place => Sys2Proof.Machine.execAlignmentMarker p m marker parity place s
  | .maskExchangeTimeout p => Sys2Proof.Machine.execMaskExchangeTimeout p s
  | .markerSend p => Sys2Proof.Machine.execMarkerSend p s
  | .rxreqTmo p => Sys2Proof.Machine.execRxreqTmo p s
  | .lpllRereference k => Sys2Proof.Machine.execLpllRereference k s
  | .holdoverExpiry k => Sys2Proof.Machine.execHoldoverExpiry k s
  | .parallelAlignerTimeout p => Sys2Proof.Machine.execParallelAlignerTimeout p s
  | .flitReceive p flit => Sys2Proof.Machine.execFlitReceive p flit s
  | .nakResend p => Sys2Proof.Machine.execNakResend p s
  | .replayTimer p => Sys2Proof.Machine.execReplayTimer p s
  | .creditReturn p => Sys2Proof.Machine.execCreditReturn p s
  | .slotRelease p => Sys2Proof.Machine.execSlotRelease p s
  | .initTmo p => Sys2Proof.Machine.execInitTmo p s
  | .rd64 r => Sys2Proof.Machine.execRd64 r s
  | .rd128 r => Sys2Proof.Machine.execRd128 r s
  | .rd256 r => Sys2Proof.Machine.execRd256 r s
  | .wr64 r => Sys2Proof.Machine.execWr64 r s
  | .wrp r => Sys2Proof.Machine.execWrp r s
  | .atom r => Sys2Proof.Machine.execAtom r s
  | .scan r => Sys2Proof.Machine.execScan r s
  | .fence r => Sys2Proof.Machine.execFence r s
  | .fenceComplete p reqId tag => Sys2Proof.Machine.execFenceComplete p reqId tag s
  | .mgmt r => Sys2Proof.Machine.execMgmt r s
  | .unknownOpcode r => Sys2Proof.Machine.execUnknownOpcode r s
  | .stackIdMismatch r => Sys2Proof.Machine.execStackIdMismatch r s
  | .evtSend => Sys2Proof.Machine.execEvtSend s
  | .identify h => Sys2Proof.Machine.execIdentify h s
  | .devStatus h => Sys2Proof.Machine.execDevStatus h s
  | .readTelemetry h => Sys2Proof.Machine.execReadTelemetry h s
  | .pendingStatus h => Sys2Proof.Machine.execPendingStatus h s
  | .evtRead h => Sys2Proof.Machine.execEvtRead h s
  | .regRead h => Sys2Proof.Machine.execRegRead h s
  | .regWrite h obs => Sys2Proof.Machine.execRegWrite h obs s
  | .regRmw h obs => Sys2Proof.Machine.execRegRmw h obs s
  | .regReadList h => Sys2Proof.Machine.execRegReadList h s
  | .registerWrite addr value setNow => Sys2Proof.Machine.execRegisterWrite addr value setNow s
  | .pwrSet h => Sys2Proof.Machine.execPwrSet h s
  | .pwrGet h => Sys2Proof.Machine.execPwrGet h s
  | .setRetention h => Sys2Proof.Machine.execSetRetention h s
  | .setWake h => Sys2Proof.Machine.execSetWake h s
  | .clearRetlost h => Sys2Proof.Machine.execClearRetlost h s
  | .stageClass h => Sys2Proof.Machine.execStageClass h s
  | .stageReqmap h => Sys2Proof.Machine.execStageReqmap h s
  | .stageAddrmap h => Sys2Proof.Machine.execStageAddrmap h s
  | .stageGuard h => Sys2Proof.Machine.execStageGuard h s
  | .stageEvtcfg h => Sys2Proof.Machine.execStageEvtcfg h s
  | .commit h => Sys2Proof.Machine.execCommit h s
  | .commitApplied => Sys2Proof.Machine.execCommitApplied s
  | .discard h => Sys2Proof.Machine.execDiscard h s
  | .stageTimeout => Sys2Proof.Machine.execStageTimeout s
  | .quiesce h => Sys2Proof.Machine.execQuiesce h s
  | .quiesceDrained => Sys2Proof.Machine.execQuiesceDrained s
  | .quiesceTimeout => Sys2Proof.Machine.execQuiesceTimeout s
  | .unquiesce h => Sys2Proof.Machine.execUnquiesce h s
  | .readModel h => Sys2Proof.Machine.execReadModel h s
  | .tableRead h => Sys2Proof.Machine.execTableRead h s
  | .bistRun h => Sys2Proof.Machine.execBistRun h s
  | .bistDone fails => Sys2Proof.Machine.execBistDone fails s
  | .bistResult h => Sys2Proof.Machine.execBistResult h s
  | .rowSpare h => Sys2Proof.Machine.execRowSpare h s
  | .softRowSpare errs => Sys2Proof.Machine.execSoftRowSpare errs s
  | .rowSpareHard h => Sys2Proof.Machine.execRowSpareHard h s
  | .evacuate h => Sys2Proof.Machine.execEvacuate h s
  | .evacStart fails => Sys2Proof.Machine.execEvacStart fails s
  | .evacCopyLine errs => Sys2Proof.Machine.execEvacCopyLine errs s
  | .evacDone => Sys2Proof.Machine.execEvacDone s
  | .fieldTest h errs => Sys2Proof.Machine.execFieldTest h errs s
  | .errInject h => Sys2Proof.Machine.execErrInject h s
  | .scrubCfg h => Sys2Proof.Machine.execScrubCfg h s
  | .fastScrub h => Sys2Proof.Machine.execFastScrub h s
  | .fastScrubDone => Sys2Proof.Machine.execFastScrubDone s
  | .otpRead h => Sys2Proof.Machine.execOtpRead h s
  | .otpProgram h => Sys2Proof.Machine.execOtpProgram h s
  | .otpReblow h => Sys2Proof.Machine.execOtpReblow h s
  | .otpLock h => Sys2Proof.Machine.execOtpLock h s
  | .otpMargin h => Sys2Proof.Machine.execOtpMargin h s
  | .fltRead h => Sys2Proof.Machine.execFltRead h s
  | .fltInject h => Sys2Proof.Machine.execFltInject h s
  | .bbxRead h => Sys2Proof.Machine.execBbxRead h s
  | .bbxCommit h => Sys2Proof.Machine.execBbxCommit h s
  | .freeze h => Sys2Proof.Machine.execFreeze h s
  | .fltTable h => Sys2Proof.Machine.execFltTable h s
  | .alertClear h => Sys2Proof.Machine.execAlertClear h s
  | .scnReserve h => Sys2Proof.Machine.execScnReserve h s
  | .scnRelease h => Sys2Proof.Machine.execScnRelease h s
  | .scnLimits h => Sys2Proof.Machine.execScnLimits h s
  | .scnCancel h => Sys2Proof.Machine.execScnCancel h s
  | .calRun h => Sys2Proof.Machine.execCalRun h s
  | .calStatus h => Sys2Proof.Machine.execCalStatus h s
  | .calCfg h => Sys2Proof.Machine.execCalCfg h s
  | .thmRead h => Sys2Proof.Machine.execThmRead h s
  | .thmSetWarn h => Sys2Proof.Machine.execThmSetWarn h s
  | .thmModel h => Sys2Proof.Machine.execThmModel h s
  | .traceCfg h => Sys2Proof.Machine.execTraceCfg h s
  | .traceRead h => Sys2Proof.Machine.execTraceRead h s
  | .vendorOpcode op h => Sys2Proof.Machine.execVendorOpcode op h s
  | .badOpcode op h => Sys2Proof.Machine.execBadOpcode op h s
  | .watchdogRestart => Sys2Proof.Machine.execWatchdogRestart s
  | .admission n => Sys2Proof.Machine.execAdmission n s
  | .windowStart n => Sys2Proof.Machine.execWindowStart n s
  | .poolRefill => Sys2Proof.Machine.execPoolRefill s
  | .urgencyTick => Sys2Proof.Machine.execUrgencyTick s
  | .promotion m => Sys2Proof.Machine.execPromotion m s
  | .commandChoice m off => Sys2Proof.Machine.execCommandChoice m off s
  | .modelRecompute => Sys2Proof.Machine.execModelRecompute s
  | .modelHoldExpiry p => Sys2Proof.Machine.execModelHoldExpiry p s
  | .housekeepingRound obs => Sys2Proof.Machine.execHousekeepingRound obs s
  | .refDue m h => Sys2Proof.Machine.execRefDue m h s
  | .refStart m h => Sys2Proof.Machine.execRefStart m h s
  | .refreshModeChange d => Sys2Proof.Machine.execRefreshModeChange d s
  | .refreshSlot m => Sys2Proof.Machine.execRefreshSlot m s
  | .idleBoundary m user => Sys2Proof.Machine.execIdleBoundary m user s
  | .powerDownEntry m => Sys2Proof.Machine.execPowerDownEntry m s
  | .fill m errs => Sys2Proof.Machine.execFill m errs s
  | .missForward k => Sys2Proof.Machine.execMissForward k s
  | .pendingOperation line => Sys2Proof.Machine.execPendingOperation line s
  | .tagFetch m errs => Sys2Proof.Machine.execTagFetch m errs s
  | .mergeTimeout line => Sys2Proof.Machine.execMergeTimeout line s
  | .mergeClose m errs => Sys2Proof.Machine.execMergeClose m errs s
  | .atomExecute line => Sys2Proof.Machine.execAtomExecute line s
  | .writeBack k => Sys2Proof.Machine.execWriteBack k s
  | .sramScrub k bad => Sys2Proof.Machine.execSramScrub k bad s
  | .flush => Sys2Proof.Machine.execFlush s
  | .flushDone => Sys2Proof.Machine.execFlushDone s
  | .scanStart => Sys2Proof.Machine.execScanStart s
  | .stagingLine e => Sys2Proof.Machine.execStagingLine e s
  | .scanComplete reqId tag => Sys2Proof.Machine.execScanComplete reqId tag s
  | .timeLimit reqId tag => Sys2Proof.Machine.execTimeLimit reqId tag s
  | .bucketLeak => Sys2Proof.Machine.execBucketLeak s
  | .patrolScrubLine errs => Sys2Proof.Machine.execPatrolScrubLine errs s
  | .reef2Scrub errs => Sys2Proof.Machine.execReef2Scrub errs s
  | .retentionSweep errs => Sys2Proof.Machine.execRetentionSweep errs s
  | .sweepDone => Sys2Proof.Machine.execSweepDone s
  | .fieldTestTick errs => Sys2Proof.Machine.execFieldTestTick errs s
  | .fieldTestRetest m errs => Sys2Proof.Machine.execFieldTestRetest m errs s
  | .stkDsel dies => Sys2Proof.Machine.execStkDsel dies s
  | .stkDtap => Sys2Proof.Machine.execStkDtap s
  | .dtapIdcode d => Sys2Proof.Machine.execDtapIdcode d s
  | .dtapSample d vias => Sys2Proof.Machine.execDtapSample d vias s
  | .dtapExtest d vias value => Sys2Proof.Machine.execDtapExtest d vias value s
  | .dtapIntest d vias value => Sys2Proof.Machine.execDtapIntest d vias value s
  | .dieBist d pass sig => Sys2Proof.Machine.execDieBist d pass sig s
  | .dtapBypass d => Sys2Proof.Machine.execDtapBypass d s
  | .extest pins value => Sys2Proof.Machine.execExtest pins value s
  | .samplePreload pins preload => Sys2Proof.Machine.execSamplePreload pins preload s
  | .clamp => Sys2Proof.Machine.execClamp s
  | .highz => Sys2Proof.Machine.execHighz s
  | .idcode => Sys2Proof.Machine.execIdcode s
  | .bypass => Sys2Proof.Machine.execBypass s
  | .devStateRd => Sys2Proof.Machine.execDevStateRd s
  | .cnsRead shifts => Sys2Proof.Machine.execCnsRead shifts s
  | .cnsResume pin update => Sys2Proof.Machine.execCnsResume pin update s
  | .bbxDump => Sys2Proof.Machine.execBbxDump s
  | .laneTrackWindow p counts => Sys2Proof.Machine.execLaneTrackWindow p counts s
  | .calTrigger => Sys2Proof.Machine.execCalTrigger s
  | .calHoldExpiry => Sys2Proof.Machine.execCalHoldExpiry s
  | .dieRun m meas errs => Sys2Proof.Machine.execDieRun m meas errs s
  | .runDone => Sys2Proof.Machine.execRunDone s
  | .fioTrimMeasure count => Sys2Proof.Machine.execFioTrimMeasure count s
  | .fioTrimStep => Sys2Proof.Machine.execFioTrimStep s
  | .thmSample d vals => Sys2Proof.Machine.execThmSample d vals s
  | .thermalClear d => Sys2Proof.Machine.execThermalClear d s
  | .restart => Sys2Proof.Machine.execRestart s
  | .aonThermalSample temps => Sys2Proof.Machine.execAonThermalSample temps s
  | .reef1Entry => Sys2Proof.Machine.execReef1Entry s
  | .reef2Entry => Sys2Proof.Machine.execReef2Entry s
  | .reefExit ns => Sys2Proof.Machine.execReefExit ns s
  | .entryUnwind => Sys2Proof.Machine.execEntryUnwind s
  | .pendingPowerRequest => Sys2Proof.Machine.execPendingPowerRequest s
  | .wakePin => Sys2Proof.Machine.execWakePin s
  | .furlWakeTimer => Sys2Proof.Machine.execFurlWakeTimer s
  | .customerWakeTimer => Sys2Proof.Machine.execCustomerWakeTimer s
  | .sleepAddressMatch => Sys2Proof.Machine.execSleepAddressMatch s
  | .furlExit obs => Sys2Proof.Machine.execFurlExit obs s
  | .wakeFillDone => Sys2Proof.Machine.execWakeFillDone s
  | .monitorWindow n count => Sys2Proof.Machine.execMonitorWindow n count s
  | .stabilityCountEnd n => Sys2Proof.Machine.execStabilityCountEnd n s
  | .sourceRestart n => Sys2Proof.Machine.execSourceRestart n s
  | .xbAbsent => Sys2Proof.Machine.execXbAbsent s
  | .pllUnlock j => Sys2Proof.Machine.execPllUnlock j s
  | .pllRelock j lockUs => Sys2Proof.Machine.execPllRelock j lockUs s
  | .deadSource sw old new => Sys2Proof.Machine.execDeadSource sw old new s
  | .gateUngate b => Sys2Proof.Machine.execGateUngate b s
  | .gateRequest b => Sys2Proof.Machine.execGateRequest b s
  | .gateTakesEffect b => Sys2Proof.Machine.execGateTakesEffect b s
  | .gatedAccess addr write => Sys2Proof.Machine.execGatedAccess addr write s
  | .xlateLo value => Sys2Proof.Machine.execXlateLo value s
  | .probeLo value => Sys2Proof.Machine.execProbeLo value s
  | .flushCtrlStart inv => Sys2Proof.Machine.execFlushCtrlStart inv s
  | .aonTimeLo => Sys2Proof.Machine.execAonTimeLo s
  | .imgWin j => Sys2Proof.Machine.execImgWin j s
  | .twWriteFrame addr bytes badStart => Sys2Proof.Machine.execTwWriteFrame addr bytes badStart s
  | .twReadFrame addr count => Sys2Proof.Machine.execTwReadFrame addr count s
  | .twTimeout scl => Sys2Proof.Machine.execTwTimeout scl s
  | .attentionPulse collision => Sys2Proof.Machine.execAttentionPulse collision s
  | .pmXfer value outcome => Sys2Proof.Machine.execPmXfer value outcome s
  | .pmbusHangRecovery clocks => Sys2Proof.Machine.execPmbusHangRecovery clocks s
  | .faultMessage arrives => Sys2Proof.Machine.execFaultMessage arrives s
  | .shadowEnd k => Sys2Proof.Machine.execShadowEnd k s
  | .fenceHoldExpiry k => Sys2Proof.Machine.execFenceHoldExpiry k s
  | .fencePermanent k => Sys2Proof.Machine.execFencePermanent k s
  | .incrementalCommit => Sys2Proof.Machine.execIncrementalCommit s
  | .freezeN => Sys2Proof.Machine.execFreezeN s
  | .freezeEntry => Sys2Proof.Machine.execFreezeEntry s
  | .dataLost => Sys2Proof.Machine.execDataLost s
  | .drainTimeout => Sys2Proof.Machine.execDrainTimeout s
  | .progDone pulses => Sys2Proof.Machine.execProgDone pulses s
  | .commitDone => Sys2Proof.Machine.execCommitDone s
  | .resetDone d len => Sys2Proof.Machine.execResetDone d len s
  | .relayReset trained => Sys2Proof.Machine.execRelayReset trained s
  | .railsInRange obs => Sys2Proof.Machine.execRailsInRange obs s
  | .selfRefreshRef m => Sys2Proof.Machine.execSelfRefreshRef m s

end Sys2Proof.Machine
end

