-- ==== Sys2Proof/Machine/Tick.lean ====
section
/-! DEFINITION. What goes on by itself while no command waits. -/

namespace Sys2Proof.Machine

/-- Firmware goes on with what it has begun: its own restart, the next hardening of a repair, a commit whose flush and
test are due. -/
def State.fwTick (s : State) : State := if s.mclk then (s.restartEnds.hardenNext).commitStep else s

/-- The ports go on: what is on their lanes leaves, and INIT flits follow one another. -/
def State.portTick (s : State) : State := if s.live then (List.range 8).foldl State.linkTick s else s

/-- A word of the trace leaves on DBG0 in 320 ns, at 100 Mb/s (R496). -/
def State.dbgTick (s : State) : State :=
  if s.live ∧ s.now % 320 = 0 then { s with trc := { s.trc with dbg := s.trc.dbg.tail } } else s

/-- One nanosecond without a command: time passes, the ports, the engines, a power-state transition, a stretched two-wire transaction and
firmware go on. -/
def State.tick (s : State) : State := (s.idle.portTick.engTick.entryTick.wakeTick.twTick.dbgTick).fwTick

end Sys2Proof.Machine
end

