-- ==== Sys2Proof/Safety.lean ====
section
/-! DEFINITION. The terms in which statements about the part are made: its canonical forms, its pieces, and which pieces a
command may change. -/

namespace Sys2Proof.Machine

/-- The tables of ports, links, cache slices and engines name each unit once, in rising order. -/
def State.tables (s : State) : Bool :=
  SMap.rising s.ports && SMap.rising s.links && SMap.rising s.slices && SMap.rising s.engs

/-- Memory and the register file are in canonical form, and so are the tables. -/
structure State.Forms (s : State) : Prop where
  mem : Memory.wf s.mem = true
  regs : Regs.wf s.regs = true
  tables : s.tables = true

/-- The pieces of the state beside the queue of commands. -/
inductive Piece where
  /-- Which part of the family it is. -/
  | part
  /-- The time since PORST_N and since power-on of VDD_AON. -/
  | time
  /-- How many values the spec leaves open have been taken. -/
  | free
  /-- The registers. -/
  | regs
  /-- The stored bytes of the arrays. -/
  | arrays
  /-- What the ports hold beyond their registers. -/
  | ports
  /-- What the link layers hold. -/
  | links
  /-- The transactions. -/
  | txns
  /-- What the scheduler holds. -/
  | sch
  /-- The lines and merge entries of the cache slices. -/
  | slices
  /-- What the channel engines hold. -/
  | engs
  /-- The refreshes in progress. -/
  | refs
  /-- Which array serves an index. -/
  | remap
  /-- The running flush. -/
  | flush
  /-- What data integrity holds. -/
  | ecc
  /-- What stack test holds. -/
  | stk
  /-- What the scan engines hold. -/
  | scn
  /-- The test access port. -/
  | tap
  /-- What calibration holds. -/
  | cal
  /-- What thermal sensing holds. -/
  | thm
  /-- What clocking holds. -/
  | clk
  /-- What the two-wire ports hold. -/
  | twb
  /-- What the management controller holds. -/
  | mgc
  /-- What fault handling holds. -/
  | flt
  /-- The black box. -/
  | bbx
  /-- The trace. -/
  | trc
  /-- What freeze holds. -/
  | cns
  /-- The fuses. -/
  | otp
  /-- What power control holds. -/
  | pw
  /-- Whether a rail out of range holds the part in reset. -/
  | inReset
  deriving DecidableEq, Repr

/-- A piece is the same in two states. -/
def Piece.Same (p : Piece) (s t : State) : Prop :=
  match p with
  | .part => t.part = s.part
  | .time => t.now = s.now ∧ t.aon = s.aon
  | .free => t.free = s.free
  | .regs => t.regs = s.regs
  | .arrays => t.mem = s.mem ∧ t.fillOne = s.fillOne
  | .ports => t.ports = s.ports
  | .links => t.links = s.links
  | .txns => t.txns = s.txns ∧ t.nextRx = s.nextRx
  | .sch => t.sch = s.sch
  | .slices => t.slices = s.slices
  | .engs => t.engs = s.engs
  | .refs => t.refs = s.refs
  | .remap => t.remap = s.remap
  | .flush => t.flush = s.flush
  | .ecc => t.ecc = s.ecc
  | .stk => t.stk = s.stk
  | .scn => t.scn = s.scn
  | .tap => t.tap = s.tap
  | .cal => t.cal = s.cal
  | .thm => t.thm = s.thm
  | .clk => t.clk = s.clk
  | .twb => t.twb = s.twb
  | .mgc => t.mgc = s.mgc
  | .flt => t.flt = s.flt
  | .bbx => t.bbx = s.bbx
  | .trc => t.trc = s.trc
  | .cns => t.cns = s.cns
  | .otp => t.otp = s.otp
  | .pw => t.pw = s.pw
  | .inReset => t.inReset = s.inReset

/-- Firmware serves the sender of packet `h` now: it runs, in Sail, and after a trip only a two-wire port is served (R381). -/
abbrev State.serves (s : State) (h : Halyard) : Prop := s.fwRuns = true ∧ s.pwr = 0 ∧ (s.tripped = true → h.src = .twoWire)

/-- Firmware executes a halyard packet now: it serves the packet's sender, the packet's turn has come, it is not a repeat of the
last two-wire packet, and it passes every check of Table 4.15. -/
abbrev State.takes (s : State) (op : Nat) (h : Halyard) (len : List Nat → Option Nat) : Prop :=
  s.serves h ∧ s.mayStart ⟨op, h⟩ = true ∧ s.isRepeat ⟨op, h⟩ = false ∧ s.packetCheck op h len = none

/-- The state in which the effect of a packet that firmware executes begins: its arrival has been seen as a wake source, it has
left its queue, and the trace has it where its source is selected. -/
def State.begun (s : State) (op : Nat) (h : Halyard) : State :=
  ((s.wakeEvent (if h.src = .twoWire then 7 else 6) 0).takePacket ⟨op, h⟩).trace 5 0
    (op * 2 ^ 24 + h.seq * 2 ^ 16 + h.len * 2 ^ 8 + h.flags)

/-- A packet accepted as a pending operation (R136, R142): the state in which it has its entry and ACCEPTED_PENDING has been
answered, and its PEND_ID. -/
def State.accepted (s : State) (op : Nat) (h : Halyard) (state arg : Nat) : State × Nat :=
  let r := s.newOp op (bitAt h.flags 6) state arg
  (r.1.respond op h St.pending 0 r.2 [], r.2)

/-- A request on an existing port of a running part has its entry, and passes the checks of Table 3.14: the stack ID, its form, its
range, its class and the guard. `u` is the state that holds the entry `t`. -/
abbrev State.passes (s : State) (r : Req) (u : State) (t : Txn) : Prop :=
  isPort r.port = true ∧ s.live = true ∧ s.entryOf r = some (u, t) ∧ u.sidWrong r = false ∧ u.checkForm r = none ∧
    u.checkRange r = true ∧ u.checkClass r (u.classOf r.reqId) = true ∧ u.checkGuard r (u.classOf r.reqId) = none

/-- The pieces of the state that a command may change. -/
def mayChange : Instr → List Piece
  | .porstN .. => [.part, .time, .free, .regs, .arrays, .ports, .links, .txns, .sch, .slices, .engs, .refs, .remap,
      .flush, .ecc, .stk, .scn, .tap, .cal, .thm, .clk, .twb, .mgc, .flt, .bbx, .trc, .cns, .otp, .pw, .inReset]
  | .bootStepTimeout => [.free, .regs, .arrays, .ports, .links, .txns, .sch, .slices, .engs, .ecc, .scn, .twb, .mgc,
      .flt, .bbx, .otp]
  | .ready => [.regs, .cal, .flt, .bbx]
  | .warmReset .. => [.part, .time, .free, .regs, .arrays, .ports, .links, .txns, .sch, .slices, .engs, .refs, .remap,
      .flush, .ecc, .stk, .scn, .cal, .thm, .clk, .twb, .mgc, .flt, .bbx, .trc, .cns, .otp, .pw, .inReset]
  | .railDip .. => [.time, .free, .regs, .arrays, .ports, .links, .txns, .sch, .slices, .engs, .refs, .remap, .flush,
      .ecc, .stk, .scn, .tap, .cal, .thm, .clk, .twb, .mgc, .flt, .bbx, .trc, .cns, .otp, .pw, .inReset]
  | .trstN => [.tap]
  | .portEnable .. => [.free, .regs, .ports, .links, .sch, .flt, .bbx]
  | .portDisable .. => [.free, .regs, .ports, .links, .sch, .ecc, .flt, .bbx]
  | .prtCtrlRetrain .. => [.free, .regs, .ports, .links, .sch, .twb, .mgc, .flt, .bbx]
  | .testEn .. => [.free, .regs, .ports, .links, .sch, .flt, .bbx]
  | .prtSlip .. => [.regs, .ports, .flt, .bbx]
  | .lpllLock .. => [.free, .regs, .ports, .links, .sch]
  | .signalDetect .. => [.free, .regs, .ports, .links, .sch, .twb, .mgc, .flt, .bbx, .pw]
  | .lossOfSignal .. => [.free, .regs, .ports, .flt, .bbx]
  | .cdrLock .. => [.free, .regs, .ports, .links, .sch]
  | .sdWaitExpiry .. => [.free, .regs, .ports, .links, .sch, .ecc, .twb, .mgc, .flt, .bbx]
  | .trainLenExpiry .. => [.free, .regs, .ports, .links, .sch]
  | .bitSlipSearch .. => [.free, .regs, .ports, .links, .sch, .ecc, .twb, .mgc, .flt, .bbx]
  | .alignmentMarker .. => [.free, .regs, .ports, .links, .sch, .ecc, .twb, .mgc, .flt, .bbx]
  | .maskExchangeTimeout .. => [.free, .regs, .ports, .links, .sch, .ecc, .twb, .mgc, .flt, .bbx]
  | .markerSend .. => [.free, .regs, .ports, .links, .sch, .ecc, .twb, .mgc, .flt, .bbx]
  | .rxreqTmo .. => [.regs, .ports, .flt, .bbx]
  | .lpllRereference .. => [.free, .regs, .ports, .links, .sch, .ecc, .clk, .twb, .mgc, .flt, .bbx]
  | .holdoverExpiry .. => [.regs, .ports, .links, .sch, .ecc, .twb, .mgc, .flt, .bbx]
  | .parallelAlignerTimeout .. => [.free, .regs, .ports, .links, .sch, .twb, .mgc, .flt, .bbx]
  | .flitReceive .. => [.free, .regs, .ports, .links, .txns, .sch, .ecc, .flt, .bbx, .trc]
  | .nakResend .. => [.regs, .links]
  | .replayTimer .. => [.regs, .links, .ecc, .flt, .bbx]
  | .creditReturn .. => [.regs, .links, .ecc, .flt, .bbx]
  | .slotRelease .. => [.regs, .links, .txns, .ecc, .mgc, .flt, .bbx]
  | .initTmo .. => [.free, .regs, .ports, .links, .sch, .ecc, .twb, .mgc, .flt, .bbx]
  | .rd64 .. => [.free, .regs, .links, .txns, .sch, .slices, .engs, .ecc, .scn, .twb, .mgc, .flt, .bbx, .trc]
  | .rd128 .. => [.free, .regs, .links, .txns, .sch, .slices, .engs, .ecc, .scn, .twb, .mgc, .flt, .bbx, .trc]
  | .rd256 .. => [.free, .regs, .links, .txns, .sch, .slices, .engs, .ecc, .scn, .twb, .mgc, .flt, .bbx, .trc]
  | .wr64 .. => [.free, .regs, .links, .txns, .sch, .slices, .engs, .ecc, .scn, .twb, .mgc, .flt, .bbx, .trc]
  | .wrp .. => [.free, .regs, .links, .txns, .sch, .slices, .engs, .ecc, .scn, .twb, .mgc, .flt, .bbx, .trc]
  | .atom .. => [.free, .regs, .links, .txns, .sch, .slices, .engs, .ecc, .scn, .twb, .mgc, .flt, .bbx, .trc]
  | .scan .. => [.free, .regs, .links, .txns, .sch, .slices, .engs, .ecc, .scn, .twb, .mgc, .flt, .bbx, .trc]
  | .fence .. => [.regs, .links, .txns, .ecc, .twb, .mgc, .flt, .bbx]
  | .fenceComplete .. => [.regs, .links, .txns, .ecc, .flt, .bbx]
  | .mgmt .. => [.free, .regs, .links, .txns, .sch, .slices, .engs, .ecc, .scn, .twb, .mgc, .flt, .bbx, .trc]
  | .unknownOpcode .. => [.free, .regs, .links, .txns, .sch, .slices, .engs, .ecc, .scn, .twb, .mgc, .flt, .bbx, .trc]
  | .stackIdMismatch .. => [.regs, .links, .txns, .ecc, .twb, .mgc, .flt, .bbx]
  | .evtSend => [.regs, .links, .ecc, .mgc, .flt, .bbx]
  | .identify .. => [.regs, .links, .ecc, .twb, .mgc, .flt, .bbx, .trc, .pw]
  | .devStatus .. => [.regs, .links, .ecc, .twb, .mgc, .flt, .bbx, .trc, .pw]
  | .readTelemetry .. => [.regs, .links, .ecc, .twb, .mgc, .flt, .bbx, .trc, .pw]
  | .pendingStatus .. => [.regs, .links, .ecc, .twb, .mgc, .flt, .bbx, .trc, .pw]
  | .evtRead .. => [.regs, .links, .ecc, .twb, .mgc, .flt, .bbx, .trc, .pw]
  | .regRead .. => [.free, .regs, .ports, .links, .ecc, .twb, .mgc, .flt, .bbx, .trc, .pw]
  | .regWrite .. => [.free, .regs, .ports, .links, .sch, .flush, .ecc, .thm, .twb, .mgc, .flt, .bbx, .trc, .pw]
  | .regRmw .. => [.free, .regs, .ports, .links, .sch, .flush, .ecc, .thm, .twb, .mgc, .flt, .bbx, .trc, .pw]
  | .regReadList .. => [.free, .regs, .ports, .links, .ecc, .twb, .mgc, .flt, .bbx, .trc, .pw]
  | .registerWrite .. => [.free, .regs, .ports, .links, .sch, .flush, .ecc, .thm, .twb, .mgc, .flt, .bbx]
  | .pwrSet .. => [.regs, .links, .ecc, .twb, .mgc, .flt, .bbx, .trc, .pw]
  | .pwrGet .. => [.regs, .links, .ecc, .twb, .mgc, .flt, .bbx, .trc, .pw]
  | .setRetention .. => [.regs, .links, .ecc, .twb, .mgc, .flt, .bbx, .trc, .pw]
  | .setWake .. => [.regs, .links, .ecc, .twb, .mgc, .flt, .bbx, .trc, .pw]
  | .clearRetlost .. => [.regs, .links, .sch, .ecc, .twb, .mgc, .flt, .bbx, .trc, .pw]
  | .stageClass .. => [.regs, .links, .ecc, .twb, .mgc, .flt, .bbx, .trc, .pw]
  | .stageReqmap .. => [.regs, .links, .ecc, .twb, .mgc, .flt, .bbx, .trc, .pw]
  | .stageAddrmap .. => [.regs, .links, .ecc, .twb, .mgc, .flt, .bbx, .trc, .pw]
  | .stageGuard .. => [.regs, .links, .ecc, .twb, .mgc, .flt, .bbx, .trc, .pw]
  | .stageEvtcfg .. => [.regs, .links, .ecc, .twb, .mgc, .flt, .bbx, .trc, .pw]
  | .commit .. => [.regs, .links, .flush, .ecc, .twb, .mgc, .flt, .bbx, .trc, .pw]
  | .commitApplied => [.regs, .links, .sch, .flush, .ecc, .twb, .mgc, .flt, .bbx]
  | .discard .. => [.regs, .links, .ecc, .twb, .mgc, .flt, .bbx, .trc, .pw]
  | .stageTimeout => [.regs, .mgc, .flt, .bbx]
  | .quiesce .. => [.regs, .links, .ecc, .twb, .mgc, .flt, .bbx, .trc, .pw]
  | .quiesceDrained => [.regs, .links, .ecc, .twb, .mgc, .flt, .bbx]
  | .quiesceTimeout => [.regs, .links, .ecc, .twb, .mgc, .flt, .bbx]
  | .unquiesce .. => [.regs, .links, .ecc, .twb, .mgc, .flt, .bbx, .trc, .pw]
  | .readModel .. => [.regs, .links, .ecc, .twb, .mgc, .flt, .bbx, .trc, .pw]
  | .tableRead .. => [.regs, .links, .ecc, .twb, .mgc, .flt, .bbx, .trc, .pw]
  | .bistRun .. => [.regs, .links, .ecc, .stk, .twb, .mgc, .flt, .bbx, .trc, .pw]
  | .bistDone .. => [.regs, .stk, .twb, .mgc, .flt, .bbx]
  | .bistResult .. => [.regs, .links, .ecc, .twb, .mgc, .flt, .bbx, .trc, .pw]
  | .rowSpare .. => [.regs, .links, .ecc, .twb, .mgc, .flt, .bbx, .trc, .pw]
  | .softRowSpare .. => [.regs, .engs, .ecc, .twb, .mgc, .flt, .bbx]
  | .rowSpareHard .. => [.regs, .links, .ecc, .twb, .mgc, .flt, .bbx, .trc, .otp, .pw]
  | .evacuate .. => [.regs, .links, .ecc, .twb, .mgc, .flt, .bbx, .trc, .pw]
  | .evacStart .. => [.regs, .sch, .engs, .ecc, .stk, .twb, .mgc, .flt, .bbx]
  | .evacCopyLine .. => [.free, .regs, .arrays, .links, .txns, .sch, .slices, .engs, .ecc, .twb, .mgc, .flt, .bbx]
  | .evacDone => [.free, .regs, .sch, .engs, .refs, .ecc, .twb, .mgc, .flt, .bbx]
  | .fieldTest .. => [.regs, .links, .engs, .ecc, .stk, .twb, .mgc, .flt, .bbx, .trc, .pw]
  | .errInject .. => [.regs, .links, .ecc, .twb, .mgc, .flt, .bbx, .trc, .pw]
  | .scrubCfg .. => [.regs, .links, .sch, .ecc, .twb, .mgc, .flt, .bbx, .trc, .pw]
  | .fastScrub .. => [.regs, .links, .sch, .ecc, .twb, .mgc, .flt, .bbx, .trc, .pw]
  | .fastScrubDone => [.regs, .sch, .ecc, .twb, .mgc, .flt, .bbx]
  | .otpRead .. => [.regs, .links, .ecc, .twb, .mgc, .flt, .bbx, .trc, .pw]
  | .otpProgram .. => [.regs, .links, .ecc, .twb, .mgc, .flt, .bbx, .trc, .otp, .pw]
  | .otpReblow .. => [.regs, .links, .ecc, .twb, .mgc, .flt, .bbx, .trc, .otp, .pw]
  | .otpLock .. => [.regs, .links, .ecc, .twb, .mgc, .flt, .bbx, .trc, .otp, .pw]
  | .otpMargin .. => [.regs, .links, .ecc, .twb, .mgc, .flt, .bbx, .trc, .pw]
  | .fltRead .. => [.regs, .links, .ecc, .twb, .mgc, .flt, .bbx, .trc, .pw]
  | .fltInject .. => [.regs, .links, .ecc, .twb, .mgc, .flt, .bbx, .trc, .pw]
  | .bbxRead .. => [.regs, .links, .ecc, .twb, .mgc, .flt, .bbx, .trc, .pw]
  | .bbxCommit .. => [.regs, .links, .ecc, .twb, .mgc, .flt, .bbx, .trc, .pw]
  | .freeze .. => [.regs, .links, .ecc, .twb, .mgc, .flt, .bbx, .trc, .cns, .pw]
  | .fltTable .. => [.regs, .links, .ecc, .twb, .mgc, .flt, .bbx, .trc, .pw]
  | .alertClear .. => [.regs, .links, .ecc, .twb, .mgc, .flt, .bbx, .trc, .pw]
  | .scnReserve .. => [.regs, .links, .sch, .ecc, .twb, .mgc, .flt, .bbx, .trc, .pw]
  | .scnRelease .. => [.regs, .links, .sch, .ecc, .scn, .twb, .mgc, .flt, .bbx, .trc, .pw]
  | .scnLimits .. => [.regs, .links, .sch, .ecc, .twb, .mgc, .flt, .bbx, .trc, .pw]
  | .scnCancel .. => [.regs, .links, .txns, .ecc, .scn, .twb, .mgc, .flt, .bbx, .trc, .pw]
  | .calRun .. => [.regs, .ports, .links, .ecc, .cal, .twb, .mgc, .flt, .bbx, .trc, .pw]
  | .calStatus .. => [.regs, .links, .ecc, .twb, .mgc, .flt, .bbx, .trc, .pw]
  | .calCfg .. => [.regs, .links, .ecc, .twb, .mgc, .flt, .bbx, .trc, .pw]
  | .thmRead .. => [.regs, .links, .ecc, .twb, .mgc, .flt, .bbx, .trc, .pw]
  | .thmSetWarn .. => [.regs, .links, .ecc, .thm, .twb, .mgc, .flt, .bbx, .trc, .pw]
  | .thmModel .. => [.regs, .links, .ecc, .twb, .mgc, .flt, .bbx, .trc, .pw]
  | .traceCfg .. => [.regs, .links, .ecc, .twb, .mgc, .flt, .bbx, .trc, .pw]
  | .traceRead .. => [.regs, .links, .ecc, .twb, .mgc, .flt, .bbx, .trc, .pw]
  | .vendorOpcode .. => [.free, .regs, .links, .ecc, .twb, .mgc, .flt, .bbx, .trc, .pw]
  | .badOpcode .. => [.regs, .links, .ecc, .twb, .mgc, .flt, .bbx, .trc, .pw]
  | .watchdogRestart => [.free, .regs, .arrays, .ports, .links, .txns, .sch, .slices, .engs, .ecc, .stk, .scn, .cal,
      .thm, .twb, .mgc, .flt, .bbx, .trc, .otp, .pw]
  | .admission .. => [.free, .regs, .links, .txns, .sch, .slices, .engs, .ecc, .scn, .twb, .mgc, .flt, .bbx, .trc]
  | .windowStart .. => [.free, .regs, .links, .txns, .sch, .slices, .engs, .ecc, .scn, .twb, .mgc, .flt, .bbx]
  | .poolRefill => [.sch]
  | .urgencyTick => [.regs, .engs]
  | .promotion .. => [.regs, .engs]
  | .commandChoice .. => [.free, .regs, .arrays, .engs, .trc]
  | .modelRecompute => [.regs, .sch, .twb, .mgc, .flt, .bbx]
  | .modelHoldExpiry .. => [.sch]
  | .housekeepingRound .. => [.free, .regs, .arrays, .ports, .links, .txns, .sch, .slices, .engs, .flush, .ecc, .stk,
      .scn, .cal, .thm, .twb, .mgc, .flt, .bbx, .cns, .otp, .pw]
  | .refDue .. => [.regs, .engs]
  | .refStart .. => [.regs, .engs, .refs, .flt, .bbx]
  | .refreshModeChange .. => [.regs, .flt, .bbx]
  | .refreshSlot .. => [.regs, .sch, .engs, .refs, .ecc, .stk, .cal, .twb, .mgc, .flt, .bbx]
  | .idleBoundary .. => [.regs, .engs]
  | .powerDownEntry .. => [.regs, .engs]
  | .fill .. => [.free, .regs, .arrays, .links, .txns, .slices, .engs, .ecc, .scn, .twb, .mgc, .flt, .bbx]
  | .missForward .. => [.free, .regs, .arrays, .links, .txns, .slices, .engs, .ecc, .twb, .mgc, .flt, .bbx]
  | .pendingOperation .. => [.free, .regs, .links, .txns, .slices, .engs, .ecc, .scn, .twb, .mgc, .flt, .bbx]
  | .tagFetch .. => [.free, .regs, .arrays, .slices, .engs, .ecc, .twb, .mgc, .flt, .bbx]
  | .mergeTimeout .. => [.free, .regs, .slices, .engs]
  | .mergeClose .. => [.free, .regs, .arrays, .slices, .engs, .ecc, .twb, .mgc, .flt, .bbx]
  | .atomExecute .. => [.free, .regs, .links, .txns, .slices, .engs, .ecc, .scn, .twb, .mgc, .flt, .bbx]
  | .writeBack .. => [.free, .regs, .slices, .engs, .ecc, .twb, .mgc, .flt, .bbx]
  | .sramScrub .. => [.free, .regs, .slices, .engs, .ecc, .twb, .mgc, .flt, .bbx]
  | .flush => [.free, .regs, .slices, .engs, .ecc, .twb, .mgc, .flt, .bbx]
  | .flushDone => [.free, .regs, .arrays, .links, .txns, .slices, .engs, .flush, .ecc, .twb, .mgc, .flt, .bbx]
  | .scanStart => [.free, .regs, .links, .txns, .sch, .slices, .engs, .ecc, .scn, .twb, .mgc, .flt, .bbx]
  | .stagingLine .. => [.free, .regs, .links, .txns, .slices, .engs, .ecc, .scn, .twb, .mgc, .flt, .bbx]
  | .scanComplete .. => [.regs, .links, .txns, .ecc, .scn, .flt, .bbx]
  | .timeLimit .. => [.regs, .links, .txns, .ecc, .scn, .flt, .bbx]
  | .bucketLeak => [.regs, .ecc]
  | .patrolScrubLine .. => [.free, .regs, .arrays, .links, .txns, .sch, .slices, .engs, .ecc, .twb, .mgc, .flt, .bbx]
  | .reef2Scrub .. => [.sch, .ecc]
  | .retentionSweep .. => [.free, .regs, .arrays, .links, .txns, .sch, .slices, .engs, .ecc, .twb, .mgc, .flt, .bbx]
  | .sweepDone => [.regs, .sch, .ecc, .flt, .bbx]
  | .fieldTestTick .. => [.regs, .engs, .stk]
  | .fieldTestRetest .. => [.regs, .engs, .stk]
  | .stkDsel .. => [.regs, .tap]
  | .stkDtap => [.tap]
  | .dtapIdcode .. => [.free, .tap]
  | .dtapSample .. => [.tap]
  | .dtapExtest .. => [.regs, .tap, .flt, .bbx]
  | .dtapIntest .. => [.regs, .tap, .flt, .bbx]
  | .dieBist .. => [.regs, .tap, .flt, .bbx]
  | .dtapBypass .. => [.tap]
  | .extest .. => [.tap]
  | .samplePreload .. => [.tap]
  | .clamp => [.tap]
  | .highz => [.tap]
  | .idcode => [.tap]
  | .bypass => [.tap]
  | .devStateRd => [.tap]
  | .cnsRead .. => [.regs, .tap]
  | .cnsResume .. => [.free, .regs, .arrays, .ports, .links, .txns, .sch, .slices, .engs, .ecc, .stk, .scn, .tap,
      .cal, .thm, .twb, .mgc, .flt, .bbx, .cns, .otp]
  | .bbxDump => [.tap]
  | .laneTrackWindow .. => [.free, .regs, .ports, .cal, .twb, .mgc, .flt, .bbx]
  | .calTrigger => [.cal]
  | .calHoldExpiry => [.cal]
  | .dieRun .. => [.free, .regs, .arrays, .links, .txns, .sch, .slices, .engs, .ecc, .cal, .twb, .mgc, .flt, .bbx]
  | .runDone => [.regs, .cal, .twb, .mgc, .flt, .bbx]
  | .fioTrimMeasure .. => [.regs, .cal, .twb, .mgc, .flt, .bbx]
  | .fioTrimStep => [.regs, .cal, .flt, .bbx]
  | .thmSample .. => [.free, .regs, .arrays, .ports, .links, .txns, .sch, .slices, .engs, .flush, .ecc, .stk, .scn,
      .cal, .thm, .twb, .mgc, .flt, .bbx, .otp, .pw]
  | .thermalClear .. => [.regs, .thm, .twb, .mgc, .flt, .bbx]
  | .restart => [.free, .regs, .ports, .links, .sch, .engs, .ecc, .thm, .flt, .bbx]
  | .aonThermalSample .. => [.thm]
  | .reef1Entry => [.regs, .mgc, .pw]
  | .reef2Entry => [.regs, .engs, .mgc, .pw]
  | .reefExit .. => [.free, .regs, .ports, .links, .sch, .engs, .ecc, .thm, .twb, .mgc, .flt, .bbx, .pw]
  | .entryUnwind => [.free, .regs, .arrays, .ports, .links, .txns, .slices, .engs, .flush, .ecc, .thm, .twb, .mgc,
      .flt, .bbx, .pw]
  | .pendingPowerRequest => [.regs, .twb, .mgc, .flt, .bbx, .pw]
  | .wakePin => [.pw]
  | .furlWakeTimer => [.pw]
  | .customerWakeTimer => [.pw]
  | .sleepAddressMatch => [.pw]
  | .furlExit .. => [.part, .free, .regs, .arrays, .ports, .links, .txns, .sch, .slices, .engs, .refs, .remap, .flush,
      .ecc, .stk, .scn, .cal, .thm, .clk, .twb, .mgc, .flt, .bbx, .trc, .otp, .pw, .inReset]
  | .wakeFillDone => [.free, .regs, .arrays, .links, .txns, .slices, .engs, .ecc, .twb, .mgc, .flt, .bbx, .pw]
  | .monitorWindow .. => [.free, .regs, .arrays, .ports, .links, .txns, .sch, .slices, .engs, .ecc, .scn, .cal, .clk,
      .twb, .mgc, .flt, .bbx, .otp, .pw]
  | .stabilityCountEnd .. => [.regs, .clk, .flt, .bbx]
  | .sourceRestart .. => [.clk]
  | .xbAbsent => [.regs, .flt, .bbx]
  | .pllUnlock .. => [.free, .regs, .ports, .links, .sch, .engs, .ecc, .thm, .clk, .twb, .mgc, .flt, .bbx]
  | .pllRelock .. => [.free, .regs, .ports, .links, .sch, .engs, .ecc, .thm, .clk]
  | .deadSource .. => [.regs, .twb, .mgc, .flt, .bbx]
  | .gateUngate .. => [.regs, .sch]
  | .gateRequest .. => [.regs, .sch]
  | .gateTakesEffect .. => [.regs, .sch]
  | .gatedAccess .. => [.regs, .flt, .bbx]
  | .xlateLo .. => [.free, .regs, .ports, .links, .sch, .flush, .ecc, .thm, .twb, .mgc, .flt, .bbx]
  | .probeLo .. => [.free, .regs, .ports, .links, .sch, .flush, .ecc, .thm, .twb, .mgc, .flt, .bbx]
  | .flushCtrlStart .. => [.regs, .flush]
  | .aonTimeLo => [.regs]
  | .imgWin .. => [.regs]
  | .twWriteFrame .. => [.regs, .twb, .mgc, .flt, .bbx, .pw]
  | .twReadFrame .. => [.regs, .twb, .pw]
  | .twTimeout .. => [.regs, .flt, .bbx]
  | .attentionPulse .. => [.regs, .twb, .flt, .bbx]
  | .pmXfer .. => [.regs, .flt, .bbx]
  | .pmbusHangRecovery .. => [.regs, .flt, .bbx]
  | .faultMessage .. => [.free, .regs, .arrays, .ports, .links, .txns, .sch, .slices, .engs, .ecc, .stk, .scn, .cal,
      .thm, .twb, .mgc, .flt, .bbx, .trc, .otp]
  | .shadowEnd .. => [.regs, .flt]
  | .fenceHoldExpiry .. => [.regs, .engs, .thm, .flt]
  | .fencePermanent .. => [.free, .regs, .arrays, .links, .txns, .slices, .engs, .ecc, .thm, .twb, .mgc, .flt, .bbx]
  | .incrementalCommit => [.regs, .flt, .bbx]
  | .freezeN => [.regs, .flt, .bbx, .cns]
  | .freezeEntry => [.free, .regs, .engs, .ecc, .thm, .twb, .mgc, .flt, .bbx, .cns, .otp]
  | .dataLost => [.regs, .arrays, .slices]
  | .drainTimeout => [.free, .regs, .arrays, .ports, .links, .txns, .slices, .engs, .flush, .ecc, .thm, .twb, .mgc,
      .flt, .bbx, .pw]
  | .progDone .. => [.regs, .links, .ecc, .twb, .mgc, .flt, .bbx, .otp]
  | .commitDone => [.regs, .twb, .mgc, .flt, .bbx]
  | .resetDone .. => [.regs, .engs, .thm, .flt]
  | .relayReset .. => [.free, .regs, .arrays, .links, .txns, .sch, .slices, .engs, .ecc, .stk, .cal, .thm, .twb, .mgc,
      .flt, .bbx]
  | .railsInRange .. => [.part, .time, .free, .regs, .arrays, .ports, .links, .txns, .sch, .slices, .engs, .refs,
      .remap, .flush, .ecc, .stk, .scn, .tap, .cal, .thm, .clk, .twb, .mgc, .flt, .bbx, .trc, .cns, .otp, .pw,
      .inReset]
  | .selfRefreshRef .. => [.engs]

end Sys2Proof.Machine
end

