-- ==== Sys2Proof/Certificates/Slice0/Obligations.lean ====
section
/-! DEFINITION. What is claimed of the part. -/

set_option linter.unusedVariables false

open Sys2Proof Sys2Proof.Machine Sys2Proof.Reg

/-- A step is `exec` of the command at the front of the queue, on the state with the queue's rest. On an empty queue time passes:
that is the model's choice (log entry 5). -/
def Obligations.StepRunsTheFrontCommand : Prop :=
  (∀ (c : Instr) (rest : List Instr) (s : State), s.pending = c :: rest → step s = exec c { s with pending := rest }) ∧
  (∀ s : State, s.pending = [] → step s = .next s.tick)

/-- From every state in canonical form a step leads to one in canonical form: 230 commands and the idle tick. -/
def Obligations.EveryStepKeepsTheForms : Prop :=
  ∀ s t : State, s.Forms → step s = .next t → t.Forms

/-- The invariant holds at reset; every register reads as its reset value. -/
def Obligations.ResetIsInCanonicalForm : Prop :=
  State.reset.Forms ∧ State.reset.mem = [] ∧ State.reset.pending = [] ∧ State.reset.now = 0 ∧
  ∀ a : Nat, State.reset.reg a = resetOf a

/-- The frame of every command: a piece that is not listed for it stays as it was. -/
def Obligations.OnlyListedPiecesChange : Prop :=
  ∀ (c : Instr) (s t : State), exec c s = .next t →
    t.pending = s.pending ∧ ∀ p : Piece, p ∉ mayChange c → p.Same s t

/-- A command outside the list stores nothing: every byte and every code word of every array reads as before. -/
def Obligations.StoredBytesStayOutsideTheStoringCommands : Prop :=
  ∀ (c : Instr) (s : State),
    (match c with
     | .porstN .. | .bootStepTimeout .. | .warmReset .. | .railDip .. | .evacCopyLine ..
     | .watchdogRestart .. | .commandChoice .. | .housekeepingRound .. | .fill .. | .missForward .. | .tagFetch ..
     | .mergeClose .. | .flushDone .. | .patrolScrubLine .. | .retentionSweep .. | .cnsResume ..
     | .dieRun .. | .thmSample .. | .entryUnwind .. | .furlExit .. | .wakeFillDone .. | .monitorWindow ..
     | .faultMessage .. | .fencePermanent .. | .dataLost .. | .drainTimeout .. | .relayReset .. | .railsInRange .. => False
     | _ => True) →
    ∃ t, exec c s = .next t ∧ (∀ k : Nat, t.mget k = s.mget k) ∧ ∀ array line : Nat, t.word array line = s.word array line

/-- The part never stops. -/
def Obligations.EveryCommandAnswersANextState : Prop :=
  ∀ (c : Instr) (s : State), ∃ t, exec c s = .next t

/-- What the reset of PORST_N leaves, before boot (Table 16.1). -/
def Obligations.ColdResetKeepsOnlyTheAlwaysOnPartAndTheStore : Prop :=
  ∀ s : State, s.Forms → s.otp.job = none →
    s.coldReset.mem = [] ∧ s.coldReset.ports = [] ∧ s.coldReset.links = [] ∧ s.coldReset.txns = [] ∧ s.coldReset.slices = [] ∧
    s.coldReset.engs = [] ∧ s.coldReset.scn = {} ∧ s.coldReset.flt = {} ∧ s.coldReset.mgc = {} ∧ s.coldReset.now = 0 ∧
    (∀ a : Nat, bits a 16 8 ≠ 0x78 → bits a 16 8 ≠ 0x91 → s.coldReset.reg a = resetOf a) ∧
    s.coldReset.aon = s.aon ∧ s.coldReset.bbx.nv = s.bbx.nv ∧ s.coldReset.otp.words = s.otp.words ∧
    s.coldReset.part = s.part ∧ s.coldReset.pending = s.pending

/-- The resets of Table 16.1. -/
def Obligations.ResetsRunBoot : Prop :=
  (∀ (lowNs : Nat) (obs : BootObs) (s : State), 1000 ≤ lowNs → s.inReset = false → s.pinsTaken = false →
    exec (.porstN lowNs obs) s = .next (s.bootCold obs) ∧
    (s.bootCold obs).now = 1000 * obs.bootUs ∧ (s.bootCold obs).aon = s.aon + 1000 * obs.bootUs) ∧
  (∀ (lowNs : Nat) (obs : BootObs) (s : State), lowNs < 1000 ∨ s.inReset = true ∨ s.pinsTaken = true →
    exec (.porstN lowNs obs) s = .next s) ∧
  (∀ (obs : BootObs) (s : State), s.inReset = true ∨ (s.devState = 0 ∧ s.fget DEV.BOOT_STEP = 1) → exec (.railsInRange obs) s = .next (s.bootCold obs)) ∧
  (∀ (rail mv lim : Nat) (s : State), railMin rail = some lim → mv < lim → ∃ t, exec (.railDip rail mv) s = .next t ∧
    t.inReset = true ∧ t.mem = [] ∧ t.txns = [] ∧ t.now = 0 ∧ t.bbx.nv = s.bbx.nv ∧ t.aon = (if rail = 5 then 0 else s.aon)) ∧
  (∀ (h : Halyard) (obs : BootObs) (s : State), s.takes 0x2F h (fixedLen 1) → arg h 0 = 0x5741524D → s.powerMoves = false →
    s.fuseBusy = false → ∃ u, u = (((s.begun 0x2F h).replyOk 0x2F h []).fullCommit).1 ∧
      exec (.warmReset h obs) s =
        .next ((State.warmReset { u with now := u.now + 100000, aon := u.aon + 100000 }).boot false obs)) ∧
  (∀ s : State, exec .trstN s = .next { s with tap := { s.tap with ir := 1, irOut := none, tdo := .word 32 s.idcode, dtap := [] } })

/-- The two ends of boot that commands name. -/
def Obligations.BootEndsInReadyOrInHold : Prop :=
  (∀ s : State, Regs.wf s.regs = true → s.fwRuns = true → s.devState = 0 → s.mayReport = true → ∃ t, exec .ready s = .next t ∧
    t.devState = 1 ∧ t.fget DEV.BOOT_STEP = 9 ∧ t.flag DEV.BOOT_READY = true) ∧
  (∀ s : State, Regs.wf s.regs = true → s.devState = 0 → s.inReset = false → ∃ t, exec .bootStepTimeout s = .next t ∧
    t.devState = 3 ∧ t.fget DEV.STATE_REASON = 0x0701 ∧ t.fget MGC.STATUS_FW_STATE = 0)

/-- What the five commands on CTRL and SLIP do in each port state, and what a gated block does with them. -/
def Obligations.PortRegisterCommandsComplete : Prop :=
  (∀ (p : Nat) (s : State), isPort p = true → s.live = true → s.gated (PRT.CTRL p) = false → s.portState p = 0 →
    exec (.portEnable p) s = .next (
      let u := s.setFlag (PRT.CTRL_EN p) true
      let u := (u.fset (PRT.STATE_DOWN_REASON p) 0).fset (PRT.STATE_ATTEMPT p) 0
      let u := u.setFlag (CLK.PLL_STAT_EN (2 + p / 2)) true
      let ref := u.fget (CLK.PLL_STAT_REF (2 + p / 2))
      let u := if 4 ≤ ref then u.setFlag (CLK.MON_STAT_ARMED (ref - 1)) true else u
      let u := u.setLink p { u.link p with fresh := true }
      (u.toPort p 1).startBringup p)) ∧
  (∀ (p : Nat) (s : State), isPort p = true → s.live = true → s.gated (PRT.CTRL p) = false → s.portState p ≠ 0 →
    exec (.portEnable p) s = .next (s.setFlag (PRT.CTRL_EN p) true)) ∧
  (∀ (p : Nat) (s : State), isPort p = true → s.live = true → s.gated (PRT.CTRL p) = false → s.portState p ≠ 0 →
    exec (.portDisable p) s = .next (
      let u := s.setFlag (PRT.CTRL_EN p) false
      let u := (u.toPort p 0).setPort p { lanes := (u.port p).lanes, mkrSeq := (u.port p).mkrSeq }
      let u := ((u.fset (PRT.STATE_TX_MASK p) 0).fset (PRT.STATE_RX_MASK p) 0).fset (LNK.PSTAT_LINK_STATE p) 0
      let u := u.setLink p { u.link p with fresh := true, protoRun := false }
      let off := fun (v : State) (m : Nat) => (((v.toLane p m 0).fset (PRT.LANE_STAT_SD p m) 0).fset (PRT.LANE_STAT_CDR_LOCK p
        m) 0).fset (PRT.LANE_STAT_AM_LOCK p m) 0
      let u := (List.range 4).foldl (fun v m => ((off v m).fset (PRT.LANE_STAT_DROPPED p m) 0).setLane p m
        { fir := ((off v m).lane p m).fir }) u
      (u.reroute p).settlePort p)) ∧
  (∀ (p : Nat) (s : State), isPort p = true → s.live = true → s.gated (PRT.CTRL p) = false → s.portState p = 0 →
    exec (.portDisable p) s = .next (s.setFlag (PRT.CTRL_EN p) false)) ∧
  (∀ (p : Nat) (s : State), isPort p = true → s.live = true → s.gated (PRT.CTRL p) = false → s.portState p ≠ 0 →
    s.portState p ≠ 9 → s.portState p ≠ 10 → exec (.prtCtrlRetrain p) s = .next (s.enterRetrain p 1)) ∧
  (∀ (p : Nat) (s : State), isPort p = true → s.live = true → s.gated (PRT.CTRL p) = false → s.portState p = 10 →
    exec (.prtCtrlRetrain p) s = .next ((s.fset (PRT.STATE_ATTEMPT p) 0).enterRetrain p 1)) ∧
  (∀ (p : Nat) (s : State), isPort p = true → s.live = true → s.gated (PRT.CTRL p) = false →
    (s.portState p = 0 ∨ s.portState p = 9) → exec (.prtCtrlRetrain p) s = .next (s)) ∧
  (∀ (p : Nat) (errs checked : List Nat) (s : State), isPort p = true → s.live = true → s.gated (PRT.CTRL p) = false →
    s.portState p = 5 → exec (.testEn p true errs checked) s = .next ((s.setFlag (PRT.CTRL_TEST_EN p) true).enterTest p)) ∧
  (∀ (p : Nat) (errs checked : List Nat) (s : State), isPort p = true → s.live = true → s.gated (PRT.CTRL p) = false →
    s.portState p = 9 → exec (.testEn p true errs checked) s = .next ((s.setFlag (PRT.CTRL_TEST_EN p) true).countPrbs p errs
    checked)) ∧
  (∀ (p : Nat) (errs checked : List Nat) (s : State), isPort p = true → s.live = true → s.gated (PRT.CTRL p) = false →
    s.portState p = 9 → exec (.testEn p false errs checked) s = .next (((((s.setFlag (PRT.CTRL_TEST_EN p) false).countPrbs p
    errs checked).toPort p 1).restartLanes p))) ∧
  (∀ (p : Nat) (on : Bool) (errs checked : List Nat) (s : State), isPort p = true → s.live = true →
    s.gated (PRT.CTRL p) = false → s.portState p ≠ 9 → (on = false ∨ s.portState p ≠ 5) →
    exec (.testEn p on errs checked) s = .next (s.setFlag (PRT.CTRL_TEST_EN p) on)) ∧
  (∀ (p lane count : Nat) (s : State), isPort p = true → s.live = true → s.gated (PRT.SLIP p) = false → count % 64 ≠ 0 →
    s.laneState p (lane % 4) = 5 → exec (.prtSlip p lane count) s = .next (s.slip p (lane % 4) (count % 64))) ∧
  (∀ (p lane count : Nat) (s : State), isPort p = true → s.live = true → s.gated (PRT.SLIP p) = false → count % 64 ≠ 0 →
    s.laneState p (lane % 4) ≠ 5 → exec (.prtSlip p lane count) s = .next (s.int (I.prt p) 7)) ∧
  (∀ (p lane count : Nat) (s : State), isPort p = true → s.live = true → s.gated (PRT.SLIP p) = false → count % 64 = 0 →
    exec (.prtSlip p lane count) s = .next (s)) ∧
  (∀ (p : Nat) (s : State), isPort p = true → s.live = true → s.gated (PRT.CTRL p) = true → exec (.portEnable p) s = .next
    (s.countGated (PRT.CTRL p) true)) ∧
  (∀ (p : Nat) (s : State), isPort p = true → s.live = true → s.gated (PRT.CTRL p) = true → exec (.portDisable p) s = .next
    (s.countGated (PRT.CTRL p) true)) ∧
  (∀ (p : Nat) (s : State), isPort p = true → s.live = true → s.gated (PRT.CTRL p) = true → exec (.prtCtrlRetrain p) s = .next
    (s.countGated (PRT.CTRL p) true)) ∧
  (∀ (p : Nat) (on : Bool) (errs checked : List Nat) (s : State), isPort p = true → s.live = true →
    s.gated (PRT.CTRL p) = true → exec (.testEn p on errs checked) s = .next (s.countGated (PRT.CTRL p) true)) ∧
  (∀ (p lane count : Nat) (s : State), isPort p = true → s.live = true → s.gated (PRT.SLIP p) = true →
    exec (.prtSlip p lane count) s = .next (s.countGated (PRT.SLIP p) true))

/-- Events on lanes and LPLLs: where they act and the state they lead to. -/
def Obligations.LaneEventsComplete : Prop :=
  (∀ (k lockUs : Nat) (s : State), k < 4 → s.live = true → s.flag (CLK.PLL_STAT_EN (2 + k)) = true →
    exec (.lpllLock k lockUs) s = .next (s.lpllLocked k lockUs)) ∧
  (∀ (p m : Nat) (s : State), isPort p = true → m < 4 → exec (.signalDetect p m) s = .next (s.signalDetect p m)) ∧
  (∀ (p m : Nat) (lost : Bool) (s : State), isPort p = true → m < 4 → s.live = true → s.laneState p m ≠ 0 →
    exec (.lossOfSignal p m lost) s = .next (s.signalLost p m lost)) ∧
  (∀ (p m : Nat) (s : State), isPort p = true → m < 4 → s.live = true → s.flag (PRT.LANE_STAT_SD p m) = true →
    exec (.cdrLock p m) s = .next (s.cdrLock p m)) ∧
  (∀ (p m : Nat) (s : State), isPort p = true → m < 4 → s.live = true → s.laneState p m = 2 →
    exec (.sdWaitExpiry p m) s = .next (((s.beginBringup p).loseLane p m).checkSignal p)) ∧
  (∀ (k : Nat) (s : State), k < 4 → s.live = true → s.flag (CLK.PLL_STAT_HOLDOVER (2 + k)) = true → s.othersUp k = true →
    exec (.lpllRereference k) s = .next (s.rereference k)) ∧
  (∀ (k : Nat) (s : State), k < 4 → s.live = true → s.flag (CLK.PLL_STAT_HOLDOVER (2 + k)) = true →
    s.flag CLK.STATUS_REFCLK0_VALID = false → s.flag CLK.STATUS_REFCLK1_VALID = false → exec (.holdoverExpiry k) s = .next ([2
    * k, 2 * k + 1].foldl (fun s p => if s.canRetrain p then s.portDown p 5 else s) s))

/-- Training, markers and the waits of bring-up: where they act and the state they lead to. -/
def Obligations.TrainingAndMarkerEventsComplete : Prop :=
  (∀ (p adapted : Nat) (s : State), isPort p = true → s.live = true → (s.port p).training = true →
    exec (.trainLenExpiry p adapted) s = .next (s.trainingEnds p adapted)) ∧
  (∀ (p adapted : Nat) (s : State), isPort p = true → s.live = true → exec (.bitSlipSearch p adapted) s = .next (s.searchTick p
    adapted)) ∧
  (∀ (p m : Nat) (marker : BitVec 128) (parity : BitVec 32) (skew pos : Nat) (s : State), isPort p = true → m < 4 →
    s.live = true → s.portState p ≠ 9 → s.laneState p m ∈ [5, 6, 7, 8, 9, 11] →
    exec (.alignmentMarker p m marker parity ⟨skew, pos⟩) s = .next (s.marker p m marker parity skew pos)) ∧
  (∀ (p : Nat) (s : State), isPort p = true → s.live = true → s.portState p = 3 → 8 ≤ (s.port p).reqMarkers.getD 0 →
    s.masksAgreed p = false → exec (.maskExchangeTimeout p) s = .next (s.failAttempt p 3 7)) ∧
  (∀ (p : Nat) (s : State), isPort p = true → s.live = true → s.sendsMarkers p = true → exec (.markerSend p) s = .next
    (s.sendMarker p)) ∧
  (∀ (p : Nat) (s : State), isPort p = true → s.live = true → 4 ≤ s.portState p → s.portState p ≤ 7 → (s.port p).dropMask ≠ 0 →
    8 ≤ (s.port p).reqMarkers.getD 0 → exec (.rxreqTmo p) s = .next ((s.fault (0x010 + 8 * p) 0x21 2 0).setPort p
    { s.port p with reqMarkers := some 0 })) ∧
  (∀ (p : Nat) (s : State), isPort p = true → s.live = true → s.portState p = 7 → (s.port p).aligner = true →
    exec (.parallelAlignerTimeout p) s = .next ((s.setPort p { s.port p with aligner := false }).enterRetrain p 4))

/-- The link layer: where its commands act and the state they lead to. -/
def Obligations.LinkCommandsComplete : Prop :=
  (∀ (p : Nat) (flit : List Nat) (s : State), isPort p = true → s.live = true → (s.portState p = 4 ∨ s.linkRuns p = true) →
    exec (.flitReceive p flit) s = .next (s.receiveFlit p flit)) ∧
  (∀ (p : Nat) (s : State), isPort p = true → s.live = true → s.portState p = 5 → s.fget (LNK.PSTAT_LINK_STATE p) = 3 →
    (s.port p).dropMask = 0 → exec (.nakResend p) s = .next ((s.bumpSat (LNK.NAK_NAK_TX p) 1).emit p (s.idleFlit p 7))) ∧
  (∀ (p : Nat) (s : State), isPort p = true → s.live = true → s.portState p = 5 → (s.link p).replay ≠ [] →
    (s.link p).suspend = 0 → exec (.replayTimer p) s = .next ((s.bumpSat (LNK.REPLAY_TMO_REPLAY p) 1).countReplay p)) ∧
  (∀ (p : Nat) (s : State), isPort p = true → s.live = true → s.portState p = 5 → exec (.creditReturn p) s = .next
    (s.returnCredit p)) ∧
  (∀ (p : Nat) (u : RxUnit) (s : State), isPort p = true → s.live = true → s.nextUnit p = some u →
    exec (.slotRelease p) s = .next (s.releaseUnit p u)) ∧
  (∀ (p : Nat) (s : State), isPort p = true → s.live = true → s.portState p = 4 → exec (.initTmo p) s = .next (s.failAttempt p
    5 0)) ∧
  (∀ (r : Req) (s : State), isPort r.port = true → s.live = true → r.pos = 0 → (s.link r.port).rx.find? RxUnit.isMgmt = none →
    s.queuedFrom r.port < 8 → exec (.mgmt r) s = .next (s.deliverMgmt r s.now)) ∧
  (∀ (r : Req) (u : RxUnit) (s : State), isPort r.port = true → s.live = true → r.pos = 0 →
    (s.link r.port).rx.find? RxUnit.isMgmt = some u → u.reqs.any (fun x => x.req = r) = true → s.mayLeave r.port u = true →
    exec (.mgmt r) s = .next (s.releaseUnit r.port u)) ∧
  (∀ (r : Req) (u : State) (t : Txn) (s : State), isPort r.port = true → s.live = true → r.pos ≠ 0 →
    s.entryOf { r with opcode := 0x68 } = some (u, t) → u.sidWrong { r with opcode := 0x68 } = false → exec (.mgmt r) s = .next
    (u.checkTxn t)) ∧
  (∀ (s : State), s.live = true → exec .evtSend s = .next (s.sendEvent))

/-- Requests that pass the checks. `passes` names the state with the entry and the entry. -/
def Obligations.RequestsThatPassTheChecksAreMapped : Prop :=
  (∀ (r : Req) (u : State) (t : Txn) (s : State), s.passes { r with opcode := 0x10 } u t → exec (.rd64 r) s = .next (
      let m := u.mapFenced { r with opcode := 0x10 }
      let t := { t with cls := u.classOf r.reqId, lines := m.2 }
      if m.2.any LineRes.isOpen then m.1.tryAdmit t else m.1.endTxn t (m.1.completion t))) ∧
  (∀ (r : Req) (u : State) (t : Txn) (s : State), s.passes { r with opcode := 0x11 } u t → exec (.rd128 r) s = .next (
      let m := u.mapFenced { r with opcode := 0x11 }
      let t := { t with cls := u.classOf r.reqId, lines := m.2 }
      if m.2.any LineRes.isOpen then m.1.tryAdmit t else m.1.endTxn t (m.1.completion t))) ∧
  (∀ (r : Req) (u : State) (t : Txn) (s : State), s.passes { r with opcode := 0x12 } u t → exec (.rd256 r) s = .next (
      let m := u.mapFenced { r with opcode := 0x12 }
      let t := { t with cls := u.classOf r.reqId, lines := m.2 }
      if m.2.any LineRes.isOpen then m.1.tryAdmit t else m.1.endTxn t (m.1.completion t))) ∧
  (∀ (r : Req) (u : State) (t : Txn) (s : State), s.passes { r with opcode := 0x28 } u t → exec (.wr64 r) s = .next (
      let m := u.mapFenced { r with opcode := 0x28 }
      let t := { t with cls := u.classOf r.reqId, lines := m.2 }
      if m.2.any LineRes.isOpen then m.1.tryAdmit t else m.1.endTxn t (m.1.completion t))) ∧
  (∀ (r : Req) (u : State) (t : Txn) (s : State), s.passes { r with opcode := 0x29 } u t → exec (.wrp r) s = .next (
      let m := u.mapFenced { r with opcode := 0x29 }
      let t := { t with cls := u.classOf r.reqId, lines := m.2 }
      if m.2.any LineRes.isOpen then m.1.tryAdmit t else m.1.endTxn t (m.1.completion t))) ∧
  (∀ (r : Req) (u : State) (t : Txn) (s : State), s.passes { r with opcode := 0x38 } u t → exec (.atom r) s = .next (
      let m := u.mapFenced { r with opcode := 0x38 }
      let t := { t with cls := u.classOf r.reqId, lines := m.2 }
      if m.2.any LineRes.isOpen then m.1.tryAdmit t else m.1.endTxn t (m.1.completion t)))

/-- The other requests: where they act and the state they lead to. -/
def Obligations.OtherRequestsComplete : Prop :=
  (∀ (r : Req) (u : State) (t : Txn) (s : State), s.passes { r with opcode := 0x40 } u t → exec (.scan r) s = .next (u.tryAdmit
    { t with cls := u.classOf r.reqId, lines := [] })) ∧
  (∀ (r : Req) (u : State) (t : Txn) (s : State), isPort r.port = true → s.live = true →
    s.entryOf { r with opcode := 0x50 } = some (u, t) → u.sidWrong { r with opcode := 0x50 } = false →
    exec (.fence r) s = .next (
      let t := { t with cls := u.classOf r.reqId, stage := 4 }
      u.setTxn { t with waits := u.fenceCovers t })) ∧
  (∀ (p reqId tag : Nat) (t : Txn) (s : State), s.live = true → (s.txns.find? (fun t => t.stage = 4 ∧ t.req.port = p ∧
    t.req.reqId = reqId ∧ t.req.tag = tag) = some t) → exec (.fenceComplete p reqId tag) s = .next (s.completeFence t)) ∧
  (∀ (r : Req) (u : State) (t : Txn) (s : State), isPort r.port = true → s.live = true → s.entryOf r = some (u, t) →
    u.sidWrong r = false → (r.opcode ∉ takenOps ∨ (r.pos ≠ 0 ∧ bitAt r.opcode 3 = true)) → exec (.unknownOpcode r) s = .next
    (u.checkTxn t)) ∧
  (∀ (r : Req) (u : State) (t : Txn) (s : State), isPort r.port = true → s.live = true → s.sidWrong r = true →
    s.entryOf r = some (u, t) → exec (.stackIdMismatch r) s = .next ((u.forget t).sidMismatch r (u.classOf r.reqId) t.arrival))

/-- The five queries of the device: the answer and what it takes with it. -/
def Obligations.DeviceQueriesAnswerOk : Prop :=
  (∀ (h : Halyard) (s : State), s.takes 0x00 h (fixedLen 0) → exec (.identify h) s = .next ((s.begun 0x00 h).replyOk 0x00 h
    ((s.begun 0x00 h).identity false))) ∧
  (∀ (h : Halyard) (s : State), s.takes 0x01 h (fixedLen 0) → exec (.devStatus h) s = .next ((s.begun 0x01 h).replyOk 0x01 h
    (s.begun 0x01 h).devWords)) ∧
  (∀ (h : Halyard) (s : State), s.takes 0x02 h (fixedLen 0) → exec (.readTelemetry h) s = .next ((s.begun 0x02 h).replyOk 0x02
    h ([s.fget THM.ROUND_COUNT] ++ (List.range 7).map (fun i => (s.thm.rails.getD i (0, 0)).1 % 65536 * 65536 +
    (s.thm.rails.getD i (0, 0)).2 % 65536) ++ [s.fget THM.POWER_PKG_MW * 65536] ++ s.perDie (fun d => toBits 16
    (s.thm.temps.getD d 0))))) ∧
  (∀ (h : Halyard) (s : State), s.takes 0x04 h (fixedLen 1) →
    (arg h 0 = 0xFFFF ∨ s.mgc.ops.any (fun o => o.id = arg h 0) = true) → exec (.pendingStatus h) s = .next (
      let said := fun (o : PendOp) => decide (arg h 0 = 0xFFFF) || decide (o.id = arg h 0)
      let b := s.begun 0x04 h
      let u : State := { b with mgc := { b.mgc with ops := s.mgc.ops.filter (fun o => !(said o && decide (o.state = 2))) } }
      u.replyOk 0x04 h (((s.mgc.ops.filter said).foldr insertOp []).flatMap PendOp.words))) ∧
  (∀ (h : Halyard) (s : State), s.takes 0x05 h (fixedLen 0) → exec (.evtRead h) s = .next (
      let b := s.begun 0x05 h
      let u : State :=
        { b with mgc := { b.mgc with twEvq := s.mgc.twEvq.drop 3, twLost := s.mgc.twLost && (s.mgc.twEvq.take 3).isEmpty } }
      u.respond 0x05 h St.ok 0 (s.mgc.twEvq.drop 3).length ((s.mgc.twEvq.take 3).mapIdx (fun (i : Nat) (e : Event) => e.words
        (decide (i = 0) && s.mgc.twLost))).flatten))

/-- Register access by packet. `rangeFault` and `listBad` give the index of a word that is refused. -/
def Obligations.RegisterPacketsAnswerOk : Prop :=
  (∀ (h : Halyard) (s : State), s.takes 0x10 h (fixedLen 2) → rangeFault h 57 = none → exec (.regRead h) s = .next (
      let r := (s.begun 0x10 h).readRegs ((List.range (countOf h)).map (fun k => arg h 0 + 4 * k))
      r.1.replyOk 0x10 h r.2)) ∧
  (∀ (h : Halyard) (obs : WriteObs) (s : State), s.takes 0x11 h regWriteLen → rangeFault h 56 = none →
    (List.range (countOf h)).any (fun k => owned (arg h 0 + 4 * k)) = false → exec (.regWrite h obs) s = .next ((((List.range
    (countOf h)).foldl (fun (u : State) k => u.writeReg (arg h 0 + 4 * k) (arg h (2 + k)) (nth obs.setNow k) obs.xfer) (s.begun
    0x11 h)).replyOk 0x11 h []))) ∧
  (∀ (h : Halyard) (obs : WriteObs) (r : RegRow) (s : State), s.takes 0x12 h (fixedLen 3) → arg h 0 < 2 ^ 24 →
    regRow (arg h 0) = some r → r.owned = false → exec (.regRmw h obs) s = .next (
      let x := (s.begun 0x12 h).readReg (arg h 0)
      let y := (x.1.writeReg (arg h 0) (rmwWord r x.2 (arg h 1) (arg h 2)) (nth obs.setNow 0) obs.xfer).readReg (arg h 0)
      y.1.replyOk 0x12 h [x.2, y.2])) ∧
  (∀ (h : Halyard) (s : State), s.takes 0x13 h readListLen → listBad h.payload = none → exec (.regReadList h) s = .next (
      let r := (s.begun 0x13 h).readRegs h.payload
      r.1.replyOk 0x13 h r.2))

/-- Register accesses with an effect of their own. -/
def Obligations.RegisterWritesComplete : Prop :=
  (∀ (addr : Nat) (value setNow : Word) (s : State), exec (.registerWrite addr value setNow) s = .next (s.writeReg addr
    value.toNat setNow.toNat {})) ∧
  (∀ (value : Word) (s : State), exec (.xlateLo value) s = .next (s.writeReg AMP.XLATE_LO value.toNat 0 {})) ∧
  (∀ (value : Word) (s : State), exec (.probeLo value) s = .next (s.writeReg LCH.PROBE_LO value.toNat 0 {})) ∧
  (∀ (s : State), exec .aonTimeLo s = .next (s.latchAon)) ∧
  (∀ (j : Nat) (s : State), j % 8 = 7 → exec (.imgWin j) s = .next (s.nextWin)) ∧
  (∀ (value : Word) (outcome : PmOutcome) (s : State), s.live = true → s.pwr ≤ 1 → exec (.pmXfer value outcome) s = .next
    (s.writePmXfer (value.toNat % 2 ^ 32) outcome))

/-- The power opcodes on their accepting path. -/
def Obligations.PowerPacketsComplete : Prop :=
  (∀ (h : Halyard) (s : State), s.takes 0x20 h (fixedLen 1) → arg h 0 ∈ [0, 3, 4] → s.tripped = false → s.devState = 1 →
    exec (.pwrSet h) s = .next ((s.begun 0x20 h).resolvePwr h (arg h 0))) ∧
  (∀ (h : Halyard) (s : State), s.takes 0x21 h (fixedLen 0) → exec (.pwrGet h) s = .next ((s.begun 0x21 h).replyOk 0x21 h
    [s.fget PWR.STATE_CUR * 2 ^ 28 + s.curTarget * 2 ^ 24 + (s.pw.slot.map (·.1)).getD 15 * 2 ^ 20 + s.fget PWR.STATE_STEP * 2
    ^ 8 + s.fget PWR.STATE_NEXT_ABORT, (match s.pw.entry with | some e => e.op.getD 0 | none => 0) * 65536 + (s.pw.slot.map
    (·.2)).getD 0, (s.reg PWR.LAST_RESULT).toNat])) ∧
  (∀ (h : Halyard) (s : State), s.takes 0x22 h (fixedLen 5) → s.badRetWord h.payload = none → arg h 4 < 2 →
    exec (.setRetention h) s = .next ((((s.begun 0x22 h).setRetMask (maskWords h.payload)).setFlag PWR.CTRL_WAKE_SCRUB (decide
    (arg h 4 = 1))).replyOk 0x22 h [])) ∧
  (∀ (h : Halyard) (s : State), s.takes 0x23 h (fixedLen 2) → arg h 0 < 2 ^ 16 → bits (arg h 0) 5 3 = 0 →
    bits (arg h 0) 0 5 ≠ 0 → (bitAt (arg h 0) 0 = true → bits (arg h 0) 8 8 ≠ 0) → (bitAt (arg h 0) 2 = true → arg h 1 ≠ 0) →
    exec (.setWake h) s = .next ((((s.begun 0x23 h).setReg PWR.WAKE_CFG (BitVec.ofNat 32 (arg h 0))).setReg PWR.FURL_TIMER
    (BitVec.ofNat 32 (arg h 1))).replyOk 0x23 h [])) ∧
  (∀ (h : Halyard) (s : State), s.takes 0x24 h (fixedLen 4) → s.absentWord h.payload = none → s.inSail = true →
    exec (.clearRetlost h) s = .next ((((s.maskPcs h.payload).foldl State.clearLost (s.begun 0x24 h)).startSweep).replyOk 0x24
    h []))

/-- Staging on its accepting path: what is staged, the dirty bit and the answer. -/
def Obligations.StagingPacketsComplete : Prop :=
  (∀ (h : Halyard) (s : State), s.takes 0x30 h (stageLen 4 14) → firstBad (entriesOf 4 h.payload) classBad = none →
    (s.stageOwned = true → s.ownsStage h = true) → s.mgc.commit = none → exec (.stageClass h) s = .next (
      let u := (s.begun 0x30 h).takeStage h
      let t := u.mgc.staged
      let v : State :=
        { u with mgc := { u.mgc with staged := { t with cls := (entriesOf 4 h.payload).foldl (fun (m : SMap (List Nat)) e => SMap.insert m (nth e 0) (e.drop 1)) t.cls } } }
      (v.fset MGC.COMMIT_STAGE_DIRTY (setBit (v.fget MGC.COMMIT_STAGE_DIRTY) 0 true)).replyOk 0x30 h [])) ∧
  (∀ (h : Halyard) (s : State), s.takes 0x31 h (stageLen 1 58) → firstBad (entriesOf 1 h.payload) reqmapBad = none →
    (s.stageOwned = true → s.ownsStage h = true) → s.mgc.commit = none → exec (.stageReqmap h) s = .next (
      let u := (s.begun 0x31 h).takeStage h
      let t := u.mgc.staged
      let v : State :=
        { u with mgc := { u.mgc with staged := { t with reqmap := h.payload.foldl (fun (m : SMap Nat) w => SMap.insert m (bits w 16 12) (bits w 0 6)) t.reqmap } } }
      (v.fset MGC.COMMIT_STAGE_DIRTY (setBit (v.fget MGC.COMMIT_STAGE_DIRTY) 1 true)).replyOk 0x31 h [])) ∧
  (∀ (h : Halyard) (s : State), s.takes 0x32 h (stageLen 1 1) → firstBad [h.payload] addrmapBad = none →
    (s.stageOwned = true → s.ownsStage h = true) → s.mgc.commit = none → exec (.stageAddrmap h) s = .next (
      let u := (s.begun 0x32 h).takeStage h
      let t := u.mgc.staged
      let v : State := { u with mgc := { u.mgc with staged := { t with addrmap := some (arg h 0) } } }
      (v.fset MGC.COMMIT_STAGE_DIRTY (setBit (v.fget MGC.COMMIT_STAGE_DIRTY) 2 true)).replyOk 0x32 h [])) ∧
  (∀ (h : Halyard) (s : State), s.takes 0x33 h (stageLen 3 19) → firstBad (entriesOf 3 h.payload) guardBad = none →
    (s.stageOwned = true → s.ownsStage h = true) → s.mgc.commit = none → exec (.stageGuard h) s = .next (
      let u := (s.begun 0x33 h).takeStage h
      let t := u.mgc.staged
      let v : State := { u with mgc := { u.mgc with staged := (entriesOf 3 h.payload).foldl Staged.putGuard t } }
      (v.fset MGC.COMMIT_STAGE_DIRTY (setBit (v.fget MGC.COMMIT_STAGE_DIRTY) 3 true)).replyOk 0x33 h [])) ∧
  (∀ (h : Halyard) (s : State), s.takes 0x34 h (stageLen 1 58) → firstBad (entriesOf 1 h.payload) evtcfgBad = none →
    (s.stageOwned = true → s.ownsStage h = true) → s.mgc.commit = none → exec (.stageEvtcfg h) s = .next (
      let u := (s.begun 0x34 h).takeStage h
      let t := u.mgc.staged
      let v : State := { u with mgc := { u.mgc with staged := h.payload.foldl Staged.putEvt t } }
      (v.fset MGC.COMMIT_STAGE_DIRTY (setBit (v.fget MGC.COMMIT_STAGE_DIRTY) 4 true)).replyOk 0x34 h []))

/-- The commit of staged configuration, its application, and the two ways to drop it. -/
def Obligations.CommitAndDiscardComplete : Prop :=
  (∀ (h : Halyard) (s : State), s.takes 0x38 h (fixedLen 1) → s.stageOwned = true → s.ownsStage h = true →
    bits (arg h 0) 0 5 ≠ 0 → bits (arg h 0) 0 5 &&& s.fget MGC.COMMIT_STAGE_DIRTY = bits (arg h 0) 0 5 → s.inSail = true →
    s.pw.entry = none → s.pw.slot = none → s.mgc.commit = none →
    (bitAt (bits (arg h 0) 0 5) 2 = true → s.fget MGC.QUIESCE_PORTS = 0xFF) → s.stagedFault (bits (arg h 0) 0 5) = none →
    exec (.commit h) s = .next ((s.begun 0x38 h).startCommit h (bits (arg h 0) 0 5))) ∧
  (∀ (c : CommitSt) (s : State), s.mclk = true → s.commitStep.mgc.commit = some c → s.commitStep.mclk = true →
    c.flushing = false → c.held = false → s.commitStep.stk.relay = none → exec .commitApplied s = .next
    (s.commitStep.applyCommit c)) ∧
  (∀ (h : Halyard) (s : State), s.takes 0x39 h (fixedLen 0) → s.stageOwned = true → s.ownsStage h = true →
    s.mgc.commit = none → exec (.discard h) s = .next (((s.begun 0x39 h).dropStaging).replyOk 0x39 h [])) ∧
  (∀ (s : State), s.mclk = true → s.stageOwned = true → s.mgc.commit = none → exec .stageTimeout s = .next (s.dropStaging.int
    I.mgc 2))

/-- Quiescing and the two table queries. -/
def Obligations.QuiesceCommandsComplete : Prop :=
  (∀ (h : Halyard) (s : State), s.takes 0x3A h (fixedLen 1) → s.inSail = true → exec (.quiesce h) s = .next (
      let u := (s.begun 0x3A h).fset MGC.QUIESCE_PORTS (s.fget MGC.QUIESCE_PORTS ||| bits (arg h 0) 0 8)
      State.quiesceDone
        { u with mgc := { u.mgc with paused := s.mgc.paused || decide (bits (arg h 0) 0 8 = 0xFF), quiesce := s.mgc.quiesce ++ [⟨bits (arg h 0) 0 8, h⟩] } })) ∧
  (∀ (s : State), s.mclk = true → exec .quiesceDrained s = .next (s.quiesceDone)) ∧
  (∀ (q : QuiesceSt) (rest : List QuiesceSt) (s : State), s.mclk = true → s.mgc.quiesce = q :: rest →
    exec .quiesceTimeout s = .next (State.replySt { s with mgc := { s.mgc with quiesce := rest } } 0x3A q.pkt St.timeout)) ∧
  (∀ (h : Halyard) (s : State), s.takes 0x3B h (fixedLen 1) → s.mapCommits = false → exec (.unquiesce h) s = .next (
      let u := (s.begun 0x3B h).fset MGC.QUIESCE_PORTS (s.fget MGC.QUIESCE_PORTS - (s.fget MGC.QUIESCE_PORTS &&& bits (arg h 0)
        0 8))
      let v : State := { u with mgc := { u.mgc with paused := false } }
      v.replyOk 0x3B h [])) ∧
  (∀ (h : Halyard) (s : State), s.mapCommits = true → exec (.unquiesce h) s = .next (s.holdPacket ⟨0x3B, h⟩)) ∧
  (∀ (h : Halyard) (s : State), s.takes 0x3C h (fixedLen 0) → exec (.readModel h) s = .next (
      let u := (s.begun 0x3C h).modelRegs
      let r := fun (a : Nat) => (u.reg a).toNat
      let dem := [r SCH.DEM_LINK, r SCH.DEM_ACT, r SCH.DEM_BURST]
      let d := fullDemand (u.clsStaged 1)
      u.replyOk 0x3C h ([r SCH.MODEL_LINK, r SCH.MODEL_ACT, r SCH.MODEL_BURST] ++ dem ++ [u.derate, r SCH.GOV_CEIL] ++ (if
        u.fget MGC.COMMIT_STAGE_DIRTY = 0 then dem else [d.link.floor, d.act.floor, d.burst.floor])))) ∧
  (∀ (h : Halyard) (s : State), s.takes 0x3D h (fixedLen 2) → bits (arg h 0) 24 8 ≤ 4 → bits (arg h 0) 16 8 = 0 →
    bits (arg h 0) 0 16 < (areaSize (bits (arg h 0) 24 8)).1 → 0 < arg h 1 → arg h 1 ≤ 57 →
    arg h 1 % (areaSize (bits (arg h 0) 24 8)).2 = 0 → bits (arg h 0) 0 16 + arg h 1 / (areaSize (bits (arg h 0) 24 8)).2 ≤
    (areaSize (bits (arg h 0) 24 8)).1 → exec (.tableRead h) s = .next ((s.begun 0x3D h).replyOk 0x3D h ((List.range (arg h 1 /
    (areaSize (bits (arg h 0) 24 8)).2)).flatMap (fun i => (s.begun 0x3D h).tableEntry (bits (arg h 0) 24 8) (bits (arg h 0) 0
    16 + i)))))

/-- Tests of the arrays: accepted packets and the events of a running test. -/
def Obligations.TestPacketsComplete : Prop :=
  (∀ (h : Halyard) (s : State), s.takes 0x40 h (fixedLen 1) → s.engExists (bits (arg h 0) 0 8) = true →
    bits (arg h 0) 8 2 < 2 → bits (arg h 0) 10 22 = 0 → s.inSail = true → s.bistAllowed (bits (arg h 0) 0 8) = true →
    s.stk.bist = none → s.opRoom = true → exec (.bistRun h) s = .next (
      let a := (s.begun 0x40 h).accepted 0x40 h 1 (bits (arg h 0) 0 8)
      State.setFlag { a.1 with stk := { a.1.stk with bist := some (bits (arg h 0) 0 8, bits (arg h 0) 8 2, a.2) } }
        STK.STATUS_BIST_BUSY true)) ∧
  (∀ (m set id : Nat) (fails : List (Nat × Nat)) (s : State), s.live = true → s.stk.bist = some (m, set, id) →
    exec (.bistDone fails) s = .next (s.bistDone m set id (if set = 0 then quickFails fails else fails))) ∧
  (∀ (h : Halyard) (s : State), s.takes 0x41 h (fixedLen 1) → s.engExists (bits (arg h 0) 0 8) = true →
    exec (.bistResult h) s = .next (
      let t := SMap.get ⟨0xFF, 0, []⟩ s.stk.last (bits (arg h 0) 0 8)
      (s.begun 0x41 h).replyOk 0x41 h ((t.set * 2 ^ 24 + t.recs.length * 2 ^ 16 + min 0xFFFF t.words) :: t.recs.flatMap (fun r
        => [r.1, r.2])))) ∧
  (∀ (h : Halyard) (errs : List (Nat × Nat)) (s : State), s.takes 0x45 h (fixedLen 1) →
    s.engExists (bits (arg h 0) 0 8) = true → s.inSail = true → s.ftSkips (bits (arg h 0) 0 8) = false →
    s.testing (bits (arg h 0) 0 8) = false → s.opRoom = true → exec (.fieldTest h errs) s = .next (
      let a := (s.begun 0x45 h).accepted 0x45 h 1 (bits (arg h 0) 0 8)
      a.1.beginTest (bits (arg h 0) 0 8) (some a.2) errs)) ∧
  (∀ (errs : List (Nat × Nat)) (s : State), s.ready = true → s.flag STK.CTRL_FT_EN = true → s.frozen = false →
    s.tripped = false → exec (.fieldTestTick errs) s = .next (s.fieldTick errs)) ∧
  (∀ (m : Nat) (t : FieldTest) (errs : List (Nat × Nat)) (s : State), s.stk.tests.find? (fun t => t.mast = m) = some t →
    s.testable m = true → exec (.fieldTestRetest m errs) s = .next (s.retest t errs))

/-- Row sparing and evacuation on their acting paths. -/
def Obligations.RepairCommandsComplete : Prop :=
  (∀ (h : Halyard) (s : State), s.takes 0x42 h (fixedLen 1) → rowReserved (arg h 0) = false → (rowArg (arg h 0)).pc < s.pcs →
    s.inSail = true → s.fenced (rowArg (arg h 0)).pc = false → s.evacRuns (rowArg (arg h 0)).pc = false →
    s.spareRoom (rowArg (arg h 0)).loc = true → s.ecc.spares.any (fun x => x.pc = (rowArg (arg h 0)).pc) = false →
    s.opRoom = true → exec (.rowSpare h) s = .next (
      let a := (s.begun 0x42 h).accepted 0x42 h 1 0
      { a.1 with ecc := { a.1.ecc with spares := a.1.ecc.spares ++ [{ rowArg (arg h 0) with op := some a.2, since := a.1.now }] } })) ∧
  (∀ (j : SpareJob) (errs : List (Nat × List (Nat × Nat))) (s : State), s.nextSpare = some j → s.live = true →
    exec (.softRowSpare errs) s = .next (s.lockSpare j errs)) ∧
  (∀ (h : Halyard) (s : State), s.takes 0x43 h (fixedLen 1) → rowReserved (arg h 0) = false → (rowArg (arg h 0)).pc < s.pcs →
    s.ecc.soft.contains ((engArray (s.engineOf (rowArg (arg h 0)).pc) * 64 + ((rowArg (arg h 0)).bg * 16 + (rowArg (arg h
    0)).bank)) * 8192 + (rowArg (arg h 0)).row) = true → s.lockSet 5 = false → s.flag OTP.CTRL_PROG_EN = true →
    s.freeEntry ≠ none → s.fuseState = true → s.opRoom = true → exec (.rowSpareHard h) s = .next (
      let j := rowArg (arg h 0)
      let a := (s.begun 0x43 h).accepted 0x43 h 0 0
      State.hardenNext
        { a.1 with otp := { a.1.otp with wait := a.1.otp.wait ++ [(rowEntry (s.engineOf j.pc) j.bg j.bank j.row, a.2)] } })) ∧
  (∀ (h : Halyard) (s : State), s.takes 0x44 h (fixedLen 1) → bits (arg h 0) 0 7 < s.pcs → s.inSail = true →
    s.fenced (bits (arg h 0) 0 7) = false → s.onSpare (bits (arg h 0) 0 7) = false →
    s.fget (ECC.SPARE_STAT_STATE (pcDie (bits (arg h 0) 0 7))) ≠ 4 → (s.fget (ECC.SPARE_STAT_STATE (pcDie (bits (arg h 0) 0
    7))) = 3 → s.fget (ECC.SPARE_STAT_INDEX (pcDie (bits (arg h 0) 0 7))) = bits (arg h 0) 0 7) → (s.ecc.evacQ.any (fun j =>
    pcDie j = pcDie (bits (arg h 0) 0 7) ∧ j ≠ bits (arg h 0) 0 7) = false) → s.ecc.evac = none → s.opRoom = true →
    exec (.evacuate h) s = .next (
      let a := (s.begun 0x44 h).accepted 0x44 h 1 (bits (arg h 0) 0 7)
      State.beginEvac { a.1 with ecc := { a.1.ecc with evacQ := a.1.ecc.evacQ.filter (· ≠ bits (arg h 0) 0 7) } } (bits (arg h
        0) 0 7) (some a.2))) ∧
  (∀ (e : Evac) (fails : List (Nat × Nat)) (s : State), s.live = true → s.inSail = true → s.ecc.evac = some e →
    e.copying = false → exec (.evacStart fails) s = .next (s.evacTested e (quickFails fails))) ∧
  (∀ (fails : List (Nat × Nat)) (s : State), s.live = true → s.inSail = true → s.ecc.evac = none →
    exec (.evacStart fails) s = .next (s.nextEvac)) ∧
  (∀ (errs : List (Nat × Nat)) (s : State), s.live = true → s.pwr ≤ 1 → exec (.evacCopyLine errs) s = .next (s.copyStep errs)) ∧
  (∀ (e : Evac) (s : State), s.ecc.evac = some e → s.live = true → s.lineFree e.pc = true →
    s.refreshed (s.engineOf e.pc) = true → s.evacReady (s.engineOf e.pc) = true → exec .evacDone s = .next
    ((match s.slotStep (s.engineOf e.pc) with | (u, false) => u | (u, true) => u.evacSwitch e)))

/-- Scrubbing, sweeping and the error buckets. -/
def Obligations.ScrubCommandsComplete : Prop :=
  (∀ (h : Halyard) (s : State), s.takes 0x46 h injLen → s.injBad h.payload = none → s.inSail = true →
    exec (.errInject h) s = .next (((s.begun 0x46 h).armInj h.payload).replyOk 0x46 h [])) ∧
  (∀ (h : Halyard) (s : State), s.takes 0x47 h (fixedLen 1) → bits (arg h 0) 16 15 = 0 → 1 ≤ bits (arg h 0) 0 16 →
    bits (arg h 0) 0 16 ≤ 720 → exec (.scrubCfg h) s = .next (((((s.begun 0x47 h).fset ECC.SCRUB_CFG_PERIOD_H (bits (arg h 0) 0
    16)).setFlag ECC.SCRUB_CFG_REEF2 (bitAt (arg h 0) 31)).setC60).replyOk 0x47 h [])) ∧
  (∀ (h : Halyard) (s : State), s.takes 0x48 h (fixedLen 4) → s.badScrubWord h.payload = none → s.ecc.fast = none →
    s.ecc.sweep = none → (s.begun 0x48 h).admits (s.begun 0x48 h).fastView = true → s.opRoom = true →
    exec (.fastScrub h) s = .next (
      let a := (s.begun 0x48 h).accepted 0x48 h 1 0
      State.setC60 { a.1 with ecc := { a.1.ecc with fast := some ⟨maskWords h.payload, 0, some a.2, 0, []⟩ } })) ∧
  (∀ (f : FastScrub) (s : State), s.ecc.fast = some f → s.live = true → s.lowestPc f.mask = none → f.again = [] →
    s.reading .fast = false → exec .fastScrubDone s = .next (s.fastEnd f)) ∧
  (∀ (errs : List (Nat × Nat)) (s : State), s.live = true → exec (.patrolScrubLine errs) s = .next (s.scrubStep errs)) ∧
  (∀ (errs : List (Nat × List (Nat × Nat))) (s : State), s.live = true → s.pwr = 2 → s.flag ECC.SCRUB_CFG_REEF2 = true →
    s.ecc.sweep = none → s.ecc.fast = none → exec (.reef2Scrub errs) s = .next (s.reef2Scrub errs)) ∧
  (∀ (errs : List (Nat × Nat)) (s : State), s.live = true → s.pwr ≤ 1 → exec (.retentionSweep errs) s = .next (s.sweepStep
    errs)) ∧
  (∀ (v : Sweep) (s : State), s.ecc.sweep = some v → s.live = true → pcLines ≤ v.next → v.again = [] →
    s.reading .sweep = false → exec .sweepDone s = .next (s.sweepEnd v)) ∧
  (∀ (s : State), s.live = true → exec .bucketLeak s = .next (
      let young := fun (u : State) (k : Nat) => (SMap.get [] u.ecc.ovf k).filter (fun t => u.now < t + 86400000000000)
      let kept := fun (u : State) (k : Nat) => ({ u with ecc := { u.ecc with ovf := SMap.set [] u.ecc.ovf k (young u k) } } :
        State).fset (ECC.PC_BUCKET_OVF_24H k) (min 255 (young u k).length)
      (List.range s.pcs).foldl (fun u k => (kept u k).fset (ECC.PC_BUCKET_LEVEL k) ((kept u k).fget (ECC.PC_BUCKET_LEVEL k) -
        1)) s))

/-- The fuse commands on their accepting path. -/
def Obligations.FuseCommandsComplete : Prop :=
  (∀ (h : Halyard) (s : State), s.takes 0x50 h (fixedLen 2) → bits (arg h 0) 10 6 = 0 → bits (arg h 0) 18 14 = 0 →
    1 ≤ arg h 1 → arg h 1 ≤ 56 → bits (arg h 0) 0 10 + arg h 1 ≤ 0x400 → s.fuseBusy = false → exec (.otpRead h) s = .next
    ((s.begun 0x50 h).replyOk 0x50 h ((List.range (arg h 1)).map (fun i => if bits (arg h 0) 16 2 = 3 then s.inUse (bits (arg h
    0) 0 10 + i) else s.fuseAt (bits (arg h 0) 16 2) (bits (arg h 0) 0 10 + i))))) ∧
  (∀ (h : Halyard) (s : State), s.takes 0x51 h (fixedLen 2) → arg h 0 < 0x400 → arg h 1 ≠ 0 →
    lessBits (s.fuseAt 0 (arg h 0)) (arg h 1) = 0 → s.mayProgram (arg h 0) = true → s.flag OTP.CTRL_PROG_EN = true →
    s.fuseState = true → s.fuseBusy = false → s.opRoom = true → exec (.otpProgram h) s = .next (
      let a := (s.begun 0x51 h).accepted 0x51 h 1 (arg h 0)
      a.1.startFuse ⟨arg h 0, arg h 1, 1, some a.2, none⟩)) ∧
  (∀ (h : Halyard) (s : State), s.takes 0x52 h (fixedLen 1) → arg h 0 < 0x400 → s.inUse (arg h 0) ≠ 0 →
    s.flag OTP.CTRL_PROG_EN = true → s.fuseState = true → s.fuseBusy = false → s.opRoom = true →
    exec (.otpReblow h) s = .next (
      let a := (s.begun 0x52 h).accepted 0x52 h 1 (arg h 0)
      a.1.startFuse ⟨arg h 0, a.1.inUse (arg h 0), 2, some a.2, none⟩)) ∧
  (∀ (h : Halyard) (s : State), s.takes 0x53 h (fixedLen 1) → arg h 0 < 7 → (arg h 0 = 5 ∨ arg h 0 = 6 ∨ s.otp.vtm = true) →
    s.flag OTP.CTRL_PROG_EN = true → s.lockSet (arg h 0) = false → s.lockable (arg h 0) = true → s.fuseState = true →
    s.fuseBusy = false → exec (.otpLock h) s = .next ((s.begun 0x53 h).startFuse ⟨0x010, 7 * 2 ^ (3 * arg h 0), 3, none, some
    h⟩)) ∧
  (∀ (h : Halyard) (s : State), s.takes 0x54 h (fixedLen 0) → s.fuseBusy = false → exec (.otpMargin h) s = .next ((s.begun 0x54
    h).replyOk 0x54 h (s.fget OTP.MARG_CNT_COUNT :: ((List.range 16).filter (fun k => s.flag (OTP.MARG_LIST_VALID k))).map (fun
    k => (s.reg (OTP.MARG_LIST k)).toNat)))) ∧
  (∀ (j : FuseJob) (pulses : List FuseWord) (s : State), s.otp.job = some j → s.frozen = false → s.pwr ≤ 2 → s.devState ≤ 1 →
    exec (.progDone pulses) s = .next ((s.fuseDone j pulses).hardenNext)) ∧
  (∀ (pulses : List FuseWord) (s : State), s.otp.job = none → exec (.progDone pulses) s = .next (s.hardenNext))

/-- Fault handling, black box and freeze by packet. -/
def Obligations.FaultPacketsComplete : Prop :=
  (∀ (h : Halyard) (s : State), s.takes 0x60 h (fixedLen 1) → 1 ≤ bits (arg h 0) 0 5 → bits (arg h 0) 0 5 ≤ 18 →
    exec (.fltRead h) s = .next ((s.begun 0x60 h).replyOk 0x60 h ((s.faultWords (bits (arg h 0) 0 5)).length :: (s.faultWords
    (bits (arg h 0) 0 5)).flatMap id))) ∧
  (∀ (h : Halyard) (s : State), s.takes 0x61 h (fixedLen 2) → bits (arg h 0) 16 15 = 0 →
    s.sourceExists (msgOf (arg h 0 % 2 ^ 16 * 2 ^ 32 + arg h 1)).source = true →
    (msgOf (arg h 0 % 2 ^ 16 * 2 ^ 32 + arg h 1)).kind ≠ 0x1F → s.inSail = true → exec (.fltInject h) s = .next (((s.begun 0x61
    h).post { msgOf (arg h 0 % 2 ^ 16 * 2 ^ 32 + arg h 1) with injected := true, noReact := bitAt (arg h 0) 31 }).replyOk 0x61
    h [])) ∧
  (∀ (h : Halyard) (s : State), s.takes 0x65 h tableLen → bits (arg h 0) 26 5 = 0 → bits (arg h 0) 6 10 = 0 →
    1 ≤ bits (arg h 0) 0 6 → bits (arg h 0) 0 6 ≤ 28 → bits (arg h 0) 16 10 + bits (arg h 0) 0 6 ≤ 0x400 →
    bitAt (arg h 0) 31 = false → exec (.fltTable h) s = .next ((s.begun 0x65 h).replyOk 0x65 h ((List.range (bits (arg h 0) 0
    6)).flatMap (fun i => [((s.begun 0x65 h).clsEntry (bits (arg h 0) 16 10 + i)).cfg, ((s.begun 0x65 h).clsEntry (bits (arg h
    0) 16 10 + i)).stateWord s.now])))) ∧
  (∀ (h : Halyard) (s : State), s.takes 0x65 h tableLen → bits (arg h 0) 26 5 = 0 → bits (arg h 0) 6 10 = 0 →
    1 ≤ bits (arg h 0) 0 6 → bits (arg h 0) 0 6 ≤ 28 → bits (arg h 0) 16 10 + bits (arg h 0) 0 6 ≤ 0x400 →
    bitAt (arg h 0) 31 = true → badTable (bits (arg h 0) 16 10) h.payload.tail = none → exec (.fltTable h) s = .next (((s.begun
    0x65 h).writeTable (bits (arg h 0) 16 10) h.payload.tail).replyOk 0x65 h [])) ∧
  (∀ (h : Halyard) (s : State), s.takes 0x66 h (fixedLen 1) → exec (.alertClear h) s = .next (
      let u := if bitAt (arg h 0) 1 then (s.begun 0x66 h).alert 1 false else s.begun 0x66 h
      let u := if bitAt (arg h 0) 2 then u.alert 2 false else u
      u.replyOk 0x66 h [])) ∧
  (∀ (h : Halyard) (s : State), s.takes 0x62 h (fixedLen 2) → bits (arg h 0) 30 2 ≠ 3 → bits (arg h 1) 0 2 ≠ 0 →
    (bits (arg h 0) 30 2 = 0 → s.bbx.ringLost = false) →
    (s.begun 0x62 h).bbxSelect (bits (arg h 0) 30 2) (bits (arg h 0) 0 24) (bits (arg h 1) 0 2) ≠ [] →
    exec (.bbxRead h) s = .next (
      let recs := (s.begun 0x62 h).bbxSelect (bits (arg h 0) 30 2) (bits (arg h 0) 0 24) (bits (arg h 1) 0 2)
      (s.begun 0x62 h).replyOk 0x62 h ((recs.length * 2 ^ 24 + bits (arg h 0) 0 24) :: recs.flatMap wordsOf))) ∧
  (∀ (h : Halyard) (s : State), s.takes 0x63 h (fixedLen 0) → s.bbx.commit = none → s.opRoom = true →
    exec (.bbxCommit h) s = .next (
      let a := (s.begun 0x63 h).accepted 0x63 h 1 0
      State.setFlag { a.1 with bbx := { a.1.bbx with commit := some a.2 } } BBX.STATUS_COMMIT_BUSY true)) ∧
  (∀ (h : Halyard) (s : State), s.takes 0x64 h (fixedLen 1) → exec (.freeze h) s = .next (
      let u := ((s.begun 0x64 h).setFlag CNS.CTRL_KEEP_REFRESH (bitAt (arg h 0) 0)).replyOk 0x64 h []
      { u with cns := { u.cns with pending := true } }))

/-- The scan opcodes on their accepting path. -/
def Obligations.ScanPacketsComplete : Prop :=
  (∀ (h : Halyard) (i : Nat) (s : State), s.takes 0x70 h (fixedLen 2) → resBad (arg h 0) (arg h 1) = none →
    (s.begun 0x70 h).freeRes = some i → (s.begun 0x70 h).resTaken (bits (arg h 0) 0 16) = false →
    (s.begun 0x70 h).resOf (bits (arg h 0) 16 6) = none → (s.begun 0x70 h).admits ((s.begun 0x70 h).resView (arg h 1)) = true →
    exec (.scnReserve h) s = .next (((s.begun 0x70 h).reserve i (bits (arg h 0) 16 6) (bits (arg h 0) 0 16) (arg h 1)).replyOk
    0x70 h [i])) ∧
  (∀ (h : Halyard) (i : Nat) (s : State), s.takes 0x71 h (fixedLen 1) → (List.range 4).find? (fun i => s.flag
    (SCN.RES_ENG_VALID i) && decide (s.fget (SCN.RES_ENG_ENG i) = arg h 0)) = some i → exec (.scnRelease h) s = .next
    (((s.begun 0x71 h).releaseRes i).replyOk 0x71 h [])) ∧
  (∀ (h : Halyard) (s : State), s.takes 0x72 h (fixedLen 2) → 1 ≤ arg h 0 → arg h 0 ≤ 20313 → 1 ≤ arg h 1 → arg h 1 ≤ 16 →
    exec (.scnLimits h) s = .next (((((s.begun 0x72 h).fset SCN.LIMITS_CAP (arg h 0)).fset SCN.LIMITS_MAX_ENG (arg h
    1)).setC62).replyOk 0x72 h [])) ∧
  (∀ (h : Halyard) (t : Txn) (s : State), s.takes 0x73 h (fixedLen 1) →
    (s.begun 0x73 h).scanOf (bits (arg h 0) 16 12) (bits (arg h 0) 0 12) = some t → exec (.scnCancel h) s = .next (((s.begun
    0x73 h).abortScan t 1).replyOk 0x73 h []))

/-- Calibration, thermal, trace and vendor opcodes. The status of a vendor opcode is a free value, whatever it is. -/
def Obligations.CareAndTracePacketsComplete : Prop :=
  (∀ (h : Halyard) (s : State), s.takes 0x80 h (fixedLen 1) → s.badTarget (arg h 0) = false → s.inSail = true →
    bits (arg h 0) 28 4 ≠ 1 → (bits (arg h 0) 28 4 = 2 → s.flag CLK.STATUS_XA_VALID = true) →
    (s.calTargets (arg h 0)).any (fun t => s.calQueued t.1 t.2) = false → s.opRoom = true → exec (.calRun h) s = .next (
      let a := (s.begun 0x80 h).accepted 0x80 h 0 (arg h 0)
      (s.calTargets (arg h 0)).foldl (fun (u : State) t => u.calAdd ⟨t.1, t.2, 2, some a.2⟩) a.1)) ∧
  (∀ (h : Halyard) (s : State), s.takes 0x80 h (fixedLen 1) → s.badTarget (arg h 0) = false → s.inSail = true →
    bits (arg h 0) 28 4 = 1 → s.portState (bits (arg h 0) 0 3) = 5 →
    (s.calTargets (arg h 0)).any (fun t => s.calQueued t.1 t.2) = false → s.opRoom = true → exec (.calRun h) s = .next (
      let a := (s.begun 0x80 h).accepted 0x80 h 1 (arg h 0)
      State.newWindow { a.1 with cal := { a.1.cal with windows := SMap.insert a.1.cal.windows (bits (arg h 0) 0 3) a.2 } }
        (bits (arg h 0) 0 3))) ∧
  (∀ (h : Halyard) (s : State), s.takes 0x81 h (fixedLen 1) → s.badTarget (arg h 0) = false → bits (arg h 0) 28 4 ≠ 3 →
    exec (.calStatus h) s = .next ((s.begun 0x81 h).replyOk 0x81 h ((if bits (arg h 0) 28 4 = 0 then [CAL.DIE_CAL (bits (arg h
    0) 0 3 + 1), CAL.DIE_TIME (bits (arg h 0) 0 3 + 1), CAL.DIE_TEMP (bits (arg h 0) 0 3 + 1)] else if bits (arg h 0) 28 4 = 1
    then [CAL.LANE_CAL (bits (arg h 0) 0 3)] else [CAL.FIO_STAT, CAL.FIO_TIME]).map (fun a => (s.reg a).toNat)))) ∧
  (∀ (h : Halyard) (s : State), s.takes 0x82 h (fixedLen 1) → 2 ≤ bits (arg h 0) 24 8 → bits (arg h 0) 24 8 ≤ 30 →
    100 ≤ bits (arg h 0) 8 16 → exec (.calCfg h) s = .next (((s.begun 0x82 h).setReg CAL.TRIG_CFG (BitVec.ofNat 32 (arg h
    0))).replyOk 0x82 h [])) ∧
  (∀ (h : Halyard) (s : State), s.takes 0x90 h (fixedLen 1) → bits (arg h 0) 0 4 ≤ s.dies → bits (arg h 0) 4 28 = 0 →
    exec (.thmRead h) s = .next (
      let d := bits (arg h 0) 0 4
      let sens := (List.range 4).map (fun i => if d = 0 ∨ i < 2 then pair10 (s.fget (sensorFld d (2 * i + 1))) (s.fget
        (sensorFld d (2 * i))) else 0)
      let model := if d = 0 then s.fget THM.BASE_EST_MODEL else s.fget (THM.DIE_EST_MODEL d)
      let near := if d = 0 then 0 else s.fget (THM.DIE_EST_NEIGHBOUR d)
      let dbl := decide (0 < d) && s.flag (DCH.STATUS_REF_DOUBLE d)
      let sub := decide (0 < d) && s.flag (THM.DIE_STAT_SUBST d)
      let flags := (s.die d).exclMask d * 2 ^ 24 + 8 * b2n sub + 4 * b2n dbl + 2 * b2n (s.die d).warned + b2n (bitAt (s.fget
        THM.STATUS_FAST) d)
      (s.begun 0x90 h).replyOk 0x90 h (sens ++ [pair10 (tj10 ((s.die d).reading.getD 0)) model, pair10 near (tj10 (s.used d)),
        flags]))) ∧
  (∀ (h : Halyard) (s : State), s.takes 0x91 h (fixedLen 1) →
    (bits (arg h 0) 0 10 = 0 ∨ (0x0F0 ≤ bits (arg h 0) 0 10 ∧ bits (arg h 0) 0 10 ≤ 0x17C)) → (bits (arg h 0) 16 10 = 0 ∨ (280
    ≤ bits (arg h 0) 16 10 ∧ bits (arg h 0) 16 10 ≤ (if bits (arg h 0) 0 10 = 0 then s.fget THM.WARN_CFG_WARN_TJ else bits (arg
    h 0) 0 10))) → exec (.thmSetWarn h) s = .next (
      let next := if bits (arg h 0) 0 10 = 0 then s.fget THM.WARN_CFG_WARN_TJ else bits (arg h 0) 0 10
      let u := (s.begun 0x91 h).fset THM.WARN_CFG_WARN_TJ next
      let v := if bits (arg h 0) 16 10 = 0 then u else u.fset THM.THR_CFG_THROTTLE_TJ (bits (arg h 0) 16 10)
      (v.retestLevels).replyOk 0x91 h [])) ∧
  (∀ (h : Halyard) (s : State), s.takes 0x92 h (fixedLen 0) → exec (.thmModel h) s = .next ((s.begun 0x92 h).replyOk 0x92 h
    ([b2n (s.flag THM.STATUS_MODEL_ARMED) * 2 ^ 31 + (if s.flag THM.STATUS_MODEL_ARMED then min 0xFFFF s.thm.armedFor else 0)]
    ++ s.perDie (fun d => toBits 16 (s.die d).model) ++ s.perDie (fun d => min 0xFFFF (SMap.get 0 s.thm.power d))))) ∧
  (∀ (h : Halyard) (s : State), s.takes 0xF0 h (fixedLen 1) → bits (arg h 0) 0 4 < 6 → exec (.traceCfg h) s = .next (
      let b := s.begun 0xF0 h
      let v : State :=
        { b with trc := { b.trc with src := bits (arg h 0) 0 4, sel := bits (arg h 0) 8 8, pins := bitAt (arg h 0) 16 } }
      v.replyOk 0xF0 h [])) ∧
  (∀ (h : Halyard) (s : State), s.takes 0xF1 h (fixedLen 1) → 1 ≤ bits (arg h 0) 0 6 → bits (arg h 0) 0 6 ≤ 56 →
    exec (.traceRead h) s = .next (
      let b := s.begun 0xF1 h
      let v : State := { b with trc := { b.trc with buf := b.trc.buf.drop (bits (arg h 0) 0 6) } }
      v.replyOk 0xF1 h ((b.trc.buf.drop (bits (arg h 0) 0 6)).length :: b.trc.buf.take (bits (arg h 0) 0 6)))) ∧
  (∀ (op : Nat) (h : Halyard) (s : State), (op = 0xFE ∨ op = 0xFF) → s.takes op h (fun _ => none) →
    exec (.vendorOpcode op h) s = .next (
      let r := (s.begun op h).fresh
      r.2.replySt op h (r.1 % 256))) ∧
  (∀ (op : Nat) (h : Halyard) (s : State), s.noOpcode op = true → s.serves h → s.mayStart ⟨op, h⟩ = true →
    s.isRepeat ⟨op, h⟩ = false → badLength h = false → (assignedOps.contains op = true → fixedLen (if op = 0x70 ∨ op = 0x72
    then 2 else 1) h.payload = none) → bitAt h.flags 7 = false → exec (.badOpcode op h) s = .next ((s.begun op h).replySt op h
    St.badOpcode))

/-- The events of the scheduler and the housekeeping round. -/
def Obligations.SchedulerEventsComplete : Prop :=
  (∀ (n : Nat) (t : Txn) (s : State), s.queueFront n = some t → s.live = true → s.firstInLine t = true → s.budgetOk t = true →
    s.poolOk t = true → s.relayHolds t = false → exec (.admission n) s = .next (s.admitTxn t)) ∧
  (∀ (n : Nat) (t : Txn) (s : State), s.queueFront n = some t → s.live = true →
    (s.firstInLine t = false ∨ s.budgetOk t = false ∨ s.poolOk t = false ∨ s.relayHolds t = true) → t.stage = 1 →
    (s.poolOk t = true ∨ s.firstInLine t = false ∨ s.budgetOk t = false ∨ t.poolHeld = true) → exec (.admission n) s = .next
    (s.setTxn t)) ∧
  (∀ (n : Nat) (s : State), n < 64 → s.live = true → (n = 60 → s.ecc.reef2 = none) → SMap.get none s.sch.nextBudget n = none →
    exec (.windowStart n) s = .next (
      let e : Int := s.fget (SCH.CLS_STAT_EFF_BUDGET n)
      let u := s.setTokens n (if s.fget (SCH.CLS_BUDGET_BUDGET n) = 0 then 0 else min (s.tokens n + e) e)
      if n = 62 ∧ s.scnPresent then u.scanWindow else u)) ∧
  (∀ (n b : Nat) (r : Bool) (s : State), n < 64 → n ≠ 62 → s.live = true → (n = 60 → s.ecc.reef2 = none) →
    SMap.get none s.sch.nextBudget n = some (b, r) → exec (.windowStart n) s = .next ((s.applyBudget n).refill n)) ∧
  (∀ (s : State), s.live = true → exec .poolRefill s = .next
    ({ s with sch := { s.sch with pool := min (s.sch.pool + (s.poolShare : Int)) (s.poolShare : Int) } })) ∧
  (∀ (s : State), s.live = true → exec .modelRecompute s = .next (s.recompute false)) ∧
  (∀ (p : Nat) (s : State), isPort p = true → s.live = true → (s.portState p = 8 ∨ (1 ≤ s.portState p ∧ s.portState p ≤ 4)) →
    exec (.modelHoldExpiry p) s = .next ({ s with sch := { s.sch with hold := SMap.set false s.sch.hold p true } })) ∧
  (∀ (obs : RoundObs) (s : State), s.housekeeps = true → exec (.housekeepingRound obs) s = .next (
      let u := s.round obs
      let v := if u.flag TWB.CTRL_PM_EN ∧ u.fwRuns then (List.range 8).foldl (State.pollOne obs.poll) u else u
      if v.flag THM.CTRL_FIO_COMP_EN then v.setFlag TWB.PM_STAT_SLOW_DIV false else v))

/-- Events of the channel engines. -/
def Obligations.EngineEventsComplete : Prop :=
  (∀ (s : State), s.live = true → exec .urgencyTick s = .next (s.urgencyTick)) ∧
  (∀ (m : Nat) (s : State), s.live = true → s.engExists m = true → exec (.promotion m) s = .next (s.promoteEng m)) ∧
  (∀ (m off : Nat) (s : State), s.engRuns m = true → s.engPd m = false → exec (.commandChoice m off) s = .next (s.command m
    off)) ∧
  (∀ (m h : Nat) (s : State), h < 2 → s.refreshed m = true → exec (.refDue m h) s = .next (s.refDue m h)) ∧
  (∀ (m h : Nat) (s : State), h < 2 → s.refreshed m = true → exec (.refStart m h) s = .next (s.refStart m h)) ∧
  (∀ (m h due : Nat) (s : State), h < 2 → s.refreshed m = true →
    (if h = 0 then (s.eng m).due0 else (s.eng m).due1) = some due → s.refsRunning < 24 → s.earlierRef due = false →
    (s.eng m).halfClosed h (8 * s.now) = true → s.halfLocked m h = false → s.refOpen m = true → s.slotWanted m = false →
    exec (.refStart m h) s = .next (((s.ref m h (8 * s.now)).refDelay m due).repower m)) ∧
  (∀ (d : Nat) (s : State), 1 ≤ d → d ≤ s.dies → s.live = true → exec (.refreshModeChange d) s = .next (s.refreshMode d)) ∧
  (∀ (m : Nat) (s : State), s.refreshed m = true → exec (.refreshSlot m) s = .next (
      let u := (s.refreshSlot m).testGranted m
      if s.slotAsked m 0 then u.calGranted m else u)) ∧
  (∀ (m user : Nat) (s : State), s.refreshed m = true → (s.eng m).rdq = [] → (s.eng m).wrq = [] → s.engLocked m = false →
    s.quietRef m = true → user < 2 → (s.eng m).silent ≤ 8 * s.now → exec (.idleBoundary m user) s = .next (s.idleBoundary m
    user)) ∧
  (∀ (m : Nat) (s : State), s.engRuns m = true → s.pwr = 0 → exec (.powerDownEntry m) s = .next (s.powerDown m)) ∧
  (∀ (m : Nat) (s : State), s.engRuns m = true → s.pwr = 1 → exec (.powerDownEntry m) s = .next (s.repower m)) ∧
  (∀ (m : Nat) (s : State), s.engExists m = true → s.engSr m = true → s.engPerm m = false → (s.eng m).ready ≤ 8 * s.now →
    s.srRunning (engDie m) < 3 → s.srDue m = true → exec (.selfRefreshRef m) s = .next (
      let u := s.auditAdd m 1
      u.setEng m { u.eng m with srAt := some u.now, srRefs := (u.eng m).srRefs + 1 }))

/-- Events of the line cache. -/
def Obligations.CacheEventsComplete : Prop :=
  (∀ (m : Nat) (errs : List (Nat × Nat)) (s : State), s.live = true → s.engExists m = true → exec (.fill m errs) s = .next
    ((s.fillOrScan m errs).scanFeed)) ∧
  (∀ (k : Nat) (s : State), s.live = true → k < 32 → exec (.missForward k) s = .next ((s.forwardMiss k).sendOwed k)) ∧
  (∀ (line : Nat) (s : State), s.live = true → exec (.pendingOperation line) s = .next ((s.runPending line false).scanFeed)) ∧
  (∀ (m : Nat) (errs : List (Nat × Nat)) (s : State), s.live = true → s.engExists m = true → exec (.tagFetch m errs) s = .next
    (s.tagFetch m errs)) ∧
  (∀ (line k : Nat) (v : Way) (s : State), s.live = true → (s.slc (lineSlice line)).find line = some (k, v) → v.st = .merge →
    v.openAt + max 100 (s.fget LCH.MERGE_CFG_TIMEOUT_NS) ≤ s.now → exec (.mergeTimeout line) s = .next (s.closeMerge (lineSlice
    line) k true)) ∧
  (∀ (m : Nat) (errs : List (Nat × Nat)) (s : State), s.live = true → s.engExists m = true →
    exec (.mergeClose m errs) s = .next (s.mergeReturn m errs)) ∧
  (∀ (line : Nat) (s : State), s.live = true → exec (.atomExecute line) s = .next ((s.runPending line true).scanFeed)) ∧
  (∀ (k : Nat) (s : State), s.live = true → k < 32 → exec (.writeBack k) s = .next (s.writeBack k)) ∧
  (∀ (k bad : Nat) (s : State), s.live = true → k < 32 → s.flag LCH.CTRL_SRAM_SCRUB = true → exec (.sramScrub k bad) s = .next
    (s.sramWalk k bad)) ∧
  (∀ (s : State), s.live = true → s.flush.isSome = true → exec .flush s = .next (s.flushStep)) ∧
  (∀ (f : FlushSt) (s : State), s.flush = some f → s.live = true → exec .flushDone s = .next (s.flushEnd f)) ∧
  (∀ (inv : Bool) (s : State), s.live = true → s.fwRuns = true → s.flush = none → exec (.flushCtrlStart inv) s = .next
    (((State.setFlag { s with flush := some ⟨inv, s.now, 0⟩ } LCH.FLUSH_CTRL_BUSY true).fset LCH.STATUS_FLUSH_STATE 1)))

/-- Events of the scan engines. -/
def Obligations.ScanEventsComplete : Prop :=
  (∀ (s : State), s.live = true → s.scnPresent = true → exec .scanStart s = .next (s.startScan)) ∧
  (∀ (e : Nat) (s : State), s.live = true → s.scnPresent = true → e < 16 → exec (.stagingLine e) s = .next ((s.stageLine
    e).scanFeed)) ∧
  (∀ (reqId tag : Nat) (t : Txn) (r : ScanRun) (s : State), s.scanOf reqId tag = some t →
    s.scn.runs.find? (fun r => r.num = t.num) = some r → s.live = true → exec (.scanComplete reqId tag) s = .next
    (s.completeScan t r)) ∧
  (∀ (reqId tag : Nat) (t : Txn) (s : State), s.scanOf reqId tag = some t → s.live = true → t.stage = 3 →
    (scanDesc t.req.data).limitMs ≠ 0 → exec (.timeLimit reqId tag) s = .next (s.abortScan t 2))

/-- The test access port. What a die does is in the operations dieTap and takeMasts, which say when it answers. -/
def Obligations.TapCommandsComplete : Prop :=
  (∀ (pins value : Nat) (s : State), exec (.extest pins value) s = .next (State.tapSelect
    { s with tap := { s.tap with bsr := value % 2 ^ 23 } } 0x00 (.word 23 (s.boundary pins)))) ∧
  (∀ (pins preload : Nat) (s : State), exec (.samplePreload pins preload) s = .next (State.tapSelect
    { s with tap := { s.tap with bsr := preload % 2 ^ 23 } } 0x02 (.word 23 (s.boundary pins)))) ∧
  (∀ (s : State), exec .clamp s = .next (s.tapSelect 0x04 bypassOut)) ∧
  (∀ (s : State), exec .highz s = .next (s.tapSelect 0x05 bypassOut)) ∧
  (∀ (s : State), exec .idcode s = .next (s.tapSelect 0x01 (.word 32 s.idcode))) ∧
  (∀ (s : State), exec .bypass s = .next (s.tapSelect 0xFF bypassOut)) ∧
  (∀ (s : State), exec .devStateRd s = .next (s.tapSelect 0x3A (.word 32 (s.reg DEV.STATE).toNat))) ∧
  (∀ (shifts : Nat) (s : State), exec (.cnsRead shifts) s = .next ((s.fset CNS.IMG_PTR_BIT ((s.fget CNS.IMG_PTR_BIT + shifts) %
    imgBits)).tapSelect 0x3B (.word shifts (maskOf shifts (fun j => s.imgBit ((s.fget CNS.IMG_PTR_BIT + j) % imgBits)))))) ∧
  (∀ (s : State), exec .bbxDump s = .next (s.tapSelect 0x3E (.store ((List.range 4096).map s.slotBytes)))) ∧
  (∀ (dies : Nat) (s : State), s.dieAccess = true → exec (.stkDsel dies) s = .next ((s.fset STK.T1838_STAT_DIES_SEL (dies % 2 ^
    s.dies)).tapSelect 0x38 (.word 8 (s.fget STK.T1838_STAT_DIES_SEL)))) ∧
  (∀ (dies : Nat) (s : State), s.dieAccess = false → exec (.stkDsel dies) s = .next (s.tapSelect 0x38 bypassOut)) ∧
  (∀ (s : State), exec .stkDtap s = .next (s.tapChain)) ∧
  (∀ (d : Nat) (s : State), exec (.dtapIdcode d) s = .next (s.dieTap d (fun u => u.fresh.2.setDtap d 0x01 32 (u.fresh.1 % 16 *
    2 ^ 28 + d * 2 ^ 20 + 0x21 * 2 ^ 12 + 0x2E3 * 2 + 1)))) ∧
  (∀ (d vias : Nat) (s : State), exec (.dtapSample d vias) s = .next (s.dieTap d (fun u => u.setDtap d 0x02 1088 (vias % 2 ^
    1088)))) ∧
  (∀ (d vias value : Nat) (s : State), exec (.dtapExtest d vias value) s = .next (s.takeMasts d (fun u => u.driveDwr d 0x03
    vias value))) ∧
  (∀ (d vias value : Nat) (s : State), exec (.dtapIntest d vias value) s = .next (s.takeMasts d (fun u => u.driveDwr d 0x04
    vias value))) ∧
  (∀ (d : Nat) (pass : Bool) (sig : Nat) (s : State), exec (.dieBist d pass sig) s = .next (s.takeMasts d (fun u => u.setDtap d
    0x08 32 (sig % 2 ^ 16 * 2 ^ 16 + b2n pass)))) ∧
  (∀ (d : Nat) (s : State), exec (.dtapBypass d) s = .next (s.dieTap d (fun u => u.setDtap d 0x3F 1 0))) ∧
  (∀ (s : State), s.frozen = true → s.flag CNS.STATUS_REFRESH_KEPT = true → s.fget CNS.IMG_PTR_BIT = 0 →
    exec (.cnsResume true true) s = .next ((s.tapSelect 0x3C bypassOut).resume)) ∧
  (∀ (pin update : Bool) (s : State), (s.frozen = false ∨ update = false) → exec (.cnsResume pin update) s = .next (s.tapSelect
    0x3C bypassOut)) ∧
  (∀ (pin : Bool) (s : State), s.frozen = true →
    (s.flag CNS.STATUS_REFRESH_KEPT = false ∨ s.fget CNS.IMG_PTR_BIT ≠ 0 ∨ pin = false) → exec (.cnsResume pin true) s = .next
    ((s.tapSelect 0x3C bypassOut).setFlag CNS.STATUS_RESUME_DENIED true))

/-- Events of calibration. -/
def Obligations.CalibrationEventsComplete : Prop :=
  (∀ (p : Nat) (counts : List (Nat × Nat × Nat × Nat)) (s : State), isPort p = true → s.live = true → s.ready = true →
    exec (.laneTrackWindow p counts) s = .next (s.trackWindow p counts)) ∧
  (∀ (s : State), s.live = true → s.ready = true → exec .calTrigger s = .next (s.calTrigger)) ∧
  (∀ (s : State), s.live = true → exec .calHoldExpiry s = .next (s.calRetest)) ∧
  (∀ (m : Nat) (meas : List (Nat × Int × Nat)) (errs : List (Nat × Nat)) (s : State), s.calMay = true → s.engExists m = true →
    exec (.dieRun m meas errs) s = .next (s.dieRun m meas errs)) ∧
  (∀ (r : CalRun) (s : State), s.cal.run = some r → s.live = true → r.phase = 2 → exec .runDone s = .next (s.calEnd r)) ∧
  (∀ (count : Nat) (r : CalRun) (s : State), s.calMay = true → s.fioStart.cal.run = some r → r.job.kind = 2 → r.phase = 0 →
    exec (.fioTrimMeasure count) s = .next (s.fioStart.fioMeasure r count)) ∧
  (∀ (s : State), s.mclkIdle = true → exec .fioTrimStep s = .next (s.fioStep))

/-- The samples of the sensors and the end of a warning. -/
def Obligations.ThermalSamplesComplete : Prop :=
  (∀ (d : Nat) (vals : List (Nat × Int)) (s : State), d ≤ s.dies → s.frozen = false → s.pwr ≤ 2 → s.devState ≤ 1 →
    (d = 0 ∨ s.fget (DCH.STATUS_DIE_STATE d) = 0) → exec (.thmSample d vals) s = .next (
      let u := (sensorsOf d).foldl (State.sampleSensor d vals) s
      let good := (sensorsOf d).any (fun i => decide (((u.die d).sensor i).bad = 0) && !((u.die d).sensor i).failed)
      ((((((u.unholdSensors d good).formTemp d).fastSample d).throttle).warn d).tripTest d).restartHold)) ∧
  (∀ (d : Nat) (vals : List (Nat × Int)) (s : State), 1 ≤ d → d ≤ s.dies → s.frozen = false → s.pwr ≤ 2 → s.devState ≤ 1 →
    s.fget (DCH.STATUS_DIE_STATE d) ≠ 0 → exec (.thmSample d vals) s = .next ((((((s.holdSensors d).fastSample
    d).throttle).warn d).tripTest d).restartHold)) ∧
  (∀ (d f : Nat) (s : State), d ≤ s.dies → s.frozen = false → s.pwr ≤ 2 → (s.die d).warned = true →
    (s.die d).coolFrom = some f → f + 100000000 ≤ s.now → exec (.thermalClear d) s = .next (
      let u := (s.setDie d { s.die d with warned := false, coolFrom := none }).showWarn
      (u.int I.thm 1).event 0x0021 0 (u.warnDetail d)))

/-- The ends of a trip. -/
def Obligations.TripReleasesComplete : Prop :=
  (∀ (f : Nat) (s : State), s.tripped = true → s.flag THM.CTRL_AUTO_RESTART = true → s.thm.holdFrom = some f →
    f + 1000000000 ≤ s.aon → s.frozen = false → exec .restart s = .next (
      let lost := (List.range s.pcs).filter (fun k => !s.engPerm (s.engineOf k) && s.tripLost k)
      let u := lost.foldl State.markLost s.srxAll
      let u : State := { u with thm := { u.thm with pin := false, holdFrom := none, lostPcs := [], audit := [] } }
      let u := ((u.setFlag THM.STATUS_TRIPPED false).setFlag THM.STATUS_RESTART_HOLD false).int I.thm 6
      (((u.fset PWR.STATE_CUR 0).fset PWR.STATE_TARGET 0).enableAll).startSweep)) ∧
  (∀ (temps : List Int) (x : Int) (s : State), (s.pwr = 3 ∨ s.devState = 4 ∨ s.frozen = true) → x ∈ temps → 420 ≤ x →
    exec (.aonThermalSample temps) s = .next ({ s with thm := { s.thm with pin := true, holdFrom := none } })) ∧
  (∀ (temps : List Int) (s : State), (s.pwr = 3 ∨ s.devState = 4 ∨ s.frozen = true) → (∀ x ∈ temps, x < 420) →
    (s.pwr ≠ 3 ∨ s.devState = 4 ∨ s.frozen = true ∨ s.thm.pin = false) → exec (.aonThermalSample temps) s = .next (s)) ∧
  (∀ (temps : List Int) (s : State), s.pwr = 3 → s.devState ≠ 4 → s.frozen = false → s.thm.pin = true →
    (∀ x ∈ temps, x < 420) → (s.flag THM.CTRL_AUTO_RESTART = false ∨ ∃ x ∈ temps, 320 ≤ x) →
    exec (.aonThermalSample temps) s = .next ({ s with thm := { s.thm with holdFrom := none } })) ∧
  (∀ (temps : List Int) (s : State), s.pwr = 3 → s.devState ≠ 4 → s.frozen = false → s.thm.pin = true →
    s.flag THM.CTRL_AUTO_RESTART = true → (∀ x ∈ temps, x < 320) → s.thm.holdFrom = none →
    exec (.aonThermalSample temps) s = .next ({ s with thm := { s.thm with holdFrom := some s.aon } })) ∧
  (∀ (temps : List Int) (f : Nat) (s : State), s.pwr = 3 → s.devState ≠ 4 → s.frozen = false → s.thm.pin = true →
    s.flag THM.CTRL_AUTO_RESTART = true → (∀ x ∈ temps, x < 320) → s.thm.holdFrom = some f →
    exec (.aonThermalSample temps) s = .next (if f + 1000000000 ≤ s.aon then
    { s with thm := { s.thm with pin := false, holdFrom := none } } else s))

/-- Transitions between power states. -/
def Obligations.PowerEventsComplete : Prop :=
  (∀ (s : State), s.pwr = 0 → s.flag PWR.CTRL_REEF1_EN = true → s.mayReef = true → exec .reef1Entry s = .next (s.startEntry 1
    none)) ∧
  (∀ (s : State), s.pwr = 1 → s.flag PWR.CTRL_REEF2_EN = true → s.mayReef = true → exec .reef2Entry s = .next ((s.engines.foldl
    State.leavePd s).startEntry 2 none)) ∧
  (∀ (ns : Nat) (s : State), s.live = true → (s.pwr = 1 ∨ s.pwr = 2) → s.pw.entry = none →
    (s.pw.wake.isSome = true ∨ s.idleDevice = false) → exec (.reefExit ns) s = .next (s.reefExit ns)) ∧
  (∀ (e : PwrEntry) (s : State), s.pw.entry = some e → s.live = true → e.step ≤ lastAbort e.target → s.entryDone e = true →
    s.wakeSeen e = true → exec .entryUnwind s = .next (s.unwind e (unwindCause ((s.pw.wake.map (·.1)).getD 0)) ((s.pw.wake.map
    (·.1)).getD 0))) ∧
  (∀ (t id : Nat) (s : State), s.pw.slot = some (t, id) → s.pw.entry = none → s.pw.waking = none → s.wakeable = true →
    s.pwr = 0 → t ≠ 0 → exec .pendingPowerRequest s = .next ((State.startEntry { s with pw := { s.pw with slot := none } } t
    (some id)))) ∧
  (∀ (t id : Nat) (s : State), s.pw.slot = some (t, id) → s.pw.entry = none → s.pw.waking = none → s.wakeable = true →
    t = s.pwr → exec .pendingPowerRequest s = .next (State.showPwr (State.endPwrSet { s with pw := { s.pw with slot := none } }
    (some id) St.ok (pwrResult t 0 0 0)))) ∧
  (∀ (t id : Nat) (s : State), s.pw.slot = some (t, id) → s.pw.entry = none → s.pw.waking = none → s.wakeable = true →
    s.pwr ≠ 0 → t ≠ s.pwr → s.pw.wake = none → exec .pendingPowerRequest s = .next
    ({ s with pw := { s.pw with wake := some (if s.pwr = 3 then 8 else 7, 0) } })) ∧
  (∀ (s : State), s.wakeable = true → s.pinsTaken = false → exec .wakePin s = .next (s.wakeEvent 2 0)) ∧
  (∀ (s : State), s.wakeable = true → s.pwr = 3 → exec .furlWakeTimer s = .next (s.wakeEvent 4 0)) ∧
  (∀ (s : State), s.wakeable = true → exec .customerWakeTimer s = .next (s.wakeEvent 5 0)) ∧
  (∀ (s : State), s.wakeable = true → s.twAsleep = true → exec .sleepAddressMatch s = .next (s.wakeEvent 3 0)) ∧
  (∀ (obs : FurlObs) (x : Shadow) (code port : Nat) (s : State), s.pw.shadow = some x → s.pw.wake = some (code, port) →
    s.pwr = 3 → s.pw.entry = none → s.frozen = false → s.tripped = false → s.devState = 1 → exec (.furlExit obs) s = .next
    (s.furlExit obs x code port)) ∧
  (∀ (s : State), s.pw.fill ≠ 0 → s.live = true → exec .wakeFillDone s = .next (State.int
    { s with pw := { s.pw with fill := 0, hold := s.entryPaused || s.pw.waking.isSome } } I.pwr 5)) ∧
  (∀ (e : PwrEntry) (s : State), s.pw.entry = some e → s.live = true → 3 ≤ e.target → e.step = 3 → s.entryDone e = false →
    exec .drainTimeout s = .next (s.unwind e 4 0))

/-- Clock sources, PLLs and gates. -/
def Obligations.ClockCommandsComplete : Prop :=
  (∀ (i count : Nat) (s : State), i < 5 → s.devState ≠ 4 → s.flag (CLK.MON_STAT_ARMED i) = true → s.windowBlind i = false →
    s.windowDiscarded i count = false → exec (.monitorWindow i count) s = .next (s.window i count)) ∧
  (∀ (i : Nat) (s : State), i < 3 → s.devState ≠ 4 → (i = 2 ∨ s.pwr ≤ 2) → (s.mon i).stable = false →
    exec (.stabilityCountEnd i) s = .next (s.countEnd i)) ∧
  (∀ (i : Nat) (s : State), (i = 0 ∨ i = 2) → (s.mon i).failed = true → s.devState ≠ 4 → (i = 2 ∨ s.pwr ≤ 2) →
    exec (.sourceRestart i) s = .next (s.setMon i { s.mon i with stable := false, good := 0, bad := 0 })) ∧
  (∀ (s : State), s.flag CLK.STATUS_XB_VALID = false → (s.mon 2).stable = false → s.devState ≠ 4 → s.frozen = false →
    exec .xbAbsent s = .next (s.int I.clk 5)) ∧
  (∀ (j : Nat) (s : State), j < 6 → s.live = true → s.flag (CLK.PLL_STAT_EN j) = true → s.flag (CLK.PLL_STAT_LOCKED j) = true →
    exec (.pllUnlock j) s = .next (s.unlock j)) ∧
  (∀ (j lockUs : Nat) (s : State), j < 6 → s.live = true → s.flag (CLK.PLL_STAT_EN j) = true →
    s.flag (CLK.PLL_STAT_LOCKED j) = false → exec (.pllRelock j lockUs) s = .next (s.relock j lockUs)) ∧
  (∀ (sw old new : Nat) (s : State), 1 ≤ sw → sw ≤ 46 → s.devState ≠ 4 → exec (.deadSource sw old new) s = .next
    (((((((s.bumpSat CLK.TAKEOVER_COUNT 1).fset CLK.TAKEOVER_SWITCH sw).fset CLK.TAKEOVER_OLD old).fset CLK.TAKEOVER_NEW
    new).int I.clk 3).fault 0x2D6 0x26 1 sw).event 0x0011 1 [sw, old % 256, new % 256, if sw ≤ 40 then sw else 0])) ∧
  (∀ (b : Nat) (s : State), s.live = true → s.gateable b = true → exec (.gateUngate b) s = .next (s.setGate b true false
    false)) ∧
  (∀ (b : Nat) (s : State), s.live = true → s.gateable b = true → bitAt (s.fget CLK.GATE_STAT_GATED) b = false →
    exec (.gateRequest b) s = .next (s.setGate b false false true)) ∧
  (∀ (b : Nat) (s : State), s.live = true → s.gateable b = false → exec (.gateUngate b) s = .next (s)) ∧
  (∀ (b : Nat) (s : State), s.live = true → (s.gateable b = false ∨ bitAt (s.fget CLK.GATE_STAT_GATED) b = true) →
    exec (.gateRequest b) s = .next (s)) ∧
  (∀ (b : Nat) (s : State), s.live = true → b < 10 → bitAt (s.fget CLK.GATE_STAT_PEND) b = true → s.blockIdle b = true →
    exec (.gateTakesEffect b) s = .next (s.setGate b false true false)) ∧
  (∀ (addr : Nat) (write : Bool) (s : State), s.live = true → s.gated addr = true → exec (.gatedAccess addr write) s = .next
    (s.countGated addr write))

/-- The two-wire target and the PMBus controller. -/
def Obligations.TwoWireCommandsComplete : Prop :=
  (∀ (addr : Nat) (bytes : List Nat) (s : State), s.twMine addr = true → addr % 2 = 0 → s.twb.held = none →
    s.twAsleep = false → s.twBusy = false → exec (.twWriteFrame addr bytes false) s = .next (s.twMatch.twWrite addr bytes)) ∧
  (∀ (addr : Nat) (bytes : List Nat) (s : State), s.twMine addr = true → s.twb.held = none → s.twAsleep = false →
    (addr % 2 = 1 ∨ s.twBusy = false) → exec (.twWriteFrame addr bytes true) s = .next (s.twMatch.twProto 5)) ∧
  (∀ (addr : Nat) (bytes : List Nat) (bad : Bool) (s : State), s.twMine addr = true → addr % 2 = 0 → s.twb.held = none →
    s.twAsleep = false → s.twBusy = true → exec (.twWriteFrame addr bytes bad) s = .next (s.twMatch.bumpSat
    TWB.TGT_XFER_CNT_NACKED 1)) ∧
  (∀ (addr : Nat) (bytes : List Nat) (bad : Bool) (s : State), s.twMine addr = true → (addr % 2 = 0 ∨ bad = true) →
    s.twb.held = none → s.twAsleep = true → exec (.twWriteFrame addr bytes bad) s = .next (
      let u := s.twMatch
      { u with twb := { u.twb with held := some ⟨addr, bytes, bad, 0, s.aon⟩ } })) ∧
  (∀ (addr count : Nat) (s : State), s.twMine addr = true → addr % 2 = 1 → s.twb.held = none → s.twAsleep = false →
    exec (.twReadFrame addr count) s = .next (s.twMatch.twRead addr count)) ∧
  (∀ (addr count : Nat) (s : State), s.twMine addr = true → addr % 2 = 1 → s.twb.held = none → s.twAsleep = true →
    exec (.twReadFrame addr count) s = .next (
      let u := s.twMatch
      { u with twb := { u.twb with held := some ⟨addr, [], false, count, s.aon⟩ } })) ∧
  (∀ (s : State), s.inReset = false → s.twAsleep = false → s.pinsTaken = false → s.twb.held = none →
    exec (.twTimeout true) s = .next (((s.bumpSat TWB.TO_CNT_SCL_LOW 1).int I.twb 3).twErr 6)) ∧
  (∀ (s : State), s.inReset = false → s.twAsleep = false → s.pinsTaken = false → s.twb.held = none →
    exec (.twTimeout false) s = .next (((s.bumpSat TWB.TO_CNT_SDA_LOW 1).int I.twb 3).twErr 6)) ∧
  (∀ (s : State), s.attention = true → exec (.attentionPulse true) s = .next (s.bumpSat TWB.ATTN_CNT_COLLISIONS 1)) ∧
  (∀ (s : State), s.attention = true → exec (.attentionPulse false) s = .next (
      let u := (s.bumpSat TWB.ATTN_CNT_PULSES 1).int I.twb 0
      if u.fget TWB.TGT_CFG_ATTN_REPEAT_MS = 0 then { u with twb := { u.twb with evtNew := false, respNew := false } } else u)) ∧
  (∀ (n : Nat) (s : State), s.live = true → s.pwr ≤ 1 → s.flag TWB.CTRL_PM_EN = true → n ≤ 9 →
    exec (.pmbusHangRecovery (some n)) s = .next (s.bumpSat TWB.PM_HANG_CNT_RECOVERED 1)) ∧
  (∀ (s : State), s.live = true → s.pwr ≤ 1 → s.flag TWB.CTRL_PM_EN = true → exec (.pmbusHangRecovery none) s = .next
    (((s.bumpSat TWB.PM_HANG_CNT_FAILED 1).fset TWB.PM_STAT_LAST_RESULT 4).int I.twb 6))

/-- Events of fault handling. -/
def Obligations.FaultEventsComplete : Prop :=
  (∀ (src kind hint loc : Nat) (s : State), (s.arrive (src % 1024) (kind % 64) (hint % 4) (loc % 2 ^ 30)).mclk = true →
    exec (.faultMessage (some (src, kind, hint, loc))) s = .next ((s.arrive (src % 1024) (kind % 64) (hint % 4) (loc % 2 ^
    30)).classifyOne)) ∧
  (∀ (s : State), s.mclk = true → exec (.faultMessage none) s = .next (s.classifyOne)) ∧
  (∀ (s : State), s.mclk = false → exec (.faultMessage none) s = .next (s.logOne)) ∧
  (∀ (k : Nat) (s : State), k < 16 → exec (.shadowEnd k) s = .next (s.closeShadow k)) ∧
  (∀ (k : Nat) (x : FenceHold) (s : State), s.mclk = true → x ∈ s.flt.holds → x.index = k → x.lastMsg + s.holdTime ≤ s.now →
    exec (.fenceHoldExpiry k) s = .next (s.liftHold k)) ∧
  (∀ (k : Nat) (x : FenceHold) (s : State), s.mclk = true → x ∈ s.flt.holds → x.index = k → x.since + 10000000000 ≤ s.now →
    exec (.fencePermanent k) s = .next (s.fresh.2.fencePerm k (s.fresh.1 % 256))) ∧
  (∀ (d len : Nat) (s : State), s.live = true → 1 ≤ d → d ≤ s.dies → s.dieResetting d = true →
    s.flt.resuming.any (fun x => x.1 = d) = false → exec (.resetDone d len) s = .next (s.resetDone d len)) ∧
  (∀ (trained : Option (List (Nat × List ViaTrain))) (s : State), s.live = true → exec (.relayReset trained) s = .next
    (s.relayReset trained)) ∧
  (∀ (s : State), s.mclk = true → (s.fget MGC.STATUS_FW_STATE = 1 ∨ s.fget MGC.STATUS_FW_STATE = 2) →
    exec .watchdogRestart s = .next (s.watchdog))

/-- Commits of the black box and the steps of a freeze. -/
def Obligations.BlackBoxAndFreezeEventsComplete : Prop :=
  (∀ (s : State), s.fget BBX.INC_CFG_INC_S ≠ 0 → s.bbx.ringLost = false → s.inReset = false → exec .incrementalCommit s = .next
    (((s.commitRecords s.incMax).1).int I.bbx 0)) ∧
  (∀ (id : Nat) (s : State), s.bbx.commit = some id → exec .commitDone s = .next ((s.fullCommit.1.setFlag
    BBX.STATUS_COMMIT_BUSY false).finishOp id St.ok s.fullCommit.2)) ∧
  (∀ (s : State), s.flag CNS.CTRL_PIN_EN = true → s.frozen = false → s.inReset = false → s.pinsTaken = false →
    s.freezeIgnored = false → exec .freezeN s = .next (s.startFreeze 0)) ∧
  (∀ (s : State), s.flag CNS.CTRL_PIN_EN = true → s.frozen = false → s.inReset = false → s.pinsTaken = false →
    s.freezeIgnored = true → exec .freezeN s = .next (s.ignoreFreeze)) ∧
  (∀ (s : State), s.frozen = true → s.cns.entered = false → exec .freezeEntry s = .next (s.enterFreeze)) ∧
  (∀ (s : State), s.frozen = false → s.cns.pending = true → s.freezeIgnored = false → exec .freezeEntry s = .next
    ((s.startFreeze 1).enterFreeze)) ∧
  (∀ (s : State), s.frozen = false → s.cns.pending = true → s.freezeIgnored = true → exec .freezeEntry s = .next
    (s.ignoreFreeze)) ∧
  (∀ (s : State), s.frozen = true → s.flag CNS.STATUS_REFRESH_KEPT = false → s.cns.aonAt + 32000000 ≤ s.aon →
    exec .dataLost s = .next ((s.setFlag CNS.STATUS_DATA_LOST true).dropArrays (fun _ => false)))

/-- R164: the hash of Table 5.3, and that the map stays one-to-one. Bits 4 to 6 of a map word are GRAIN, bit 0 PC_HASH, bit 1
BANK_HASH. -/
def Obligations.AddressMapIsOneToOne : Prop :=
  (∀ map n a b : Nat, a < 2 ^ (30 + n) → b < 2 ^ (30 + n) → a % 64 = b % 64 → decompose map n a = decompose map n b → a = b) ∧
  (∀ row seg n i : Nat, i < n → n ≤ 7 →
    bitAt (pcHash row seg n) i = (if i = 6 then bitAt row 6 ^^ bitAt seg 2 else bitAt row i ^^ bitAt row (i + 7))) ∧
  (∀ row seg n : Nat, pcHash row seg n < 2 ^ n) ∧
  (∀ map n a : Nat, (decompose map n a).pc =
    if bitAt map 0 then bits a (6 + bits map 4 3) n ^^^ pcHash (decompose map n a).row (decompose map n a).seg n
    else bits a (6 + bits map 4 3) n) ∧
  (∀ map map' n a : Nat, bits map 4 3 = bits map' 4 3 →
    (decompose map n a).row = (decompose map' n a).row ∧ (decompose map n a).seg = (decompose map' n a).seg)

/-- R248: the home of a line. -/
def Obligations.HomeOfALineIsOneToOne : Prop :=
  (∀ a : Nat, homeSlice a =
    ((a >>> 6) ^^^ (a >>> 11) ^^^ (a >>> 16) ^^^ (a >>> 21) ^^^ (a >>> 26) ^^^ (a >>> 31) ^^^ (a >>> 36)) &&& 0x1F) ∧
  (∀ a : Nat, homeSet a = (a >>> 11) &&& 0x3FF) ∧
  (∀ a b : Nat, a < 2 ^ 40 → b < 2 ^ 40 → homeSlice a = homeSlice b → homeSet a = homeSet b →
    (a >>> 21) &&& 0x7FFFF = (b >>> 21) &&& 0x7FFFF → a >>> 6 = b >>> 6) ∧
  (∀ a b : Nat, a >>> 6 = b >>> 6 → homeSlice a = homeSlice b ∧ homeSet a = homeSet b)

/-- R14. The answers are on the state in which the packet's effect begins, which has the registers of the state before. -/
def Obligations.UnassignedRegistersReadZeroAndDropWrites : Prop :=
  (∀ a : Nat, regRow a ≠ none → a % 4 = 0) ∧
  (∀ a : Nat, regRow a = (blockRows (a / 2 ^ 16 % 2 ^ 8)).bind (fun rows => rowAt rows (a % 2 ^ 16))) ∧
  (∀ (a : Nat) (s : State), regRow a = none → (s.readReg a).2 = 0 ∧ (s.gated a = false → (s.readReg a).1 = s)) ∧
  (∀ (a v setNow : Nat) (o : PmOutcome) (s : State), regRow a = none → s.gated a = false → s.writeReg a v setNow o = s) ∧
  (∀ (h : Halyard) (k : Nat) (s : State), s.takes 0x10 h (fixedLen 2) → k < countOf h → countOf h ≤ 57 →
    regRow (arg h 0 + 4 * k) = none ∨ 2 ^ 24 ≤ arg h 0 →
    ∃ i, exec (.regRead h) s = .next ((s.begun 0x10 h).replyBad 0x10 h i)) ∧
  (∀ (h : Halyard) (o : WriteObs) (k : Nat) (s : State), s.takes 0x11 h regWriteLen → k < countOf h → countOf h ≤ 56 →
    regRow (arg h 0 + 4 * k) = none ∨ 2 ^ 24 ≤ arg h 0 →
    ∃ i, exec (.regWrite h o) s = .next ((s.begun 0x11 h).replyBad 0x11 h i)) ∧
  (∀ (h : Halyard) (o : WriteObs) (s : State), s.takes 0x12 h (fixedLen 3) → regRow (arg h 0) = none ∨ 2 ^ 24 ≤ arg h 0 →
    exec (.regRmw h o) s = .next ((s.begun 0x12 h).replyBad 0x12 h 0)) ∧
  (∀ (h : Halyard) (a : Nat) (s : State), s.takes 0x13 h readListLen → a ∈ h.payload → regRow a = none ∨ 2 ^ 24 ≤ a →
    ∃ i, exec (.regReadList h) s = .next ((s.begun 0x13 h).replyBad 0x13 h i)) ∧
  (∀ (op : Nat) (h : Halyard) (s : State), (s.begun op h).regs = s.regs)

/-- The second sentence of R147. -/
def Obligations.OwnedRegistersAreDenied : Prop :=
  (∀ (h : Halyard) (o : WriteObs) (k : Nat) (s : State), s.takes 0x11 h regWriteLen → rangeFault h 56 = none → k < countOf h →
    owned (arg h 0 + 4 * k) = true → exec (.regWrite h o) s = .next ((s.begun 0x11 h).replySt 0x11 h St.denied) ∧
      (s.begun 0x11 h).regs = s.regs) ∧
  (∀ (h : Halyard) (o : WriteObs) (s : State), s.takes 0x12 h (fixedLen 3) → arg h 0 < 2 ^ 24 → owned (arg h 0) = true →
    exec (.regRmw h o) s = .next ((s.begun 0x12 h).replySt 0x12 h St.denied) ∧ (s.begun 0x12 h).regs = s.regs)

/-- Accesses to a gated block (R17, R420). -/
def Obligations.GatedBlocksReadZeroAndDropWrites : Prop :=
  ∀ (a v setNow : Nat) (o : PmOutcome) (s : State), Regs.wf s.regs = true → regRow a ≠ none → a < 2 ^ 24 →
    s.blockClocked a = true → s.gated a = true →
    ∃ r w : State, s.readReg a = (r, 0) ∧ s.writeReg a v setNow o = w ∧
      r.flag CLK.GATED_LAST_WRITE = false ∧ w.flag CLK.GATED_LAST_WRITE = true ∧ ∀ t, t = r ∨ t = w →
      t.fget CLK.GATED_ACCESS_CNT_COUNT = min (s.fget CLK.GATED_ACCESS_CNT_COUNT + 1) (2 ^ CLK.GATED_ACCESS_CNT_COUNT.width - 1) ∧ t.fget CLK.GATED_LAST_ADDR = a ∧
      bitAt (t.reg CLK.INT_STAT).toNat 2 = true ∧
      ∀ b : Nat, b ≠ CLK.GATED_ACCESS_CNT → b ≠ CLK.GATED_LAST → b ≠ CLK.INT_STAT → b ≠ FLT.DROP_CNT → b ≠ FLT.INT_STAT →
        t.reg b = s.reg b

/-- Read after write, over the arrays of 80-byte words. -/
def Obligations.StoredWordsReadBack : Prop :=
  ∀ (s : State) (array line : Nat) (w : List Nat), Memory.wf s.mem = true → line < 2 ^ 25 → w.length = 80 → (∀ b ∈ w, b < 256) →
    (s.setWord array line w).word array line = w ∧
    (∀ array' line' : Nat, line' < 2 ^ 25 → array' ≠ array ∨ line' ≠ line →
      (s.setWord array line w).word array' line' = s.word array' line') ∧
    Memory.wf (s.setWord array line w).mem = true

/-- The encoder and the decoder of stored lines agree. -/
def Obligations.EncodedLinesDecodeToThemselves : Prop :=
  (∀ (data : List Nat) (utag dev : Nat) (erased : Option Nat), data.length = 64 → (∀ b ∈ data, b < 256) → utag < 2 ^ 16 →
    dev < 256 → dev % 32 = 1 →
    (encodeLine data utag dev).length = 80 ∧ (encodeLine data utag dev).take 64 = data ∧
    wordTag (encodeLine data utag dev) = utag ∧ nth (encodeLine data utag dev) 66 = dev ∧
    nth (encodeLine data utag dev) 67 = 0 ∧
    decodeLine erased (encodeLine data utag dev) = ⟨false, encodeLine data utag dev, 0, none⟩) ∧
  (∀ (s : State) (k : Nat) (poison retlost : Bool), let dev := s.devState8 k poison retlost
    dev < 256 ∧ dev % 32 = 1 ∧ bitAt dev 7 = poison ∧ bitAt dev 6 = retlost ∧ bits dev 5 1 = s.fget (ECC.PC_HEAL_EPOCH k))

/-- R169: which window decides, and the rights where none does. -/
def Obligations.GuardDecidesByTheHighestWindow : Prop :=
  (∀ (s : State) (a i : Nat), s.decidingWin a = some i ↔ i < 256 ∧ winContains (s.reg (RGD.WIN i)).toNat a = true ∧
    ∀ j : Nat, i < j → j < 256 → winContains (s.reg (RGD.WIN j)).toNat a = false) ∧
  (∀ (s : State) (cls a : Nat), (∀ j : Nat, j < 256 → winContains (s.reg (RGD.WIN j)).toNat a = false) →
    s.rights cls a = (s.flag RGD.CTRL_DEFAULT_ALLOW, s.flag RGD.CTRL_DEFAULT_ALLOW)) ∧
  (∀ (s : State) (cls a i : Nat), s.decidingWin a = some i → s.rights cls a =
    (s.grants (bits (s.reg (RGD.WIN i)).toNat 4 4) cls, s.grants (bits (s.reg (RGD.WIN i)).toNat 0 4) cls)) ∧
  (∀ w a : Nat, winContains w a = true ↔ bitAt w 8 = true ∧ bits w 14 17 * 2 ^ 20 ≤ a ∧
    a < bits w 14 17 * 2 ^ 20 + 2 ^ (20 + bits w 9 5)) ∧
  (∀ (s : State) (r : Req) (header cls : Nat), s.checkGuard { r with cls := header } cls = s.checkGuard r cls) ∧
  (∀ (s : State) (r : Req) (t : Txn) (x : Denied), t.req = r → s.checkForm r = none → s.checkRange r = true →
    s.checkClass r (s.classOf r.reqId) = true → s.checkGuard r (s.classOf r.reqId) = some x → s.checkTxn t =
      (s.deny x.addr (s.decidingWin x.at_) (s.classOf r.reqId) r.reqId x.write).refuseTxn { t with cls := s.classOf r.reqId } 2 0)

/-- The checks every packet passes (Table 4.15). -/
def Obligations.PacketsAreAnsweredByTheFirstFailedCheck : Prop :=
  (∀ (op : Nat) (h : Halyard) (len : List Nat → Option Nat) (st i : Nat) (f : State → Bool → State) (s : State),
    s.serves h → s.mayStart ⟨op, h⟩ = true → s.isRepeat ⟨op, h⟩ = false → s.packetCheck op h len = some (st, i) →
    s.packet op h len f = (if badLength h then (s.begun op h).int I.mgc 0 else s.begun op h).respond op h st i 0 []) ∧
  (∀ (op : Nat) (h : Halyard) (len : List Nat → Option Nat) (s : State),
    (badLength h = true → s.packetCheck op h len = some (St.badParam, 0)) ∧
    (badLength h = false → ∀ i : Nat, assignedOps.contains op = true → len h.payload = some i →
      s.packetCheck op h len = some (St.badParam, i)) ∧
    (badLength h = false → assignedOps.contains op = false ∨ len h.payload = none →
      (bitAt h.flags 7 = true → s.packetCheck op h len = some (St.badParam, 0)) ∧
      (bitAt h.flags 7 = false → s.noOpcode op = true → s.packetCheck op h len = some (St.badOpcode, 0))) ∧
    (badLength h = false → len h.payload = none → bitAt h.flags 7 = false → s.noOpcode op = false →
      (0xFE ≤ op → s.otp.vtm = false → s.packetCheck op h len = some (St.denied, 0)) ∧
      (op < 0xFE ∨ s.otp.vtm = true → s.srcDenied op h = true → s.packetCheck op h len = some (St.denied, 0)) ∧
      (op < 0xFE ∨ s.otp.vtm = true → s.srcDenied op h = false → s.devState = 0 → 0x20 ≤ op → op < 0x60 ∨ 0x70 ≤ op →
        s.packetCheck op h len = some (St.notInState, 0)) ∧
      (op < 0xFE ∨ s.otp.vtm = true → s.srcDenied op h = false → s.devState ≠ 0 →
        (0x70 ≤ op ∧ op ≤ 0x73 ∧ bitAt (s.fget CLK.GATE_STAT_GATED) 8 = true) ∨
          (op = 0x80 ∧ bitAt (s.fget CLK.GATE_STAT_GATED) 9 = true) →
        s.packetCheck op h len = some (St.notInState, 0))))

/-- The kept response (R137). -/
def Obligations.RepeatedTwoWirePacketsAreNotExecuted : Prop :=
  (∀ (op : Nat) (h old : Halyard) (b : List Nat) (len : List Nat → Option Nat) (f : State → Bool → State) (s : State),
    s.serves h → s.mayStart ⟨op, h⟩ = true → h.src = .twoWire → s.mgc.lastTw = some (⟨op, old⟩, b) →
    old.seq = h.seq → old.len = h.len → old.payload = h.payload →
    s.packet op h len f = (s.begun op h).repeatReply ∧ (s.begun op h).repeatReply.mgc.lastTw = some (⟨op, old⟩, b) ∧
      (s.begun op h).repeatReply.twb.unread = true) ∧
  (∀ (op st i id : Nat) (h : Halyard) (words : List Nat) (s : State), h.src = .twoWire →
    (s.respond op h st i id words).mgc.lastTw = some (⟨op, h⟩, respBytes op h st i id words) ∧
    (s.respond op h st i id words).twb.unread = true ∧ (s.respond op h st i id words).regs = s.regs) ∧
  (∀ (op st i id port reqId tag : Nat) (arrivalOnly : Bool) (h : Halyard) (words : List Nat) (s : State),
    h.src = .inband port reqId tag arrivalOnly →
    (s.respond op h st i id words).mgc.lastTw = s.mgc.lastTw ∧ s.isRepeat ⟨op, h⟩ = false)

/-- The write to PRT.SLIP (R60), with what it leaves unchanged. -/
def Obligations.SlipMovesOneLane : Prop :=
  ∀ (p m n : Nat) (s : State), Regs.wf s.regs = true → p < 8 → m < 4 → s.live = true → s.gated (PRT.SLIP p) = false →
    (0 < n → n < 64 → s.laneState p m = 5 → ∃ t, exec (.prtSlip p m n) s = .next t ∧
      t.fget (PRT.LANE_STAT_SLIP_POS p m) = (s.fget (PRT.LANE_STAT_SLIP_POS p m) + n) % 64 ∧
      t.flag (PRT.LANE_STAT_AM_LOCK p m) = false ∧ t.laneState p m = 5 ∧
      (∀ b : Nat, b ≠ PRT.LANE_STAT p m → t.reg b = s.reg b)) ∧
    (0 < n → n < 64 → s.laneState p m ≠ 5 → ∃ t, exec (.prtSlip p m n) s = .next t ∧
      bitAt (t.reg (PRT.INT_STAT p)).toNat 7 = true ∧
      (∀ b : Nat, b ≠ PRT.INT_STAT p → b ≠ FLT.DROP_CNT → b ≠ FLT.INT_STAT → t.reg b = s.reg b)) ∧
    exec (.prtSlip p m 0) s = .next s

/-- Atomic semantics, in words of 64 bits (Table 8.5, Table 3.11). -/
def Obligations.AtomicsFollowTable85 : Prop :=
  ∀ (old : BitVec 64) (d : List Nat), (∀ b ∈ d, b < 256) →
    let op : BitVec 64 := BitVec.ofNat 64 (ofLe (slice d 0 8))
    let cmp : BitVec 64 := BitVec.ofNat 64 (ofLe (slice d 8 8))
    atomNew 0x01 old.toNat d = (old + op).toNat ∧ atomNew 0x02 old.toNat d = op.toNat ∧
    atomNew 0x03 old.toNat d = (if old = cmp then op else old).toNat ∧
    atomNew 0x04 old.toNat d = (if old.slt op then old else op).toNat ∧
    atomNew 0x05 old.toNat d = (if old.slt op then op else old).toNat ∧
    atomNew 0x06 old.toNat d = (if old.ult op then old else op).toNat ∧
    atomNew 0x07 old.toNat d = (if old.ult op then op else old).toNat ∧
    atomNew 0x08 old.toNat d = (old ||| op).toNat ∧ atomNew 0x09 old.toNat d = (old &&& op).toNat ∧
    atomNew 0x0A old.toNat d = (old ^^^ op).toNat ∧
    (∀ wide : BitVec 128, atomNew 0x11 wide.toNat d =
      (if wide = BitVec.ofNat 128 (ofLe (slice d 16 16)) then BitVec.ofNat 128 (ofLe (slice d 0 16)) else wide).toNat) ∧
    (∀ wide : BitVec 128, atomNew 0x12 wide.toNat d = (BitVec.ofNat 128 (ofLe (slice d 0 16))).toNat)

/-- Wake sources (Table 14.4, R393). -/
def Obligations.TheFirstWakeSourceIsKept : Prop :=
  (∀ s : State, s.wakeable = true → s.pw.wake = none → s.pwr = 1 ∨ s.pwr = 2 →
    (s.pinsTaken = false → exec .wakePin s = .next { s with pw := { s.pw with wake := some (2, 0) } }) ∧
    exec .customerWakeTimer s = .next { s with pw := { s.pw with wake := some (5, 0) } }) ∧
  (∀ s : State, s.wakeable = true → s.pw.wake = none → s.pwr = 3 →
    (bitAt s.pw.cfg 4 = true → s.pinsTaken = false → exec .wakePin s = .next { s with pw := { s.pw with wake := some (2, 0) } }) ∧
    (bitAt s.pw.cfg 1 = true → exec .customerWakeTimer s = .next { s with pw := { s.pw with wake := some (5, 0) } }) ∧
    (bitAt s.pw.cfg 2 = true → exec .furlWakeTimer s = .next { s with pw := { s.pw with wake := some (4, 0) } })) ∧
  (∀ (w : Nat × Nat) (s : State), s.pw.wake = some w →
    exec .wakePin s = .next s ∧ exec .customerWakeTimer s = .next s ∧ exec .furlWakeTimer s = .next s) ∧
  (∀ s : State, s.pwr = 0 → s.pw.entry = none →
    exec .wakePin s = .next s ∧ exec .customerWakeTimer s = .next s ∧ exec .furlWakeTimer s = .next s) ∧
  (∀ s : State, s.pwr = 3 → s.pw.entry = none → s.pw.cfg = 0 →
    exec .wakePin s = .next s ∧ exec .customerWakeTimer s = .next s ∧ exec .furlWakeTimer s = .next s) ∧
  (∀ s : State, s.pinsTaken = true → exec .wakePin s = .next s)

/-- The always-on timer counts from power-on of VDD_AON (R410). -/
def Obligations.TheAlwaysOnTimerNeverGoesBack : Prop :=
  (∀ (c : Instr) (s t : State), exec c s = .next t → (∀ mv : Nat, c ≠ .railDip 5 mv) → s.aon ≤ t.aon) ∧
  (∀ s t : State, s.pending = [] → step s = .next t →
    t.aon = s.aon + 1 ∧ (s.frozen = true → t.now = s.now) ∧ (s.frozen = false → t.now = s.now + 1))

/-- MKR_SEQ (Table 2.3). -/
def Obligations.MarkersAreNumbered : Prop :=
  ∀ (p : Nat) (s : State), isPort p = true → s.live = true → s.sendsMarkers p = true → s.tables = true →
    ∃ t, exec (.markerSend p) s = .next t ∧ (t.port p).mkrSeq = ((s.port p).mkrSeq + 1) % 256

/-- The ingress queue of FLT (R480). -/
def Obligations.TheFaultQueueHolds256 : Prop :=
  ∀ (m : FaultMsg) (s : State), Regs.wf s.regs = true →
    (s.sourceExists m.source = true → s.flt.ingress.length < 256 →
      (s.post m).flt.ingress = s.flt.ingress ++ [{ m with arrival := s.now, num := s.flt.posted, noReact := m.noReact || !s.mclk }] ∧
      (s.post m).regs = s.regs ∧ (s.post m).flt.posted = s.flt.posted + 1) ∧
    (s.sourceExists m.source = true → 256 ≤ s.flt.ingress.length →
      (s.post m).flt = s.flt ∧ (s.post m).bbx.lost = true ∧ (s.post m).flag FLT.INT_STAT_MSG_DROP = true ∧
      (s.post m).fget FLT.DROP_CNT_COUNT = min (s.fget FLT.DROP_CNT_COUNT + 1) (2 ^ FLT.DROP_CNT_COUNT.width - 1) ∧
      ∀ b : Nat, b ≠ FLT.DROP_CNT → b ≠ FLT.INT_STAT → (s.post m).reg b = s.reg b) ∧
    (s.sourceExists m.source = false → s.post m = s)

/-- R115: the stack ID, its reset value, and what unassigned means for requests (R116). -/
def Obligations.StackIdIsUnassignedAtReset : Prop :=
  State.reset.fget LNK.STACK_ID_STACK_ID = 0xFFF ∧
  (∀ (s : State) (r : Req), r.stackId ≠ s.fget LNK.STACK_ID_STACK_ID → r.opcode ≠ 0x68 ∨ r.stackId ≠ 0xFFF →
    s.sidWrong r = true) ∧
  (∀ (s : State) (r : Req), s.fget LNK.STACK_ID_STACK_ID = 0xFFF → r.opcode ≠ 0x68 → s.sidWrong r = true)
end

