-- ==== Sys2Proof/Laws/Sparse.lean ====
section
/-! SUPPORT. What the operations on sparse tables do: a read after a write, and the canonical form that every write
keeps. -/

namespace Sys2Proof.Machine

variable {α : Type}

theorem SMap.wf_eq [DecidableEq α] (dflt : Nat → α) (m : SMap α) :
    SMap.wf dflt m = (SMap.rising m && m.all (fun e => decide (e.2 ≠ dflt e.1))) := by
  cases m <;> rfl

theorem SMap.above_weaken {b c : Nat} (h : c ≤ b) : ∀ {m : SMap α}, SMap.above b m = true → SMap.above c m = true
  | [], _ => rfl
  | (j, v) :: r, hm => by
    simp only [SMap.above, Bool.and_eq_true, decide_eq_true_eq] at hm ⊢
    exact ⟨by omega, hm.2⟩

theorem SMap.rising_tail {j : Nat} {v : α} {r : SMap α} (h : SMap.rising ((j, v) :: r) = true) : SMap.rising r = true := by
  cases r with
  | nil => rfl
  | cons e r =>
    obtain ⟨i, w⟩ := e
    simp only [SMap.rising, SMap.above, Bool.and_eq_true, decide_eq_true_eq] at h ⊢
    exact h.2

theorem SMap.above_rising {b : Nat} {m : SMap α} (h : SMap.above b m = true) : SMap.rising m = true := by
  cases m with
  | nil => rfl
  | cons e r =>
    obtain ⟨i, w⟩ := e
    simp only [SMap.rising, SMap.above, Bool.and_eq_true] at h ⊢
    exact h.2

theorem SMap.above_cons {b j : Nat} {v : α} {r : SMap α} :
    SMap.above b ((j, v) :: r) = true ↔ b < j ∧ SMap.above j r = true := by
  simp only [SMap.above, Bool.and_eq_true, decide_eq_true_eq]

theorem SMap.get_above (d : α) (k : Nat) : ∀ {m : SMap α}, SMap.above k m = true → SMap.get d m k = d
  | [], _ => rfl
  | (j, v) :: r, h => by
    rw [SMap.above_cons] at h
    have hj : j ≠ k := by omega
    rw [SMap.get, if_neg hj]
    exact SMap.get_above d k (SMap.above_weaken (by omega) h.2)

/-! ### Erasing -/

theorem SMap.above_erase {b k : Nat} : ∀ {m : SMap α}, SMap.above b m = true → SMap.above b (SMap.erase m k) = true
  | [], _ => rfl
  | (j, v) :: r, h => by
    rw [SMap.above_cons] at h
    unfold SMap.erase
    split
    · exact SMap.above_weaken (by omega) h.2
    · split
      · exact SMap.above_cons.mpr h
      · exact SMap.above_cons.mpr ⟨h.1, SMap.above_erase h.2⟩

theorem SMap.rising_erase {k : Nat} : ∀ {m : SMap α}, SMap.rising m = true → SMap.rising (SMap.erase m k) = true
  | [], _ => rfl
  | (j, v) :: r, h => by
    unfold SMap.erase
    split
    · exact SMap.rising_tail h
    · split
      · exact h
      · exact SMap.above_erase h

theorem SMap.mem_erase {k : Nat} {e : Nat × α} : ∀ {m : SMap α}, e ∈ SMap.erase m k → e ∈ m
  | [], h => h
  | (j, v) :: r, h => by
    unfold SMap.erase at h
    split at h
    · exact List.mem_cons_of_mem _ h
    · split at h
      · exact h
      · rcases List.mem_cons.mp h with h | h
        · exact List.mem_cons.mpr (Or.inl h)
        · exact List.mem_cons_of_mem _ (SMap.mem_erase h)

theorem SMap.get_erase_same (d : α) (k : Nat) : ∀ {m : SMap α}, SMap.rising m = true → SMap.get d (SMap.erase m k) k = d
  | [], _ => rfl
  | (j, v) :: r, h => by
    unfold SMap.erase
    split
    · rename_i hj; subst hj; exact SMap.get_above d j h
    · rename_i hj
      split
      · rename_i hk
        rw [SMap.get, if_neg hj]
        exact SMap.get_above d k (SMap.above_weaken (by omega) h)
      · rw [SMap.get, if_neg hj]
        exact SMap.get_erase_same d k (SMap.rising_tail h)

theorem SMap.get_erase_other (d : α) {k i : Nat} (hi : i ≠ k) : ∀ m : SMap α, SMap.get d (SMap.erase m k) i = SMap.get d m i
  | [] => rfl
  | (j, v) :: r => by
    unfold SMap.erase
    split
    · rename_i hj; subst hj; rw [SMap.get, if_neg (Ne.symm hi)]
    · split
      · rfl
      · simp only [SMap.get]
        split
        · rfl
        · exact SMap.get_erase_other d hi r

/-! ### Inserting -/

theorem SMap.above_insert {b k : Nat} {v : α} (hb : b < k) :
    ∀ {m : SMap α}, SMap.above b m = true → SMap.above b (SMap.insert m k v) = true
  | [], _ => by simp [SMap.insert, SMap.above, hb]
  | (j, w) :: r, h => by
    rw [SMap.above_cons] at h
    unfold SMap.insert
    split
    · rename_i hj; subst hj; exact SMap.above_cons.mpr h
    · split
      · exact SMap.above_cons.mpr ⟨hb, SMap.above_cons.mpr ⟨by omega, h.2⟩⟩
      · exact SMap.above_cons.mpr ⟨h.1, SMap.above_insert (by omega) h.2⟩

theorem SMap.rising_insert {k : Nat} {v : α} : ∀ {m : SMap α}, SMap.rising m = true → SMap.rising (SMap.insert m k v) = true
  | [], _ => rfl
  | (j, w) :: r, h => by
    unfold SMap.insert
    split
    · rename_i hj; subst hj; exact h
    · split
      · rename_i hk; exact (SMap.above_cons (v := w)).mpr ⟨hk, h⟩
      · exact SMap.above_insert (by omega) h

theorem SMap.mem_insert {k : Nat} {v : α} {e : Nat × α} : ∀ {m : SMap α}, e ∈ SMap.insert m k v → e = (k, v) ∨ e ∈ m
  | [], h => by simpa [SMap.insert] using h
  | (j, w) :: r, h => by
    unfold SMap.insert at h
    split at h
    · rcases List.mem_cons.mp h with h | h
      · exact Or.inl h
      · exact Or.inr (List.mem_cons_of_mem _ h)
    · split at h
      · rcases List.mem_cons.mp h with h | h
        · exact Or.inl h
        · exact Or.inr h
      · rcases List.mem_cons.mp h with h | h
        · exact Or.inr (List.mem_cons.mpr (Or.inl h))
        · rcases SMap.mem_insert h with h | h
          · exact Or.inl h
          · exact Or.inr (List.mem_cons_of_mem _ h)

theorem SMap.get_insert_same (d : α) (k : Nat) (v : α) : ∀ m : SMap α, SMap.get d (SMap.insert m k v) k = v
  | [] => by simp [SMap.insert, SMap.get]
  | (j, w) :: r => by
    unfold SMap.insert
    split
    · simp [SMap.get]
    · rename_i hj
      split
      · simp [SMap.get]
      · rw [SMap.get, if_neg hj]; exact SMap.get_insert_same d k v r

theorem SMap.get_insert_other (d : α) {k i : Nat} (v : α) (hi : i ≠ k) :
    ∀ m : SMap α, SMap.get d (SMap.insert m k v) i = SMap.get d m i
  | [] => by simp [SMap.insert, SMap.get, Ne.symm hi]
  | (j, w) :: r => by
    unfold SMap.insert
    split
    · rename_i hj; subst hj; simp [SMap.get, Ne.symm hi]
    · split
      · simp [SMap.get, Ne.symm hi]
      · simp only [SMap.get]
        split
        · rfl
        · exact SMap.get_insert_other d v hi r

/-! ### Filtering -/

theorem SMap.above_filter {b : Nat} (p : Nat × α → Bool) : ∀ {m : SMap α}, SMap.above b m = true → SMap.above b (m.filter p) = true
  | [], _ => rfl
  | (j, v) :: r, h => by
    rw [SMap.above_cons] at h
    rw [List.filter_cons]
    split
    · exact SMap.above_cons.mpr ⟨h.1, SMap.above_filter p h.2⟩
    · exact SMap.above_weaken (by omega) (SMap.above_filter p h.2)

theorem SMap.rising_filter (p : Nat × α → Bool) : ∀ {m : SMap α}, SMap.rising m = true → SMap.rising (m.filter p) = true
  | [], _ => rfl
  | (j, v) :: r, h => by
    rw [List.filter_cons]
    split
    · exact SMap.above_filter p h
    · exact SMap.above_rising (SMap.above_filter p h)

/-! ### Changing every entry -/

theorem SMap.above_map {β : Type} {b : Nat} (f : Nat × α → β) :
    ∀ {m : SMap α}, SMap.above b m = true → SMap.above b (m.map (fun e => (e.1, f e)) : SMap β) = true
  | [], _ => rfl
  | (j, v) :: r, h => by
    rw [SMap.above_cons] at h
    exact SMap.above_cons.mpr ⟨h.1, SMap.above_map f h.2⟩

theorem SMap.rising_map {β : Type} (f : Nat × α → β) :
    ∀ {m : SMap α}, SMap.rising m = true → SMap.rising (m.map (fun e => (e.1, f e)) : SMap β) = true
  | [], _ => rfl
  | (_, _) :: _, h => SMap.above_map f h

/-! ### Writing -/

variable [DecidableEq α]

theorem SMap.rising_set (d : α) (k : Nat) (v : α) {m : SMap α} (h : SMap.rising m = true) :
    SMap.rising (SMap.set d m k v) = true := by
  unfold SMap.set
  split
  · exact SMap.rising_erase h
  · exact SMap.rising_insert h

/-- A read of the key just written. -/
theorem SMap.get_set_same (d : α) (k : Nat) (v : α) {m : SMap α} (h : SMap.rising m = true) :
    SMap.get d (SMap.set d m k v) k = v := by
  unfold SMap.set
  split
  · rename_i hv; rw [SMap.get_erase_same d k h, hv]
  · exact SMap.get_insert_same d k v m

/-- A read of another key. -/
theorem SMap.get_set_other (d c : α) {k i : Nat} (v : α) (hi : i ≠ k) (m : SMap α) :
    SMap.get d (SMap.set c m k v) i = SMap.get d m i := by
  unfold SMap.set
  split
  · exact SMap.get_erase_other d hi m
  · exact SMap.get_insert_other d v hi m

theorem SMap.rising_of_wf {dflt : Nat → α} {m : SMap α} (h : SMap.wf dflt m = true) : SMap.rising m = true := by
  rw [SMap.wf_eq, Bool.and_eq_true] at h; exact h.1

/-- A write keeps the canonical form. -/
theorem SMap.wf_set {dflt : Nat → α} {m : SMap α} (k : Nat) (v : α) (h : SMap.wf dflt m = true) :
    SMap.wf dflt (SMap.set (dflt k) m k v) = true := by
  rw [SMap.wf_eq, Bool.and_eq_true, List.all_eq_true] at h ⊢
  unfold SMap.set
  split
  · exact ⟨SMap.rising_erase h.1, fun e he => h.2 e (SMap.mem_erase he)⟩
  · rename_i hv
    refine ⟨SMap.rising_insert h.1, fun e he => ?_⟩
    rcases SMap.mem_insert he with rfl | he
    · exact decide_eq_true hv
    · exact h.2 e he

/-- Dropping entries keeps the canonical form. -/
theorem SMap.wf_filter {dflt : Nat → α} (p : Nat × α → Bool) {m : SMap α} (h : SMap.wf dflt m = true) :
    SMap.wf dflt (m.filter p) = true := by
  rw [SMap.wf_eq, Bool.and_eq_true, List.all_eq_true] at h ⊢
  exact ⟨SMap.rising_filter p h.1, fun e he => h.2 e (List.mem_of_mem_filter he)⟩

end Sys2Proof.Machine
end

