-- ==== Sys2Proof/Laws/Frame.lean ====
section
/-! SUPPORT. What every operation of the part keeps, said once. `Keeps F s t`: from `s` to `t` memory and the register file keep
their canonical forms, the queue is the same, and so is every piece whose bit `F` does not have. -/

namespace Sys2Proof.Machine

/-- The bit of a piece in a footprint. -/
def Piece.bit : Piece → Nat
  | .part => 0
  | .time => 1
  | .free => 2
  | .regs => 3
  | .arrays => 4
  | .ports => 5
  | .links => 6
  | .txns => 7
  | .sch => 8
  | .slices => 9
  | .engs => 10
  | .refs => 11
  | .remap => 12
  | .flush => 13
  | .ecc => 14
  | .stk => 15
  | .scn => 16
  | .tap => 17
  | .cal => 18
  | .thm => 19
  | .clk => 20
  | .twb => 21
  | .mgc => 22
  | .flt => 23
  | .bbx => 24
  | .trc => 25
  | .cns => 26
  | .otp => 27
  | .pw => 28
  | .inReset => 29

/-- The footprint of a list of pieces. -/
def Piece.mask (l : List Piece) : Nat := l.foldl (fun m p => m ||| 2 ^ p.bit) 0

/-- A piece outside a list has no bit in its footprint. -/
theorem Piece.mask_bit (l : List Piece) (p : Piece) (h : p ∉ l) : (Piece.mask l).testBit p.bit = false := by
  have key : ∀ (l : List Piece) (m : Nat), p ∉ l → (l.foldl (fun m p => m ||| 2 ^ p.bit) m).testBit p.bit = m.testBit p.bit := by
    intro l
    induction l with
    | nil => intro m _; rfl
    | cons a l ih =>
      intro m h
      rw [List.foldl_cons, ih _ (fun hh => h (List.mem_cons_of_mem _ hh)), Nat.testBit_or, Nat.testBit_two_pow]
      have hne : a.bit ≠ p.bit := by
        intro e
        apply h
        have : a = p := by revert e; cases a <;> cases p <;> simp [Piece.bit]
        rw [this]; exact List.mem_cons_self
      simp only [hne, decide_false, Bool.or_false]
  unfold Piece.mask
  rw [key l 0 h, Nat.zero_testBit]

/-- One footprint lies within another. -/
def Sub (A F : Nat) : Prop := F ||| A = F

theorem Sub.refl (A : Nat) : Sub A A := Nat.or_self A

theorem Sub.trans {A B C : Nat} (h : Sub A B) (k : Sub B C) : Sub A C := by
  unfold Sub at *
  rw [← k, Nat.or_assoc, h]

theorem Sub.within {A B F : Nat} (k : Sub B F) (h : B ||| A = B) : Sub A F := Sub.trans h k

theorem Sub.bit {A F : Nat} (h : Sub A F) {i : Nat} (hi : F.testBit i = false) : A.testBit i = false := by
  unfold Sub at h
  rw [← h, Nat.testBit_or] at hi
  simp only [Bool.or_eq_false_iff] at hi
  exact hi.2

theorem State.tables_eq (s : State) : s.tables = true ↔
    SMap.rising s.ports = true ∧ SMap.rising s.links = true ∧ SMap.rising s.slices = true ∧ SMap.rising s.engs = true := by
  simp only [State.tables, Bool.and_eq_true, and_assoc]

theorem State.tables_ports {s : State} (h : s.tables = true) : SMap.rising s.ports = true := (s.tables_eq.mp h).1
theorem State.tables_links {s : State} (h : s.tables = true) : SMap.rising s.links = true := (s.tables_eq.mp h).2.1
theorem State.tables_slices {s : State} (h : s.tables = true) : SMap.rising s.slices = true := (s.tables_eq.mp h).2.2.1
theorem State.tables_engs {s : State} (h : s.tables = true) : SMap.rising s.engs = true := (s.tables_eq.mp h).2.2.2

/-- What an operation of footprint `F` keeps. -/
structure Keeps (F : Nat) (s t : State) : Prop where
  mem : Memory.wf s.mem = true → Memory.wf t.mem = true
  regs : Regs.wf s.regs = true → Regs.wf t.regs = true
  tables : s.tables = true → t.tables = true
  pending : t.pending = s.pending
  rest : ∀ p : Piece, F.testBit p.bit = false → p.Same s t

theorem Piece.Same.refl (p : Piece) (s : State) : p.Same s s := by cases p <;> simp [Piece.Same]

theorem Piece.Same.trans {p : Piece} {r s t : State} (a : p.Same r s) (b : p.Same s t) : p.Same r t := by
  cases p <;> simp only [Piece.Same] at * <;> simp [*]

theorem Keeps.refl {F : Nat} (s : State) : Keeps F s s := ⟨id, id, id, rfl, fun p _ => Piece.Same.refl p s⟩

theorem Keeps.trans {F : Nat} {r s t : State} (a : Keeps F r s) (b : Keeps F s t) : Keeps F r t :=
  ⟨b.mem ∘ a.mem, b.regs ∘ a.regs, b.tables ∘ a.tables, b.pending.trans a.pending, fun p h => (a.rest p h).trans (b.rest p h)⟩

theorem Keeps.weaken {A F : Nat} {s t : State} (a : Keeps A s t) (h : Sub A F) : Keeps F s t :=
  ⟨a.mem, a.regs, a.tables, a.pending, fun p k => a.rest p (h.bit k)⟩

theorem Keeps.ite {F : Nat} {r a b : State} {c : Prop} [Decidable c] (ha : c → Keeps F r a) (hb : ¬c → Keeps F r b) :
    Keeps F r (if c then a else b) := by
  split
  · exact ha ‹_›
  · exact hb ‹_›

theorem Keeps.fst {F : Nat} {α : Type} {r a : State} {b : α} {p : State × α} (h : Keeps F r p.1) (e : p = (a, b)) :
    Keeps F r a := by
  subst e
  exact h
theorem Keeps.snd {F : Nat} {α : Type} {r a : State} {b : α} {p : α × State} (h : Keeps F r p.2) (e : p = (b, a)) :
    Keeps F r a := by
  subst e
  exact h

theorem Keeps.getD {F : Nat} {r t : State} {o : Option State} (ht : Keeps F r t) (h : ∀ u, o = some u → Keeps F t u) :
    Keeps F r (o.getD t) := by
  cases o with
  | none => exact ht
  | some u => exact ht.trans (h u rfl)

theorem Keeps.pair {F : Nat} {α : Type} {r t : State} (h : Keeps F r t) (x : α) : Keeps F r (t, x).1 := h

theorem Keeps.foldl {F : Nat} {α : Type} {r : State} (l : List α) (f : State → α → State)
    (h : ∀ s a, Keeps F r s → Keeps F r (f s a)) {s : State} (hs : Keeps F r s) : Keeps F r (l.foldl f s) := by
  induction l generalizing s with
  | nil => exact hs
  | cons a l ih => exact ih (h _ a hs)

theorem Keeps.foldlP {F : Nat} {α β : Type} {r : State} (l : List α) (f : State × β → α → State × β)
    (h : ∀ p a, Keeps F r p.1 → Keeps F r (f p a).1) {p : State × β} (hs : Keeps F r p.1) :
    Keeps F r (l.foldl f p).1 := by
  induction l generalizing p with
  | nil => exact hs
  | cons a l ih => exact ih (h _ a hs)

/-- An outcome is a next state, and keeps what its footprint says. -/
def Keeps.Out (F : Nat) (s : State) (o : Host.Outcome State Fault Refusal) : Prop := ∃ t, o = .next t ∧ Keeps F s t

theorem Keeps.done {F : Nat} {r t : State} (h : Keeps F r t) : Keeps.Out F r (Machine.done t) := ⟨t, rfl, h⟩

/-! ### Record updates of other fields than the registers and memory -/

theorem Keeps.mk_aon {F : Nat} {r t : State} (h : Keeps F r t) {x_aon} (hF : Sub 0x2 F) :
    Keeps F r ⟨t.part, t.now, x_aon, t.free, t.regs, t.mem, t.fillOne, t.ports, t.links, t.nextRx, t.txns, t.sch, t.slices, t.engs, t.refs, t.remap, t.flush, t.ecc, t.stk, t.scn, t.tap, t.cal, t.thm, t.clk, t.twb, t.mgc, t.flt, t.bbx, t.trc, t.cns, t.otp, t.pw, t.inReset, t.pending⟩ :=
  ⟨h.mem, h.regs, h.tables, h.pending, fun p k => by
    have b := hF.bit k
    cases p <;> first | exact h.rest _ k | exact absurd b (by decide)⟩

theorem Keeps.mk_aon_clk {F : Nat} {r t : State} (h : Keeps F r t) {x_aon x_clk} (hF : Sub 0x100002 F) :
    Keeps F r ⟨t.part, t.now, x_aon, t.free, t.regs, t.mem, t.fillOne, t.ports, t.links, t.nextRx, t.txns, t.sch, t.slices, t.engs, t.refs, t.remap, t.flush, t.ecc, t.stk, t.scn, t.tap, t.cal, t.thm, x_clk, t.twb, t.mgc, t.flt, t.bbx, t.trc, t.cns, t.otp, t.pw, t.inReset, t.pending⟩ :=
  ⟨h.mem, h.regs, h.tables, h.pending, fun p k => by
    have b := hF.bit k
    cases p <;> first | exact h.rest _ k | exact absurd b (by decide)⟩

theorem Keeps.mk_bbx {F : Nat} {r t : State} (h : Keeps F r t) {x_bbx} (hF : Sub 0x1000000 F) :
    Keeps F r ⟨t.part, t.now, t.aon, t.free, t.regs, t.mem, t.fillOne, t.ports, t.links, t.nextRx, t.txns, t.sch, t.slices, t.engs, t.refs, t.remap, t.flush, t.ecc, t.stk, t.scn, t.tap, t.cal, t.thm, t.clk, t.twb, t.mgc, t.flt, x_bbx, t.trc, t.cns, t.otp, t.pw, t.inReset, t.pending⟩ :=
  ⟨h.mem, h.regs, h.tables, h.pending, fun p k => by
    have b := hF.bit k
    cases p <;> first | exact h.rest _ k | exact absurd b (by decide)⟩

theorem Keeps.mk_bbx_pw {F : Nat} {r t : State} (h : Keeps F r t) {x_bbx x_pw} (hF : Sub 0x11000000 F) :
    Keeps F r ⟨t.part, t.now, t.aon, t.free, t.regs, t.mem, t.fillOne, t.ports, t.links, t.nextRx, t.txns, t.sch, t.slices, t.engs, t.refs, t.remap, t.flush, t.ecc, t.stk, t.scn, t.tap, t.cal, t.thm, t.clk, t.twb, t.mgc, t.flt, x_bbx, t.trc, t.cns, t.otp, x_pw, t.inReset, t.pending⟩ :=
  ⟨h.mem, h.regs, h.tables, h.pending, fun p k => by
    have b := hF.bit k
    cases p <;> first | exact h.rest _ k | exact absurd b (by decide)⟩

theorem Keeps.mk_cal {F : Nat} {r t : State} (h : Keeps F r t) {x_cal} (hF : Sub 0x40000 F) :
    Keeps F r ⟨t.part, t.now, t.aon, t.free, t.regs, t.mem, t.fillOne, t.ports, t.links, t.nextRx, t.txns, t.sch, t.slices, t.engs, t.refs, t.remap, t.flush, t.ecc, t.stk, t.scn, t.tap, x_cal, t.thm, t.clk, t.twb, t.mgc, t.flt, t.bbx, t.trc, t.cns, t.otp, t.pw, t.inReset, t.pending⟩ :=
  ⟨h.mem, h.regs, h.tables, h.pending, fun p k => by
    have b := hF.bit k
    cases p <;> first | exact h.rest _ k | exact absurd b (by decide)⟩

theorem Keeps.mk_cal_clk_pw {F : Nat} {r t : State} (h : Keeps F r t) {x_cal x_clk x_pw} (hF : Sub 0x10140000 F) :
    Keeps F r ⟨t.part, t.now, t.aon, t.free, t.regs, t.mem, t.fillOne, t.ports, t.links, t.nextRx, t.txns, t.sch, t.slices, t.engs, t.refs, t.remap, t.flush, t.ecc, t.stk, t.scn, t.tap, x_cal, t.thm, x_clk, t.twb, t.mgc, t.flt, t.bbx, t.trc, t.cns, t.otp, x_pw, t.inReset, t.pending⟩ :=
  ⟨h.mem, h.regs, h.tables, h.pending, fun p k => by
    have b := hF.bit k
    cases p <;> first | exact h.rest _ k | exact absurd b (by decide)⟩

theorem Keeps.mk_clk {F : Nat} {r t : State} (h : Keeps F r t) {x_clk} (hF : Sub 0x100000 F) :
    Keeps F r ⟨t.part, t.now, t.aon, t.free, t.regs, t.mem, t.fillOne, t.ports, t.links, t.nextRx, t.txns, t.sch, t.slices, t.engs, t.refs, t.remap, t.flush, t.ecc, t.stk, t.scn, t.tap, t.cal, t.thm, x_clk, t.twb, t.mgc, t.flt, t.bbx, t.trc, t.cns, t.otp, t.pw, t.inReset, t.pending⟩ :=
  ⟨h.mem, h.regs, h.tables, h.pending, fun p k => by
    have b := hF.bit k
    cases p <;> first | exact h.rest _ k | exact absurd b (by decide)⟩

theorem Keeps.mk_cns {F : Nat} {r t : State} (h : Keeps F r t) {x_cns} (hF : Sub 0x4000000 F) :
    Keeps F r ⟨t.part, t.now, t.aon, t.free, t.regs, t.mem, t.fillOne, t.ports, t.links, t.nextRx, t.txns, t.sch, t.slices, t.engs, t.refs, t.remap, t.flush, t.ecc, t.stk, t.scn, t.tap, t.cal, t.thm, t.clk, t.twb, t.mgc, t.flt, t.bbx, t.trc, x_cns, t.otp, t.pw, t.inReset, t.pending⟩ :=
  ⟨h.mem, h.regs, h.tables, h.pending, fun p k => by
    have b := hF.bit k
    cases p <;> first | exact h.rest _ k | exact absurd b (by decide)⟩

theorem Keeps.mk_ecc {F : Nat} {r t : State} (h : Keeps F r t) {x_ecc} (hF : Sub 0x4000 F) :
    Keeps F r ⟨t.part, t.now, t.aon, t.free, t.regs, t.mem, t.fillOne, t.ports, t.links, t.nextRx, t.txns, t.sch, t.slices, t.engs, t.refs, t.remap, t.flush, x_ecc, t.stk, t.scn, t.tap, t.cal, t.thm, t.clk, t.twb, t.mgc, t.flt, t.bbx, t.trc, t.cns, t.otp, t.pw, t.inReset, t.pending⟩ :=
  ⟨h.mem, h.regs, h.tables, h.pending, fun p k => by
    have b := hF.bit k
    cases p <;> first | exact h.rest _ k | exact absurd b (by decide)⟩

theorem Keeps.mk_ecc_pw {F : Nat} {r t : State} (h : Keeps F r t) {x_ecc x_pw} (hF : Sub 0x10004000 F) :
    Keeps F r ⟨t.part, t.now, t.aon, t.free, t.regs, t.mem, t.fillOne, t.ports, t.links, t.nextRx, t.txns, t.sch, t.slices, t.engs, t.refs, t.remap, t.flush, x_ecc, t.stk, t.scn, t.tap, t.cal, t.thm, t.clk, t.twb, t.mgc, t.flt, t.bbx, t.trc, t.cns, t.otp, x_pw, t.inReset, t.pending⟩ :=
  ⟨h.mem, h.regs, h.tables, h.pending, fun p k => by
    have b := hF.bit k
    cases p <;> first | exact h.rest _ k | exact absurd b (by decide)⟩

theorem Keeps.mk_ecc_stk {F : Nat} {r t : State} (h : Keeps F r t) {x_ecc x_stk} (hF : Sub 0xC000 F) :
    Keeps F r ⟨t.part, t.now, t.aon, t.free, t.regs, t.mem, t.fillOne, t.ports, t.links, t.nextRx, t.txns, t.sch, t.slices, t.engs, t.refs, t.remap, t.flush, x_ecc, x_stk, t.scn, t.tap, t.cal, t.thm, t.clk, t.twb, t.mgc, t.flt, t.bbx, t.trc, t.cns, t.otp, t.pw, t.inReset, t.pending⟩ :=
  ⟨h.mem, h.regs, h.tables, h.pending, fun p k => by
    have b := hF.bit k
    cases p <;> first | exact h.rest _ k | exact absurd b (by decide)⟩

theorem Keeps.mk_engs {F : Nat} {r t : State} (h : Keeps F r t) {x_engs} (hF : Sub 0x400 F) (h_engs : r.tables = true → t.tables = true → SMap.rising x_engs = true) :
    Keeps F r ⟨t.part, t.now, t.aon, t.free, t.regs, t.mem, t.fillOne, t.ports, t.links, t.nextRx, t.txns, t.sch, t.slices, x_engs, t.refs, t.remap, t.flush, t.ecc, t.stk, t.scn, t.tap, t.cal, t.thm, t.clk, t.twb, t.mgc, t.flt, t.bbx, t.trc, t.cns, t.otp, t.pw, t.inReset, t.pending⟩ :=
  ⟨h.mem, h.regs, fun k => (State.tables_eq _).mpr ⟨State.tables_ports (s := t) (h.tables k), State.tables_links (s := t) (h.tables k), State.tables_slices (s := t) (h.tables k), h_engs k (h.tables k)⟩, h.pending, fun p k => by
    have b := hF.bit k
    cases p <;> first | exact h.rest _ k | exact absurd b (by decide)⟩

theorem Keeps.mk_fillOne {F : Nat} {r t : State} (h : Keeps F r t) {x_fillOne} (hF : Sub 0x10 F) :
    Keeps F r ⟨t.part, t.now, t.aon, t.free, t.regs, t.mem, x_fillOne, t.ports, t.links, t.nextRx, t.txns, t.sch, t.slices, t.engs, t.refs, t.remap, t.flush, t.ecc, t.stk, t.scn, t.tap, t.cal, t.thm, t.clk, t.twb, t.mgc, t.flt, t.bbx, t.trc, t.cns, t.otp, t.pw, t.inReset, t.pending⟩ :=
  ⟨h.mem, h.regs, h.tables, h.pending, fun p k => by
    have b := hF.bit k
    cases p <;> first | exact h.rest _ k | exact absurd b (by decide)⟩

theorem Keeps.mk_flt {F : Nat} {r t : State} (h : Keeps F r t) {x_flt} (hF : Sub 0x800000 F) :
    Keeps F r ⟨t.part, t.now, t.aon, t.free, t.regs, t.mem, t.fillOne, t.ports, t.links, t.nextRx, t.txns, t.sch, t.slices, t.engs, t.refs, t.remap, t.flush, t.ecc, t.stk, t.scn, t.tap, t.cal, t.thm, t.clk, t.twb, t.mgc, x_flt, t.bbx, t.trc, t.cns, t.otp, t.pw, t.inReset, t.pending⟩ :=
  ⟨h.mem, h.regs, h.tables, h.pending, fun p k => by
    have b := hF.bit k
    cases p <;> first | exact h.rest _ k | exact absurd b (by decide)⟩

theorem Keeps.mk_flush {F : Nat} {r t : State} (h : Keeps F r t) {x_flush} (hF : Sub 0x2000 F) :
    Keeps F r ⟨t.part, t.now, t.aon, t.free, t.regs, t.mem, t.fillOne, t.ports, t.links, t.nextRx, t.txns, t.sch, t.slices, t.engs, t.refs, t.remap, x_flush, t.ecc, t.stk, t.scn, t.tap, t.cal, t.thm, t.clk, t.twb, t.mgc, t.flt, t.bbx, t.trc, t.cns, t.otp, t.pw, t.inReset, t.pending⟩ :=
  ⟨h.mem, h.regs, h.tables, h.pending, fun p k => by
    have b := hF.bit k
    cases p <;> first | exact h.rest _ k | exact absurd b (by decide)⟩

theorem Keeps.mk_flush_mgc {F : Nat} {r t : State} (h : Keeps F r t) {x_flush x_mgc} (hF : Sub 0x402000 F) :
    Keeps F r ⟨t.part, t.now, t.aon, t.free, t.regs, t.mem, t.fillOne, t.ports, t.links, t.nextRx, t.txns, t.sch, t.slices, t.engs, t.refs, t.remap, x_flush, t.ecc, t.stk, t.scn, t.tap, t.cal, t.thm, t.clk, t.twb, x_mgc, t.flt, t.bbx, t.trc, t.cns, t.otp, t.pw, t.inReset, t.pending⟩ :=
  ⟨h.mem, h.regs, h.tables, h.pending, fun p k => by
    have b := hF.bit k
    cases p <;> first | exact h.rest _ k | exact absurd b (by decide)⟩

theorem Keeps.mk_flush_pw {F : Nat} {r t : State} (h : Keeps F r t) {x_flush x_pw} (hF : Sub 0x10002000 F) :
    Keeps F r ⟨t.part, t.now, t.aon, t.free, t.regs, t.mem, t.fillOne, t.ports, t.links, t.nextRx, t.txns, t.sch, t.slices, t.engs, t.refs, t.remap, x_flush, t.ecc, t.stk, t.scn, t.tap, t.cal, t.thm, t.clk, t.twb, t.mgc, t.flt, t.bbx, t.trc, t.cns, t.otp, x_pw, t.inReset, t.pending⟩ :=
  ⟨h.mem, h.regs, h.tables, h.pending, fun p k => by
    have b := hF.bit k
    cases p <;> first | exact h.rest _ k | exact absurd b (by decide)⟩

theorem Keeps.mk_free {F : Nat} {r t : State} (h : Keeps F r t) {x_free} (hF : Sub 0x4 F) :
    Keeps F r ⟨t.part, t.now, t.aon, x_free, t.regs, t.mem, t.fillOne, t.ports, t.links, t.nextRx, t.txns, t.sch, t.slices, t.engs, t.refs, t.remap, t.flush, t.ecc, t.stk, t.scn, t.tap, t.cal, t.thm, t.clk, t.twb, t.mgc, t.flt, t.bbx, t.trc, t.cns, t.otp, t.pw, t.inReset, t.pending⟩ :=
  ⟨h.mem, h.regs, h.tables, h.pending, fun p k => by
    have b := hF.bit k
    cases p <;> first | exact h.rest _ k | exact absurd b (by decide)⟩

theorem Keeps.mk_inReset {F : Nat} {r t : State} (h : Keeps F r t) {x_inReset} (hF : Sub 0x20000000 F) :
    Keeps F r ⟨t.part, t.now, t.aon, t.free, t.regs, t.mem, t.fillOne, t.ports, t.links, t.nextRx, t.txns, t.sch, t.slices, t.engs, t.refs, t.remap, t.flush, t.ecc, t.stk, t.scn, t.tap, t.cal, t.thm, t.clk, t.twb, t.mgc, t.flt, t.bbx, t.trc, t.cns, t.otp, t.pw, x_inReset, t.pending⟩ :=
  ⟨h.mem, h.regs, h.tables, h.pending, fun p k => by
    have b := hF.bit k
    cases p <;> first | exact h.rest _ k | exact absurd b (by decide)⟩

theorem Keeps.mk_links {F : Nat} {r t : State} (h : Keeps F r t) {x_links} (hF : Sub 0x40 F) (h_links : r.tables = true → t.tables = true → SMap.rising x_links = true) :
    Keeps F r ⟨t.part, t.now, t.aon, t.free, t.regs, t.mem, t.fillOne, t.ports, x_links, t.nextRx, t.txns, t.sch, t.slices, t.engs, t.refs, t.remap, t.flush, t.ecc, t.stk, t.scn, t.tap, t.cal, t.thm, t.clk, t.twb, t.mgc, t.flt, t.bbx, t.trc, t.cns, t.otp, t.pw, t.inReset, t.pending⟩ :=
  ⟨h.mem, h.regs, fun k => (State.tables_eq _).mpr ⟨State.tables_ports (s := t) (h.tables k), h_links k (h.tables k), State.tables_slices (s := t) (h.tables k), State.tables_engs (s := t) (h.tables k)⟩, h.pending, fun p k => by
    have b := hF.bit k
    cases p <;> first | exact h.rest _ k | exact absurd b (by decide)⟩

theorem Keeps.mk_mgc {F : Nat} {r t : State} (h : Keeps F r t) {x_mgc} (hF : Sub 0x400000 F) :
    Keeps F r ⟨t.part, t.now, t.aon, t.free, t.regs, t.mem, t.fillOne, t.ports, t.links, t.nextRx, t.txns, t.sch, t.slices, t.engs, t.refs, t.remap, t.flush, t.ecc, t.stk, t.scn, t.tap, t.cal, t.thm, t.clk, t.twb, x_mgc, t.flt, t.bbx, t.trc, t.cns, t.otp, t.pw, t.inReset, t.pending⟩ :=
  ⟨h.mem, h.regs, h.tables, h.pending, fun p k => by
    have b := hF.bit k
    cases p <;> first | exact h.rest _ k | exact absurd b (by decide)⟩

theorem Keeps.mk_mgc_pw {F : Nat} {r t : State} (h : Keeps F r t) {x_mgc x_pw} (hF : Sub 0x10400000 F) :
    Keeps F r ⟨t.part, t.now, t.aon, t.free, t.regs, t.mem, t.fillOne, t.ports, t.links, t.nextRx, t.txns, t.sch, t.slices, t.engs, t.refs, t.remap, t.flush, t.ecc, t.stk, t.scn, t.tap, t.cal, t.thm, t.clk, t.twb, x_mgc, t.flt, t.bbx, t.trc, t.cns, t.otp, x_pw, t.inReset, t.pending⟩ :=
  ⟨h.mem, h.regs, h.tables, h.pending, fun p k => by
    have b := hF.bit k
    cases p <;> first | exact h.rest _ k | exact absurd b (by decide)⟩

theorem Keeps.mk_nextRx {F : Nat} {r t : State} (h : Keeps F r t) {x_nextRx} (hF : Sub 0x80 F) :
    Keeps F r ⟨t.part, t.now, t.aon, t.free, t.regs, t.mem, t.fillOne, t.ports, t.links, x_nextRx, t.txns, t.sch, t.slices, t.engs, t.refs, t.remap, t.flush, t.ecc, t.stk, t.scn, t.tap, t.cal, t.thm, t.clk, t.twb, t.mgc, t.flt, t.bbx, t.trc, t.cns, t.otp, t.pw, t.inReset, t.pending⟩ :=
  ⟨h.mem, h.regs, h.tables, h.pending, fun p k => by
    have b := hF.bit k
    cases p <;> first | exact h.rest _ k | exact absurd b (by decide)⟩

theorem Keeps.mk_nextRx_txns {F : Nat} {r t : State} (h : Keeps F r t) {x_nextRx x_txns} (hF : Sub 0x80 F) :
    Keeps F r ⟨t.part, t.now, t.aon, t.free, t.regs, t.mem, t.fillOne, t.ports, t.links, x_nextRx, x_txns, t.sch, t.slices, t.engs, t.refs, t.remap, t.flush, t.ecc, t.stk, t.scn, t.tap, t.cal, t.thm, t.clk, t.twb, t.mgc, t.flt, t.bbx, t.trc, t.cns, t.otp, t.pw, t.inReset, t.pending⟩ :=
  ⟨h.mem, h.regs, h.tables, h.pending, fun p k => by
    have b := hF.bit k
    cases p <;> first | exact h.rest _ k | exact absurd b (by decide)⟩

theorem Keeps.mk_now_aon {F : Nat} {r t : State} (h : Keeps F r t) {x_now x_aon} (hF : Sub 0x2 F) :
    Keeps F r ⟨t.part, x_now, x_aon, t.free, t.regs, t.mem, t.fillOne, t.ports, t.links, t.nextRx, t.txns, t.sch, t.slices, t.engs, t.refs, t.remap, t.flush, t.ecc, t.stk, t.scn, t.tap, t.cal, t.thm, t.clk, t.twb, t.mgc, t.flt, t.bbx, t.trc, t.cns, t.otp, t.pw, t.inReset, t.pending⟩ :=
  ⟨h.mem, h.regs, h.tables, h.pending, fun p k => by
    have b := hF.bit k
    cases p <;> first | exact h.rest _ k | exact absurd b (by decide)⟩

theorem Keeps.mk_now_aon_pw {F : Nat} {r t : State} (h : Keeps F r t) {x_now x_aon x_pw} (hF : Sub 0x10000002 F) :
    Keeps F r ⟨t.part, x_now, x_aon, t.free, t.regs, t.mem, t.fillOne, t.ports, t.links, t.nextRx, t.txns, t.sch, t.slices, t.engs, t.refs, t.remap, t.flush, t.ecc, t.stk, t.scn, t.tap, t.cal, t.thm, t.clk, t.twb, t.mgc, t.flt, t.bbx, t.trc, t.cns, t.otp, x_pw, t.inReset, t.pending⟩ :=
  ⟨h.mem, h.regs, h.tables, h.pending, fun p k => by
    have b := hF.bit k
    cases p <;> first | exact h.rest _ k | exact absurd b (by decide)⟩

theorem Keeps.mk_otp {F : Nat} {r t : State} (h : Keeps F r t) {x_otp} (hF : Sub 0x8000000 F) :
    Keeps F r ⟨t.part, t.now, t.aon, t.free, t.regs, t.mem, t.fillOne, t.ports, t.links, t.nextRx, t.txns, t.sch, t.slices, t.engs, t.refs, t.remap, t.flush, t.ecc, t.stk, t.scn, t.tap, t.cal, t.thm, t.clk, t.twb, t.mgc, t.flt, t.bbx, t.trc, t.cns, x_otp, t.pw, t.inReset, t.pending⟩ :=
  ⟨h.mem, h.regs, h.tables, h.pending, fun p k => by
    have b := hF.bit k
    cases p <;> first | exact h.rest _ k | exact absurd b (by decide)⟩

theorem Keeps.mk_part {F : Nat} {r t : State} (h : Keeps F r t) {x_part} (hF : Sub 0x1 F) :
    Keeps F r ⟨x_part, t.now, t.aon, t.free, t.regs, t.mem, t.fillOne, t.ports, t.links, t.nextRx, t.txns, t.sch, t.slices, t.engs, t.refs, t.remap, t.flush, t.ecc, t.stk, t.scn, t.tap, t.cal, t.thm, t.clk, t.twb, t.mgc, t.flt, t.bbx, t.trc, t.cns, t.otp, t.pw, t.inReset, t.pending⟩ :=
  ⟨h.mem, h.regs, h.tables, h.pending, fun p k => by
    have b := hF.bit k
    cases p <;> first | exact h.rest _ k | exact absurd b (by decide)⟩

theorem Keeps.mk_ports {F : Nat} {r t : State} (h : Keeps F r t) {x_ports} (hF : Sub 0x20 F) (h_ports : r.tables = true → t.tables = true → SMap.rising x_ports = true) :
    Keeps F r ⟨t.part, t.now, t.aon, t.free, t.regs, t.mem, t.fillOne, x_ports, t.links, t.nextRx, t.txns, t.sch, t.slices, t.engs, t.refs, t.remap, t.flush, t.ecc, t.stk, t.scn, t.tap, t.cal, t.thm, t.clk, t.twb, t.mgc, t.flt, t.bbx, t.trc, t.cns, t.otp, t.pw, t.inReset, t.pending⟩ :=
  ⟨h.mem, h.regs, fun k => (State.tables_eq _).mpr ⟨h_ports k (h.tables k), State.tables_links (s := t) (h.tables k), State.tables_slices (s := t) (h.tables k), State.tables_engs (s := t) (h.tables k)⟩, h.pending, fun p k => by
    have b := hF.bit k
    cases p <;> first | exact h.rest _ k | exact absurd b (by decide)⟩

theorem Keeps.mk_pw {F : Nat} {r t : State} (h : Keeps F r t) {x_pw} (hF : Sub 0x10000000 F) :
    Keeps F r ⟨t.part, t.now, t.aon, t.free, t.regs, t.mem, t.fillOne, t.ports, t.links, t.nextRx, t.txns, t.sch, t.slices, t.engs, t.refs, t.remap, t.flush, t.ecc, t.stk, t.scn, t.tap, t.cal, t.thm, t.clk, t.twb, t.mgc, t.flt, t.bbx, t.trc, t.cns, t.otp, x_pw, t.inReset, t.pending⟩ :=
  ⟨h.mem, h.regs, h.tables, h.pending, fun p k => by
    have b := hF.bit k
    cases p <;> first | exact h.rest _ k | exact absurd b (by decide)⟩

theorem Keeps.mk_refs {F : Nat} {r t : State} (h : Keeps F r t) {x_refs} (hF : Sub 0x800 F) :
    Keeps F r ⟨t.part, t.now, t.aon, t.free, t.regs, t.mem, t.fillOne, t.ports, t.links, t.nextRx, t.txns, t.sch, t.slices, t.engs, x_refs, t.remap, t.flush, t.ecc, t.stk, t.scn, t.tap, t.cal, t.thm, t.clk, t.twb, t.mgc, t.flt, t.bbx, t.trc, t.cns, t.otp, t.pw, t.inReset, t.pending⟩ :=
  ⟨h.mem, h.regs, h.tables, h.pending, fun p k => by
    have b := hF.bit k
    cases p <;> first | exact h.rest _ k | exact absurd b (by decide)⟩

theorem Keeps.mk_remap_ecc {F : Nat} {r t : State} (h : Keeps F r t) {x_remap x_ecc} (hF : Sub 0x5000 F) :
    Keeps F r ⟨t.part, t.now, t.aon, t.free, t.regs, t.mem, t.fillOne, t.ports, t.links, t.nextRx, t.txns, t.sch, t.slices, t.engs, t.refs, x_remap, t.flush, x_ecc, t.stk, t.scn, t.tap, t.cal, t.thm, t.clk, t.twb, t.mgc, t.flt, t.bbx, t.trc, t.cns, t.otp, t.pw, t.inReset, t.pending⟩ :=
  ⟨h.mem, h.regs, h.tables, h.pending, fun p k => by
    have b := hF.bit k
    cases p <;> first | exact h.rest _ k | exact absurd b (by decide)⟩

theorem Keeps.mk_sch {F : Nat} {r t : State} (h : Keeps F r t) {x_sch} (hF : Sub 0x100 F) :
    Keeps F r ⟨t.part, t.now, t.aon, t.free, t.regs, t.mem, t.fillOne, t.ports, t.links, t.nextRx, t.txns, x_sch, t.slices, t.engs, t.refs, t.remap, t.flush, t.ecc, t.stk, t.scn, t.tap, t.cal, t.thm, t.clk, t.twb, t.mgc, t.flt, t.bbx, t.trc, t.cns, t.otp, t.pw, t.inReset, t.pending⟩ :=
  ⟨h.mem, h.regs, h.tables, h.pending, fun p k => by
    have b := hF.bit k
    cases p <;> first | exact h.rest _ k | exact absurd b (by decide)⟩

theorem Keeps.mk_scn {F : Nat} {r t : State} (h : Keeps F r t) {x_scn} (hF : Sub 0x10000 F) :
    Keeps F r ⟨t.part, t.now, t.aon, t.free, t.regs, t.mem, t.fillOne, t.ports, t.links, t.nextRx, t.txns, t.sch, t.slices, t.engs, t.refs, t.remap, t.flush, t.ecc, t.stk, x_scn, t.tap, t.cal, t.thm, t.clk, t.twb, t.mgc, t.flt, t.bbx, t.trc, t.cns, t.otp, t.pw, t.inReset, t.pending⟩ :=
  ⟨h.mem, h.regs, h.tables, h.pending, fun p k => by
    have b := hF.bit k
    cases p <;> first | exact h.rest _ k | exact absurd b (by decide)⟩

theorem Keeps.mk_slices {F : Nat} {r t : State} (h : Keeps F r t) {x_slices} (hF : Sub 0x200 F) (h_slices : r.tables = true → t.tables = true → SMap.rising x_slices = true) :
    Keeps F r ⟨t.part, t.now, t.aon, t.free, t.regs, t.mem, t.fillOne, t.ports, t.links, t.nextRx, t.txns, t.sch, x_slices, t.engs, t.refs, t.remap, t.flush, t.ecc, t.stk, t.scn, t.tap, t.cal, t.thm, t.clk, t.twb, t.mgc, t.flt, t.bbx, t.trc, t.cns, t.otp, t.pw, t.inReset, t.pending⟩ :=
  ⟨h.mem, h.regs, fun k => (State.tables_eq _).mpr ⟨State.tables_ports (s := t) (h.tables k), State.tables_links (s := t) (h.tables k), h_slices k (h.tables k), State.tables_engs (s := t) (h.tables k)⟩, h.pending, fun p k => by
    have b := hF.bit k
    cases p <;> first | exact h.rest _ k | exact absurd b (by decide)⟩

theorem Keeps.mk_stk {F : Nat} {r t : State} (h : Keeps F r t) {x_stk} (hF : Sub 0x8000 F) :
    Keeps F r ⟨t.part, t.now, t.aon, t.free, t.regs, t.mem, t.fillOne, t.ports, t.links, t.nextRx, t.txns, t.sch, t.slices, t.engs, t.refs, t.remap, t.flush, t.ecc, x_stk, t.scn, t.tap, t.cal, t.thm, t.clk, t.twb, t.mgc, t.flt, t.bbx, t.trc, t.cns, t.otp, t.pw, t.inReset, t.pending⟩ :=
  ⟨h.mem, h.regs, h.tables, h.pending, fun p k => by
    have b := hF.bit k
    cases p <;> first | exact h.rest _ k | exact absurd b (by decide)⟩

theorem Keeps.mk_tap {F : Nat} {r t : State} (h : Keeps F r t) {x_tap} (hF : Sub 0x20000 F) :
    Keeps F r ⟨t.part, t.now, t.aon, t.free, t.regs, t.mem, t.fillOne, t.ports, t.links, t.nextRx, t.txns, t.sch, t.slices, t.engs, t.refs, t.remap, t.flush, t.ecc, t.stk, t.scn, x_tap, t.cal, t.thm, t.clk, t.twb, t.mgc, t.flt, t.bbx, t.trc, t.cns, t.otp, t.pw, t.inReset, t.pending⟩ :=
  ⟨h.mem, h.regs, h.tables, h.pending, fun p k => by
    have b := hF.bit k
    cases p <;> first | exact h.rest _ k | exact absurd b (by decide)⟩

theorem Keeps.mk_thm {F : Nat} {r t : State} (h : Keeps F r t) {x_thm} (hF : Sub 0x80000 F) :
    Keeps F r ⟨t.part, t.now, t.aon, t.free, t.regs, t.mem, t.fillOne, t.ports, t.links, t.nextRx, t.txns, t.sch, t.slices, t.engs, t.refs, t.remap, t.flush, t.ecc, t.stk, t.scn, t.tap, t.cal, x_thm, t.clk, t.twb, t.mgc, t.flt, t.bbx, t.trc, t.cns, t.otp, t.pw, t.inReset, t.pending⟩ :=
  ⟨h.mem, h.regs, h.tables, h.pending, fun p k => by
    have b := hF.bit k
    cases p <;> first | exact h.rest _ k | exact absurd b (by decide)⟩

theorem Keeps.mk_trc {F : Nat} {r t : State} (h : Keeps F r t) {x_trc} (hF : Sub 0x2000000 F) :
    Keeps F r ⟨t.part, t.now, t.aon, t.free, t.regs, t.mem, t.fillOne, t.ports, t.links, t.nextRx, t.txns, t.sch, t.slices, t.engs, t.refs, t.remap, t.flush, t.ecc, t.stk, t.scn, t.tap, t.cal, t.thm, t.clk, t.twb, t.mgc, t.flt, t.bbx, x_trc, t.cns, t.otp, t.pw, t.inReset, t.pending⟩ :=
  ⟨h.mem, h.regs, h.tables, h.pending, fun p k => by
    have b := hF.bit k
    cases p <;> first | exact h.rest _ k | exact absurd b (by decide)⟩

theorem Keeps.mk_twb {F : Nat} {r t : State} (h : Keeps F r t) {x_twb} (hF : Sub 0x200000 F) :
    Keeps F r ⟨t.part, t.now, t.aon, t.free, t.regs, t.mem, t.fillOne, t.ports, t.links, t.nextRx, t.txns, t.sch, t.slices, t.engs, t.refs, t.remap, t.flush, t.ecc, t.stk, t.scn, t.tap, t.cal, t.thm, t.clk, x_twb, t.mgc, t.flt, t.bbx, t.trc, t.cns, t.otp, t.pw, t.inReset, t.pending⟩ :=
  ⟨h.mem, h.regs, h.tables, h.pending, fun p k => by
    have b := hF.bit k
    cases p <;> first | exact h.rest _ k | exact absurd b (by decide)⟩

theorem Keeps.mk_twb_mgc {F : Nat} {r t : State} (h : Keeps F r t) {x_twb x_mgc} (hF : Sub 0x600000 F) :
    Keeps F r ⟨t.part, t.now, t.aon, t.free, t.regs, t.mem, t.fillOne, t.ports, t.links, t.nextRx, t.txns, t.sch, t.slices, t.engs, t.refs, t.remap, t.flush, t.ecc, t.stk, t.scn, t.tap, t.cal, t.thm, t.clk, x_twb, x_mgc, t.flt, t.bbx, t.trc, t.cns, t.otp, t.pw, t.inReset, t.pending⟩ :=
  ⟨h.mem, h.regs, h.tables, h.pending, fun p k => by
    have b := hF.bit k
    cases p <;> first | exact h.rest _ k | exact absurd b (by decide)⟩

theorem Keeps.mk_txns {F : Nat} {r t : State} (h : Keeps F r t) {x_txns} (hF : Sub 0x80 F) :
    Keeps F r ⟨t.part, t.now, t.aon, t.free, t.regs, t.mem, t.fillOne, t.ports, t.links, t.nextRx, x_txns, t.sch, t.slices, t.engs, t.refs, t.remap, t.flush, t.ecc, t.stk, t.scn, t.tap, t.cal, t.thm, t.clk, t.twb, t.mgc, t.flt, t.bbx, t.trc, t.cns, t.otp, t.pw, t.inReset, t.pending⟩ :=
  ⟨h.mem, h.regs, h.tables, h.pending, fun p k => by
    have b := hF.bit k
    cases p <;> first | exact h.rest _ k | exact absurd b (by decide)⟩

theorem Keeps.mk_txns_slices_engs {F : Nat} {r t : State} (h : Keeps F r t) {x_txns x_slices x_engs} (hF : Sub 0x680 F) (h_slices : r.tables = true → t.tables = true → SMap.rising x_slices = true) (h_engs : r.tables = true → t.tables = true → SMap.rising x_engs = true) :
    Keeps F r ⟨t.part, t.now, t.aon, t.free, t.regs, t.mem, t.fillOne, t.ports, t.links, t.nextRx, x_txns, t.sch, x_slices, x_engs, t.refs, t.remap, t.flush, t.ecc, t.stk, t.scn, t.tap, t.cal, t.thm, t.clk, t.twb, t.mgc, t.flt, t.bbx, t.trc, t.cns, t.otp, t.pw, t.inReset, t.pending⟩ :=
  ⟨h.mem, h.regs, fun k => (State.tables_eq _).mpr ⟨State.tables_ports (s := t) (h.tables k), State.tables_links (s := t) (h.tables k), h_slices k (h.tables k), h_engs k (h.tables k)⟩, h.pending, fun p k => by
    have b := hF.bit k
    cases p <;> first | exact h.rest _ k | exact absurd b (by decide)⟩

end Sys2Proof.Machine
end

