-- ==== Sys2Proof/Laws/FrameCore.lean ====
section
/-! SUPPORT. What each operation keeps: registers, interrupts, records, events and answers. -/

namespace Sys2Proof.Machine

/-! ### Machine/Ops.lean -/

theorem State.setReg_keeps (s : State) (addr : Nat) (v : Word) {F : Nat} (hF : Sub 0x8 F) : Keeps F s (State.setReg s
    addr v) := by
  exact ⟨id, fun h => SMap.wf_set addr v h, id, rfl, fun p k => by
    cases p <;> first | rfl | exact ⟨rfl, rfl⟩ | exact absurd (hF.bit k) (by decide)⟩

theorem State.fset_keeps (s : State) (f : Fld) (v : Nat) {F : Nat} (hF : Sub 0x8 F) : Keeps F s (State.fset s f v) :=
    by
  unfold State.fset
  repeat' first
    | extract_lets | with_reducible assumption | with_reducible exact Keeps.refl _ | exact hF.within rfl
    | (with_reducible apply Keeps.trans; on_goal 2 => with_reducible first | apply State.setReg_keeps)

theorem State.setFlag_keeps (s : State) (f : Fld) (b : Bool) {F : Nat} (hF : Sub 0x8 F) : Keeps F s (State.setFlag s f
    b) := by
  unfold State.setFlag
  repeat' first
    | extract_lets | with_reducible assumption | with_reducible exact Keeps.refl _ | exact hF.within rfl
    | (with_reducible apply Keeps.trans; on_goal 2 => with_reducible first | apply State.fset_keeps)

theorem State.bump_keeps (s : State) (f : Fld) (n : Nat) {F : Nat} (hF : Sub 0x8 F) : Keeps F s (State.bump s f n) :=
    by
  unfold State.bump
  repeat' first
    | extract_lets | with_reducible assumption | with_reducible exact Keeps.refl _ | exact hF.within rfl
    | (with_reducible apply Keeps.trans; on_goal 2 => with_reducible first | apply State.fset_keeps)

theorem State.bumpSat_keeps (s : State) (f : Fld) (n : Nat) {F : Nat} (hF : Sub 0x8 F) : Keeps F s (State.bumpSat s f
    n) := by
  unfold State.bumpSat
  repeat' first
    | extract_lets | with_reducible assumption | with_reducible exact Keeps.refl _ | exact hF.within rfl
    | (with_reducible apply Keeps.trans; on_goal 2 => with_reducible first | apply State.fset_keeps)

theorem State.raise_keeps (s : State) (f : Fld) (v : Nat) {F : Nat} (hF : Sub 0x8 F) : Keeps F s (State.raise s f v)
    := by
  unfold State.raise
  repeat' first
    | extract_lets | with_reducible assumption | with_reducible exact Keeps.refl _ | exact hF.within rfl
    | (with_reducible apply Keeps.trans; on_goal 2 => with_reducible first | apply State.fset_keeps)

theorem State.dropRegs_keeps (s : State) (keep : Nat → Bool) {F : Nat} (hF : Sub 0x8 F) : Keeps F s (State.dropRegs s
    keep) := by
  exact ⟨id, fun h => SMap.wf_filter _ h, id, rfl, fun p k => by
    cases p <;> first | rfl | exact ⟨rfl, rfl⟩ | exact absurd (hF.bit k) (by decide)⟩

theorem State.fresh_keeps (s : State) {F : Nat} (hF : Sub 0x4 F) : Keeps F s (State.fresh s).2 := by
  unfold State.fresh
  repeat' first
    | extract_lets | with_reducible assumption | with_reducible exact Keeps.refl _ | exact hF.within rfl
    | split
    | (with_reducible apply Keeps.fst; on_goal 2 => with_reducible assumption)
    | (with_reducible apply Keeps.snd; on_goal 2 => with_reducible assumption)
    | with_reducible apply Keeps.mk_free

theorem State.idle_keeps (s : State) {F : Nat} (hF : Sub 0x2 F) : Keeps F s (State.idle s) := by
  unfold State.idle
  repeat' first
    | extract_lets | with_reducible assumption | with_reducible exact Keeps.refl _ | exact hF.within rfl
    | (with_reducible apply Keeps.ite <;> intro _)
    | split
    | (with_reducible apply Keeps.fst; on_goal 2 => with_reducible assumption)
    | (with_reducible apply Keeps.snd; on_goal 2 => with_reducible assumption)
    | with_reducible apply Keeps.mk_aon
    | with_reducible apply Keeps.mk_now_aon

theorem State.post_keeps (s : State) (m : FaultMsg) {F : Nat} (hF : Sub 0x1800008 F) : Keeps F s (State.post s m) :=
    by
  unfold State.post
  repeat' first
    | extract_lets | with_reducible assumption | with_reducible exact Keeps.refl _ | exact hF.within rfl
    | (with_reducible apply Keeps.trans; on_goal 2 => with_reducible first
          | apply State.setFlag_keeps | apply State.bumpSat_keeps)
    | (with_reducible apply Keeps.ite <;> intro _)
    | split
    | (with_reducible apply Keeps.fst; on_goal 2 => with_reducible assumption)
    | (with_reducible apply Keeps.snd; on_goal 2 => with_reducible assumption)
    | with_reducible apply Keeps.mk_bbx
    | with_reducible apply Keeps.mk_flt

theorem State.fault_keeps (s : State) (source kind hint locator : Nat) {F : Nat} (hF : Sub 0x1800008 F) : Keeps F s
    (State.fault s source kind hint locator) := by
  unfold State.fault
  repeat' first
    | extract_lets | with_reducible assumption | with_reducible exact Keeps.refl _ | exact hF.within rfl
    | (with_reducible apply Keeps.trans; on_goal 2 => with_reducible first | apply State.post_keeps)

theorem State.int_keeps (s : State) (b : IntBlk) (bit : Nat) {F : Nat} (hF : Sub 0x1800008 F) : Keeps F s (State.int s
    b bit) := by
  unfold State.int
  repeat' first
    | extract_lets | with_reducible assumption | with_reducible exact Keeps.refl _ | exact hF.within rfl
    | (with_reducible apply Keeps.trans; on_goal 2 => with_reducible first
          | apply State.fset_keeps | apply State.post_keeps)
    | (with_reducible apply Keeps.ite <;> intro _)

theorem State.countGated_keeps (s : State) (addr : Nat) (write : Bool) {F : Nat} (hF : Sub 0x1800008 F) : Keeps F s
    (State.countGated s addr write) := by
  unfold State.countGated
  repeat' first
    | extract_lets | with_reducible assumption | with_reducible exact Keeps.refl _ | exact hF.within rfl
    | (with_reducible apply Keeps.trans; on_goal 2 => with_reducible first
          | apply State.fset_keeps | apply State.setFlag_keeps | apply State.bumpSat_keeps | apply State.int_keeps)

theorem State.wakeEvent_keeps (s : State) (code port : Nat) {F : Nat} (hF : Sub 0x10000000 F) : Keeps F s
    (State.wakeEvent s code port) := by
  unfold State.wakeEvent
  repeat' first
    | extract_lets | with_reducible assumption | with_reducible exact Keeps.refl _ | exact hF.within rfl
    | (with_reducible apply Keeps.ite <;> intro _)
    | split
    | (with_reducible apply Keeps.fst; on_goal 2 => with_reducible assumption)
    | (with_reducible apply Keeps.snd; on_goal 2 => with_reducible assumption)
    | with_reducible apply Keeps.mk_pw

theorem State.mset_keeps (s : State) (k : Nat) (v : Byte) {F : Nat} (hF : Sub 0x10 F) : Keeps F s (State.mset s k v)
    := by
  exact ⟨fun h => SMap.wf_set (dflt := fun k => fillByte (k % 80)) k v h, id, id, rfl, fun p k => by
    cases p <;> first | rfl | exact ⟨rfl, rfl⟩ | exact absurd (hF.bit k) (by decide)⟩

theorem State.msetList_keeps (s : State) (k : Nat) (l : List Nat) {F : Nat} (hF : Sub 0x10 F) : Keeps F s
    (State.msetList s k l) := by
  induction l generalizing s k with
  | nil => exact Keeps.refl _
  | cons b r ih => exact Keeps.trans (State.mset_keeps s k (BitVec.ofNat 8 b) hF) (ih _ _)

theorem State.setWord_keeps (s : State) (array line : Nat) (w : List Nat) {F : Nat} (hF : Sub 0x10 F) : Keeps F s
    (State.setWord s array line w) := by
  unfold State.setWord
  repeat' first
    | extract_lets | with_reducible assumption | with_reducible exact Keeps.refl _ | exact hF.within rfl
    | (with_reducible apply Keeps.trans; on_goal 2 => with_reducible first | apply State.msetList_keeps)

/-! ### Machine/Events.lean -/

theorem nvPlace_keeps (fuel : Nat) (s : State) (slot : Nat) {F : Nat} (hF : Sub 0x1800008 F) : Keeps F s (nvPlace fuel
    s slot).1 := by
  induction fuel generalizing s slot with
  | zero => exact Keeps.refl _
  | succ m ih =>
    unfold nvPlace
    repeat' first
      | extract_lets
      | with_reducible assumption
      | with_reducible exact Keeps.refl _
      | exact hF.within rfl
      | (with_reducible apply Keeps.trans; on_goal 2 => with_reducible first
            | apply State.bump_keeps | apply State.bumpSat_keeps | apply State.int_keeps | apply ih)
      | split

theorem State.nvWrite_keeps (s : State) (r : BbxRec) {F : Nat} (hF : Sub 0x1800008 F) : Keeps F s (State.nvWrite s r)
    := by
  unfold State.nvWrite
  repeat' first
    | extract_lets | with_reducible assumption | with_reducible exact Keeps.refl _ | exact hF.within rfl
    | (with_reducible apply Keeps.trans; on_goal 2 => with_reducible first
          | apply State.fset_keeps | apply State.raise_keeps | apply nvPlace_keeps)
    | split
    | (with_reducible apply Keeps.fst; on_goal 2 => with_reducible assumption)
    | (with_reducible apply Keeps.snd; on_goal 2 => with_reducible assumption)
    | with_reducible apply Keeps.mk_bbx

theorem State.ringRegs_keeps (s : State) {F : Nat} (hF : Sub 0x8 F) : Keeps F s (State.ringRegs s) := by
  unfold State.ringRegs
  repeat' first
    | extract_lets | with_reducible assumption | with_reducible exact Keeps.refl _ | exact hF.within rfl
    | (with_reducible apply Keeps.trans; on_goal 2 => with_reducible first
          | apply State.fset_keeps | apply State.setFlag_keeps)

theorem State.nvRateCount_keeps (s : State) {F : Nat} (hF : Sub 0x1000000 F) : Keeps F s (State.nvRateCount s) := by
  unfold State.nvRateCount
  repeat' first
    | extract_lets | with_reducible assumption | with_reducible exact Keeps.refl _ | exact hF.within rfl
    | (with_reducible apply Keeps.ite <;> intro _)
    | split
    | (with_reducible apply Keeps.fst; on_goal 2 => with_reducible assumption)
    | (with_reducible apply Keeps.snd; on_goal 2 => with_reducible assumption)
    | with_reducible apply Keeps.mk_bbx

theorem State.ringRoom_keeps (s : State) {F : Nat} (hF : Sub 0x1800008 F) : Keeps F s (State.ringRoom s) := by
  unfold State.ringRoom
  repeat' first
    | extract_lets | with_reducible assumption | with_reducible exact Keeps.refl _ | exact hF.within rfl
    | (with_reducible apply Keeps.trans; on_goal 2 => with_reducible first
          | apply State.bumpSat_keeps | apply State.int_keeps)
    | (with_reducible apply Keeps.ite <;> intro _)
    | split
    | (with_reducible apply Keeps.fst; on_goal 2 => with_reducible assumption)
    | (with_reducible apply Keeps.snd; on_goal 2 => with_reducible assumption)
    | with_reducible apply Keeps.mk_bbx

theorem State.record_keeps (s : State) (rtype flags shadowId source : Nat) (body : List Nat) (immediate : Bool) {F :
    Nat} (hF : Sub 0x1800008 F) : Keeps F s (State.record s rtype flags shadowId source body immediate) := by
  unfold State.record
  repeat' first
    | extract_lets | with_reducible assumption | with_reducible exact Keeps.refl _ | exact hF.within rfl
    | (with_reducible apply Keeps.trans; on_goal 2 => with_reducible first
          | apply State.nvWrite_keeps | apply State.ringRegs_keeps | apply State.nvRateCount_keeps
          | apply State.ringRoom_keeps)
    | (with_reducible apply Keeps.ite <;> intro _)
    | split
    | (with_reducible apply Keeps.fst; on_goal 2 => with_reducible assumption)
    | (with_reducible apply Keeps.snd; on_goal 2 => with_reducible assumption)
    | with_reducible apply Keeps.mk_bbx

theorem State.commitRecords_keeps (s : State) (n : Nat) {F : Nat} (hF : Sub 0x1800008 F) : Keeps F s
    (State.commitRecords s n).1 := by
  unfold State.commitRecords
  repeat' first
    | extract_lets | with_reducible assumption | with_reducible exact Keeps.refl _ | exact hF.within rfl
    | (with_reducible apply Keeps.trans; on_goal 2 => with_reducible first
          | apply State.nvWrite_keeps | apply State.record_keeps)
    | (with_reducible apply Keeps.foldl; intro _ _ _)
    | split
    | (with_reducible apply Keeps.fst; on_goal 2 => with_reducible assumption)
    | (with_reducible apply Keeps.snd; on_goal 2 => with_reducible assumption)
    | with_reducible apply Keeps.mk_bbx

theorem State.recordState_keeps (s : State) (reason dev : Nat) {F : Nat} (hF : Sub 0x1800008 F) : Keeps F s
    (State.recordState s reason dev) := by
  unfold State.recordState
  repeat' first
    | extract_lets | with_reducible assumption | with_reducible exact Keeps.refl _ | exact hF.within rfl
    | (with_reducible apply Keeps.trans; on_goal 2 => with_reducible first | apply State.record_keeps)

theorem State.queueEvt_keeps (s : State) (e : Event) {F : Nat} (hF : Sub 0x1C00008 F) : Keeps F s (State.queueEvt s e)
    := by
  unfold State.queueEvt
  repeat' first
    | extract_lets | with_reducible assumption | with_reducible exact Keeps.refl _ | exact hF.within rfl
    | (with_reducible apply Keeps.trans; on_goal 2 => with_reducible first
          | apply State.bumpSat_keeps | apply State.int_keeps)
    | (with_reducible apply Keeps.ite <;> intro _)
    | split
    | (with_reducible apply Keeps.fst; on_goal 2 => with_reducible assumption)
    | (with_reducible apply Keeps.snd; on_goal 2 => with_reducible assumption)
    | with_reducible apply Keeps.mk_mgc

theorem State.queueTwEvt_keeps (s : State) (e : Event) {F : Nat} (hF : Sub 0x600000 F) : Keeps F s (State.queueTwEvt s
    e) := by
  unfold State.queueTwEvt
  repeat' first
    | extract_lets | with_reducible assumption | with_reducible exact Keeps.refl _ | exact hF.within rfl
    | (with_reducible apply Keeps.ite <;> intro _)
    | split
    | (with_reducible apply Keeps.fst; on_goal 2 => with_reducible assumption)
    | (with_reducible apply Keeps.snd; on_goal 2 => with_reducible assumption)
    | with_reducible apply Keeps.mk_mgc
    | with_reducible apply Keeps.mk_twb_mgc

theorem State.logEvent_keeps (s : State) (e : Event) {F : Nat} (hF : Sub 0x1800008 F) : Keeps F s (State.logEvent s e)
    := by
  unfold State.logEvent
  repeat' first
    | extract_lets | with_reducible assumption | with_reducible exact Keeps.refl _ | exact hF.within rfl
    | (with_reducible apply Keeps.trans; on_goal 2 => with_reducible first | apply State.record_keeps)
    | (with_reducible apply Keeps.ite <;> intro _)

theorem State.event_keeps (s : State) (code severity : Nat) (detail : List Nat) (faultMsg : Nat := 0) {F : Nat} (hF :
    Sub 0x1E00008 F) : Keeps F s (State.event s code severity detail faultMsg) := by
  unfold State.event
  repeat' first
    | extract_lets | with_reducible assumption | with_reducible exact Keeps.refl _ | exact hF.within rfl
    | (with_reducible apply Keeps.trans; on_goal 2 => with_reducible first
          | apply State.queueEvt_keeps | apply State.queueTwEvt_keeps | apply State.logEvent_keeps)
    | (with_reducible apply Keeps.ite <;> intro _)
    | split
    | (with_reducible apply Keeps.fst; on_goal 2 => with_reducible assumption)
    | (with_reducible apply Keeps.snd; on_goal 2 => with_reducible assumption)
    | dsimp +zetaDelta only
    | with_reducible apply Keeps.mk_mgc

theorem State.alert_keeps (s : State) (cause : Nat) (on : Bool) {F : Nat} (hF : Sub 0x8 F) : Keeps F s (State.alert s
    cause on) := by
  unfold State.alert
  repeat' first
    | extract_lets | with_reducible assumption | with_reducible exact Keeps.refl _ | exact hF.within rfl
    | (with_reducible apply Keeps.trans; on_goal 2 => with_reducible first
          | apply State.fset_keeps | apply State.setFlag_keeps)

theorem State.showInj_keeps (s : State) {F : Nat} (hF : Sub 0x8 F) : Keeps F s (State.showInj s) := by
  unfold State.showInj
  repeat' first
    | extract_lets | with_reducible assumption | with_reducible exact Keeps.refl _ | exact hF.within rfl
    | (with_reducible apply Keeps.trans; on_goal 2 => with_reducible first
          | apply State.setReg_keeps | apply State.fset_keeps)

theorem State.fireInj_keeps (s : State) (c : Nat) (i : Inj) {F : Nat} (hF : Sub 0x1804008 F) : Keeps F s
    (State.fireInj s c i) := by
  unfold State.fireInj
  repeat' first
    | extract_lets | with_reducible assumption | with_reducible exact Keeps.refl _ | exact hF.within rfl
    | (with_reducible apply Keeps.trans; on_goal 2 => with_reducible first
          | apply State.int_keeps | apply State.showInj_keeps)
    | (with_reducible apply Keeps.ite <;> intro _)
    | split
    | (with_reducible apply Keeps.fst; on_goal 2 => with_reducible assumption)
    | (with_reducible apply Keeps.snd; on_goal 2 => with_reducible assumption)
    | with_reducible apply Keeps.mk_ecc

theorem State.flitInject_keeps (s : State) (c p : Nat) {F : Nat} (hF : Sub 0x1804008 F) : Keeps F s (State.flitInject
    s c p).1 := by
  unfold State.flitInject
  repeat' first
    | extract_lets | with_reducible assumption | with_reducible exact Keeps.refl _ | exact hF.within rfl
    | (with_reducible apply Keeps.trans; on_goal 2 => with_reducible first | apply State.fireInj_keeps)
    | split

theorem State.trace_keeps (s : State) (src sel item : Nat) {F : Nat} (hF : Sub 0x2000000 F) : Keeps F s (State.trace s
    src sel item) := by
  unfold State.trace
  repeat' first
    | extract_lets | with_reducible assumption | with_reducible exact Keeps.refl _ | exact hF.within rfl
    | (with_reducible apply Keeps.ite <;> intro _)
    | split
    | (with_reducible apply Keeps.fst; on_goal 2 => with_reducible assumption)
    | (with_reducible apply Keeps.snd; on_goal 2 => with_reducible assumption)
    | with_reducible apply Keeps.mk_trc

/-! ### Machine/Answers.lean -/

theorem State.setPort_keeps (s : State) (p : Nat) (v : PortSt) {F : Nat} (hF : Sub 0x20 F) : Keeps F s (State.setPort
    s p v) := by
  unfold State.setPort
  repeat' first
    | extract_lets | with_reducible assumption | with_reducible exact Keeps.refl _ | exact hF.within rfl
    | split
    | (with_reducible apply Keeps.fst; on_goal 2 => with_reducible assumption)
    | (with_reducible apply Keeps.snd; on_goal 2 => with_reducible assumption)
    | with_reducible apply Keeps.mk_ports
    | exact fun _ k => SMap.rising_set _ _ _ (State.tables_ports k)

theorem State.setLink_keeps (s : State) (p : Nat) (v : LinkSt) {F : Nat} (hF : Sub 0x40 F) : Keeps F s (State.setLink
    s p v) := by
  unfold State.setLink
  repeat' first
    | extract_lets | with_reducible assumption | with_reducible exact Keeps.refl _ | exact hF.within rfl
    | split
    | (with_reducible apply Keeps.fst; on_goal 2 => with_reducible assumption)
    | (with_reducible apply Keeps.snd; on_goal 2 => with_reducible assumption)
    | with_reducible apply Keeps.mk_links
    | exact fun _ k => SMap.rising_set _ _ _ (State.tables_links k)

theorem State.endReaction_keeps (s : State) (code target : Nat) {F : Nat} (hF : Sub 0x800000 F) : Keeps F s
    (State.endReaction s code target) := by
  unfold State.endReaction
  repeat' first
    | extract_lets | with_reducible assumption | with_reducible exact Keeps.refl _ | exact hF.within rfl
    | split
    | (with_reducible apply Keeps.fst; on_goal 2 => with_reducible assumption)
    | (with_reducible apply Keeps.snd; on_goal 2 => with_reducible assumption)
    | with_reducible apply Keeps.mk_flt

theorem State.emit_keeps (s : State) (p : Nat) (f : WireFlit) {F : Nat} (hF : Sub 0x40 F) : Keeps F s (State.emit s p
    f) := by
  unfold State.emit
  repeat' first
    | extract_lets | with_reducible assumption | with_reducible exact Keeps.refl _ | exact hF.within rfl
    | (with_reducible apply Keeps.trans; on_goal 2 => with_reducible first | apply State.setLink_keeps)

theorem State.sendNak_keeps (s : State) (p : Nat) {F : Nat} (hF : Sub 0x48 F) : Keeps F s (State.sendNak s p) := by
  unfold State.sendNak
  repeat' first
    | extract_lets | with_reducible assumption | with_reducible exact Keeps.refl _ | exact hF.within rfl
    | (with_reducible apply Keeps.trans; on_goal 2 => with_reducible first
          | apply State.bumpSat_keeps | apply State.emit_keeps)

theorem State.putFlit_keeps (s : State) (p : Nat) (f : TxFlit) {F : Nat} (hF : Sub 0x1804048 F) : Keeps F s
    (State.putFlit s p f) := by
  unfold State.putFlit
  repeat' first
    | extract_lets | with_reducible assumption | with_reducible exact Keeps.refl _ | exact hF.within rfl
    | (with_reducible apply Keeps.trans; on_goal 2 => with_reducible first
          | apply State.flitInject_keeps | apply State.emit_keeps)

theorem State.resend_keeps (s : State) (p : Nat) {F : Nat} (hF : Sub 0x1804048 F) : Keeps F s (State.resend s p) := by
  unfold State.resend
  repeat' first
    | extract_lets | with_reducible assumption | with_reducible exact Keeps.refl _ | exact hF.within rfl
    | (with_reducible apply Keeps.trans; on_goal 2 => with_reducible first | apply State.putFlit_keeps)
    | (with_reducible apply Keeps.foldl; intro _ _ _)

theorem State.sendFlit_keeps (s : State) (p : Nat) (slots : List (List Nat × Nat)) {F : Nat} (hF : Sub 0x1804048 F) :
    Keeps F s (State.sendFlit s p slots) := by
  unfold State.sendFlit
  repeat' first
    | extract_lets | with_reducible assumption | with_reducible exact Keeps.refl _ | exact hF.within rfl
    | (with_reducible apply Keeps.trans; on_goal 2 => with_reducible first
          | apply State.fset_keeps | apply State.setLink_keeps | apply State.putFlit_keeps)

theorem State.noteStall_keeps (s : State) (p : Nat) {F : Nat} (hF : Sub 0x48 F) : Keeps F s (State.noteStall s p) :=
    by
  unfold State.noteStall
  repeat' first
    | extract_lets | with_reducible assumption | with_reducible exact Keeps.refl _ | exact hF.within rfl
    | (with_reducible apply Keeps.trans; on_goal 2 => with_reducible first
          | apply State.bumpSat_keeps | apply State.setLink_keeps)
    | (with_reducible apply Keeps.ite <;> intro _)

theorem State.pump_keeps (s : State) (p : Nat) {F : Nat} (hF : Sub 0x1804048 F) : Keeps F s (State.pump s p) := by
  unfold State.pump
  repeat' first
    | extract_lets | with_reducible assumption | with_reducible exact Keeps.refl _ | exact hF.within rfl
    | (with_reducible apply Keeps.trans; on_goal 2 => with_reducible first
          | apply State.fset_keeps | apply State.setLink_keeps | apply State.sendFlit_keeps
          | apply State.noteStall_keeps)
    | (with_reducible apply Keeps.foldl; intro _ _ _)
    | (with_reducible apply Keeps.ite <;> intro _)

theorem State.dropAnswer_keeps (s : State) (p : Nat) {F : Nat} (hF : Sub 0x1800008 F) : Keeps F s (State.dropAnswer s
    p) := by
  unfold State.dropAnswer
  repeat' first
    | extract_lets | with_reducible assumption | with_reducible exact Keeps.refl _ | exact hF.within rfl
    | (with_reducible apply Keeps.trans; on_goal 2 => with_reducible first
          | apply State.bumpSat_keeps | apply State.int_keeps)

theorem State.answer_keeps (s : State) (a : Answer) {F : Nat} (hF : Sub 0x1804048 F) : Keeps F s (State.answer s a) :=
    by
  unfold State.answer
  repeat' first
    | extract_lets | with_reducible assumption | with_reducible exact Keeps.refl _ | exact hF.within rfl
    | (with_reducible apply Keeps.trans; on_goal 2 => with_reducible first
          | apply State.setLink_keeps | apply State.pump_keeps | apply State.dropAnswer_keeps)
    | split

theorem State.reroute_keeps (s : State) (p : Nat) {F : Nat} (hF : Sub 0x1804048 F) : Keeps F s (State.reroute s p) :=
    by
  unfold State.reroute
  repeat' first
    | extract_lets | with_reducible assumption | with_reducible exact Keeps.refl _ | exact hF.within rfl
    | (with_reducible apply Keeps.trans; on_goal 2 => with_reducible first
          | apply State.bumpSat_keeps | apply State.int_keeps | apply State.setLink_keeps
          | apply State.answer_keeps)
    | (with_reducible apply Keeps.foldl; intro _ _ _)
    | (with_reducible apply Keeps.ite <;> intro _)

end Sys2Proof.Machine
end

