-- ==== Sys2Proof/Laws/FramePorts.lean ====
section
/-! SUPPORT. What each operation keeps: ports, links, packets and transactions. -/

namespace Sys2Proof.Machine

/-! ### Machine/Ports.lean -/

theorem State.setLane_keeps (s : State) (p m : Nat) (v : LaneSt) {F : Nat} (hF : Sub 0x20 F) : Keeps F s
    (State.setLane s p m v) := by
  unfold State.setLane
  repeat' first
    | extract_lets | with_reducible assumption | with_reducible exact Keeps.refl _ | exact hF.within rfl
    | (with_reducible apply Keeps.trans; on_goal 2 => with_reducible first | apply State.setPort_keeps)

theorem State.adaptNow_keeps (s : State) (p m : Nat) {F : Nat} (hF : Sub 0x2C F) : Keeps F s (State.adaptNow s p m) :=
    by
  unfold State.adaptNow
  repeat' first
    | extract_lets | with_reducible assumption | with_reducible exact Keeps.refl _ | exact hF.within rfl
    | (with_reducible apply Keeps.trans; on_goal 2 => with_reducible first
          | apply State.fset_keeps | apply State.fresh_keeps | apply State.setLane_keeps)
    | (with_reducible apply Keeps.foldl; intro _ _ _)
    | (with_reducible apply Keeps.ite <;> intro _)

theorem State.untrack_keeps (s : State) (p m : Nat) {F : Nat} (hF : Sub 0x20 F) : Keeps F s (State.untrack s p m) :=
    by
  unfold State.untrack
  repeat' first
    | extract_lets | with_reducible assumption | with_reducible exact Keeps.refl _ | exact hF.within rfl
    | (with_reducible apply Keeps.trans; on_goal 2 => with_reducible first | apply State.setLane_keeps)
    | (with_reducible apply Keeps.ite <;> intro _)
    | split
    | (with_reducible apply Keeps.fst; on_goal 2 => with_reducible assumption)
    | (with_reducible apply Keeps.snd; on_goal 2 => with_reducible assumption)

theorem State.toLane_keeps (s : State) (p m v : Nat) {F : Nat} (hF : Sub 0x2C F) : Keeps F s (State.toLane s p m v) :=
    by
  unfold State.toLane
  repeat' first
    | extract_lets | with_reducible assumption | with_reducible exact Keeps.refl _ | exact hF.within rfl
    | (with_reducible apply Keeps.trans; on_goal 2 => with_reducible first
          | apply State.fset_keeps | apply State.adaptNow_keeps | apply State.untrack_keeps)
    | (with_reducible apply Keeps.ite <;> intro _)

theorem State.dropLane_keeps (s : State) (p m : Nat) {F : Nat} (hF : Sub 0x2C F) : Keeps F s (State.dropLane s p m) :=
    by
  unfold State.dropLane
  repeat' first
    | extract_lets | with_reducible assumption | with_reducible exact Keeps.refl _ | exact hF.within rfl
    | (with_reducible apply Keeps.trans; on_goal 2 => with_reducible first
          | apply State.fset_keeps | apply State.setLane_keeps | apply State.toLane_keeps)

theorem State.loseLane_keeps (s : State) (p m : Nat) {F : Nat} (hF : Sub 0x180002C F) : Keeps F s (State.loseLane s p
    m) := by
  unfold State.loseLane
  repeat' first
    | extract_lets | with_reducible assumption | with_reducible exact Keeps.refl _ | exact hF.within rfl
    | (with_reducible apply Keeps.trans; on_goal 2 => with_reducible first
          | apply State.bumpSat_keeps | apply State.int_keeps | apply State.dropLane_keeps)

theorem State.startLane_keeps (s : State) (p m : Nat) {F : Nat} (hF : Sub 0x2C F) : Keeps F s (State.startLane s p m)
    := by
  unfold State.startLane
  repeat' first
    | extract_lets | with_reducible assumption | with_reducible exact Keeps.refl _ | exact hF.within rfl
    | (with_reducible apply Keeps.trans; on_goal 2 => with_reducible first
          | apply State.fset_keeps | apply State.setLane_keeps | apply State.toLane_keeps)

theorem State.startLanes_keeps (s : State) (p : Nat) (pick : State → Nat → Bool) {F : Nat} (hF : Sub 0x2C F) : Keeps F
    s (State.startLanes s p pick) := by
  unfold State.startLanes
  repeat' first
    | extract_lets | with_reducible assumption | with_reducible exact Keeps.refl _ | exact hF.within rfl
    | (with_reducible apply Keeps.trans; on_goal 2 => with_reducible first
          | apply State.fset_keeps | apply State.setPort_keeps | apply State.startLane_keeps)
    | (with_reducible apply Keeps.foldl; intro _ _ _)
    | (with_reducible apply Keeps.ite <;> intro _)

theorem State.startBringup_keeps (s : State) (p : Nat) {F : Nat} (hF : Sub 0x2C F) : Keeps F s (State.startBringup s
    p) := by
  unfold State.startBringup
  repeat' first
    | extract_lets | with_reducible assumption | with_reducible exact Keeps.refl _ | exact hF.within rfl
    | (with_reducible apply Keeps.trans; on_goal 2 => with_reducible first | apply State.startLanes_keeps)

theorem State.restartLanes_keeps (s : State) (p : Nat) {F : Nat} (hF : Sub 0x2C F) : Keeps F s (State.restartLanes s
    p) := by
  unfold State.restartLanes
  repeat' first
    | extract_lets | with_reducible assumption | with_reducible exact Keeps.refl _ | exact hF.within rfl
    | (with_reducible apply Keeps.trans; on_goal 2 => with_reducible first | apply State.startLanes_keeps)

theorem State.toPort_keeps (s : State) (p v : Nat) {F : Nat} (hF : Sub 0x148 F) : Keeps F s (State.toPort s p v) := by
  unfold State.toPort
  repeat' first
    | extract_lets | with_reducible assumption | with_reducible exact Keeps.refl _ | exact hF.within rfl
    | (with_reducible apply Keeps.trans; on_goal 2 => with_reducible first
          | apply State.fset_keeps | apply State.setLink_keeps)
    | (with_reducible apply Keeps.ite <;> intro _)
    | split
    | (with_reducible apply Keeps.fst; on_goal 2 => with_reducible assumption)
    | (with_reducible apply Keeps.snd; on_goal 2 => with_reducible assumption)
    | with_reducible apply Keeps.mk_sch

theorem State.settlePort_keeps (s : State) (p : Nat) {F : Nat} (hF : Sub 0x800000 F) : Keeps F s (State.settlePort s
    p) := by
  unfold State.settlePort
  repeat' first
    | extract_lets | with_reducible assumption | with_reducible exact Keeps.refl _ | exact hF.within rfl
    | (with_reducible apply Keeps.trans; on_goal 2 => with_reducible first | apply State.endReaction_keeps)
    | (with_reducible apply Keeps.ite <;> intro _)

theorem State.portDown_keeps (s : State) (p reason : Nat) {F : Nat} (hF : Sub 0x1E04168 F) : Keeps F s (State.portDown
    s p reason) := by
  unfold State.portDown
  repeat' first
    | extract_lets | with_reducible assumption | with_reducible exact Keeps.refl _ | exact hF.within rfl
    | (with_reducible apply Keeps.trans; on_goal 2 => with_reducible first
          | apply State.fset_keeps | apply State.int_keeps | apply State.event_keeps | apply State.setPort_keeps
          | apply State.setLink_keeps | apply State.reroute_keeps | apply State.toPort_keeps
          | apply State.settlePort_keeps)

theorem State.enterRetrain_keeps (s : State) (p cause : Nat) {F : Nat} (hF : Sub 0x1E0016C F) : Keeps F s
    (State.enterRetrain s p cause) := by
  unfold State.enterRetrain
  repeat' first
    | extract_lets | with_reducible assumption | with_reducible exact Keeps.refl _ | exact hF.within rfl
    | (with_reducible apply Keeps.trans; on_goal 2 => with_reducible first
          | apply State.bumpSat_keeps | apply State.fault_keeps | apply State.int_keeps | apply State.event_keeps
          | apply State.startBringup_keeps | apply State.toPort_keeps)
    | (with_reducible apply Keeps.ite <;> intro _)

theorem State.failAttempt_keeps (s : State) (p cause reason : Nat) {F : Nat} (hF : Sub 0x1E0416C F) : Keeps F s
    (State.failAttempt s p cause reason) := by
  unfold State.failAttempt
  repeat' first
    | extract_lets | with_reducible assumption | with_reducible exact Keeps.refl _ | exact hF.within rfl
    | (with_reducible apply Keeps.trans; on_goal 2 => with_reducible first
          | apply State.fset_keeps | apply State.portDown_keeps | apply State.enterRetrain_keeps)
    | (with_reducible apply Keeps.ite <;> intro _)

theorem State.testLanes_keeps (s : State) (p : Nat) {F : Nat} (hF : Sub 0x2C F) : Keeps F s (State.testLanes s p) :=
    by
  unfold State.testLanes
  repeat' first
    | extract_lets | with_reducible assumption | with_reducible exact Keeps.refl _ | exact hF.within rfl
    | (with_reducible apply Keeps.trans; on_goal 2 => with_reducible first | apply State.toLane_keeps)
    | (with_reducible apply Keeps.foldl; intro _ _ _)
    | (with_reducible apply Keeps.foldlP; intro _ _ _)
    | (with_reducible apply Keeps.ite <;> intro _)
    | split
    | (with_reducible apply Keeps.fst; on_goal 2 => with_reducible assumption)
    | (with_reducible apply Keeps.snd; on_goal 2 => with_reducible assumption)

theorem State.enterTest_keeps (s : State) (p : Nat) {F : Nat} (hF : Sub 0x16C F) : Keeps F s (State.enterTest s p) :=
    by
  unfold State.enterTest
  repeat' first
    | extract_lets | with_reducible assumption | with_reducible exact Keeps.refl _ | exact hF.within rfl
    | (with_reducible apply Keeps.trans; on_goal 2 => with_reducible first
          | apply State.fset_keeps | apply State.toPort_keeps | apply State.testLanes_keeps)
    | (with_reducible apply Keeps.ite <;> intro _)

theorem State.enterUp_keeps (s : State) (p : Nat) {F : Nat} (hF : Sub 0x180416C F) : Keeps F s (State.enterUp s p) :=
    by
  unfold State.enterUp
  repeat' first
    | extract_lets | with_reducible assumption | with_reducible exact Keeps.refl _ | exact hF.within rfl
    | (with_reducible apply Keeps.trans; on_goal 2 => with_reducible first
          | apply State.int_keeps | apply State.pump_keeps | apply State.toPort_keeps | apply State.enterTest_keeps)
    | (with_reducible apply Keeps.ite <;> intro _)

theorem State.portUp_keeps (s : State) (p : Nat) {F : Nat} (hF : Sub 0x180416C F) : Keeps F s (State.portUp s p) := by
  unfold State.portUp
  repeat' first
    | extract_lets | with_reducible assumption | with_reducible exact Keeps.refl _ | exact hF.within rfl
    | (with_reducible apply Keeps.trans; on_goal 2 => with_reducible first
          | apply State.fset_keeps | apply State.resend_keeps | apply State.settlePort_keeps
          | apply State.enterUp_keeps)
    | (with_reducible apply Keeps.ite <;> intro _)

theorem State.beginBringup_keeps (s : State) (p : Nat) {F : Nat} (hF : Sub 0x148 F) : Keeps F s (State.beginBringup s
    p) := by
  unfold State.beginBringup
  repeat' first
    | extract_lets | with_reducible assumption | with_reducible exact Keeps.refl _ | exact hF.within rfl
    | (with_reducible apply Keeps.trans; on_goal 2 => with_reducible first | apply State.toPort_keeps)
    | (with_reducible apply Keeps.ite <;> intro _)

theorem State.checkAlign_keeps (s : State) (p : Nat) {F : Nat} (hF : Sub 0x168 F) : Keeps F s (State.checkAlign s p)
    := by
  unfold State.checkAlign
  repeat' first
    | extract_lets | with_reducible assumption | with_reducible exact Keeps.refl _ | exact hF.within rfl
    | (with_reducible apply Keeps.trans; on_goal 2 => with_reducible first
          | apply State.setLane_keeps | apply State.toPort_keeps)
    | (with_reducible apply Keeps.foldl; intro _ _ _)
    | (with_reducible apply Keeps.ite <;> intro _)

theorem State.checkSignal_keeps (s : State) (p : Nat) {F : Nat} (hF : Sub 0x1E04168 F) : Keeps F s (State.checkSignal
    s p) := by
  unfold State.checkSignal
  repeat' first
    | extract_lets | with_reducible assumption | with_reducible exact Keeps.refl _ | exact hF.within rfl
    | (with_reducible apply Keeps.trans; on_goal 2 => with_reducible first | apply State.portDown_keeps)
    | (with_reducible apply Keeps.ite <;> intro _)

theorem State.adaptDone_keeps (s : State) (p adapted : Nat) {F : Nat} (hF : Sub 0x2C F) : Keeps F s (State.adaptDone s
    p adapted) := by
  unfold State.adaptDone
  repeat' first
    | extract_lets | with_reducible assumption | with_reducible exact Keeps.refl _ | exact hF.within rfl
    | (with_reducible apply Keeps.trans; on_goal 2 => with_reducible first | apply State.toLane_keeps)
    | (with_reducible apply Keeps.foldl; intro _ _ _)
    | (with_reducible apply Keeps.ite <;> intro _)

theorem State.slip_keeps (s : State) (p m n : Nat) {F : Nat} (hF : Sub 0x28 F) : Keeps F s (State.slip s p m n) := by
  unfold State.slip
  repeat' first
    | extract_lets | with_reducible assumption | with_reducible exact Keeps.refl _ | exact hF.within rfl
    | (with_reducible apply Keeps.trans; on_goal 2 => with_reducible first
          | apply State.fset_keeps | apply State.setLane_keeps)

theorem State.searchLane_keeps (s : State) (p m : Nat) {F : Nat} (hF : Sub 0x180002C F) : Keeps F s (State.searchLane
    s p m) := by
  unfold State.searchLane
  repeat' first
    | extract_lets | with_reducible assumption | with_reducible exact Keeps.refl _ | exact hF.within rfl
    | (with_reducible apply Keeps.trans; on_goal 2 => with_reducible first
          | apply State.setLane_keeps | apply State.toLane_keeps | apply State.loseLane_keeps
          | apply State.slip_keeps)
    | (with_reducible apply Keeps.ite <;> intro _)

theorem State.endSearch_keeps (s : State) (p : Nat) {F : Nat} (hF : Sub 0x1E0416C F) : Keeps F s (State.endSearch s p)
    := by
  unfold State.endSearch
  repeat' first
    | extract_lets | with_reducible assumption | with_reducible exact Keeps.refl _ | exact hF.within rfl
    | (with_reducible apply Keeps.trans; on_goal 2 => with_reducible first
          | apply State.loseLane_keeps | apply State.toPort_keeps | apply State.portDown_keeps)
    | (with_reducible apply Keeps.foldl; intro _ _ _)
    | (with_reducible apply Keeps.ite <;> intro _)

theorem State.followReq_keeps (s : State) (p : Nat) {F : Nat} (hF : Sub 0x20 F) : Keeps F s (State.followReq s p) :=
    by
  unfold State.followReq
  repeat' first
    | extract_lets | with_reducible assumption | with_reducible exact Keeps.refl _ | exact hF.within rfl
    | (with_reducible apply Keeps.trans; on_goal 2 => with_reducible first | apply State.setPort_keeps)
    | (with_reducible apply Keeps.ite <;> intro _)

theorem deskewLanes_keeps (p st : Nat) (fin : State → List Nat → State) (fuel : Nat) (s : State) {F : Nat} (hF : Sub
    0x1E0416C F) (hfin : ∀ (x0 : State) (x1 : List Nat), Keeps F x0 (fin x0 x1)) : Keeps F s (deskewLanes p st fin
    fuel s) := by
  induction fuel generalizing s with
  | zero => exact Keeps.refl _
  | succ m ih =>
    unfold deskewLanes
    repeat' first
      | extract_lets
      | with_reducible assumption
      | with_reducible exact Keeps.refl _
      | exact hF.within rfl
      | (with_reducible apply Keeps.trans; on_goal 2 => with_reducible first
            | apply State.int_keeps | apply State.toLane_keeps | apply State.loseLane_keeps
            | apply State.failAttempt_keeps | apply hfin | apply ih)
      | (with_reducible apply Keeps.foldl; intro _ _ _)
      | (with_reducible apply Keeps.ite <;> intro _)

theorem State.deskew_keeps (s : State) (p st : Nat) (fin : State → List Nat → State) {F : Nat} (hF : Sub 0x1E0416C F)
    (hfin : ∀ (x0 : State) (x1 : List Nat), Keeps F x0 (fin x0 x1)) : Keeps F s (State.deskew s p st fin) := by
  unfold State.deskew
  repeat' first
    | extract_lets | with_reducible assumption | with_reducible exact Keeps.refl _ | exact hF.within rfl
    | (with_reducible apply Keeps.trans; on_goal 2 => with_reducible first
          | apply State.loseLane_keeps | apply State.failAttempt_keeps | apply deskewLanes_keeps | apply hfin)
    | (with_reducible apply Keeps.foldl; intro _ _ _)
    | (with_reducible apply Keeps.ite <;> intro _)

theorem State.askLanes_keeps (s : State) (p : Nat) (al : List Nat) {F : Nat} (hF : Sub 0x20 F) : Keeps F s
    (State.askLanes s p al) := by
  unfold State.askLanes
  repeat' first
    | extract_lets | with_reducible assumption | with_reducible exact Keeps.refl _ | exact hF.within rfl
    | (with_reducible apply Keeps.trans; on_goal 2 => with_reducible first | apply State.setPort_keeps)

theorem State.declareBad_keeps (s : State) (p m : Nat) {F : Nat} (hF : Sub 0x1800028 F) : Keeps F s (State.declareBad
    s p m) := by
  unfold State.declareBad
  repeat' first
    | extract_lets | with_reducible assumption | with_reducible exact Keeps.refl _ | exact hF.within rfl
    | (with_reducible apply Keeps.trans; on_goal 2 => with_reducible first
          | apply State.fault_keeps | apply State.setPort_keeps)
    | (with_reducible apply Keeps.ite <;> intro _)

theorem State.dropDone_keeps (s : State) (p mask : Nat) {F : Nat} (hF : Sub 0x1E0406C F) : Keeps F s (State.dropDone s
    p mask) := by
  unfold State.dropDone
  repeat' first
    | extract_lets | with_reducible assumption | with_reducible exact Keeps.refl _ | exact hF.within rfl
    | (with_reducible apply Keeps.trans; on_goal 2 => with_reducible first
          | apply State.fset_keeps | apply State.event_keeps | apply State.setPort_keeps | apply State.setLink_keeps
          | apply State.sendNak_keeps | apply State.pump_keeps | apply State.loseLane_keeps)
    | (with_reducible apply Keeps.foldl; intro _ _ _)
    | (with_reducible apply Keeps.ite <;> intro _)

theorem State.checkMasks_keeps (s : State) (p : Nat) {F : Nat} (hF : Sub 0x1E0416C F) : Keeps F s (State.checkMasks s
    p) := by
  unfold State.checkMasks
  repeat' first
    | extract_lets | with_reducible assumption | with_reducible exact Keeps.refl _ | exact hF.within rfl
    | (with_reducible apply Keeps.trans; on_goal 2 => with_reducible first
          | apply State.fset_keeps | apply State.setPort_keeps | apply State.setLink_keeps
          | apply State.toPort_keeps | apply State.dropDone_keeps)
    | (with_reducible apply Keeps.ite <;> intro _)

theorem State.partnerDrop_keeps (s : State) (p : Nat) (new : Bool) {F : Nat} (hF : Sub 0x1800028 F) : Keeps F s
    (State.partnerDrop s p new) := by
  unfold State.partnerDrop
  repeat' first
    | extract_lets | with_reducible assumption | with_reducible exact Keeps.refl _ | exact hF.within rfl
    | (with_reducible apply Keeps.trans; on_goal 2 => with_reducible first
          | apply State.fault_keeps | apply State.setPort_keeps)
    | (with_reducible apply Keeps.ite <;> intro _)

theorem State.dropAtExit_keeps (s : State) (p : Nat) {F : Nat} (hF : Sub 0x1800028 F) : Keeps F s (State.dropAtExit s
    p) := by
  unfold State.dropAtExit
  repeat' first
    | extract_lets | with_reducible assumption | with_reducible exact Keeps.refl _ | exact hF.within rfl
    | (with_reducible apply Keeps.trans; on_goal 2 => with_reducible first
          | apply State.setPort_keeps | apply State.setLane_keeps | apply State.declareBad_keeps)
    | (with_reducible apply Keeps.foldl; intro _ _ _)
    | (with_reducible apply Keeps.foldlP; intro _ _ _)
    | (with_reducible apply Keeps.ite <;> intro _)
    | split
    | (with_reducible apply Keeps.fst; on_goal 2 => with_reducible assumption)
    | (with_reducible apply Keeps.snd; on_goal 2 => with_reducible assumption)

theorem State.lightExit_keeps (s : State) (p ns : Nat) {F : Nat} (hF : Sub 0x180416C F) : Keeps F s (State.lightExit s
    p ns) := by
  unfold State.lightExit
  repeat' first
    | extract_lets | with_reducible assumption | with_reducible exact Keeps.refl _ | exact hF.within rfl
    | (with_reducible apply Keeps.trans; on_goal 2 => with_reducible first
          | apply State.fset_keeps | apply State.setPort_keeps | apply State.enterUp_keeps
          | apply State.dropAtExit_keeps)
    | (with_reducible apply Keeps.ite <;> intro _)

theorem State.startAligner_keeps (s : State) (p : Nat) (lanes : List Nat) {F : Nat} (hF : Sub 0x2C F) : Keeps F s
    (State.startAligner s p lanes) := by
  unfold State.startAligner
  repeat' first
    | extract_lets | with_reducible assumption | with_reducible exact Keeps.refl _ | exact hF.within rfl
    | (with_reducible apply Keeps.trans; on_goal 2 => with_reducible first
          | apply State.fset_keeps | apply State.setPort_keeps | apply State.setLane_keeps
          | apply State.toLane_keeps)
    | (with_reducible apply Keeps.foldl; intro _ _ _)
    | (with_reducible apply Keeps.foldlP; intro _ _ _)
    | (with_reducible apply Keeps.ite <;> intro _)
    | split
    | (with_reducible apply Keeps.fst; on_goal 2 => with_reducible assumption)
    | (with_reducible apply Keeps.snd; on_goal 2 => with_reducible assumption)

theorem State.deepExit_keeps (s : State) (p : Nat) {F : Nat} (hF : Sub 0x1E0016C F) : Keeps F s (State.deepExit s p)
    := by
  unfold State.deepExit
  repeat' first
    | extract_lets | with_reducible assumption | with_reducible exact Keeps.refl _ | exact hF.within rfl
    | (with_reducible apply Keeps.trans; on_goal 2 => with_reducible first
          | apply State.enterRetrain_keeps | apply State.startAligner_keeps)
    | (with_reducible apply Keeps.ite <;> intro _)

theorem State.rxDeepExit_keeps (s : State) (p : Nat) {F : Nat} (hF : Sub 0x1E0016C F) : Keeps F s (State.rxDeepExit s
    p) := by
  unfold State.rxDeepExit
  repeat' first
    | extract_lets | with_reducible assumption | with_reducible exact Keeps.refl _ | exact hF.within rfl
    | (with_reducible apply Keeps.trans; on_goal 2 => with_reducible first
          | apply State.enterRetrain_keeps | apply State.startAligner_keeps)
    | (with_reducible apply Keeps.ite <;> intro _)
    | split
    | (with_reducible apply Keeps.fst; on_goal 2 => with_reducible assumption)
    | (with_reducible apply Keeps.snd; on_goal 2 => with_reducible assumption)

theorem State.deepDone_keeps (s : State) (p : Nat) {F : Nat} (hF : Sub 0x180416C F) : Keeps F s (State.deepDone s p)
    := by
  unfold State.deepDone
  repeat' first
    | extract_lets | with_reducible assumption | with_reducible exact Keeps.refl _ | exact hF.within rfl
    | (with_reducible apply Keeps.trans; on_goal 2 => with_reducible first
          | apply State.fset_keeps | apply State.setPort_keeps | apply State.enterUp_keeps
          | apply State.dropAtExit_keeps)
    | (with_reducible apply Keeps.ite <;> intro _)
    | split
    | (with_reducible apply Keeps.fst; on_goal 2 => with_reducible assumption)
    | (with_reducible apply Keeps.snd; on_goal 2 => with_reducible assumption)

theorem State.checkDeep_keeps (s : State) (p : Nat) {F : Nat} (hF : Sub 0x1E0416C F) : Keeps F s (State.checkDeep s p)
    := by
  unfold State.checkDeep
  repeat' first
    | extract_lets | with_reducible assumption | with_reducible exact Keeps.refl _ | exact hF.within rfl
    | (with_reducible apply Keeps.trans; on_goal 2 => with_reducible first
          | apply State.deskew_keeps | apply State.deepDone_keeps)
    | (with_reducible apply Keeps.ite <;> intro _)
    | split
    | intro _

theorem State.enterIdle_keeps (s : State) (p : Nat) (deep : Bool) {F : Nat} (hF : Sub 0x168 F) : Keeps F s
    (State.enterIdle s p deep) := by
  unfold State.enterIdle
  repeat' first
    | extract_lets | with_reducible assumption | with_reducible exact Keeps.refl _ | exact hF.within rfl
    | (with_reducible apply Keeps.trans; on_goal 2 => with_reducible first
          | apply State.setPort_keeps | apply State.toPort_keeps)

theorem State.enterRxIdle_keeps (s : State) (p : Nat) (deep : Bool) {F : Nat} (hF : Sub 0x2C F) : Keeps F s
    (State.enterRxIdle s p deep) := by
  unfold State.enterRxIdle
  repeat' first
    | extract_lets | with_reducible assumption | with_reducible exact Keeps.refl _ | exact hF.within rfl
    | (with_reducible apply Keeps.trans; on_goal 2 => with_reducible first
          | apply State.fset_keeps | apply State.toLane_keeps)
    | (with_reducible apply Keeps.foldl; intro _ _ _)
    | (with_reducible apply Keeps.ite <;> intro _)

theorem State.abandonBringup_keeps (s : State) (p : Nat) {F : Nat} (hF : Sub 0x16C F) : Keeps F s
    (State.abandonBringup s p) := by
  unfold State.abandonBringup
  repeat' first
    | extract_lets | with_reducible assumption | with_reducible exact Keeps.refl _ | exact hF.within rfl
    | (with_reducible apply Keeps.trans; on_goal 2 => with_reducible first
          | apply State.startBringup_keeps | apply State.restartLanes_keeps | apply State.toPort_keeps)
    | (with_reducible apply Keeps.ite <;> intro _)

theorem State.leavePllWait_keeps (s : State) (k : Nat) {F : Nat} (hF : Sub 0x16C F) : Keeps F s (State.leavePllWait s
    k) := by
  unfold State.leavePllWait
  repeat' first
    | extract_lets | with_reducible assumption | with_reducible exact Keeps.refl _ | exact hF.within rfl
    | (with_reducible apply Keeps.trans; on_goal 2 => with_reducible first
          | apply State.setFlag_keeps | apply State.setPort_keeps | apply State.toLane_keeps
          | apply State.beginBringup_keeps)
    | (with_reducible apply Keeps.foldl; intro _ _ _)
    | (with_reducible apply Keeps.foldlP; intro _ _ _)
    | (with_reducible apply Keeps.ite <;> intro _)
    | split
    | (with_reducible apply Keeps.fst; on_goal 2 => with_reducible assumption)
    | (with_reducible apply Keeps.snd; on_goal 2 => with_reducible assumption)

theorem State.lpllLocked_keeps (s : State) (k lockUs : Nat) {F : Nat} (hF : Sub 0x16C F) : Keeps F s (State.lpllLocked
    s k lockUs) := by
  unfold State.lpllLocked
  repeat' first
    | extract_lets | with_reducible assumption | with_reducible exact Keeps.refl _ | exact hF.within rfl
    | (with_reducible apply Keeps.trans; on_goal 2 => with_reducible first
          | apply State.fset_keeps | apply State.leavePllWait_keeps)
    | (with_reducible apply Keeps.ite <;> intro _)

theorem State.enterHoldover_keeps (s : State) (k : Nat) {F : Nat} (hF : Sub 0x190016C F) : Keeps F s
    (State.enterHoldover s k) := by
  unfold State.enterHoldover
  repeat' first
    | extract_lets | with_reducible assumption | with_reducible exact Keeps.refl _ | exact hF.within rfl
    | (with_reducible apply Keeps.trans; on_goal 2 => with_reducible first
          | apply State.fset_keeps | apply State.int_keeps | apply State.abandonBringup_keeps)
    | (with_reducible apply Keeps.foldl; intro _ _ _)
    | split
    | (with_reducible apply Keeps.fst; on_goal 2 => with_reducible assumption)
    | (with_reducible apply Keeps.snd; on_goal 2 => with_reducible assumption)
    | with_reducible apply Keeps.mk_clk

/-! ### Machine/PortCmds.lean -/

theorem State.portWrite_keeps (s : State) (p addr : Nat) (f : State → State) {F : Nat} (hF : Sub 0x1800008 F) (hf : ∀
    (x0 : State), Keeps F x0 (f x0)) : Keeps F s (State.portWrite s p addr f) := by
  unfold State.portWrite
  repeat' first
    | extract_lets | with_reducible assumption | with_reducible exact Keeps.refl _ | exact hF.within rfl
    | (with_reducible apply Keeps.trans; on_goal 2 => with_reducible first | apply State.countGated_keeps | apply hf)
    | (with_reducible apply Keeps.ite <;> intro _)

theorem State.enablePort_keeps (s : State) (p : Nat) {F : Nat} (hF : Sub 0x16C F) : Keeps F s (State.enablePort s p)
    := by
  unfold State.enablePort
  repeat' first
    | extract_lets | with_reducible assumption | with_reducible exact Keeps.refl _ | exact hF.within rfl
    | (with_reducible apply Keeps.trans; on_goal 2 => with_reducible first
          | apply State.fset_keeps | apply State.setFlag_keeps | apply State.setLink_keeps
          | apply State.startBringup_keeps | apply State.toPort_keeps)
    | (with_reducible apply Keeps.ite <;> intro _)

theorem execPortEnable_keeps (p : Nat) (s : State) : Keeps.Out 0x180016C s (execPortEnable p s) := by
  unfold execPortEnable
  have hF := Sub.refl 0x180016C
  apply Keeps.done
  repeat' first
    | extract_lets | with_reducible assumption | with_reducible exact Keeps.refl _ | exact hF.within rfl
    | (with_reducible apply Keeps.trans; on_goal 2 => with_reducible first
          | apply State.portWrite_keeps | apply State.enablePort_keeps)
    | split
    | intro _

theorem State.disablePort_keeps (s : State) (p : Nat) {F : Nat} (hF : Sub 0x180416C F) : Keeps F s (State.disablePort
    s p) := by
  unfold State.disablePort
  repeat' first
    | extract_lets | with_reducible assumption | with_reducible exact Keeps.refl _ | exact hF.within rfl
    | (with_reducible apply Keeps.trans; on_goal 2 => with_reducible first
          | apply State.fset_keeps | apply State.setFlag_keeps | apply State.setPort_keeps
          | apply State.setLink_keeps | apply State.reroute_keeps | apply State.setLane_keeps
          | apply State.toLane_keeps | apply State.toPort_keeps | apply State.settlePort_keeps)
    | (with_reducible apply Keeps.foldl; intro _ _ _)
    | (with_reducible apply Keeps.ite <;> intro _)

theorem execPortDisable_keeps (p : Nat) (s : State) : Keeps.Out 0x180416C s (execPortDisable p s) := by
  unfold execPortDisable
  have hF := Sub.refl 0x180416C
  apply Keeps.done
  repeat' first
    | extract_lets | with_reducible assumption | with_reducible exact Keeps.refl _ | exact hF.within rfl
    | (with_reducible apply Keeps.trans; on_goal 2 => with_reducible first
          | apply State.portWrite_keeps | apply State.disablePort_keeps)
    | split
    | intro _

theorem State.writeRetrain_keeps (s : State) (p : Nat) {F : Nat} (hF : Sub 0x1E0016C F) : Keeps F s
    (State.writeRetrain s p) := by
  unfold State.writeRetrain
  repeat' first
    | extract_lets | with_reducible assumption | with_reducible exact Keeps.refl _ | exact hF.within rfl
    | (with_reducible apply Keeps.trans; on_goal 2 => with_reducible first
          | apply State.fset_keeps | apply State.enterRetrain_keeps)
    | (with_reducible apply Keeps.ite <;> intro _)

theorem execPrtCtrlRetrain_keeps (p : Nat) (s : State) : Keeps.Out 0x1E0016C s (execPrtCtrlRetrain p s) := by
  unfold execPrtCtrlRetrain
  have hF := Sub.refl 0x1E0016C
  apply Keeps.done
  repeat' first
    | extract_lets | with_reducible assumption | with_reducible exact Keeps.refl _ | exact hF.within rfl
    | (with_reducible apply Keeps.trans; on_goal 2 => with_reducible first
          | apply State.portWrite_keeps | apply State.writeRetrain_keeps)
    | split
    | intro _

theorem State.countPrbs_keeps (s : State) (p : Nat) (errs checked : List Nat) {F : Nat} (hF : Sub 0x1800008 F) : Keeps
    F s (State.countPrbs s p errs checked) := by
  unfold State.countPrbs
  repeat' first
    | extract_lets | with_reducible assumption | with_reducible exact Keeps.refl _ | exact hF.within rfl
    | (with_reducible apply Keeps.trans; on_goal 2 => with_reducible first
          | apply State.bumpSat_keeps | apply State.int_keeps)
    | (with_reducible apply Keeps.foldl; intro _ _ _)
    | (with_reducible apply Keeps.ite <;> intro _)

theorem State.testMode_keeps (s : State) (p : Nat) (on : Bool) (errs checked : List Nat) {F : Nat} (hF : Sub 0x180016C
    F) : Keeps F s (State.testMode s p on errs checked) := by
  unfold State.testMode
  repeat' first
    | extract_lets | with_reducible assumption | with_reducible exact Keeps.refl _ | exact hF.within rfl
    | (with_reducible apply Keeps.trans; on_goal 2 => with_reducible first
          | apply State.setFlag_keeps | apply State.restartLanes_keeps | apply State.toPort_keeps
          | apply State.enterTest_keeps | apply State.countPrbs_keeps)
    | (with_reducible apply Keeps.ite <;> intro _)

theorem execTestEn_keeps (p : Nat) (on : Bool) (errs checked : List Nat) (s : State) : Keeps.Out 0x180016C s
    (execTestEn p on errs checked s) := by
  unfold execTestEn
  have hF := Sub.refl 0x180016C
  apply Keeps.done
  repeat' first
    | extract_lets | with_reducible assumption | with_reducible exact Keeps.refl _ | exact hF.within rfl
    | (with_reducible apply Keeps.trans; on_goal 2 => with_reducible first
          | apply State.portWrite_keeps | apply State.testMode_keeps)
    | split
    | intro _

theorem State.writeSlip_keeps (s : State) (p lane count : Nat) {F : Nat} (hF : Sub 0x1800028 F) : Keeps F s
    (State.writeSlip s p lane count) := by
  unfold State.writeSlip
  repeat' first
    | extract_lets | with_reducible assumption | with_reducible exact Keeps.refl _ | exact hF.within rfl
    | (with_reducible apply Keeps.trans; on_goal 2 => with_reducible first
          | apply State.int_keeps | apply State.slip_keeps)
    | (with_reducible apply Keeps.ite <;> intro _)

theorem execPrtSlip_keeps (p lane count : Nat) (s : State) : Keeps.Out 0x1800028 s (execPrtSlip p lane count s) := by
  unfold execPrtSlip
  have hF := Sub.refl 0x1800028
  apply Keeps.done
  repeat' first
    | extract_lets | with_reducible assumption | with_reducible exact Keeps.refl _ | exact hF.within rfl
    | (with_reducible apply Keeps.trans; on_goal 2 => with_reducible first
          | apply State.portWrite_keeps | apply State.writeSlip_keeps)
    | split
    | intro _

theorem execLpllLock_keeps (k lockUs : Nat) (s : State) : Keeps.Out 0x16C s (execLpllLock k lockUs s) := by
  unfold execLpllLock
  have hF := Sub.refl 0x16C
  apply Keeps.done
  repeat' first
    | extract_lets | with_reducible assumption | with_reducible exact Keeps.refl _ | exact hF.within rfl
    | (with_reducible apply Keeps.trans; on_goal 2 => with_reducible first | apply State.lpllLocked_keeps)
    | (with_reducible apply Keeps.ite <;> intro _)

theorem State.signalDetect_keeps (s : State) (p m : Nat) {F : Nat} (hF : Sub 0x11E0016C F) : Keeps F s
    (State.signalDetect s p m) := by
  unfold State.signalDetect
  repeat' first
    | extract_lets | with_reducible assumption | with_reducible exact Keeps.refl _ | exact hF.within rfl
    | (with_reducible apply Keeps.trans; on_goal 2 => with_reducible first
          | apply State.setFlag_keeps | apply State.wakeEvent_keeps | apply State.toLane_keeps
          | apply State.beginBringup_keeps | apply State.rxDeepExit_keeps)
    | (with_reducible apply Keeps.ite <;> intro _)

theorem execSignalDetect_keeps (p m : Nat) (s : State) : Keeps.Out 0x11E0016C s (execSignalDetect p m s) := by
  unfold execSignalDetect
  have hF := Sub.refl 0x11E0016C
  apply Keeps.done
  repeat' first
    | extract_lets | with_reducible assumption | with_reducible exact Keeps.refl _ | exact hF.within rfl
    | (with_reducible apply Keeps.trans; on_goal 2 => with_reducible first | apply State.signalDetect_keeps)
    | (with_reducible apply Keeps.ite <;> intro _)

theorem State.signalLost_keeps (s : State) (p m : Nat) (sdLost : Bool) {F : Nat} (hF : Sub 0x180002C F) : Keeps F s
    (State.signalLost s p m sdLost) := by
  unfold State.signalLost
  repeat' first
    | extract_lets | with_reducible assumption | with_reducible exact Keeps.refl _ | exact hF.within rfl
    | (with_reducible apply Keeps.trans; on_goal 2 => with_reducible first
          | apply State.setFlag_keeps | apply State.int_keeps | apply State.setLane_keeps | apply State.toLane_keeps
          | apply State.declareBad_keeps)
    | (with_reducible apply Keeps.ite <;> intro _)

theorem execLossOfSignal_keeps (p m : Nat) (sdLost : Bool) (s : State) : Keeps.Out 0x180002C s (execLossOfSignal p m
    sdLost s) := by
  unfold execLossOfSignal
  have hF := Sub.refl 0x180002C
  apply Keeps.done
  repeat' first
    | extract_lets | with_reducible assumption | with_reducible exact Keeps.refl _ | exact hF.within rfl
    | (with_reducible apply Keeps.trans; on_goal 2 => with_reducible first | apply State.signalLost_keeps)
    | (with_reducible apply Keeps.ite <;> intro _)

theorem State.cdrLock_keeps (s : State) (p m : Nat) {F : Nat} (hF : Sub 0x16C F) : Keeps F s (State.cdrLock s p m) :=
    by
  unfold State.cdrLock
  repeat' first
    | extract_lets | with_reducible assumption | with_reducible exact Keeps.refl _ | exact hF.within rfl
    | (with_reducible apply Keeps.trans; on_goal 2 => with_reducible first
          | apply State.setFlag_keeps | apply State.toLane_keeps | apply State.beginBringup_keeps)
    | (with_reducible apply Keeps.ite <;> intro _)

theorem execCdrLock_keeps (p m : Nat) (s : State) : Keeps.Out 0x16C s (execCdrLock p m s) := by
  unfold execCdrLock
  have hF := Sub.refl 0x16C
  apply Keeps.done
  repeat' first
    | extract_lets | with_reducible assumption | with_reducible exact Keeps.refl _ | exact hF.within rfl
    | (with_reducible apply Keeps.trans; on_goal 2 => with_reducible first | apply State.cdrLock_keeps)
    | (with_reducible apply Keeps.ite <;> intro _)

theorem execSdWaitExpiry_keeps (p m : Nat) (s : State) : Keeps.Out 0x1E0416C s (execSdWaitExpiry p m s) := by
  unfold execSdWaitExpiry
  have hF := Sub.refl 0x1E0416C
  apply Keeps.done
  repeat' first
    | extract_lets | with_reducible assumption | with_reducible exact Keeps.refl _ | exact hF.within rfl
    | (with_reducible apply Keeps.trans; on_goal 2 => with_reducible first
          | apply State.loseLane_keeps | apply State.beginBringup_keeps | apply State.checkSignal_keeps)
    | (with_reducible apply Keeps.ite <;> intro _)

theorem State.trainingEnds_keeps (s : State) (p adapted : Nat) {F : Nat} (hF : Sub 0x16C F) : Keeps F s
    (State.trainingEnds s p adapted) := by
  unfold State.trainingEnds
  repeat' first
    | extract_lets | with_reducible assumption | with_reducible exact Keeps.refl _ | exact hF.within rfl
    | (with_reducible apply Keeps.trans; on_goal 2 => with_reducible first
          | apply State.fset_keeps | apply State.setPort_keeps | apply State.beginBringup_keeps
          | apply State.checkAlign_keeps | apply State.adaptDone_keeps)

theorem execTrainLenExpiry_keeps (p adapted : Nat) (s : State) : Keeps.Out 0x16C s (execTrainLenExpiry p adapted s) :=
    by
  unfold execTrainLenExpiry
  have hF := Sub.refl 0x16C
  apply Keeps.done
  repeat' first
    | extract_lets | with_reducible assumption | with_reducible exact Keeps.refl _ | exact hF.within rfl
    | (with_reducible apply Keeps.trans; on_goal 2 => with_reducible first | apply State.trainingEnds_keeps)
    | (with_reducible apply Keeps.ite <;> intro _)

theorem State.searchTick_keeps (s : State) (p adapted : Nat) {F : Nat} (hF : Sub 0x1E0416C F) : Keeps F s
    (State.searchTick s p adapted) := by
  unfold State.searchTick
  repeat' first
    | extract_lets | with_reducible assumption | with_reducible exact Keeps.refl _ | exact hF.within rfl
    | (with_reducible apply Keeps.trans; on_goal 2 => with_reducible first
          | apply State.checkAlign_keeps | apply State.adaptDone_keeps | apply State.searchLane_keeps
          | apply State.endSearch_keeps)
    | (with_reducible apply Keeps.foldl; intro _ _ _)
    | (with_reducible apply Keeps.ite <;> intro _)

theorem execBitSlipSearch_keeps (p adapted : Nat) (s : State) : Keeps.Out 0x1E0416C s (execBitSlipSearch p adapted s)
    := by
  unfold execBitSlipSearch
  have hF := Sub.refl 0x1E0416C
  apply Keeps.done
  repeat' first
    | extract_lets | with_reducible assumption | with_reducible exact Keeps.refl _ | exact hF.within rfl
    | (with_reducible apply Keeps.trans; on_goal 2 => with_reducible first | apply State.searchTick_keeps)
    | (with_reducible apply Keeps.ite <;> intro _)

theorem State.markerLock_keeps (s : State) (p m pos : Nat) (x : BitVec 128) {F : Nat} (hF : Sub 0x28 F) : Keeps F s
    (State.markerLock s p m pos x) := by
  unfold State.markerLock
  repeat' first
    | extract_lets | with_reducible assumption | with_reducible exact Keeps.refl _ | exact hF.within rfl
    | (with_reducible apply Keeps.trans; on_goal 2 => with_reducible first
          | apply State.fset_keeps | apply State.setFlag_keeps | apply State.setLane_keeps)
    | (with_reducible apply Keeps.ite <;> intro _)

theorem State.checkBip_keeps (s : State) (p m : Nat) (x : BitVec 128) (parity : BitVec 32) {F : Nat} (hF : Sub
    0x1800028 F) : Keeps F s (State.checkBip s p m x parity) := by
  unfold State.checkBip
  repeat' first
    | extract_lets | with_reducible assumption | with_reducible exact Keeps.refl _ | exact hF.within rfl
    | (with_reducible apply Keeps.trans; on_goal 2 => with_reducible first
          | apply State.bumpSat_keeps | apply State.setLane_keeps | apply State.declareBad_keeps)
    | (with_reducible apply Keeps.ite <;> intro _)

theorem State.slicerStep_keeps (s : State) (p m : Nat) {F : Nat} (hF : Sub 0x28 F) : Keeps F s (State.slicerStep s p
    m) := by
  unfold State.slicerStep
  repeat' first
    | extract_lets | with_reducible assumption | with_reducible exact Keeps.refl _ | exact hF.within rfl
    | (with_reducible apply Keeps.trans; on_goal 2 => with_reducible first
          | apply State.fset_keeps | apply State.bump_keeps | apply State.setLane_keeps)
    | split

theorem State.setPartner_keeps (s : State) (p : Nat) (x : BitVec 128) {F : Nat} (hF : Sub 0x8 F) : Keeps F s
    (State.setPartner s p x) := by
  unfold State.setPartner
  repeat' first
    | extract_lets | with_reducible assumption | with_reducible exact Keeps.refl _ | exact hF.within rfl
    | (with_reducible apply Keeps.trans; on_goal 2 => with_reducible first | apply State.fset_keeps)
    | (with_reducible apply Keeps.ite <;> intro _)

theorem State.markerBoundary_keeps (s : State) (p seq : Nat) {F : Nat} (hF : Sub 0x6C F) : Keeps F s
    (State.markerBoundary s p seq) := by
  unfold State.markerBoundary
  repeat' first
    | extract_lets | with_reducible assumption | with_reducible exact Keeps.refl _ | exact hF.within rfl
    | (with_reducible apply Keeps.trans; on_goal 2 => with_reducible first
          | apply State.setPort_keeps | apply State.setLink_keeps | apply State.enterRxIdle_keeps)
    | split

theorem State.markerUp_keeps (s : State) (p : Nat) (new : Bool) {F : Nat} (hF : Sub 0x1E0406C F) : Keeps F s
    (State.markerUp s p new) := by
  unfold State.markerUp
  repeat' first
    | extract_lets | with_reducible assumption | with_reducible exact Keeps.refl _ | exact hF.within rfl
    | (with_reducible apply Keeps.trans; on_goal 2 => with_reducible first
          | apply State.fset_keeps | apply State.dropDone_keeps | apply State.partnerDrop_keeps)
    | (with_reducible apply Keeps.ite <;> intro _)

theorem State.markerFields_keeps (s : State) (p m : Nat) (x : BitVec 128) (skew : Nat) {F : Nat} (hF : Sub 0x1E0416C
    F) : Keeps F s (State.markerFields s p m x skew) := by
  unfold State.markerFields
  repeat' first
    | extract_lets | with_reducible assumption | with_reducible exact Keeps.refl _ | exact hF.within rfl
    | (with_reducible apply Keeps.trans; on_goal 2 => with_reducible first
          | apply State.fset_keeps | apply State.setLane_keeps | apply State.followReq_keeps
          | apply State.deskew_keeps | apply State.askLanes_keeps | apply State.checkMasks_keeps
          | apply State.checkDeep_keeps | apply State.slicerStep_keeps | apply State.setPartner_keeps
          | apply State.markerBoundary_keeps | apply State.markerUp_keeps)
    | (with_reducible apply Keeps.ite <;> intro _)
    | split
    | intro _

theorem State.marker_keeps (s : State) (p m : Nat) (x : BitVec 128) (parity : BitVec 32) (skew pos : Nat) {F : Nat}
    (hF : Sub 0x1E0416C F) : Keeps F s (State.marker s p m x parity skew pos) := by
  unfold State.marker
  repeat' first
    | extract_lets | with_reducible assumption | with_reducible exact Keeps.refl _ | exact hF.within rfl
    | (with_reducible apply Keeps.trans; on_goal 2 => with_reducible first
          | apply State.toLane_keeps | apply State.markerLock_keeps | apply State.checkBip_keeps
          | apply State.markerFields_keeps)
    | (with_reducible apply Keeps.ite <;> intro _)

theorem execAlignmentMarker_keeps (p m : Nat) (marker : BitVec 128) (parity : BitVec 32) (place : MarkerPlace) (s :
    State) : Keeps.Out 0x1E0416C s (execAlignmentMarker p m marker parity place s) := by
  unfold execAlignmentMarker
  have hF := Sub.refl 0x1E0416C
  apply Keeps.done
  repeat' first
    | extract_lets | with_reducible assumption | with_reducible exact Keeps.refl _ | exact hF.within rfl
    | (with_reducible apply Keeps.trans; on_goal 2 => with_reducible first | apply State.marker_keeps)
    | (with_reducible apply Keeps.ite <;> intro _)

theorem execMaskExchangeTimeout_keeps (p : Nat) (s : State) : Keeps.Out 0x1E0416C s (execMaskExchangeTimeout p s) :=
    by
  unfold execMaskExchangeTimeout
  have hF := Sub.refl 0x1E0416C
  apply Keeps.done
  repeat' first
    | extract_lets | with_reducible assumption | with_reducible exact Keeps.refl _ | exact hF.within rfl
    | (with_reducible apply Keeps.trans; on_goal 2 => with_reducible first | apply State.failAttempt_keeps)
    | (with_reducible apply Keeps.ite <;> intro _)

theorem State.applyTxMask_keeps (s : State) (p : Nat) {F : Nat} (hF : Sub 0x1E00028 F) : Keeps F s (State.applyTxMask
    s p) := by
  unfold State.applyTxMask
  repeat' first
    | extract_lets | with_reducible assumption | with_reducible exact Keeps.refl _ | exact hF.within rfl
    | (with_reducible apply Keeps.trans; on_goal 2 => with_reducible first
          | apply State.fset_keeps | apply State.bumpSat_keeps | apply State.int_keeps | apply State.event_keeps
          | apply State.setPort_keeps)
    | (with_reducible apply Keeps.ite <;> intro _)
    | split

theorem State.applyFir_keeps (s : State) (p : Nat) {F : Nat} (hF : Sub 0x28 F) : Keeps F s (State.applyFir s p) := by
  unfold State.applyFir
  repeat' first
    | extract_lets | with_reducible assumption | with_reducible exact Keeps.refl _ | exact hF.within rfl
    | (with_reducible apply Keeps.trans; on_goal 2 => with_reducible first
          | apply State.setReg_keeps | apply State.setLane_keeps)
    | (with_reducible apply Keeps.foldl; intro _ _ _)
    | split

theorem State.idleMarker_keeps (s : State) (p : Nat) {F : Nat} (hF : Sub 0x168 F) : Keeps F s (State.idleMarker s p)
    := by
  unfold State.idleMarker
  repeat' first
    | extract_lets | with_reducible assumption | with_reducible exact Keeps.refl _ | exact hF.within rfl
    | (with_reducible apply Keeps.trans; on_goal 2 => with_reducible first
          | apply State.setPort_keeps | apply State.enterIdle_keeps)
    | (with_reducible apply Keeps.ite <;> intro _)
    | split

theorem State.sendMarker_keeps (s : State) (p : Nat) {F : Nat} (hF : Sub 0x1E0416C F) : Keeps F s (State.sendMarker s
    p) := by
  unfold State.sendMarker
  repeat' first
    | extract_lets | with_reducible assumption | with_reducible exact Keeps.refl _ | exact hF.within rfl
    | (with_reducible apply Keeps.trans; on_goal 2 => with_reducible first
          | apply State.setPort_keeps | apply State.checkMasks_keeps | apply State.applyTxMask_keeps
          | apply State.applyFir_keeps | apply State.idleMarker_keeps)

theorem execMarkerSend_keeps (p : Nat) (s : State) : Keeps.Out 0x1E0416C s (execMarkerSend p s) := by
  unfold execMarkerSend
  have hF := Sub.refl 0x1E0416C
  apply Keeps.done
  repeat' first
    | extract_lets | with_reducible assumption | with_reducible exact Keeps.refl _ | exact hF.within rfl
    | (with_reducible apply Keeps.trans; on_goal 2 => with_reducible first | apply State.sendMarker_keeps)
    | (with_reducible apply Keeps.ite <;> intro _)

theorem execRxreqTmo_keeps (p : Nat) (s : State) : Keeps.Out 0x1800028 s (execRxreqTmo p s) := by
  unfold execRxreqTmo
  have hF := Sub.refl 0x1800028
  apply Keeps.done
  repeat' first
    | extract_lets | with_reducible assumption | with_reducible exact Keeps.refl _ | exact hF.within rfl
    | (with_reducible apply Keeps.trans; on_goal 2 => with_reducible first
          | apply State.fault_keeps | apply State.setPort_keeps)
    | (with_reducible apply Keeps.ite <;> intro _)

theorem State.rereference_keeps (s : State) (k : Nat) {F : Nat} (hF : Sub 0x1F0416C F) : Keeps F s (State.rereference
    s k) := by
  unfold State.rereference
  repeat' first
    | extract_lets | with_reducible assumption | with_reducible exact Keeps.refl _ | exact hF.within rfl
    | (with_reducible apply Keeps.trans; on_goal 2 => with_reducible first
          | apply State.fset_keeps | apply State.setFlag_keeps | apply State.portDown_keeps
          | apply State.enterRetrain_keeps)
    | (with_reducible apply Keeps.foldl; intro _ _ _)
    | (with_reducible apply Keeps.ite <;> intro _)
    | split
    | (with_reducible apply Keeps.fst; on_goal 2 => with_reducible assumption)
    | (with_reducible apply Keeps.snd; on_goal 2 => with_reducible assumption)
    | with_reducible apply Keeps.mk_clk

theorem execLpllRereference_keeps (k : Nat) (s : State) : Keeps.Out 0x1F0416C s (execLpllRereference k s) := by
  unfold execLpllRereference
  have hF := Sub.refl 0x1F0416C
  apply Keeps.done
  repeat' first
    | extract_lets | with_reducible assumption | with_reducible exact Keeps.refl _ | exact hF.within rfl
    | (with_reducible apply Keeps.trans; on_goal 2 => with_reducible first | apply State.rereference_keeps)
    | (with_reducible apply Keeps.ite <;> intro _)

theorem execHoldoverExpiry_keeps (k : Nat) (s : State) : Keeps.Out 0x1E04168 s (execHoldoverExpiry k s) := by
  unfold execHoldoverExpiry
  have hF := Sub.refl 0x1E04168
  apply Keeps.done
  repeat' first
    | extract_lets | with_reducible assumption | with_reducible exact Keeps.refl _ | exact hF.within rfl
    | (with_reducible apply Keeps.trans; on_goal 2 => with_reducible first | apply State.portDown_keeps)
    | (with_reducible apply Keeps.foldl; intro _ _ _)
    | (with_reducible apply Keeps.ite <;> intro _)

theorem execParallelAlignerTimeout_keeps (p : Nat) (s : State) : Keeps.Out 0x1E0016C s (execParallelAlignerTimeout p
    s) := by
  unfold execParallelAlignerTimeout
  have hF := Sub.refl 0x1E0016C
  apply Keeps.done
  repeat' first
    | extract_lets | with_reducible assumption | with_reducible exact Keeps.refl _ | exact hF.within rfl
    | (with_reducible apply Keeps.trans; on_goal 2 => with_reducible first
          | apply State.setPort_keeps | apply State.enterRetrain_keeps)
    | (with_reducible apply Keeps.ite <;> intro _)

/-! ### Machine/Link.lean -/

theorem State.applyAck_keeps (s : State) (p ack : Nat) {F : Nat} (hF : Sub 0x40 F) : Keeps F s (State.applyAck s p
    ack) := by
  unfold State.applyAck
  repeat' first
    | extract_lets | with_reducible assumption | with_reducible exact Keeps.refl _ | exact hF.within rfl
    | (with_reducible apply Keeps.trans; on_goal 2 => with_reducible first | apply State.setLink_keeps)
    | (with_reducible apply Keeps.ite <;> intro _)

theorem State.countReplay_keeps (s : State) (p : Nat) {F : Nat} (hF : Sub 0x1804048 F) : Keeps F s (State.countReplay
    s p) := by
  unfold State.countReplay
  repeat' first
    | extract_lets | with_reducible assumption | with_reducible exact Keeps.refl _ | exact hF.within rfl
    | (with_reducible apply Keeps.trans; on_goal 2 => with_reducible first
          | apply State.fault_keeps | apply State.int_keeps | apply State.setLink_keeps | apply State.resend_keeps)
    | (with_reducible apply Keeps.ite <;> intro _)

theorem State.takeNak_keeps (s : State) (p ack : Nat) {F : Nat} (hF : Sub 0x1804048 F) : Keeps F s (State.takeNak s p
    ack) := by
  unfold State.takeNak
  repeat' first
    | extract_lets | with_reducible assumption | with_reducible exact Keeps.refl _ | exact hF.within rfl
    | (with_reducible apply Keeps.trans; on_goal 2 => with_reducible first
          | apply State.bumpSat_keeps | apply State.applyAck_keeps | apply State.countReplay_keeps)
    | (with_reducible apply Keeps.ite <;> intro _)

theorem State.replayWait_keeps (s : State) (p : Nat) {F : Nat} (hF : Sub 0x48 F) : Keeps F s (State.replayWait s p) :=
    by
  unfold State.replayWait
  repeat' first
    | extract_lets | with_reducible assumption | with_reducible exact Keeps.refl _ | exact hF.within rfl
    | (with_reducible apply Keeps.trans; on_goal 2 => with_reducible first
          | apply State.fset_keeps | apply State.sendNak_keeps)
    | (with_reducible apply Keeps.ite <;> intro _)

theorem State.protoErr_keeps (s : State) (p locator : Nat) {F : Nat} (hF : Sub 0x1800008 F) : Keeps F s
    (State.protoErr s p locator) := by
  unfold State.protoErr
  repeat' first
    | extract_lets | with_reducible assumption | with_reducible exact Keeps.refl _ | exact hF.within rfl
    | (with_reducible apply Keeps.trans; on_goal 2 => with_reducible first
          | apply State.bumpSat_keeps | apply State.fault_keeps | apply State.int_keeps)

theorem State.owedSlot_keeps (s : State) (p : Nat) (b : List Nat) (o : Owed) (rest : List Owed) {F : Nat} (hF : Sub
    0x1800048 F) : Keeps F s (State.owedSlot s p b o rest) := by
  unfold State.owedSlot
  repeat' first
    | extract_lets | with_reducible assumption | with_reducible exact Keeps.refl _ | exact hF.within rfl
    | (with_reducible apply Keeps.trans; on_goal 2 => with_reducible first
          | apply State.setLink_keeps | apply State.protoErr_keeps)
    | split

theorem State.freshSlot_keeps (s : State) (p : Nat) (b : List Nat) {F : Nat} (hF : Sub 0x18000C8 F) : Keeps F s
    (State.freshSlot s p b) := by
  unfold State.freshSlot
  repeat' first
    | extract_lets | with_reducible assumption | with_reducible exact Keeps.refl _ | exact hF.within rfl
    | (with_reducible apply Keeps.trans; on_goal 2 => with_reducible first
          | apply State.setLink_keeps | apply State.protoErr_keeps)
    | (with_reducible apply Keeps.ite <;> intro _)
    | split
    | (with_reducible apply Keeps.fst; on_goal 2 => with_reducible assumption)
    | (with_reducible apply Keeps.snd; on_goal 2 => with_reducible assumption)
    | with_reducible apply Keeps.mk_nextRx

theorem State.parseSlot_keeps (s : State) (p : Nat) (b : List Nat) {F : Nat} (hF : Sub 0x18000C8 F) : Keeps F s
    (State.parseSlot s p b) := by
  unfold State.parseSlot
  repeat' first
    | extract_lets | with_reducible assumption | with_reducible exact Keeps.refl _ | exact hF.within rfl
    | (with_reducible apply Keeps.trans; on_goal 2 => with_reducible first
          | apply State.owedSlot_keeps | apply State.freshSlot_keeps)
    | split

theorem State.freshStart_keeps (s : State) (p cph cpd mgr : Nat) {F : Nat} (hF : Sub 0x18000C8 F) : Keeps F s
    (State.freshStart s p cph cpd mgr) := by
  unfold State.freshStart
  repeat' first
    | extract_lets | with_reducible assumption | with_reducible exact Keeps.refl _ | exact hF.within rfl
    | (with_reducible apply Keeps.trans; on_goal 2 => with_reducible first
          | apply State.fset_keeps | apply State.setFlag_keeps | apply State.bumpSat_keeps | apply State.int_keeps
          | apply State.setLink_keeps)
    | (with_reducible apply Keeps.ite <;> intro _)
    | split
    | (with_reducible apply Keeps.fst; on_goal 2 => with_reducible assumption)
    | (with_reducible apply Keeps.snd; on_goal 2 => with_reducible assumption)
    | with_reducible apply Keeps.mk_txns

theorem State.resumeStart_keeps (s : State) (p nextRx : Nat) {F : Nat} (hF : Sub 0x48 F) : Keeps F s
    (State.resumeStart s p nextRx) := by
  unfold State.resumeStart
  repeat' first
    | extract_lets | with_reducible assumption | with_reducible exact Keeps.refl _ | exact hF.within rfl
    | (with_reducible apply Keeps.trans; on_goal 2 => with_reducible first
          | apply State.setFlag_keeps | apply State.setLink_keeps | apply State.applyAck_keeps)

theorem State.checkInit_keeps (s : State) (p : Nat) {F : Nat} (hF : Sub 0x180416C F) : Keeps F s (State.checkInit s p)
    := by
  unfold State.checkInit
  repeat' first
    | extract_lets | with_reducible assumption | with_reducible exact Keeps.refl _ | exact hF.within rfl
    | (with_reducible apply Keeps.trans; on_goal 2 => with_reducible first
          | apply State.setLink_keeps | apply State.portUp_keeps)
    | (with_reducible apply Keeps.ite <;> intro _)

theorem State.takeInit_keeps (s : State) (p : Nat) (b : List Nat) {F : Nat} (hF : Sub 0x18041EC F) : Keeps F s
    (State.takeInit s p b) := by
  unfold State.takeInit
  repeat' first
    | extract_lets | with_reducible assumption | with_reducible exact Keeps.refl _ | exact hF.within rfl
    | (with_reducible apply Keeps.trans; on_goal 2 => with_reducible first
          | apply State.fresh_keeps | apply State.setLink_keeps | apply State.freshStart_keeps
          | apply State.resumeStart_keeps | apply State.checkInit_keeps)
    | (with_reducible apply Keeps.ite <;> intro _)

theorem State.fillFlit_keeps (s : State) (p : Nat) {F : Nat} (hF : Sub 0x40 F) : Keeps F s (State.fillFlit s p) := by
  unfold State.fillFlit
  repeat' first
    | extract_lets | with_reducible assumption | with_reducible exact Keeps.refl _ | exact hF.within rfl
    | (with_reducible apply Keeps.trans; on_goal 2 => with_reducible first
          | apply State.setLink_keeps | apply State.emit_keeps)
    | (with_reducible apply Keeps.ite <;> intro _)
    | split
    | (with_reducible apply Keeps.fst; on_goal 2 => with_reducible assumption)
    | (with_reducible apply Keeps.snd; on_goal 2 => with_reducible assumption)

theorem State.linkTick_keeps (s : State) (p : Nat) {F : Nat} (hF : Sub 0x180416C F) : Keeps F s (State.linkTick s p)
    := by
  unfold State.linkTick
  repeat' first
    | extract_lets | with_reducible assumption | with_reducible exact Keeps.refl _ | exact hF.within rfl
    | (with_reducible apply Keeps.trans; on_goal 2 => with_reducible first
          | apply State.setLink_keeps | apply State.checkInit_keeps | apply State.fillFlit_keeps)
    | (with_reducible apply Keeps.ite <;> intro _)

theorem State.initInUp_keeps (s : State) (p : Nat) (b : List Nat) {F : Nat} (hF : Sub 0x1800048 F) : Keeps F s
    (State.initInUp s p b) := by
  unfold State.initInUp
  repeat' first
    | extract_lets | with_reducible assumption | with_reducible exact Keeps.refl _ | exact hF.within rfl
    | (with_reducible apply Keeps.trans; on_goal 2 => with_reducible first
          | apply State.fault_keeps | apply State.int_keeps | apply State.setLink_keeps)
    | (with_reducible apply Keeps.ite <;> intro _)

theorem State.countCorrected_keeps (s : State) (p n : Nat) {F : Nat} (hF : Sub 0x1800048 F) : Keeps F s
    (State.countCorrected s p n) := by
  unfold State.countCorrected
  repeat' first
    | extract_lets | with_reducible assumption | with_reducible exact Keeps.refl _ | exact hF.within rfl
    | (with_reducible apply Keeps.trans; on_goal 2 => with_reducible first
          | apply State.bumpSat_keeps | apply State.int_keeps | apply State.setLink_keeps)
    | (with_reducible apply Keeps.ite <;> intro _)

theorem State.takeCredits_keeps (s : State) (p sel n : Nat) {F : Nat} (hF : Sub 0x8 F) : Keeps F s (State.takeCredits
    s p sel n) := by
  unfold State.takeCredits
  repeat' first
    | extract_lets | with_reducible assumption | with_reducible exact Keeps.refl _ | exact hF.within rfl
    | (with_reducible apply Keeps.trans; on_goal 2 => with_reducible first | apply State.bumpSat_keeps)
    | (with_reducible apply Keeps.ite <;> intro _)

theorem State.takeSequenced_keeps (s : State) (p hdr : Nat) (slots : List (List Nat)) {F : Nat} (hF : Sub 0x18040C8 F)
    : Keeps F s (State.takeSequenced s p hdr slots) := by
  unfold State.takeSequenced
  repeat' first
    | extract_lets | with_reducible assumption | with_reducible exact Keeps.refl _ | exact hF.within rfl
    | (with_reducible apply Keeps.trans; on_goal 2 => with_reducible first
          | apply State.fset_keeps | apply State.bump_keeps | apply State.setLink_keeps | apply State.pump_keeps
          | apply State.applyAck_keeps | apply State.replayWait_keeps | apply State.parseSlot_keeps
          | apply State.takeCredits_keeps)
    | (with_reducible apply Keeps.foldl; intro _ _ _)
    | (with_reducible apply Keeps.ite <;> intro _)

theorem State.takeIdle_keeps (s : State) (p hdr : Nat) {F : Nat} (hF : Sub 0x1804048 F) : Keeps F s (State.takeIdle s
    p hdr) := by
  unfold State.takeIdle
  repeat' first
    | extract_lets | with_reducible assumption | with_reducible exact Keeps.refl _ | exact hF.within rfl
    | (with_reducible apply Keeps.trans; on_goal 2 => with_reducible first
          | apply State.pump_keeps | apply State.applyAck_keeps | apply State.takeNak_keeps
          | apply State.protoErr_keeps)
    | (with_reducible apply Keeps.ite <;> intro _)

theorem State.takeFlit_keeps (s : State) (p : Nat) (b : List Nat) {F : Nat} (hF : Sub 0x18041EC F) : Keeps F s
    (State.takeFlit s p b) := by
  unfold State.takeFlit
  repeat' first
    | extract_lets | with_reducible assumption | with_reducible exact Keeps.refl _ | exact hF.within rfl
    | (with_reducible apply Keeps.trans; on_goal 2 => with_reducible first
          | apply State.protoErr_keeps | apply State.takeInit_keeps | apply State.initInUp_keeps
          | apply State.takeSequenced_keeps | apply State.takeIdle_keeps)
    | (with_reducible apply Keeps.ite <;> intro _)

theorem State.badFlit_keeps (s : State) (p : Nat) {F : Nat} (hF : Sub 0x48 F) : Keeps F s (State.badFlit s p) := by
  unfold State.badFlit
  repeat' first
    | extract_lets | with_reducible assumption | with_reducible exact Keeps.refl _ | exact hF.within rfl
    | (with_reducible apply Keeps.trans; on_goal 2 => with_reducible first
          | apply State.bumpSat_keeps | apply State.replayWait_keeps)
    | (with_reducible apply Keeps.ite <;> intro _)

theorem State.rxInject_keeps (s : State) (p : Nat) (flit : List Nat) {F : Nat} (hF : Sub 0x1804008 F) : Keeps F s
    (State.rxInject s p flit).1 := by
  unfold State.rxInject
  repeat' first
    | extract_lets | with_reducible assumption | with_reducible exact Keeps.refl _ | exact hF.within rfl
    | (with_reducible apply Keeps.trans; on_goal 2 => with_reducible first | apply State.flitInject_keeps)
    | split

theorem State.receiveFlit_keeps (s : State) (p : Nat) (flit : List Nat) {F : Nat} (hF : Sub 0x38041EC F) : Keeps F s
    (State.receiveFlit s p flit) := by
  unfold State.receiveFlit
  repeat' first
    | extract_lets | with_reducible assumption | with_reducible exact Keeps.refl _ | exact hF.within rfl
    | (with_reducible apply Keeps.trans; on_goal 2 => with_reducible first
          | apply State.trace_keeps | apply State.countCorrected_keeps | apply State.takeFlit_keeps
          | apply State.badFlit_keeps | apply State.rxInject_keeps)
    | (with_reducible apply Keeps.ite <;> intro _)
    | split
    | (with_reducible apply Keeps.fst; on_goal 2 => with_reducible assumption)

theorem execFlitReceive_keeps (p : Nat) (flit : List Nat) (s : State) : Keeps.Out 0x38041EC s (execFlitReceive p flit
    s) := by
  unfold execFlitReceive
  have hF := Sub.refl 0x38041EC
  apply Keeps.done
  repeat' first
    | extract_lets | with_reducible assumption | with_reducible exact Keeps.refl _ | exact hF.within rfl
    | (with_reducible apply Keeps.trans; on_goal 2 => with_reducible first | apply State.receiveFlit_keeps)
    | (with_reducible apply Keeps.ite <;> intro _)

theorem execNakResend_keeps (p : Nat) (s : State) : Keeps.Out 0x48 s (execNakResend p s) := by
  unfold execNakResend
  have hF := Sub.refl 0x48
  apply Keeps.done
  repeat' first
    | extract_lets | with_reducible assumption | with_reducible exact Keeps.refl _ | exact hF.within rfl
    | (with_reducible apply Keeps.trans; on_goal 2 => with_reducible first | apply State.sendNak_keeps)
    | (with_reducible apply Keeps.ite <;> intro _)

theorem execReplayTimer_keeps (p : Nat) (s : State) : Keeps.Out 0x1804048 s (execReplayTimer p s) := by
  unfold execReplayTimer
  have hF := Sub.refl 0x1804048
  apply Keeps.done
  repeat' first
    | extract_lets | with_reducible assumption | with_reducible exact Keeps.refl _ | exact hF.within rfl
    | (with_reducible apply Keeps.trans; on_goal 2 => with_reducible first
          | apply State.bumpSat_keeps | apply State.countReplay_keeps)
    | (with_reducible apply Keeps.ite <;> intro _)

theorem State.returnCredit_keeps (s : State) (p : Nat) {F : Nat} (hF : Sub 0x1804048 F) : Keeps F s
    (State.returnCredit s p) := by
  unfold State.returnCredit
  repeat' first
    | extract_lets | with_reducible assumption | with_reducible exact Keeps.refl _ | exact hF.within rfl
    | (with_reducible apply Keeps.trans; on_goal 2 => with_reducible first
          | apply State.sendFlit_keeps | apply State.noteStall_keeps)
    | (with_reducible apply Keeps.ite <;> intro _)

theorem execCreditReturn_keeps (p : Nat) (s : State) : Keeps.Out 0x1804048 s (execCreditReturn p s) := by
  unfold execCreditReturn
  have hF := Sub.refl 0x1804048
  apply Keeps.done
  repeat' first
    | extract_lets | with_reducible assumption | with_reducible exact Keeps.refl _ | exact hF.within rfl
    | (with_reducible apply Keeps.trans; on_goal 2 => with_reducible first | apply State.returnCredit_keeps)
    | (with_reducible apply Keeps.ite <;> intro _)

theorem execInitTmo_keeps (p : Nat) (s : State) : Keeps.Out 0x1E0416C s (execInitTmo p s) := by
  unfold execInitTmo
  have hF := Sub.refl 0x1E0416C
  apply Keeps.done
  repeat' first
    | extract_lets | with_reducible assumption | with_reducible exact Keeps.refl _ | exact hF.within rfl
    | (with_reducible apply Keeps.trans; on_goal 2 => with_reducible first | apply State.failAttempt_keeps)
    | (with_reducible apply Keeps.ite <;> intro _)

theorem State.cplE_keeps (s : State) (r : Req) (cls status mask detail arrival : Nat) {F : Nat} (hF : Sub 0x1804048 F)
    : Keeps F s (State.cplE s r cls status mask detail arrival) := by
  unfold State.cplE
  repeat' first
    | extract_lets | with_reducible assumption | with_reducible exact Keeps.refl _ | exact hF.within rfl
    | (with_reducible apply Keeps.trans; on_goal 2 => with_reducible first | apply State.answer_keeps)

theorem State.sidMismatch_keeps (s : State) (r : Req) (cls arrival : Nat) {F : Nat} (hF : Sub 0x1804048 F) : Keeps F s
    (State.sidMismatch s r cls arrival) := by
  unfold State.sidMismatch
  repeat' first
    | extract_lets | with_reducible assumption | with_reducible exact Keeps.refl _ | exact hF.within rfl
    | (with_reducible apply Keeps.trans; on_goal 2 => with_reducible first
          | apply State.bumpSat_keeps | apply State.int_keeps | apply State.cplE_keeps)
    | (with_reducible apply Keeps.ite <;> intro _)

theorem State.deliverMgmt_keeps (s : State) (r : Req) (arrival : Nat) {F : Nat} (hF : Sub 0x1C04048 F) : Keeps F s
    (State.deliverMgmt s r arrival) := by
  unfold State.deliverMgmt
  repeat' first
    | extract_lets | with_reducible assumption | with_reducible exact Keeps.refl _ | exact hF.within rfl
    | (with_reducible apply Keeps.trans; on_goal 2 => with_reducible first
          | apply State.cplE_keeps | apply State.sidMismatch_keeps)
    | (with_reducible apply Keeps.ite <;> intro _)
    | split
    | (with_reducible apply Keeps.fst; on_goal 2 => with_reducible assumption)
    | (with_reducible apply Keeps.snd; on_goal 2 => with_reducible assumption)
    | with_reducible apply Keeps.mk_mgc

theorem State.releaseUnit_keeps (s : State) (p : Nat) (u : RxUnit) {F : Nat} (hF : Sub 0x1C040C8 F) : Keeps F s
    (State.releaseUnit s p u) := by
  unfold State.releaseUnit
  repeat' first
    | extract_lets | with_reducible assumption | with_reducible exact Keeps.refl _ | exact hF.within rfl
    | (with_reducible apply Keeps.trans; on_goal 2 => with_reducible first
          | apply State.setLink_keeps | apply State.deliverMgmt_keeps)
    | (with_reducible apply Keeps.foldl; intro _ _ _)
    | (with_reducible apply Keeps.ite <;> intro _)
    | split
    | (with_reducible apply Keeps.fst; on_goal 2 => with_reducible assumption)
    | (with_reducible apply Keeps.snd; on_goal 2 => with_reducible assumption)
    | with_reducible apply Keeps.mk_txns

theorem execSlotRelease_keeps (p : Nat) (s : State) : Keeps.Out 0x1C040C8 s (execSlotRelease p s) := by
  unfold execSlotRelease
  have hF := Sub.refl 0x1C040C8
  apply Keeps.done
  repeat' first
    | extract_lets | with_reducible assumption | with_reducible exact Keeps.refl _ | exact hF.within rfl
    | (with_reducible apply Keeps.trans; on_goal 2 => with_reducible first | apply State.releaseUnit_keeps)
    | (with_reducible apply Keeps.ite <;> intro _)
    | split

theorem State.sendEvent_keeps (s : State) {F : Nat} (hF : Sub 0x1C04048 F) : Keeps F s (State.sendEvent s) := by
  unfold State.sendEvent
  repeat' first
    | extract_lets | with_reducible assumption | with_reducible exact Keeps.refl _ | exact hF.within rfl
    | (with_reducible apply Keeps.trans; on_goal 2 => with_reducible first
          | apply State.fset_keeps | apply State.sendFlit_keeps | apply State.noteStall_keeps)
    | (with_reducible apply Keeps.ite <;> intro _)
    | split
    | (with_reducible apply Keeps.fst; on_goal 2 => with_reducible assumption)
    | (with_reducible apply Keeps.snd; on_goal 2 => with_reducible assumption)
    | with_reducible apply Keeps.mk_mgc

theorem execEvtSend_keeps (s : State) : Keeps.Out 0x1C04048 s (execEvtSend s) := by
  unfold execEvtSend
  have hF := Sub.refl 0x1C04048
  apply Keeps.done
  repeat' first
    | extract_lets | with_reducible assumption | with_reducible exact Keeps.refl _ | exact hF.within rfl
    | (with_reducible apply Keeps.trans; on_goal 2 => with_reducible first | apply State.sendEvent_keeps)
    | (with_reducible apply Keeps.ite <;> intro _)

/-! ### Machine/Mgmt.lean -/

theorem State.respond_keeps (s : State) (op : Nat) (h : Halyard) (status index pendId : Nat) (words : List Nat) {F :
    Nat} (hF : Sub 0x1E04048 F) : Keeps F s (State.respond s op h status index pendId words) := by
  unfold State.respond
  repeat' first
    | extract_lets | with_reducible assumption | with_reducible exact Keeps.refl _ | exact hF.within rfl
    | (with_reducible apply Keeps.trans; on_goal 2 => with_reducible first | apply State.answer_keeps)
    | split
    | (with_reducible apply Keeps.fst; on_goal 2 => with_reducible assumption)
    | (with_reducible apply Keeps.snd; on_goal 2 => with_reducible assumption)
    | with_reducible apply Keeps.mk_mgc
    | with_reducible apply Keeps.mk_twb

theorem State.replyOk_keeps (s : State) (op : Nat) (h : Halyard) (words : List Nat) {F : Nat} (hF : Sub 0x1E04048 F) :
    Keeps F s (State.replyOk s op h words) := by
  unfold State.replyOk
  repeat' first
    | extract_lets | with_reducible assumption | with_reducible exact Keeps.refl _ | exact hF.within rfl
    | (with_reducible apply Keeps.trans; on_goal 2 => with_reducible first | apply State.respond_keeps)

theorem State.replySt_keeps (s : State) (op : Nat) (h : Halyard) (status : Nat) {F : Nat} (hF : Sub 0x1E04048 F) :
    Keeps F s (State.replySt s op h status) := by
  unfold State.replySt
  repeat' first
    | extract_lets | with_reducible assumption | with_reducible exact Keeps.refl _ | exact hF.within rfl
    | (with_reducible apply Keeps.trans; on_goal 2 => with_reducible first | apply State.respond_keeps)

theorem State.replyBad_keeps (s : State) (op : Nat) (h : Halyard) (index : Nat) {F : Nat} (hF : Sub 0x1E04048 F) :
    Keeps F s (State.replyBad s op h index) := by
  unfold State.replyBad
  repeat' first
    | extract_lets | with_reducible assumption | with_reducible exact Keeps.refl _ | exact hF.within rfl
    | (with_reducible apply Keeps.trans; on_goal 2 => with_reducible first | apply State.respond_keeps)

theorem State.newOp_keeps (s : State) (op : Nat) (notify : Bool) (state arg : Nat) {F : Nat} (hF : Sub 0x400000 F) :
    Keeps F s (State.newOp s op notify state arg).1 := by
  unfold State.newOp
  repeat' first
    | extract_lets | with_reducible assumption | with_reducible exact Keeps.refl _ | exact hF.within rfl
    | split
    | (with_reducible apply Keeps.fst; on_goal 2 => with_reducible assumption)
    | (with_reducible apply Keeps.snd; on_goal 2 => with_reducible assumption)
    | with_reducible apply Keeps.mk_mgc

theorem State.runOp_keeps (s : State) (id : Nat) {F : Nat} (hF : Sub 0x400000 F) : Keeps F s (State.runOp s id) := by
  unfold State.runOp
  repeat' first
    | extract_lets | with_reducible assumption | with_reducible exact Keeps.refl _ | exact hF.within rfl
    | split
    | (with_reducible apply Keeps.fst; on_goal 2 => with_reducible assumption)
    | (with_reducible apply Keeps.snd; on_goal 2 => with_reducible assumption)
    | with_reducible apply Keeps.mk_mgc

theorem State.finishOp_keeps (s : State) (id final result : Nat) {F : Nat} (hF : Sub 0x1E00008 F) : Keeps F s
    (State.finishOp s id final result) := by
  unfold State.finishOp
  repeat' first
    | extract_lets | with_reducible assumption | with_reducible exact Keeps.refl _ | exact hF.within rfl
    | (with_reducible apply Keeps.trans; on_goal 2 => with_reducible first | apply State.event_keeps)
    | (with_reducible apply Keeps.ite <;> intro _)
    | split
    | (with_reducible apply Keeps.fst; on_goal 2 => with_reducible assumption)
    | (with_reducible apply Keeps.snd; on_goal 2 => with_reducible assumption)
    | with_reducible apply Keeps.mk_mgc

theorem State.abortOps_keeps (s : State) (pick : PendOp → Bool) {F : Nat} (hF : Sub 0x1E00008 F) : Keeps F s
    (State.abortOps s pick) := by
  unfold State.abortOps
  repeat' first
    | extract_lets | with_reducible assumption | with_reducible exact Keeps.refl _ | exact hF.within rfl
    | (with_reducible apply Keeps.trans; on_goal 2 => with_reducible first | apply State.finishOp_keeps)
    | (with_reducible apply Keeps.foldl; intro _ _ _)

theorem State.accept_keeps (s : State) (op : Nat) (h : Halyard) (state arg : Nat) (f : State → Nat → State) {F : Nat}
    (hF : Sub 0x1E04048 F) (hf : ∀ (x0 : State) (x1 : Nat), Keeps F x0 (f x0 x1)) : Keeps F s (State.accept s op h
    state arg f) := by
  unfold State.accept
  repeat' first
    | extract_lets | with_reducible assumption | with_reducible exact Keeps.refl _ | exact hF.within rfl
    | (with_reducible apply Keeps.trans; on_goal 2 => with_reducible first
          | apply State.respond_keeps | apply State.replySt_keeps | apply State.newOp_keeps | apply hf)
    | (with_reducible apply Keeps.ite <;> intro _)

theorem State.takePacket_keeps (s : State) (q : QPacket) {F : Nat} (hF : Sub 0x400000 F) : Keeps F s (State.takePacket
    s q) := by
  unfold State.takePacket
  repeat' first
    | extract_lets | with_reducible assumption | with_reducible exact Keeps.refl _ | exact hF.within rfl
    | split
    | (with_reducible apply Keeps.fst; on_goal 2 => with_reducible assumption)
    | (with_reducible apply Keeps.snd; on_goal 2 => with_reducible assumption)
    | with_reducible apply Keeps.mk_mgc

theorem State.holdPacket_keeps (s : State) (q : QPacket) {F : Nat} (hF : Sub 0x400000 F) : Keeps F s (State.holdPacket
    s q) := by
  unfold State.holdPacket
  repeat' first
    | extract_lets | with_reducible assumption | with_reducible exact Keeps.refl _ | exact hF.within rfl
    | (with_reducible apply Keeps.ite <;> intro _)
    | split
    | (with_reducible apply Keeps.fst; on_goal 2 => with_reducible assumption)
    | (with_reducible apply Keeps.snd; on_goal 2 => with_reducible assumption)
    | with_reducible apply Keeps.mk_mgc

theorem State.repeatReply_keeps (s : State) {F : Nat} (hF : Sub 0x1A00008 F) : Keeps F s (State.repeatReply s) := by
  unfold State.repeatReply
  repeat' first
    | extract_lets | with_reducible assumption | with_reducible exact Keeps.refl _ | exact hF.within rfl
    | (with_reducible apply Keeps.trans; on_goal 2 => with_reducible first | apply State.int_keeps)
    | split
    | (with_reducible apply Keeps.fst; on_goal 2 => with_reducible assumption)
    | (with_reducible apply Keeps.snd; on_goal 2 => with_reducible assumption)
    | with_reducible apply Keeps.mk_twb

theorem State.refusePacket_keeps (s : State) (op : Nat) (h : Halyard) (status index : Nat) {F : Nat} (hF : Sub
    0x1E04048 F) : Keeps F s (State.refusePacket s op h status index) := by
  unfold State.refusePacket
  repeat' first
    | extract_lets | with_reducible assumption | with_reducible exact Keeps.refl _ | exact hF.within rfl
    | (with_reducible apply Keeps.trans; on_goal 2 => with_reducible first
          | apply State.int_keeps | apply State.respond_keeps)
    | (with_reducible apply Keeps.ite <;> intro _)

theorem State.hwPacket_keeps (s : State) (op : Nat) (h : Halyard) (len : List Nat → Option Nat) (f : State → Bool →
    State) {F : Nat} (hF : Sub 0x1E04048 F) (hf : ∀ (x0 : State) (x1 : Bool), Keeps F x0 (f x0 x1)) : Keeps F s
    (State.hwPacket s op h len f) := by
  unfold State.hwPacket
  repeat' first
    | extract_lets | with_reducible assumption | with_reducible exact Keeps.refl _ | exact hF.within rfl
    | (with_reducible apply Keeps.trans; on_goal 2 => with_reducible first
          | apply State.replySt_keeps | apply State.takePacket_keeps | apply State.holdPacket_keeps
          | apply State.repeatReply_keeps | apply State.refusePacket_keeps | apply hf)
    | (with_reducible apply Keeps.ite <;> intro _)
    | split

theorem State.packet_keeps (s : State) (op : Nat) (h : Halyard) (len : List Nat → Option Nat) (f : State → Bool →
    State) {F : Nat} (hF : Sub 0x13E04048 F) (hf : ∀ (x0 : State) (x1 : Bool), Keeps F x0 (f x0 x1)) : Keeps F s
    (State.packet s op h len f) := by
  unfold State.packet
  repeat' first
    | extract_lets | with_reducible assumption | with_reducible exact Keeps.refl _ | exact hF.within rfl
    | (with_reducible apply Keeps.trans; on_goal 2 => with_reducible first
          | apply State.wakeEvent_keeps | apply State.trace_keeps | apply State.takePacket_keeps
          | apply State.holdPacket_keeps | apply State.repeatReply_keeps | apply State.refusePacket_keeps
          | apply State.hwPacket_keeps | apply hf)
    | (with_reducible apply Keeps.ite <;> intro _)
    | split

/-! ### Machine/Map.lean -/

theorem State.deny_keeps (s : State) (a : Nat) (w : Option Nat) (cls reqId : Nat) (write : Bool) {F : Nat} (hF : Sub
    0x1800008 F) : Keeps F s (State.deny s a w cls reqId write) := by
  unfold State.deny
  repeat' first
    | extract_lets | with_reducible assumption | with_reducible exact Keeps.refl _ | exact hF.within rfl
    | (with_reducible apply Keeps.trans; on_goal 2 => with_reducible first
          | apply State.fset_keeps | apply State.setFlag_keeps | apply State.bumpSat_keeps | apply State.int_keeps)

/-! ### Machine/Txns.lean -/

theorem State.latency_keeps (s : State) (cls lat : Nat) {F : Nat} (hF : Sub 0x8 F) : Keeps F s (State.latency s cls
    lat) := by
  unfold State.latency
  repeat' first
    | extract_lets | with_reducible assumption | with_reducible exact Keeps.refl _ | exact hF.within rfl
    | (with_reducible apply Keeps.trans; on_goal 2 => with_reducible first | apply State.fset_keeps)
    | (with_reducible apply Keeps.ite <;> intro _)

theorem State.countLate_keeps (s : State) (t : Txn) {F : Nat} (hF : Sub 0x1800008 F) : Keeps F s (State.countLate s t)
    := by
  unfold State.countLate
  repeat' first
    | extract_lets | with_reducible assumption | with_reducible exact Keeps.refl _ | exact hF.within rfl
    | (with_reducible apply Keeps.trans; on_goal 2 => with_reducible first
          | apply State.bumpSat_keeps | apply State.int_keeps)
    | (with_reducible apply Keeps.ite <;> intro _)

theorem State.endTxn_keeps (s : State) (t : Txn) (a : Answer) {F : Nat} (hF : Sub 0x18040C8 F) : Keeps F s
    (State.endTxn s t a) := by
  unfold State.endTxn
  repeat' first
    | extract_lets | with_reducible assumption | with_reducible exact Keeps.refl _ | exact hF.within rfl
    | (with_reducible apply Keeps.trans; on_goal 2 => with_reducible first
          | apply State.answer_keeps | apply State.latency_keeps | apply State.countLate_keeps)
    | (with_reducible apply Keeps.ite <;> intro _)
    | split
    | (with_reducible apply Keeps.fst; on_goal 2 => with_reducible assumption)
    | (with_reducible apply Keeps.snd; on_goal 2 => with_reducible assumption)
    | with_reducible apply Keeps.mk_txns

theorem State.setTxn_keeps (s : State) (t : Txn) {F : Nat} (hF : Sub 0x80 F) : Keeps F s (State.setTxn s t) := by
  unfold State.setTxn
  repeat' first
    | extract_lets | with_reducible assumption | with_reducible exact Keeps.refl _ | exact hF.within rfl
    | split
    | (with_reducible apply Keeps.fst; on_goal 2 => with_reducible assumption)
    | (with_reducible apply Keeps.snd; on_goal 2 => with_reducible assumption)
    | with_reducible apply Keeps.mk_txns

theorem State.finishLine_keeps (s : State) (num idx : Nat) (res : LineRes) {F : Nat} (hF : Sub 0x18040C8 F) : Keeps F
    s (State.finishLine s num idx res) := by
  unfold State.finishLine
  repeat' first
    | extract_lets | with_reducible assumption | with_reducible exact Keeps.refl _ | exact hF.within rfl
    | (with_reducible apply Keeps.trans; on_goal 2 => with_reducible first
          | apply State.endTxn_keeps | apply State.setTxn_keeps)
    | (with_reducible apply Keeps.ite <;> intro _)
    | split

theorem State.finishOpt_keeps (s : State) (op : Option (Nat × Nat)) (res : LineRes) {F : Nat} (hF : Sub 0x18040C8 F) :
    Keeps F s (State.finishOpt s op res) := by
  unfold State.finishOpt
  repeat' first
    | extract_lets | with_reducible assumption | with_reducible exact Keeps.refl _ | exact hF.within rfl
    | (with_reducible apply Keeps.trans; on_goal 2 => with_reducible first | apply State.finishLine_keeps)
    | split

theorem State.noteTag_keeps (s : State) (op : Option (Nat × Nat)) (tag : Nat) {F : Nat} (hF : Sub 0x80 F) : Keeps F s
    (State.noteTag s op tag) := by
  unfold State.noteTag
  repeat' first
    | extract_lets | with_reducible assumption | with_reducible exact Keeps.refl _ | exact hF.within rfl
    | split
    | (with_reducible apply Keeps.fst; on_goal 2 => with_reducible assumption)
    | (with_reducible apply Keeps.snd; on_goal 2 => with_reducible assumption)
    | with_reducible apply Keeps.mk_txns

theorem State.refuseTxn_keeps (s : State) (t : Txn) (status detail : Nat) {F : Nat} (hF : Sub 0x18040C8 F) : Keeps F s
    (State.refuseTxn s t status detail) := by
  unfold State.refuseTxn
  repeat' first
    | extract_lets | with_reducible assumption | with_reducible exact Keeps.refl _ | exact hF.within rfl
    | (with_reducible apply Keeps.trans; on_goal 2 => with_reducible first | apply State.endTxn_keeps)

theorem State.completeFence_keeps (s : State) (t : Txn) {F : Nat} (hF : Sub 0x18040C8 F) : Keeps F s
    (State.completeFence s t) := by
  unfold State.completeFence
  repeat' first
    | extract_lets | with_reducible assumption | with_reducible exact Keeps.refl _ | exact hF.within rfl
    | (with_reducible apply Keeps.trans; on_goal 2 => with_reducible first | apply State.endTxn_keeps)
    | (with_reducible apply Keeps.ite <;> intro _)

theorem execFenceComplete_keeps (p reqId tag : Nat) (s : State) : Keeps.Out 0x18040C8 s (execFenceComplete p reqId tag
    s) := by
  unfold execFenceComplete
  have hF := Sub.refl 0x18040C8
  apply Keeps.done
  repeat' first
    | extract_lets | with_reducible assumption | with_reducible exact Keeps.refl _ | exact hF.within rfl
    | (with_reducible apply Keeps.trans; on_goal 2 => with_reducible first | apply State.completeFence_keeps)
    | (with_reducible apply Keeps.ite <;> intro _)
    | split

end Sys2Proof.Machine
end

