-- ==== Sys2Proof/Laws/FrameCache.lean ====
section
/-! SUPPORT. What each operation keeps: arrays, engines, slices, scans and the scheduler. -/

namespace Sys2Proof.Machine

/-! ### Machine/Array.lean -/

theorem State.setSlc_keeps (s : State) (k : Nat) (v : SliceSt) {F : Nat} (hF : Sub 0x200 F) : Keeps F s (State.setSlc
    s k v) := by
  unfold State.setSlc
  repeat' first
    | extract_lets | with_reducible assumption | with_reducible exact Keeps.refl _ | exact hF.within rfl
    | split
    | (with_reducible apply Keeps.fst; on_goal 2 => with_reducible assumption)
    | (with_reducible apply Keeps.snd; on_goal 2 => with_reducible assumption)
    | with_reducible apply Keeps.mk_slices
    | exact fun _ k => SMap.rising_set _ _ _ (State.tables_slices k)

theorem State.setEng_keeps (s : State) (m : Nat) (v : EngSt) {F : Nat} (hF : Sub 0x400 F) : Keeps F s (State.setEng s
    m v) := by
  unfold State.setEng
  repeat' first
    | extract_lets | with_reducible assumption | with_reducible exact Keeps.refl _ | exact hF.within rfl
    | split
    | (with_reducible apply Keeps.fst; on_goal 2 => with_reducible assumption)
    | (with_reducible apply Keeps.snd; on_goal 2 => with_reducible assumption)
    | with_reducible apply Keeps.mk_engs
    | exact fun _ k => SMap.rising_set _ _ _ (State.tables_engs k)

theorem State.injectArray_keeps (s : State) (point k line : Nat) (w : List Nat) {F : Nat} (hF : Sub 0x1804008 F) :
    Keeps F s (State.injectArray s point k line w).1 := by
  unfold State.injectArray
  repeat' first
    | extract_lets | with_reducible assumption | with_reducible exact Keeps.refl _ | exact hF.within rfl
    | (with_reducible apply Keeps.trans; on_goal 2 => with_reducible first
          | apply State.bumpSat_keeps | apply State.fireInj_keeps)
    | split

theorem State.encode_keeps (s : State) (k line : Nat) (data : List Nat) (utag : Nat) (poison lost : Bool) {F : Nat}
    (hF : Sub 0x1804008 F) : Keeps F s (State.encode s k line data utag poison lost).1 := by
  unfold State.encode
  repeat' first
    | extract_lets | with_reducible assumption | with_reducible exact Keeps.refl _ | exact hF.within rfl
    | (with_reducible apply Keeps.trans; on_goal 2 => with_reducible first | apply State.injectArray_keeps)

theorem State.readWord_keeps (s : State) (array line : Nat) (errs : List (Nat × Nat)) {F : Nat} (hF : Sub 0x10 F) :
    Keeps F s (State.readWord s array line errs).1 := by
  unfold State.readWord
  repeat' first
    | extract_lets | with_reducible assumption | with_reducible exact Keeps.refl _ | exact hF.within rfl
    | (with_reducible apply Keeps.trans; on_goal 2 => with_reducible first | apply State.setWord_keeps)
    | (with_reducible apply Keeps.ite <;> intro _)

theorem State.trackRow_keeps (s : State) (l : Loc) (ue : Bool) {F : Nat} (hF : Sub 0x4008 F) : Keeps F s
    (State.trackRow s l ue).1 := by
  unfold State.trackRow
  repeat' first
    | extract_lets | with_reducible assumption | with_reducible exact Keeps.refl _ | exact hF.within rfl
    | (with_reducible apply Keeps.trans; on_goal 2 => with_reducible first | apply State.setReg_keeps)
    | split
    | (with_reducible apply Keeps.fst; on_goal 2 => with_reducible assumption)
    | (with_reducible apply Keeps.snd; on_goal 2 => with_reducible assumption)
    | with_reducible apply Keeps.mk_ecc

theorem State.clearTracker_keeps (s : State) (pick : Nat → Bool) {F : Nat} (hF : Sub 0x4008 F) : Keeps F s
    (State.clearTracker s pick) := by
  unfold State.clearTracker
  repeat' first
    | extract_lets | with_reducible assumption | with_reducible exact Keeps.refl _ | exact hF.within rfl
    | (with_reducible apply Keeps.trans; on_goal 2 => with_reducible first | apply State.setReg_keeps)
    | (with_reducible apply Keeps.foldl; intro _ _ _)
    | split
    | (with_reducible apply Keeps.fst; on_goal 2 => with_reducible assumption)
    | (with_reducible apply Keeps.snd; on_goal 2 => with_reducible assumption)
    | with_reducible apply Keeps.mk_ecc

theorem State.wantEvac_keeps (s : State) (k : Nat) {F : Nat} (hF : Sub 0x4008 F) : Keeps F s (State.wantEvac s k) :=
    by
  unfold State.wantEvac
  repeat' first
    | extract_lets | with_reducible assumption | with_reducible exact Keeps.refl _ | exact hF.within rfl
    | (with_reducible apply Keeps.trans; on_goal 2 => with_reducible first | apply State.setFlag_keeps)
    | (with_reducible apply Keeps.ite <;> intro _)
    | split
    | (with_reducible apply Keeps.fst; on_goal 2 => with_reducible assumption)
    | (with_reducible apply Keeps.snd; on_goal 2 => with_reducible assumption)
    | with_reducible apply Keeps.mk_ecc

theorem State.pcFailed_keeps (s : State) (k cause : Nat) {F : Nat} (hF : Sub 0x1800008 F) : Keeps F s (State.pcFailed
    s k cause) := by
  unfold State.pcFailed
  repeat' first
    | extract_lets | with_reducible assumption | with_reducible exact Keeps.refl _ | exact hF.within rfl
    | (with_reducible apply Keeps.trans; on_goal 2 => with_reducible first
          | apply State.fset_keeps | apply State.setFlag_keeps | apply State.fault_keeps)
    | (with_reducible apply Keeps.ite <;> intro _)

theorem State.wantSpare_keeps (s : State) (l : Loc) {F : Nat} (hF : Sub 0x4008 F) : Keeps F s (State.wantSpare s l) :=
    by
  unfold State.wantSpare
  repeat' first
    | extract_lets | with_reducible assumption | with_reducible exact Keeps.refl _ | exact hF.within rfl
    | (with_reducible apply Keeps.trans; on_goal 2 => with_reducible first | apply State.wantEvac_keeps)
    | (with_reducible apply Keeps.ite <;> intro _)
    | split
    | (with_reducible apply Keeps.fst; on_goal 2 => with_reducible assumption)
    | (with_reducible apply Keeps.snd; on_goal 2 => with_reducible assumption)
    | with_reducible apply Keeps.mk_ecc

theorem State.bucketAdd_keeps (s : State) (k n : Nat) {F : Nat} (hF : Sub 0x1E04008 F) : Keeps F s (State.bucketAdd s
    k n) := by
  unfold State.bucketAdd
  repeat' first
    | extract_lets | with_reducible assumption | with_reducible exact Keeps.refl _ | exact hF.within rfl
    | (with_reducible apply Keeps.trans; on_goal 2 => with_reducible first
          | apply State.fset_keeps | apply State.bumpSat_keeps | apply State.int_keeps | apply State.event_keeps
          | apply State.wantEvac_keeps)
    | (with_reducible apply Keeps.ite <;> intro _)
    | split
    | (with_reducible apply Keeps.fst; on_goal 2 => with_reducible assumption)
    | (with_reducible apply Keeps.snd; on_goal 2 => with_reducible assumption)
    | with_reducible apply Keeps.mk_ecc

theorem State.matEvent_keeps (s : State) (k m : Nat) {F : Nat} (hF : Sub 0x1804008 F) : Keeps F s (State.matEvent s k
    m) := by
  unfold State.matEvent
  repeat' first
    | extract_lets | with_reducible assumption | with_reducible exact Keeps.refl _ | exact hF.within rfl
    | (with_reducible apply Keeps.trans; on_goal 2 => with_reducible first
          | apply State.fset_keeps | apply State.setFlag_keeps | apply State.bumpSat_keeps | apply State.int_keeps
          | apply State.wantEvac_keeps)
    | (with_reducible apply Keeps.ite <;> intro _)
    | split
    | (with_reducible apply Keeps.fst; on_goal 2 => with_reducible assumption)
    | (with_reducible apply Keeps.snd; on_goal 2 => with_reducible assumption)
    | with_reducible apply Keeps.mk_ecc

theorem State.shownPlace_keeps (s : State) (l : Loc) {F : Nat} (hF : Sub 0x4 F) : Keeps F s (State.shownPlace s l).1
    := by
  unfold State.shownPlace
  repeat' first
    | extract_lets | with_reducible assumption | with_reducible exact Keeps.refl _ | exact hF.within rfl
    | (with_reducible apply Keeps.trans; on_goal 2 => with_reducible first | apply State.fresh_keeps)
    | split

theorem State.shownAddr_keeps (s : State) (line : Nat) {F : Nat} (hF : Sub 0x4 F) : Keeps F s (State.shownAddr s
    line).1 := by
  unfold State.shownAddr
  repeat' first
    | extract_lets | with_reducible assumption | with_reducible exact Keeps.refl _ | exact hF.within rfl
    | (with_reducible apply Keeps.trans; on_goal 2 => with_reducible first | apply State.fresh_keeps)
    | split

theorem State.noteCorrected_keeps (s : State) (l : Loc) (d : Dec) {F : Nat} (hF : Sub 0x1E0400C F) : Keeps F s
    (State.noteCorrected s l d) := by
  unfold State.noteCorrected
  repeat' first
    | extract_lets | with_reducible assumption | with_reducible exact Keeps.refl _ | exact hF.within rfl
    | (with_reducible apply Keeps.trans; on_goal 2 => with_reducible first
          | apply State.setReg_keeps | apply State.bumpSat_keeps | apply State.int_keeps
          | apply State.trackRow_keeps | apply State.wantSpare_keeps | apply State.bucketAdd_keeps
          | apply State.matEvent_keeps | apply State.shownPlace_keeps)
    | (with_reducible apply Keeps.ite <;> intro _)
    | split

theorem State.noteUe_keeps (s : State) (l : Loc) (line : Nat) {F : Nat} (hF : Sub 0x180400C F) : Keeps F s
    (State.noteUe s l line) := by
  unfold State.noteUe
  repeat' first
    | extract_lets | with_reducible assumption | with_reducible exact Keeps.refl _ | exact hF.within rfl
    | (with_reducible apply Keeps.trans; on_goal 2 => with_reducible first
          | apply State.setReg_keeps | apply State.fset_keeps | apply State.bumpSat_keeps | apply State.int_keeps
          | apply State.trackRow_keeps | apply State.wantEvac_keeps | apply State.pcFailed_keeps
          | apply State.wantSpare_keeps | apply State.shownPlace_keeps | apply State.shownAddr_keeps)
    | (with_reducible apply Keeps.ite <;> intro _)
    | split
    | (with_reducible apply Keeps.fst; on_goal 2 => with_reducible assumption)
    | (with_reducible apply Keeps.snd; on_goal 2 => with_reducible assumption)
    | with_reducible apply Keeps.mk_ecc

theorem State.poisonCreated_keeps (s : State) (k line src : Nat) {F : Nat} (hF : Sub 0x1E0400C F) : Keeps F s
    (State.poisonCreated s k line src) := by
  unfold State.poisonCreated
  repeat' first
    | extract_lets | with_reducible assumption | with_reducible exact Keeps.refl _ | exact hF.within rfl
    | (with_reducible apply Keeps.trans; on_goal 2 => with_reducible first
          | apply State.bumpSat_keeps | apply State.fault_keeps | apply State.event_keeps
          | apply State.shownAddr_keeps)
    | (with_reducible apply Keeps.ite <;> intro _)
    | split
    | (with_reducible apply Keeps.fst; on_goal 2 => with_reducible assumption)
    | (with_reducible apply Keeps.snd; on_goal 2 => with_reducible assumption)
    | with_reducible apply Keeps.mk_ecc

theorem State.poisonWord_keeps (s : State) (array : Nat) (l : Loc) (line src : Nat) (w : List Nat) {F : Nat} (hF : Sub
    0x1E0401C F) : Keeps F s (State.poisonWord s array l line src w).1 := by
  unfold State.poisonWord
  repeat' first
    | extract_lets | with_reducible assumption | with_reducible exact Keeps.refl _ | exact hF.within rfl
    | (with_reducible apply Keeps.trans; on_goal 2 => with_reducible first
          | apply State.setWord_keeps | apply State.encode_keeps | apply State.poisonCreated_keeps)
    | split

theorem State.afterDecode_keeps (s : State) (array : Nat) (l : Loc) (line src : Nat) (w : List Nat) (d : Dec) {F :
    Nat} (hF : Sub 0x1E0401C F) : Keeps F s (State.afterDecode s array l line src w d).1 := by
  rw [State.afterDecode]
  by_cases h : d.ue = true
  · rw [if_pos h]
    exact Keeps.pair ((State.noteUe_keeps s l line (hF.within rfl)).trans (State.poisonWord_keeps (s.noteUe l line)
        array l line src w (hF.within rfl))) _
  · rw [if_neg h]
    exact Keeps.pair (State.noteCorrected_keeps s l d (hF.within rfl)) _

theorem State.noteSpare_keeps (s : State) (e : Evac) (l : Loc) (d : Dec) {F : Nat} (hF : Sub 0x1804008 F) : Keeps F s
    (State.noteSpare s e l d) := by
  unfold State.noteSpare
  repeat' first
    | extract_lets | with_reducible assumption | with_reducible exact Keeps.refl _ | exact hF.within rfl
    | (with_reducible apply Keeps.trans; on_goal 2 => with_reducible first
          | apply State.bumpSat_keeps | apply State.int_keeps)
    | (with_reducible apply Keeps.ite <;> intro _)
    | split
    | (with_reducible apply Keeps.fst; on_goal 2 => with_reducible assumption)
    | (with_reducible apply Keeps.snd; on_goal 2 => with_reducible assumption)
    | with_reducible apply Keeps.mk_ecc

theorem State.decode_keeps (s : State) (array : Nat) (l : Loc) (line src : Nat) (w : List Nat) {F : Nat} (hF : Sub
    0x1E0401C F) : Keeps F s (State.decode s array l line src w).1 := by
  unfold State.decode
  repeat' first
    | extract_lets | with_reducible assumption | with_reducible exact Keeps.refl _ | exact hF.within rfl
    | (with_reducible apply Keeps.trans; on_goal 2 => with_reducible first
          | apply State.injectArray_keeps | apply State.afterDecode_keeps | apply State.noteSpare_keeps)
    | (with_reducible apply Keeps.ite <;> intro _)
    | split
    | (with_reducible apply Keeps.fst; on_goal 2 => with_reducible assumption)
    | (with_reducible apply Keeps.snd; on_goal 2 => with_reducible assumption)

theorem execBucketLeak_keeps (s : State) : Keeps.Out 0x4008 s (execBucketLeak s) := by
  unfold execBucketLeak
  have hF := Sub.refl 0x4008
  apply Keeps.done
  repeat' first
    | extract_lets | with_reducible assumption | with_reducible exact Keeps.refl _ | exact hF.within rfl
    | (with_reducible apply Keeps.trans; on_goal 2 => with_reducible first | apply State.fset_keeps)
    | (with_reducible apply Keeps.foldl; intro _ _ _)
    | (with_reducible apply Keeps.ite <;> intro _)
    | split
    | (with_reducible apply Keeps.fst; on_goal 2 => with_reducible assumption)
    | (with_reducible apply Keeps.snd; on_goal 2 => with_reducible assumption)
    | with_reducible apply Keeps.mk_ecc

/-! ### Machine/Engine.lean -/

theorem State.setEngBit_keeps (s : State) (f : Nat → Fld) (m : Nat) (b : Bool) {F : Nat} (hF : Sub 0x8 F) : Keeps F s
    (State.setEngBit s f m b) := by
  unfold State.setEngBit
  repeat' first
    | extract_lets | with_reducible assumption | with_reducible exact Keeps.refl _ | exact hF.within rfl
    | (with_reducible apply Keeps.trans; on_goal 2 => with_reducible first | apply State.fset_keeps)

theorem State.unlockEng_keeps (s : State) (m : Nat) {F : Nat} (hF : Sub 0x4000 F) : Keeps F s (State.unlockEng s m) :=
    by
  unfold State.unlockEng
  repeat' first
    | extract_lets | with_reducible assumption | with_reducible exact Keeps.refl _ | exact hF.within rfl
    | (with_reducible apply Keeps.ite <;> intro _)
    | split
    | (with_reducible apply Keeps.fst; on_goal 2 => with_reducible assumption)
    | (with_reducible apply Keeps.snd; on_goal 2 => with_reducible assumption)
    | with_reducible apply Keeps.mk_ecc

theorem State.leavePd_keeps (s : State) (m : Nat) {F : Nat} (hF : Sub 0x408 F) : Keeps F s (State.leavePd s m) := by
  unfold State.leavePd
  repeat' first
    | extract_lets | with_reducible assumption | with_reducible exact Keeps.refl _ | exact hF.within rfl
    | (with_reducible apply Keeps.trans; on_goal 2 => with_reducible first
          | apply State.setEng_keeps | apply State.setEngBit_keeps)
    | (with_reducible apply Keeps.ite <;> intro _)

theorem State.endIdle_keeps (s : State) (m : Nat) {F : Nat} (hF : Sub 0x40C F) : Keeps F s (State.endIdle s m) := by
  unfold State.endIdle
  repeat' first
    | extract_lets | with_reducible assumption | with_reducible exact Keeps.refl _ | exact hF.within rfl
    | (with_reducible apply Keeps.trans; on_goal 2 => with_reducible first
          | apply State.fset_keeps | apply State.fresh_keeps | apply State.setEng_keeps)
    | (with_reducible apply Keeps.ite <;> intro _)
    | split

theorem State.wakeEng_keeps (s : State) (m : Nat) {F : Nat} (hF : Sub 0x408 F) : Keeps F s (State.wakeEng s m) := by
  unfold State.wakeEng
  repeat' first
    | extract_lets | with_reducible assumption | with_reducible exact Keeps.refl _ | exact hF.within rfl
    | (with_reducible apply Keeps.trans; on_goal 2 => with_reducible first | apply State.leavePd_keeps)
    | (with_reducible apply Keeps.ite <;> intro _)

theorem State.reqEng_keeps (s : State) (m : Nat) {F : Nat} (hF : Sub 0x40C F) : Keeps F s (State.reqEng s m) := by
  unfold State.reqEng
  repeat' first
    | extract_lets | with_reducible assumption | with_reducible exact Keeps.refl _ | exact hF.within rfl
    | (with_reducible apply Keeps.trans; on_goal 2 => with_reducible first
          | apply State.endIdle_keeps | apply State.wakeEng_keeps)

theorem State.wrqPut_keeps (s : State) (m : Nat) (e : QEnt) (line : Nat) {F : Nat} (hF : Sub 0x40C F) : Keeps F s
    (State.wrqPut s m e line) := by
  unfold State.wrqPut
  repeat' first
    | extract_lets | with_reducible assumption | with_reducible exact Keeps.refl _ | exact hF.within rfl
    | (with_reducible apply Keeps.trans; on_goal 2 => with_reducible first
          | apply State.setEng_keeps | apply State.reqEng_keeps)
    | (with_reducible apply Keeps.ite <;> intro _)
    | split

theorem State.offerRewrite_keeps (s : State) (k line : Nat) (w : List Nat) {F : Nat} (hF : Sub 0x180440C F) : Keeps F
    s (State.offerRewrite s k line w) := by
  unfold State.offerRewrite
  repeat' first
    | extract_lets | with_reducible assumption | with_reducible exact Keeps.refl _ | exact hF.within rfl
    | (with_reducible apply Keeps.trans; on_goal 2 => with_reducible first
          | apply State.bumpSat_keeps | apply State.encode_keeps | apply State.wrqPut_keeps)
    | (with_reducible apply Keeps.ite <;> intro _)

theorem State.promoteEnt_keeps (s : State) (e : QEnt) {F : Nat} (hF : Sub 0x8 F) : Keeps F s (State.promoteEnt s e).1
    := by
  unfold State.promoteEnt
  repeat' first
    | extract_lets | with_reducible assumption | with_reducible exact Keeps.refl _ | exact hF.within rfl
    | (with_reducible apply Keeps.trans; on_goal 2 => with_reducible first | apply State.bumpSat_keeps)
    | (with_reducible apply Keeps.ite <;> intro _)
    | split

theorem State.promoteList_keeps (s : State) (l : List QEnt) {F : Nat} (hF : Sub 0x8 F) : Keeps F s (State.promoteList
    s l).1 := by
  unfold State.promoteList
  repeat' first
    | extract_lets | with_reducible assumption | with_reducible exact Keeps.refl _ | exact hF.within rfl
    | (with_reducible apply Keeps.trans; on_goal 2 => with_reducible first | apply State.promoteEnt_keeps)
    | (with_reducible apply Keeps.foldlP; intro _ _ _)

theorem State.promoteEng_keeps (s : State) (m : Nat) {F : Nat} (hF : Sub 0x408 F) : Keeps F s (State.promoteEng s m)
    := by
  unfold State.promoteEng
  repeat' first
    | extract_lets | with_reducible assumption | with_reducible exact Keeps.refl _ | exact hF.within rfl
    | (with_reducible apply Keeps.trans; on_goal 2 => with_reducible first
          | apply State.setEng_keeps | apply State.promoteList_keeps)

theorem State.urgencyTick_keeps (s : State) {F : Nat} (hF : Sub 0x408 F) : Keeps F s (State.urgencyTick s) := by
  unfold State.urgencyTick
  repeat' first
    | extract_lets | with_reducible assumption | with_reducible exact Keeps.refl _ | exact hF.within rfl
    | (with_reducible apply Keeps.trans; on_goal 2 => with_reducible first | apply State.promoteEng_keeps)
    | (with_reducible apply Keeps.foldl; intro _ _ _)
    | split
    | (with_reducible apply Keeps.fst; on_goal 2 => with_reducible assumption)
    | (with_reducible apply Keeps.snd; on_goal 2 => with_reducible assumption)
    | with_reducible apply Keeps.mk_engs
    | exact fun _ k => SMap.rising_map _ (State.tables_engs k)

theorem execUrgencyTick_keeps (s : State) : Keeps.Out 0x408 s (execUrgencyTick s) := by
  unfold execUrgencyTick
  have hF := Sub.refl 0x408
  apply Keeps.done
  repeat' first
    | extract_lets | with_reducible assumption | with_reducible exact Keeps.refl _ | exact hF.within rfl
    | (with_reducible apply Keeps.trans; on_goal 2 => with_reducible first | apply State.urgencyTick_keeps)
    | (with_reducible apply Keeps.ite <;> intro _)

theorem execPromotion_keeps (m : Nat) (s : State) : Keeps.Out 0x408 s (execPromotion m s) := by
  unfold execPromotion
  have hF := Sub.refl 0x408
  apply Keeps.done
  repeat' first
    | extract_lets | with_reducible assumption | with_reducible exact Keeps.refl _ | exact hF.within rfl
    | (with_reducible apply Keeps.trans; on_goal 2 => with_reducible first | apply State.promoteEng_keeps)
    | (with_reducible apply Keeps.ite <;> intro _)

theorem State.sendAct_keeps (s : State) (m t : Nat) (e : QEnt) {F : Nat} (hF : Sub 0x408 F) : Keeps F s (State.sendAct
    s m t e) := by
  unfold State.sendAct
  repeat' first
    | extract_lets | with_reducible assumption | with_reducible exact Keeps.refl _ | exact hF.within rfl
    | (with_reducible apply Keeps.trans; on_goal 2 => with_reducible first
          | apply State.bump_keeps | apply State.setEng_keeps)

theorem State.preTimed_keeps (s : State) (m t b : Nat) {F : Nat} (hF : Sub 0x400 F) : Keeps F s (State.preTimed s m t
    b) := by
  unfold State.preTimed
  repeat' first
    | extract_lets | with_reducible assumption | with_reducible exact Keeps.refl _ | exact hF.within rfl
    | (with_reducible apply Keeps.trans; on_goal 2 => with_reducible first | apply State.setEng_keeps)
    | (with_reducible apply Keeps.ite <;> intro _)
    | split
    | (with_reducible apply Keeps.fst; on_goal 2 => with_reducible assumption)
    | (with_reducible apply Keeps.snd; on_goal 2 => with_reducible assumption)

theorem State.sendPre_keeps (s : State) (m t : Nat) (e : QEnt) {F : Nat} (hF : Sub 0x408 F) : Keeps F s (State.sendPre
    s m t e) := by
  unfold State.sendPre
  repeat' first
    | extract_lets | with_reducible assumption | with_reducible exact Keeps.refl _ | exact hF.within rfl
    | (with_reducible apply Keeps.trans; on_goal 2 => with_reducible first
          | apply State.bump_keeps | apply State.setEng_keeps | apply State.preTimed_keeps)

theorem State.noteIdle_keeps (s : State) (m : Nat) {F : Nat} (hF : Sub 0x400 F) : Keeps F s (State.noteIdle s m) := by
  unfold State.noteIdle
  repeat' first
    | extract_lets | with_reducible assumption | with_reducible exact Keeps.refl _ | exact hF.within rfl
    | (with_reducible apply Keeps.trans; on_goal 2 => with_reducible first | apply State.setEng_keeps)
    | (with_reducible apply Keeps.ite <;> intro _)

theorem State.colTimed_keeps (s : State) (m t : Nat) (e : QEnt) {F : Nat} (hF : Sub 0x408 F) : Keeps F s
    (State.colTimed s m t e) := by
  unfold State.colTimed
  repeat' first
    | extract_lets | with_reducible assumption | with_reducible exact Keeps.refl _ | exact hF.within rfl
    | (with_reducible apply Keeps.trans; on_goal 2 => with_reducible first
          | apply State.bump_keeps | apply State.setEng_keeps)
    | (with_reducible apply Keeps.ite <;> intro _)
    | split
    | (with_reducible apply Keeps.fst; on_goal 2 => with_reducible assumption)
    | (with_reducible apply Keeps.snd; on_goal 2 => with_reducible assumption)

theorem State.sendCol_keeps (s : State) (m t : Nat) (e : QEnt) (l : ELine) {F : Nat} (hF : Sub 0x418 F) : Keeps F s
    (State.sendCol s m t e l) := by
  unfold State.sendCol
  repeat' first
    | extract_lets | with_reducible assumption | with_reducible exact Keeps.refl _ | exact hF.within rfl
    | (with_reducible apply Keeps.trans; on_goal 2 => with_reducible first
          | apply State.bump_keeps | apply State.setWord_keeps | apply State.setEng_keeps
          | apply State.noteIdle_keeps | apply State.colTimed_keeps)
    | (with_reducible apply Keeps.ite <;> intro _)

theorem State.promoWait_keeps (s : State) (m : Nat) {F : Nat} (hF : Sub 0x1800008 F) : Keeps F s (State.promoWait s m)
    := by
  unfold State.promoWait
  repeat' first
    | extract_lets | with_reducible assumption | with_reducible exact Keeps.refl _ | exact hF.within rfl
    | (with_reducible apply Keeps.trans; on_goal 2 => with_reducible first | apply State.int_keeps)
    | (with_reducible apply Keeps.foldl; intro _ _ _)
    | (with_reducible apply Keeps.foldlP; intro _ _ _)
    | (with_reducible apply Keeps.ite <;> intro _)
    | split
    | (with_reducible apply Keeps.fst; on_goal 2 => with_reducible assumption)
    | (with_reducible apply Keeps.snd; on_goal 2 => with_reducible assumption)

theorem State.startPromo_keeps (s : State) (m : Nat) (e : QEnt) {F : Nat} (hF : Sub 0x408 F) : Keeps F s
    (State.startPromo s m e) := by
  unfold State.startPromo
  repeat' first
    | extract_lets | with_reducible assumption | with_reducible exact Keeps.refl _ | exact hF.within rfl
    | (with_reducible apply Keeps.trans; on_goal 2 => with_reducible first
          | apply State.raise_keeps | apply State.setEng_keeps)
    | (with_reducible apply Keeps.ite <;> intro _)
    | split
    | (with_reducible apply Keeps.fst; on_goal 2 => with_reducible assumption)
    | (with_reducible apply Keeps.snd; on_goal 2 => with_reducible assumption)
    | dsimp +zetaDelta only

theorem State.traceCmd_keeps (s : State) (m : Nat) {F : Nat} (hF : Sub 0x2000004 F) : Keeps F s (State.traceCmd s m)
    := by
  unfold State.traceCmd
  repeat' first
    | extract_lets | with_reducible assumption | with_reducible exact Keeps.refl _ | exact hF.within rfl
    | (with_reducible apply Keeps.trans; on_goal 2 => with_reducible first
          | apply State.fresh_keeps | apply State.trace_keeps)
    | (with_reducible apply Keeps.ite <;> intro _)
    | split

theorem State.command_keeps (s : State) (m off : Nat) {F : Nat} (hF : Sub 0x200041C F) : Keeps F s (State.command s m
    off) := by
  unfold State.command
  repeat' first
    | extract_lets | with_reducible assumption | with_reducible exact Keeps.refl _ | exact hF.within rfl
    | (with_reducible apply Keeps.trans; on_goal 2 => with_reducible first
          | apply State.setEng_keeps | apply State.sendAct_keeps | apply State.sendPre_keeps
          | apply State.sendCol_keeps | apply State.startPromo_keeps | apply State.traceCmd_keeps)
    | split
    | (with_reducible apply Keeps.fst; on_goal 2 => with_reducible assumption)
    | (with_reducible apply Keeps.snd; on_goal 2 => with_reducible assumption)
    | dsimp +zetaDelta only

theorem execCommandChoice_keeps (m off : Nat) (s : State) : Keeps.Out 0x200041C s (execCommandChoice m off s) := by
  unfold execCommandChoice
  have hF := Sub.refl 0x200041C
  apply Keeps.done
  repeat' first
    | extract_lets | with_reducible assumption | with_reducible exact Keeps.refl _ | exact hF.within rfl
    | (with_reducible apply Keeps.trans; on_goal 2 => with_reducible first | apply State.command_keeps)
    | (with_reducible apply Keeps.ite <;> intro _)

theorem State.auditSample_keeps (s : State) (m : Nat) {F : Nat} (hF : Sub 0x8 F) : Keeps F s (State.auditSample s m)
    := by
  unfold State.auditSample
  repeat' first
    | extract_lets | with_reducible assumption | with_reducible exact Keeps.refl _ | exact hF.within rfl
    | (with_reducible apply Keeps.trans; on_goal 2 => with_reducible first | apply State.fset_keeps)
    | (with_reducible apply Keeps.ite <;> intro _)

theorem State.auditAdd_keeps (s : State) (m n : Nat) {F : Nat} (hF : Sub 0x400 F) : Keeps F s (State.auditAdd s m n)
    := by
  unfold State.auditAdd
  repeat' first
    | extract_lets | with_reducible assumption | with_reducible exact Keeps.refl _ | exact hF.within rfl
    | (with_reducible apply Keeps.trans; on_goal 2 => with_reducible first | apply State.setEng_keeps)

theorem State.closeHalf_keeps (s : State) (m h : Nat) {F : Nat} (hF : Sub 0x400 F) : Keeps F s (State.closeHalf s m h)
    := by
  unfold State.closeHalf
  repeat' first
    | extract_lets | with_reducible assumption | with_reducible exact Keeps.refl _ | exact hF.within rfl
    | (with_reducible apply Keeps.trans; on_goal 2 => with_reducible first | apply State.setEng_keeps)
    | (with_reducible apply Keeps.ite <;> intro _)

theorem State.closeBank_keeps (s : State) (m b : Nat) {F : Nat} (hF : Sub 0x400 F) : Keeps F s (State.closeBank s m b)
    := by
  unfold State.closeBank
  repeat' first
    | extract_lets | with_reducible assumption | with_reducible exact Keeps.refl _ | exact hF.within rfl
    | (with_reducible apply Keeps.trans; on_goal 2 => with_reducible first | apply State.setEng_keeps)
    | (with_reducible apply Keeps.ite <;> intro _)

theorem State.refDue_keeps (s : State) (m h : Nat) {F : Nat} (hF : Sub 0x408 F) : Keeps F s (State.refDue s m h) := by
  unfold State.refDue
  repeat' first
    | extract_lets | with_reducible assumption | with_reducible exact Keeps.refl _ | exact hF.within rfl
    | (with_reducible apply Keeps.trans; on_goal 2 => with_reducible first
          | apply State.setEng_keeps | apply State.wakeEng_keeps | apply State.closeHalf_keeps)
    | (with_reducible apply Keeps.ite <;> intro _)
    | split

theorem execRefDue_keeps (m h : Nat) (s : State) : Keeps.Out 0x408 s (execRefDue m h s) := by
  unfold execRefDue
  have hF := Sub.refl 0x408
  apply Keeps.done
  repeat' first
    | extract_lets | with_reducible assumption | with_reducible exact Keeps.refl _ | exact hF.within rfl
    | (with_reducible apply Keeps.trans; on_goal 2 => with_reducible first | apply State.refDue_keeps)
    | (with_reducible apply Keeps.ite <;> intro _)

theorem State.enterPd_keeps (s : State) (m : Nat) {F : Nat} (hF : Sub 0x408 F) : Keeps F s (State.enterPd s m) := by
  unfold State.enterPd
  repeat' first
    | extract_lets | with_reducible assumption | with_reducible exact Keeps.refl _ | exact hF.within rfl
    | (with_reducible apply Keeps.trans; on_goal 2 => with_reducible first
          | apply State.bump_keeps | apply State.setEng_keeps | apply State.setEngBit_keeps)
    | (with_reducible apply Keeps.ite <;> intro _)

theorem State.ref_keeps (s : State) (m h t : Nat) {F : Nat} (hF : Sub 0xC08 F) : Keeps F s (State.ref s m h t) := by
  unfold State.ref
  repeat' first
    | extract_lets | with_reducible assumption | with_reducible exact Keeps.refl _ | exact hF.within rfl
    | (with_reducible apply Keeps.trans; on_goal 2 => with_reducible first
          | apply State.bump_keeps | apply State.setEng_keeps | apply State.auditSample_keeps
          | apply State.auditAdd_keeps)
    | split
    | (with_reducible apply Keeps.fst; on_goal 2 => with_reducible assumption)
    | (with_reducible apply Keeps.snd; on_goal 2 => with_reducible assumption)
    | with_reducible apply Keeps.mk_refs

theorem State.refDelay_keeps (s : State) (m due : Nat) {F : Nat} (hF : Sub 0x1800008 F) : Keeps F s (State.refDelay s
    m due) := by
  unfold State.refDelay
  repeat' first
    | extract_lets | with_reducible assumption | with_reducible exact Keeps.refl _ | exact hF.within rfl
    | (with_reducible apply Keeps.trans; on_goal 2 => with_reducible first
          | apply State.bumpSat_keeps | apply State.raise_keeps | apply State.int_keeps)
    | (with_reducible apply Keeps.ite <;> intro _)

theorem State.endFull_keeps (s : State) (m : Nat) {F : Nat} (hF : Sub 0x400 F) : Keeps F s (State.endFull s m) := by
  unfold State.endFull
  repeat' first
    | extract_lets | with_reducible assumption | with_reducible exact Keeps.refl _ | exact hF.within rfl
    | (with_reducible apply Keeps.trans; on_goal 2 => with_reducible first | apply State.setEng_keeps)
    | (with_reducible apply Keeps.ite <;> intro _)
    | split
    | (with_reducible apply Keeps.fst; on_goal 2 => with_reducible assumption)
    | (with_reducible apply Keeps.snd; on_goal 2 => with_reducible assumption)

theorem State.repower_keeps (s : State) (m : Nat) {F : Nat} (hF : Sub 0x408 F) : Keeps F s (State.repower s m) := by
  unfold State.repower
  repeat' first
    | extract_lets | with_reducible assumption | with_reducible exact Keeps.refl _ | exact hF.within rfl
    | (with_reducible apply Keeps.trans; on_goal 2 => with_reducible first | apply State.enterPd_keeps)
    | (with_reducible apply Keeps.ite <;> intro _)

theorem State.refStart_keeps (s : State) (m h : Nat) {F : Nat} (hF : Sub 0x1800C08 F) : Keeps F s (State.refStart s m
    h) := by
  unfold State.refStart
  repeat' first
    | extract_lets | with_reducible assumption | with_reducible exact Keeps.refl _ | exact hF.within rfl
    | (with_reducible apply Keeps.trans; on_goal 2 => with_reducible first
          | apply State.ref_keeps | apply State.refDelay_keeps | apply State.repower_keeps)
    | (with_reducible apply Keeps.ite <;> intro _)
    | split

theorem execRefStart_keeps (m h : Nat) (s : State) : Keeps.Out 0x1800C08 s (execRefStart m h s) := by
  unfold execRefStart
  have hF := Sub.refl 0x1800C08
  apply Keeps.done
  repeat' first
    | extract_lets | with_reducible assumption | with_reducible exact Keeps.refl _ | exact hF.within rfl
    | (with_reducible apply Keeps.trans; on_goal 2 => with_reducible first | apply State.refStart_keeps)
    | (with_reducible apply Keeps.ite <;> intro _)

theorem State.refreshMode_keeps (s : State) (d : Nat) {F : Nat} (hF : Sub 0x1800008 F) : Keeps F s (State.refreshMode
    s d) := by
  unfold State.refreshMode
  repeat' first
    | extract_lets | with_reducible assumption | with_reducible exact Keeps.refl _ | exact hF.within rfl
    | (with_reducible apply Keeps.trans; on_goal 2 => with_reducible first
          | apply State.fset_keeps | apply State.setFlag_keeps | apply State.int_keeps)
    | (with_reducible apply Keeps.ite <;> intro _)

theorem execRefreshModeChange_keeps (d : Nat) (s : State) : Keeps.Out 0x1800008 s (execRefreshModeChange d s) := by
  unfold execRefreshModeChange
  have hF := Sub.refl 0x1800008
  apply Keeps.done
  repeat' first
    | extract_lets | with_reducible assumption | with_reducible exact Keeps.refl _ | exact hF.within rfl
    | (with_reducible apply Keeps.trans; on_goal 2 => with_reducible first | apply State.refreshMode_keeps)
    | (with_reducible apply Keeps.ite <;> intro _)

theorem State.srRef_keeps (s : State) (m : Nat) {F : Nat} (hF : Sub 0x400 F) : Keeps F s (State.srRef s m) := by
  unfold State.srRef
  repeat' first
    | extract_lets | with_reducible assumption | with_reducible exact Keeps.refl _ | exact hF.within rfl
    | (with_reducible apply Keeps.trans; on_goal 2 => with_reducible first
          | apply State.setEng_keeps | apply State.auditAdd_keeps)
    | (with_reducible apply Keeps.ite <;> intro _)

theorem execSelfRefreshRef_keeps (m : Nat) (s : State) : Keeps.Out 0x400 s (execSelfRefreshRef m s) := by
  unfold execSelfRefreshRef
  have hF := Sub.refl 0x400
  apply Keeps.done
  repeat' first
    | extract_lets | with_reducible assumption | with_reducible exact Keeps.refl _ | exact hF.within rfl
    | (with_reducible apply Keeps.trans; on_goal 2 => with_reducible first | apply State.srRef_keeps)
    | (with_reducible apply Keeps.ite <;> intro _)

theorem State.askSlot_keeps (s : State) (m user len : Nat) {F : Nat} (hF : Sub 0x408 F) : Keeps F s (State.askSlot s m
    user len) := by
  unfold State.askSlot
  repeat' first
    | extract_lets | with_reducible assumption | with_reducible exact Keeps.refl _ | exact hF.within rfl
    | (with_reducible apply Keeps.trans; on_goal 2 => with_reducible first
          | apply State.setEng_keeps | apply State.wakeEng_keeps)

theorem State.dropSlot_keeps (s : State) (m user : Nat) {F : Nat} (hF : Sub 0x400 F) : Keeps F s (State.dropSlot s m
    user) := by
  unfold State.dropSlot
  repeat' first
    | extract_lets | with_reducible assumption | with_reducible exact Keeps.refl _ | exact hF.within rfl
    | (with_reducible apply Keeps.trans; on_goal 2 => with_reducible first
          | apply State.setEng_keeps | apply State.endFull_keeps)

theorem State.noteBoundary_keeps (s : State) (m kind user len : Nat) {F : Nat} (hF : Sub 0x8 F) : Keeps F s
    (State.noteBoundary s m kind user len) := by
  unfold State.noteBoundary
  repeat' first
    | extract_lets | with_reducible assumption | with_reducible exact Keeps.refl _ | exact hF.within rfl
    | (with_reducible apply Keeps.trans; on_goal 2 => with_reducible first
          | apply State.setReg_keeps | apply State.bump_keeps)

theorem State.lateRef_keeps (s : State) (m : Nat) (due : Option Nat) {F : Nat} (hF : Sub 0x1800008 F) : Keeps F s
    (State.lateRef s m due) := by
  unfold State.lateRef
  repeat' first
    | extract_lets | with_reducible assumption | with_reducible exact Keeps.refl _ | exact hF.within rfl
    | (with_reducible apply Keeps.trans; on_goal 2 => with_reducible first | apply State.refDelay_keeps)
    | (with_reducible apply Keeps.ite <;> intro _)
    | split
    | (with_reducible apply Keeps.fst; on_goal 2 => with_reducible assumption)
    | (with_reducible apply Keeps.snd; on_goal 2 => with_reducible assumption)

theorem State.fullRefresh_keeps (s : State) (m : Nat) {F : Nat} (hF : Sub 0x1800C08 F) : Keeps F s (State.fullRefresh
    s m) := by
  unfold State.fullRefresh
  repeat' first
    | extract_lets | with_reducible assumption | with_reducible exact Keeps.refl _ | exact hF.within rfl
    | (with_reducible apply Keeps.trans; on_goal 2 => with_reducible first
          | apply State.setEng_keeps | apply State.ref_keeps | apply State.lateRef_keeps)
    | (with_reducible apply Keeps.ite <;> intro _)
    | split
    | (with_reducible apply Keeps.fst; on_goal 2 => with_reducible assumption)
    | (with_reducible apply Keeps.snd; on_goal 2 => with_reducible assumption)
    | dsimp +zetaDelta only

theorem State.slotStep_keeps (s : State) (m : Nat) {F : Nat} (hF : Sub 0x1800C08 F) : Keeps F s (State.slotStep s m).1
    := by
  unfold State.slotStep
  repeat' first
    | extract_lets | with_reducible assumption | with_reducible exact Keeps.refl _ | exact hF.within rfl
    | (with_reducible apply Keeps.trans; on_goal 2 => with_reducible first
          | apply State.setEng_keeps | apply State.closeHalf_keeps | apply State.fullRefresh_keeps)
    | split
    | (with_reducible apply Keeps.fst; on_goal 2 => with_reducible assumption)
    | (with_reducible apply Keeps.snd; on_goal 2 => with_reducible assumption)
    | dsimp +zetaDelta only

theorem State.refreshSlot_keeps (s : State) (m : Nat) {F : Nat} (hF : Sub 0x1800C08 F) : Keeps F s (State.refreshSlot
    s m) := by
  unfold State.refreshSlot
  repeat' first
    | extract_lets | with_reducible assumption | with_reducible exact Keeps.refl _ | exact hF.within rfl
    | (with_reducible apply Keeps.trans; on_goal 2 => with_reducible first
          | apply State.setEng_keeps | apply State.noteBoundary_keeps | apply State.slotStep_keeps)
    | split
    | (with_reducible apply Keeps.fst; on_goal 2 => with_reducible assumption)

theorem State.idleBoundary_keeps (s : State) (m user : Nat) {F : Nat} (hF : Sub 0x408 F) : Keeps F s
    (State.idleBoundary s m user) := by
  unfold State.idleBoundary
  repeat' first
    | extract_lets | with_reducible assumption | with_reducible exact Keeps.refl _ | exact hF.within rfl
    | (with_reducible apply Keeps.trans; on_goal 2 => with_reducible first
          | apply State.setEng_keeps | apply State.wakeEng_keeps | apply State.noteBoundary_keeps)

theorem execIdleBoundary_keeps (m user : Nat) (s : State) : Keeps.Out 0x408 s (execIdleBoundary m user s) := by
  unfold execIdleBoundary
  have hF := Sub.refl 0x408
  apply Keeps.done
  repeat' first
    | extract_lets | with_reducible assumption | with_reducible exact Keeps.refl _ | exact hF.within rfl
    | (with_reducible apply Keeps.trans; on_goal 2 => with_reducible first | apply State.idleBoundary_keeps)
    | (with_reducible apply Keeps.ite <;> intro _)

theorem State.closeAll_keeps (s : State) (m : Nat) {F : Nat} (hF : Sub 0x400 F) : Keeps F s (State.closeAll s m) := by
  unfold State.closeAll
  repeat' first
    | extract_lets | with_reducible assumption | with_reducible exact Keeps.refl _ | exact hF.within rfl
    | (with_reducible apply Keeps.trans; on_goal 2 => with_reducible first | apply State.closeHalf_keeps)

theorem State.powerDown_keeps (s : State) (m : Nat) {F : Nat} (hF : Sub 0x408 F) : Keeps F s (State.powerDown s m) :=
    by
  unfold State.powerDown
  repeat' first
    | extract_lets | with_reducible assumption | with_reducible exact Keeps.refl _ | exact hF.within rfl
    | (with_reducible apply Keeps.trans; on_goal 2 => with_reducible first
          | apply State.setEng_keeps | apply State.enterPd_keeps | apply State.closeAll_keeps)
    | (with_reducible apply Keeps.ite <;> intro _)

theorem execPowerDownEntry_keeps (m : Nat) (s : State) : Keeps.Out 0x408 s (execPowerDownEntry m s) := by
  unfold execPowerDownEntry
  have hF := Sub.refl 0x408
  apply Keeps.done
  repeat' first
    | extract_lets | with_reducible assumption | with_reducible exact Keeps.refl _ | exact hF.within rfl
    | (with_reducible apply Keeps.trans; on_goal 2 => with_reducible first
          | apply State.repower_keeps | apply State.powerDown_keeps)
    | (with_reducible apply Keeps.ite <;> intro _)

theorem State.enterSr_keeps (s : State) (m : Nat) {F : Nat} (hF : Sub 0x84408 F) : Keeps F s (State.enterSr s m) := by
  unfold State.enterSr
  repeat' first
    | extract_lets | with_reducible assumption | with_reducible exact Keeps.refl _ | exact hF.within rfl
    | (with_reducible apply Keeps.trans; on_goal 2 => with_reducible first
          | apply State.setEng_keeps | apply State.setEngBit_keeps | apply State.unlockEng_keeps
          | apply State.leavePd_keeps | apply State.auditSample_keeps | apply State.closeAll_keeps)
    | (with_reducible apply Keeps.ite <;> intro _)
    | split
    | (with_reducible apply Keeps.fst; on_goal 2 => with_reducible assumption)
    | (with_reducible apply Keeps.snd; on_goal 2 => with_reducible assumption)
    | with_reducible apply Keeps.mk_thm

theorem State.leaveSr_keeps (s : State) (m : Nat) {F : Nat} (hF : Sub 0x80408 F) : Keeps F s (State.leaveSr s m) := by
  unfold State.leaveSr
  repeat' first
    | extract_lets | with_reducible assumption | with_reducible exact Keeps.refl _ | exact hF.within rfl
    | (with_reducible apply Keeps.trans; on_goal 2 => with_reducible first
          | apply State.setEng_keeps | apply State.setEngBit_keeps | apply State.auditSample_keeps)
    | (with_reducible apply Keeps.ite <;> intro _)
    | split
    | (with_reducible apply Keeps.fst; on_goal 2 => with_reducible assumption)
    | (with_reducible apply Keeps.snd; on_goal 2 => with_reducible assumption)
    | with_reducible apply Keeps.mk_thm

/-! ### Machine/Slice.lean -/

theorem State.pushRet_keeps (s : State) (m : Nat) (r : Ret) {F : Nat} (hF : Sub 0x400 F) : Keeps F s (State.pushRet s
    m r) := by
  unfold State.pushRet
  repeat' first
    | extract_lets | with_reducible assumption | with_reducible exact Keeps.refl _ | exact hF.within rfl
    | (with_reducible apply Keeps.trans; on_goal 2 => with_reducible first | apply State.setEng_keeps)

theorem State.enterRead_keeps (s : State) (m : Nat) (e : QEnt) (line : Nat) (op : Option (Nat × Nat)) {F : Nat} (hF :
    Sub 0x40C F) : Keeps F s (State.enterRead s m e line op) := by
  unfold State.enterRead
  repeat' first
    | extract_lets | with_reducible assumption | with_reducible exact Keeps.refl _ | exact hF.within rfl
    | (with_reducible apply Keeps.trans; on_goal 2 => with_reducible first
          | apply State.bump_keeps | apply State.setEng_keeps | apply State.reqEng_keeps
          | apply State.pushRet_keeps)
    | split

theorem State.sendRead_keeps (s : State) (e : QEnt) (line : Nat) {F : Nat} (hF : Sub 0x60C F) : Keeps F s
    (State.sendRead s e line) := by
  unfold State.sendRead
  repeat' first
    | extract_lets | with_reducible assumption | with_reducible exact Keeps.refl _ | exact hF.within rfl
    | (with_reducible apply Keeps.trans; on_goal 2 => with_reducible first
          | apply State.setSlc_keeps | apply State.pushRet_keeps | apply State.enterRead_keeps)
    | (with_reducible apply Keeps.ite <;> intro _)
    | split

theorem State.countFenced_keeps (s : State) (line : Nat) {F : Nat} (hF : Sub 0x8 F) : Keeps F s (State.countFenced s
    line) := by
  unfold State.countFenced
  repeat' first
    | extract_lets | with_reducible assumption | with_reducible exact Keeps.refl _ | exact hF.within rfl
    | (with_reducible apply Keeps.trans; on_goal 2 => with_reducible first | apply State.bumpSat_keeps)

theorem State.access_keeps (s : State) (k : Nat) {F : Nat} (hF : Sub 0x8 F) : Keeps F s (State.access s k) := by
  unfold State.access
  repeat' first
    | extract_lets | with_reducible assumption | with_reducible exact Keeps.refl _ | exact hF.within rfl
    | (with_reducible apply Keeps.trans; on_goal 2 => with_reducible first | apply State.bump_keeps)

theorem State.strike_keeps (s : State) (k key code bad : Nat) {F : Nat} (hF : Sub 0x200 F) : Keeps F s (State.strike s
    k key code bad) := by
  unfold State.strike
  repeat' first
    | extract_lets | with_reducible assumption | with_reducible exact Keeps.refl _ | exact hF.within rfl
    | (with_reducible apply Keeps.trans; on_goal 2 => with_reducible first | apply State.setSlc_keeps)
    | split

theorem State.sramInject_keeps (s : State) (k key : Nat) {F : Nat} (hF : Sub 0x1804208 F) : Keeps F s
    (State.sramInject s k key) := by
  unfold State.sramInject
  repeat' first
    | extract_lets | with_reducible assumption | with_reducible exact Keeps.refl _ | exact hF.within rfl
    | (with_reducible apply Keeps.trans; on_goal 2 => with_reducible first
          | apply State.fireInj_keeps | apply State.strike_keeps)
    | (with_reducible apply Keeps.ite <;> intro _)
    | split

theorem State.sramLost_keeps (s : State) (w : Way) {F : Nat} (hF : Sub 0x1E0400C F) : Keeps F s (State.sramLost s w)
    := by
  unfold State.sramLost
  repeat' first
    | extract_lets | with_reducible assumption | with_reducible exact Keeps.refl _ | exact hF.within rfl
    | (with_reducible apply Keeps.trans; on_goal 2 => with_reducible first
          | apply State.bumpSat_keeps | apply State.int_keeps | apply State.poisonCreated_keeps)

theorem State.sramFixed_keeps (s : State) (w : Way) {F : Nat} (hF : Sub 0x1800008 F) : Keeps F s (State.sramFixed s w)
    := by
  unfold State.sramFixed
  repeat' first
    | extract_lets | with_reducible assumption | with_reducible exact Keeps.refl _ | exact hF.within rfl
    | (with_reducible apply Keeps.trans; on_goal 2 => with_reducible first
          | apply State.bumpSat_keeps | apply State.int_keeps)
    | (with_reducible apply Keeps.ite <;> intro _)
    | split
    | (with_reducible apply Keeps.fst; on_goal 2 => with_reducible assumption)
    | (with_reducible apply Keeps.snd; on_goal 2 => with_reducible assumption)

theorem State.readLineWay_keeps (s : State) (k key : Nat) {F : Nat} (hF : Sub 0x1E0420C F) : Keeps F s
    (State.readLineWay s k key) := by
  unfold State.readLineWay
  repeat' first
    | extract_lets | with_reducible assumption | with_reducible exact Keeps.refl _ | exact hF.within rfl
    | (with_reducible apply Keeps.trans; on_goal 2 => with_reducible first
          | apply State.setSlc_keeps | apply State.sramInject_keeps | apply State.sramLost_keeps
          | apply State.sramFixed_keeps)
    | (with_reducible apply Keeps.ite <;> intro _)
    | split

theorem State.takeWay_keeps (s : State) (k set : Nat) (again : Bool) {F : Nat} (hF : Sub 0x1E0420C F) : Keeps F s
    (State.takeWay s k set again).1 := by
  unfold State.takeWay
  repeat' first
    | extract_lets | with_reducible assumption | with_reducible exact Keeps.refl _ | exact hF.within rfl
    | (with_reducible apply Keeps.trans; on_goal 2 => with_reducible first
          | apply State.bump_keeps | apply State.setSlc_keeps | apply State.access_keeps
          | apply State.readLineWay_keeps)
    | split

theorem State.cleanOne_keeps (s : State) (k pc : Nat) {F : Nat} (hF : Sub 0x1E0420C F) : Keeps F s (State.cleanOne s k
    pc) := by
  unfold State.cleanOne
  repeat' first
    | extract_lets | with_reducible assumption | with_reducible exact Keeps.refl _ | exact hF.within rfl
    | (with_reducible apply Keeps.trans; on_goal 2 => with_reducible first
          | apply State.setSlc_keeps | apply State.access_keeps | apply State.readLineWay_keeps)
    | (with_reducible apply Keeps.ite <;> intro _)
    | split

theorem State.dirtyStall_keeps (s : State) (o : SOp) {F : Nat} (hF : Sub 0x1E0420C F) : Keeps F s (State.dirtyStall s
    o).1 := by
  unfold State.dirtyStall
  repeat' first
    | extract_lets | with_reducible assumption | with_reducible exact Keeps.refl _ | exact hF.within rfl
    | (with_reducible apply Keeps.trans; on_goal 2 => with_reducible first
          | apply State.bumpSat_keeps | apply State.int_keeps | apply State.cleanOne_keeps)
    | (with_reducible apply Keeps.ite <;> intro _)

theorem State.wayStall_keeps (s : State) (o : SOp) {F : Nat} (hF : Sub 0x8 F) : Keeps F s (State.wayStall s o).1 := by
  unfold State.wayStall
  repeat' first
    | extract_lets | with_reducible assumption | with_reducible exact Keeps.refl _ | exact hF.within rfl
    | (with_reducible apply Keeps.trans; on_goal 2 => with_reducible first | apply State.bumpSat_keeps)
    | (with_reducible apply Keeps.ite <;> intro _)

theorem State.closeMerge_keeps (s : State) (k key : Nat) (byTimeout : Bool) {F : Nat} (hF : Sub 0x60C F) : Keeps F s
    (State.closeMerge s k key byTimeout) := by
  unfold State.closeMerge
  repeat' first
    | extract_lets | with_reducible assumption | with_reducible exact Keeps.refl _ | exact hF.within rfl
    | (with_reducible apply Keeps.trans; on_goal 2 => with_reducible first
          | apply State.setSlc_keeps | apply State.sendRead_keeps)
    | (with_reducible apply Keeps.ite <;> intro _)
    | split

theorem State.sendTag_keeps (s : State) (line : Nat) {F : Nat} (hF : Sub 0x60C F) : Keeps F s (State.sendTag s line)
    := by
  unfold State.sendTag
  repeat' first
    | extract_lets | with_reducible assumption | with_reducible exact Keeps.refl _ | exact hF.within rfl
    | (with_reducible apply Keeps.trans; on_goal 2 => with_reducible first | apply State.sendRead_keeps)
    | (with_reducible apply Keeps.ite <;> intro _)
    | split
    | (with_reducible apply Keeps.fst; on_goal 2 => with_reducible assumption)
    | (with_reducible apply Keeps.snd; on_goal 2 => with_reducible assumption)

theorem State.mergeLost_keeps (s : State) (k key : Nat) (w : Way) {F : Nat} (hF : Sub 0x1E0460C F) : Keeps F s
    (State.mergeLost s k key w) := by
  unfold State.mergeLost
  repeat' first
    | extract_lets | with_reducible assumption | with_reducible exact Keeps.refl _ | exact hF.within rfl
    | (with_reducible apply Keeps.trans; on_goal 2 => with_reducible first
          | apply State.setSlc_keeps | apply State.sramLost_keeps | apply State.takeWay_keeps
          | apply State.sendTag_keeps)
    | split
    | (with_reducible apply Keeps.fst; on_goal 2 => with_reducible assumption)

theorem State.readWay_keeps (s : State) (k key : Nat) {F : Nat} (hF : Sub 0x1E0460C F) : Keeps F s (State.readWay s k
    key) := by
  unfold State.readWay
  repeat' first
    | extract_lets | with_reducible assumption | with_reducible exact Keeps.refl _ | exact hF.within rfl
    | (with_reducible apply Keeps.trans; on_goal 2 => with_reducible first
          | apply State.setSlc_keeps | apply State.sramInject_keeps | apply State.sramFixed_keeps
          | apply State.readLineWay_keeps | apply State.mergeLost_keeps)
    | (with_reducible apply Keeps.ite <;> intro _)
    | split

theorem State.doneOp_keeps (s : State) (o : SOp) (r : LineRes) {F : Nat} (hF : Sub 0x18040C8 F) : Keeps F s
    (State.doneOp s o r) := by
  unfold State.doneOp
  repeat' first
    | extract_lets | with_reducible assumption | with_reducible exact Keeps.refl _ | exact hF.within rfl
    | (with_reducible apply Keeps.trans; on_goal 2 => with_reducible first | apply State.finishLine_keeps)

theorem State.doRead_keeps (s : State) (o : SOp) (noalloc utag : Bool) {F : Nat} (hF : Sub 0x1E046CC F) : Keeps F s
    (State.doRead s o noalloc utag).1 := by
  unfold State.doRead
  repeat' first
    | extract_lets | with_reducible assumption | with_reducible exact Keeps.refl _ | exact hF.within rfl
    | (with_reducible apply Keeps.trans; on_goal 2 => with_reducible first
          | apply State.bump_keeps | apply State.noteTag_keeps | apply State.setSlc_keeps
          | apply State.sendRead_keeps | apply State.takeWay_keeps | apply State.wayStall_keeps
          | apply State.closeMerge_keeps | apply State.doneOp_keeps)
    | split
    | (with_reducible apply Keeps.fst; on_goal 2 => with_reducible assumption)

theorem State.staleTags_keeps (s : State) (line : Nat) {F : Nat} (hF : Sub 0x600 F) : Keeps F s (State.staleTags s
    line) := by
  unfold State.staleTags
  repeat' first
    | extract_lets | with_reducible assumption | with_reducible exact Keeps.refl _ | exact hF.within rfl
    | (with_reducible apply Keeps.trans; on_goal 2 => with_reducible first | apply State.setSlc_keeps)
    | (with_reducible apply Keeps.ite <;> intro _)
    | split
    | (with_reducible apply Keeps.fst; on_goal 2 => with_reducible assumption)
    | (with_reducible apply Keeps.snd; on_goal 2 => with_reducible assumption)
    | with_reducible apply Keeps.mk_engs
    | exact fun _ k => SMap.rising_map _ (State.tables_engs k)
    | exact fun _ k => State.tables_engs k

theorem State.doWrite_keeps (s : State) (o : SOp) (poison : Bool) (tag : Option Nat) {F : Nat} (hF : Sub 0x1E046CC F)
    : Keeps F s (State.doWrite s o poison tag).1 := by
  unfold State.doWrite
  repeat' first
    | extract_lets | with_reducible assumption | with_reducible exact Keeps.refl _ | exact hF.within rfl
    | (with_reducible apply Keeps.trans; on_goal 2 => with_reducible first
          | apply State.bump_keeps | apply State.setSlc_keeps | apply State.poisonCreated_keeps
          | apply State.takeWay_keeps | apply State.dirtyStall_keeps | apply State.wayStall_keeps
          | apply State.closeMerge_keeps | apply State.sendTag_keeps | apply State.doneOp_keeps
          | apply State.staleTags_keeps)
    | (with_reducible apply Keeps.ite <;> intro _)
    | split
    | (with_reducible apply Keeps.fst; on_goal 2 => with_reducible assumption)

theorem State.doPartial_keeps (s : State) (o : SOp) (mask : Nat) {F : Nat} (hF : Sub 0x1E046CC F) : Keeps F s
    (State.doPartial s o mask).1 := by
  unfold State.doPartial
  repeat' first
    | extract_lets | with_reducible assumption | with_reducible exact Keeps.refl _ | exact hF.within rfl
    | (with_reducible apply Keeps.trans; on_goal 2 => with_reducible first
          | apply State.bump_keeps | apply State.setSlc_keeps | apply State.dirtyStall_keeps
          | apply State.closeMerge_keeps | apply State.doneOp_keeps)
    | (with_reducible apply Keeps.ite <;> intro _)
    | split
    | (with_reducible apply Keeps.fst; on_goal 2 => with_reducible assumption)
    | (with_reducible apply Keeps.snd; on_goal 2 => with_reducible assumption)
    | dsimp +zetaDelta only

theorem State.fetchAtom_keeps (s : State) (o : SOp) {F : Nat} (hF : Sub 0x1E0460C F) : Keeps F s (State.fetchAtom s
    o).1 := by
  unfold State.fetchAtom
  repeat' first
    | extract_lets | with_reducible assumption | with_reducible exact Keeps.refl _ | exact hF.within rfl
    | (with_reducible apply Keeps.trans; on_goal 2 => with_reducible first
          | apply State.setSlc_keeps | apply State.sendRead_keeps | apply State.takeWay_keeps
          | apply State.wayStall_keeps | apply State.closeMerge_keeps)
    | (with_reducible apply Keeps.ite <;> intro _)
    | split
    | (with_reducible apply Keeps.fst; on_goal 2 => with_reducible assumption)

theorem State.doAtom_keeps (s : State) (o : SOp) (sub off : Nat) {F : Nat} (hF : Sub 0x1E046CC F) : Keeps F s
    (State.doAtom s o sub off).1 := by
  unfold State.doAtom
  repeat' first
    | extract_lets | with_reducible assumption | with_reducible exact Keeps.refl _ | exact hF.within rfl
    | (with_reducible apply Keeps.trans; on_goal 2 => with_reducible first
          | apply State.bump_keeps | apply State.setSlc_keeps | apply State.dirtyStall_keeps
          | apply State.closeMerge_keeps | apply State.doneOp_keeps | apply State.fetchAtom_keeps)
    | split

theorem State.probeRet_keeps (s : State) (o : SOp) (who : Reader) (word : List Nat) (fenced : Bool) {F : Nat} (hF :
    Sub 0x400 F) : Keeps F s (State.probeRet s o who word fenced) := by
  unfold State.probeRet
  repeat' first
    | extract_lets | with_reducible assumption | with_reducible exact Keeps.refl _ | exact hF.within rfl
    | (with_reducible apply Keeps.trans; on_goal 2 => with_reducible first | apply State.pushRet_keeps)

theorem State.doProbe_keeps (s : State) (o : SOp) (who : Reader) {F : Nat} (hF : Sub 0x60C F) : Keeps F s
    (State.doProbe s o who).1 := by
  unfold State.doProbe
  repeat' first
    | extract_lets | with_reducible assumption | with_reducible exact Keeps.refl _ | exact hF.within rfl
    | (with_reducible apply Keeps.trans; on_goal 2 => with_reducible first
          | apply State.sendRead_keeps | apply State.closeMerge_keeps | apply State.probeRet_keeps)
    | split
    | (with_reducible apply Keeps.fst; on_goal 2 => with_reducible assumption)
    | (with_reducible apply Keeps.snd; on_goal 2 => with_reducible assumption)
    | dsimp +zetaDelta only

theorem State.fencedOp_keeps (s : State) (o : SOp) {F : Nat} (hF : Sub 0x18044C8 F) : Keeps F s (State.fencedOp s o)
    := by
  unfold State.fencedOp
  repeat' first
    | extract_lets | with_reducible assumption | with_reducible exact Keeps.refl _ | exact hF.within rfl
    | (with_reducible apply Keeps.trans; on_goal 2 => with_reducible first
          | apply State.countFenced_keeps | apply State.doneOp_keeps | apply State.probeRet_keeps)
    | split

theorem State.sliceExec_keeps (s : State) (o : SOp) (run : Bool) {F : Nat} (hF : Sub 0x1E046CC F) : Keeps F s
    (State.sliceExec s o run).1 := by
  unfold State.sliceExec
  repeat' first
    | extract_lets | with_reducible assumption | with_reducible exact Keeps.refl _ | exact hF.within rfl
    | (with_reducible apply Keeps.trans; on_goal 2 => with_reducible first
          | apply State.access_keeps | apply State.readWay_keeps | apply State.doRead_keeps
          | apply State.doWrite_keeps | apply State.doPartial_keeps | apply State.fetchAtom_keeps
          | apply State.doAtom_keeps | apply State.doProbe_keeps | apply State.fencedOp_keeps)
    | split
    | (with_reducible apply Keeps.fst; on_goal 2 => with_reducible assumption)
    | (with_reducible apply Keeps.snd; on_goal 2 => with_reducible assumption)
    | dsimp +zetaDelta only

theorem State.pend_keeps (s : State) (k : Nat) (o : SOp) {F : Nat} (hF : Sub 0x200 F) : Keeps F s (State.pend s k o)
    := by
  unfold State.pend
  repeat' first
    | extract_lets | with_reducible assumption | with_reducible exact Keeps.refl _ | exact hF.within rfl
    | (with_reducible apply Keeps.trans; on_goal 2 => with_reducible first | apply State.setSlc_keeps)

theorem State.startOp_keeps (s : State) (o : SOp) {F : Nat} (hF : Sub 0x1E046CC F) : Keeps F s (State.startOp s o) :=
    by
  unfold State.startOp
  repeat' first
    | extract_lets | with_reducible assumption | with_reducible exact Keeps.refl _ | exact hF.within rfl
    | (with_reducible apply Keeps.trans; on_goal 2 => with_reducible first
          | apply State.sliceExec_keeps | apply State.pend_keeps)
    | (with_reducible apply Keeps.ite <;> intro _)
    | split
    | (with_reducible apply Keeps.fst; on_goal 2 => with_reducible assumption)

theorem State.sliceOp_keeps (s : State) (o : SOp) {F : Nat} (hF : Sub 0x1E046CC F) : Keeps F s (State.sliceOp s o) :=
    by
  unfold State.sliceOp
  repeat' first
    | extract_lets | with_reducible assumption | with_reducible exact Keeps.refl _ | exact hF.within rfl
    | (with_reducible apply Keeps.trans; on_goal 2 => with_reducible first
          | apply State.setSlc_keeps | apply State.startOp_keeps)
    | (with_reducible apply Keeps.ite <;> intro _)

theorem State.takeInput_keeps (s : State) (k : Nat) {F : Nat} (hF : Sub 0x1E046CC F) : Keeps F s (State.takeInput s k)
    := by
  unfold State.takeInput
  repeat' first
    | extract_lets | with_reducible assumption | with_reducible exact Keeps.refl _ | exact hF.within rfl
    | (with_reducible apply Keeps.trans; on_goal 2 => with_reducible first
          | apply State.setSlc_keeps | apply State.startOp_keeps)
    | (with_reducible apply Keeps.ite <;> intro _)
    | split

theorem State.unpend_keeps (s : State) (k : Nat) (o : SOp) (now' : Option SOp) {F : Nat} (hF : Sub 0x200 F) : Keeps F
    s (State.unpend s k o now') := by
  unfold State.unpend
  repeat' first
    | extract_lets | with_reducible assumption | with_reducible exact Keeps.refl _ | exact hF.within rfl
    | (with_reducible apply Keeps.trans; on_goal 2 => with_reducible first | apply State.setSlc_keeps)

theorem State.runPending_keeps (s : State) (line : Nat) (atoms : Bool) {F : Nat} (hF : Sub 0x1E046CC F) : Keeps F s
    (State.runPending s line atoms) := by
  unfold State.runPending
  repeat' first
    | extract_lets | with_reducible assumption | with_reducible exact Keeps.refl _ | exact hF.within rfl
    | (with_reducible apply Keeps.trans; on_goal 2 => with_reducible first
          | apply State.sliceExec_keeps | apply State.takeInput_keeps | apply State.unpend_keeps)
    | (with_reducible apply Keeps.ite <;> intro _)
    | split
    | (with_reducible apply Keeps.fst; on_goal 2 => with_reducible assumption)

theorem State.takeRet_keeps (s : State) (m : Nat) (kind : EntKind) {F : Nat} (hF : Sub 0x400 F) : ∀ o, (State.takeRet
    s m kind) = some o → Keeps F s o.1 := by
  intro o e
  unfold State.takeRet at e
  extract_lets g at e
  split at e
  · injection e with e
    subst e
    exact State.setEng_keeps _ _ _ (hF.within rfl)
  · contradiction

theorem State.retWord_keeps (s : State) (m : Nat) (r : Ret) (src : Nat) (errs : List (Nat × Nat)) {F : Nat} (hF : Sub
    0x1E0401C F) : Keeps F s (State.retWord s m r src errs).1 := by
  unfold State.retWord
  repeat' first
    | extract_lets | with_reducible assumption | with_reducible exact Keeps.refl _ | exact hF.within rfl
    | (with_reducible apply Keeps.trans; on_goal 2 => with_reducible first
          | apply State.readWord_keeps | apply State.decode_keeps)
    | split

theorem State.fill_keeps (s : State) (m : Nat) (errs : List (Nat × Nat)) {F : Nat} (hF : Sub 0x1E046DC F) : Keeps F s
    (State.fill s m errs) := by
  unfold State.fill
  repeat' first
    | extract_lets | with_reducible assumption | with_reducible exact Keeps.refl _ | exact hF.within rfl
    | (with_reducible apply Keeps.trans; on_goal 2 => with_reducible first
          | apply State.finishOpt_keeps | apply State.noteTag_keeps | apply State.setSlc_keeps
          | apply State.offerRewrite_keeps | apply State.access_keeps
          | exact State.takeRet_keeps _ _ _ (hF.within rfl) _ (by with_reducible assumption)
          | apply State.retWord_keeps)
    | (with_reducible apply Keeps.ite <;> intro _)
    | split

theorem State.fencedRead_keeps (s : State) (m : Nat) (e : QEnt) (l : ELine) {F : Nat} (hF : Sub 0x1E046DC F) : Keeps F
    s (State.fencedRead s m e l) := by
  unfold State.fencedRead
  repeat' first
    | extract_lets | with_reducible assumption | with_reducible exact Keeps.refl _ | exact hF.within rfl
    | (with_reducible apply Keeps.trans; on_goal 2 => with_reducible first
          | apply State.finishOpt_keeps | apply State.setSlc_keeps | apply State.pushRet_keeps
          | apply State.countFenced_keeps | apply State.fill_keeps)
    | (with_reducible apply Keeps.ite <;> intro _)
    | split
    | (with_reducible apply Keeps.fst; on_goal 2 => with_reducible assumption)
    | (with_reducible apply Keeps.snd; on_goal 2 => with_reducible assumption)
    | dsimp +zetaDelta only

theorem State.sendOwedTag_keeps (s : State) (k : Nat) {F : Nat} (hF : Sub 0x60C F) : Keeps F s (State.sendOwedTag s k)
    := by
  unfold State.sendOwedTag
  repeat' first
    | extract_lets | with_reducible assumption | with_reducible exact Keeps.refl _ | exact hF.within rfl
    | (with_reducible apply Keeps.trans; on_goal 2 => with_reducible first | apply State.sendTag_keeps)
    | (with_reducible apply Keeps.ite <;> intro _)
    | split
    | (with_reducible apply Keeps.fst; on_goal 2 => with_reducible assumption)
    | (with_reducible apply Keeps.snd; on_goal 2 => with_reducible assumption)

theorem State.sendOwed_keeps (s : State) (k : Nat) {F : Nat} (hF : Sub 0x60C F) : Keeps F s (State.sendOwed s k) := by
  unfold State.sendOwed
  repeat' first
    | extract_lets | with_reducible assumption | with_reducible exact Keeps.refl _ | exact hF.within rfl
    | (with_reducible apply Keeps.trans; on_goal 2 => with_reducible first
          | apply State.closeMerge_keeps | apply State.sendOwedTag_keeps)
    | (with_reducible apply Keeps.ite <;> intro _)
    | split
    | (with_reducible apply Keeps.fst; on_goal 2 => with_reducible assumption)
    | (with_reducible apply Keeps.snd; on_goal 2 => with_reducible assumption)

theorem State.forwardMiss_keeps (s : State) (k : Nat) {F : Nat} (hF : Sub 0x1E046DC F) : Keeps F s (State.forwardMiss
    s k) := by
  unfold State.forwardMiss
  repeat' first
    | extract_lets | with_reducible assumption | with_reducible exact Keeps.refl _ | exact hF.within rfl
    | (with_reducible apply Keeps.trans; on_goal 2 => with_reducible first
          | apply State.setSlc_keeps | apply State.enterRead_keeps | apply State.fencedRead_keeps)
    | (with_reducible apply Keeps.ite <;> intro _)
    | split

theorem execMissForward_keeps (k : Nat) (s : State) : Keeps.Out 0x1E046DC s (execMissForward k s) := by
  unfold execMissForward
  have hF := Sub.refl 0x1E046DC
  apply Keeps.done
  repeat' first
    | extract_lets | with_reducible assumption | with_reducible exact Keeps.refl _ | exact hF.within rfl
    | (with_reducible apply Keeps.trans; on_goal 2 => with_reducible first
          | apply State.sendOwed_keeps | apply State.forwardMiss_keeps)
    | (with_reducible apply Keeps.ite <;> intro _)

theorem State.tagFetch_keeps (s : State) (m : Nat) (errs : List (Nat × Nat)) {F : Nat} (hF : Sub 0x1E0461C F) : Keeps
    F s (State.tagFetch s m errs) := by
  unfold State.tagFetch
  repeat' first
    | extract_lets | with_reducible assumption | with_reducible exact Keeps.refl _ | exact hF.within rfl
    | (with_reducible apply Keeps.trans; on_goal 2 => with_reducible first
          | apply State.bumpSat_keeps | apply State.int_keeps | apply State.setSlc_keeps | apply State.access_keeps
          | exact State.takeRet_keeps _ _ _ (hF.within rfl) _ (by with_reducible assumption)
          | apply State.retWord_keeps)
    | (with_reducible apply Keeps.ite <;> intro _)
    | split
    | (with_reducible apply Keeps.fst; on_goal 2 => with_reducible assumption)

theorem execTagFetch_keeps (m : Nat) (errs : List (Nat × Nat)) (s : State) : Keeps.Out 0x1E0461C s (execTagFetch m
    errs s) := by
  unfold execTagFetch
  have hF := Sub.refl 0x1E0461C
  apply Keeps.done
  repeat' first
    | extract_lets | with_reducible assumption | with_reducible exact Keeps.refl _ | exact hF.within rfl
    | (with_reducible apply Keeps.trans; on_goal 2 => with_reducible first | apply State.tagFetch_keeps)
    | (with_reducible apply Keeps.ite <;> intro _)

theorem State.mergeReturn_keeps (s : State) (m : Nat) (errs : List (Nat × Nat)) {F : Nat} (hF : Sub 0x1E0461C F) :
    Keeps F s (State.mergeReturn s m errs) := by
  unfold State.mergeReturn
  repeat' first
    | extract_lets | with_reducible assumption | with_reducible exact Keeps.refl _ | exact hF.within rfl
    | (with_reducible apply Keeps.trans; on_goal 2 => with_reducible first
          | apply State.bump_keeps | apply State.bumpSat_keeps | apply State.int_keeps | apply State.setSlc_keeps
          | apply State.access_keeps | apply State.takeWay_keeps | apply State.readWay_keeps
          | exact State.takeRet_keeps _ _ _ (hF.within rfl) _ (by with_reducible assumption)
          | apply State.retWord_keeps)
    | (with_reducible apply Keeps.ite <;> intro _)
    | split
    | (with_reducible apply Keeps.fst; on_goal 2 => with_reducible assumption)
    | (with_reducible apply Keeps.snd; on_goal 2 => with_reducible assumption)
    | dsimp +zetaDelta only
    | with_reducible apply Keeps.mk_engs
    | exact fun k _ => State.tables_engs (s := s) k

theorem execMergeClose_keeps (m : Nat) (errs : List (Nat × Nat)) (s : State) : Keeps.Out 0x1E0461C s (execMergeClose m
    errs s) := by
  unfold execMergeClose
  have hF := Sub.refl 0x1E0461C
  apply Keeps.done
  repeat' first
    | extract_lets | with_reducible assumption | with_reducible exact Keeps.refl _ | exact hF.within rfl
    | (with_reducible apply Keeps.trans; on_goal 2 => with_reducible first | apply State.mergeReturn_keeps)
    | (with_reducible apply Keeps.ite <;> intro _)

theorem execMergeTimeout_keeps (line : Nat) (s : State) : Keeps.Out 0x60C s (execMergeTimeout line s) := by
  unfold execMergeTimeout
  have hF := Sub.refl 0x60C
  apply Keeps.done
  repeat' first
    | extract_lets | with_reducible assumption | with_reducible exact Keeps.refl _ | exact hF.within rfl
    | (with_reducible apply Keeps.trans; on_goal 2 => with_reducible first | apply State.closeMerge_keeps)
    | (with_reducible apply Keeps.ite <;> intro _)
    | split

theorem State.refillWb_keeps (s : State) (k : Nat) {F : Nat} (hF : Sub 0x1E0420C F) : Keeps F s (State.refillWb s k)
    := by
  unfold State.refillWb
  repeat' first
    | extract_lets | with_reducible assumption | with_reducible exact Keeps.refl _ | exact hF.within rfl
    | (with_reducible apply Keeps.trans; on_goal 2 => with_reducible first
          | apply State.bump_keeps | apply State.setSlc_keeps | apply State.access_keeps
          | apply State.readLineWay_keeps)
    | (with_reducible apply Keeps.ite <;> intro _)
    | split
    | (with_reducible apply Keeps.fst; on_goal 2 => with_reducible assumption)
    | (with_reducible apply Keeps.snd; on_goal 2 => with_reducible assumption)
    | dsimp +zetaDelta only

theorem State.mirror_keeps (s : State) (pc line : Nat) (e : QEnt) {F : Nat} (hF : Sub 0x40C F) : Keeps F s
    (State.mirror s pc line e) := by
  unfold State.mirror
  repeat' first
    | extract_lets | with_reducible assumption | with_reducible exact Keeps.refl _ | exact hF.within rfl
    | (with_reducible apply Keeps.trans; on_goal 2 => with_reducible first | apply State.wrqPut_keeps)
    | (with_reducible apply Keeps.ite <;> intro _)
    | split

theorem State.dropWrites_keeps (s : State) (m n : Nat) {F : Nat} (hF : Sub 0x1800008 F) : Keeps F s (State.dropWrites
    s m n) := by
  unfold State.dropWrites
  repeat' first
    | extract_lets | with_reducible assumption | with_reducible exact Keeps.refl _ | exact hF.within rfl
    | (with_reducible apply Keeps.trans; on_goal 2 => with_reducible first
          | apply State.bumpSat_keeps | apply State.fault_keeps | apply State.int_keeps)
    | (with_reducible apply Keeps.ite <;> intro _)

theorem State.unstage_keeps (s : State) (k : Nat) (b : WbLine) {F : Nat} (hF : Sub 0x200 F) : Keeps F s (State.unstage
    s k b) := by
  unfold State.unstage
  repeat' first
    | extract_lets | with_reducible assumption | with_reducible exact Keeps.refl _ | exact hF.within rfl
    | (with_reducible apply Keeps.trans; on_goal 2 => with_reducible first | apply State.setSlc_keeps)
    | (with_reducible apply Keeps.ite <;> intro _)
    | split

theorem State.writeBack_keeps (s : State) (k : Nat) {F : Nat} (hF : Sub 0x1E0460C F) : Keeps F s (State.writeBack s k)
    := by
  unfold State.writeBack
  repeat' first
    | extract_lets | with_reducible assumption | with_reducible exact Keeps.refl _ | exact hF.within rfl
    | (with_reducible apply Keeps.trans; on_goal 2 => with_reducible first
          | apply State.bump_keeps | apply State.setSlc_keeps | apply State.encode_keeps | apply State.wrqPut_keeps
          | apply State.access_keeps | apply State.refillWb_keeps | apply State.mirror_keeps
          | apply State.dropWrites_keeps | apply State.unstage_keeps)
    | (with_reducible apply Keeps.ite <;> intro _)
    | split

theorem execWriteBack_keeps (k : Nat) (s : State) : Keeps.Out 0x1E0460C s (execWriteBack k s) := by
  unfold execWriteBack
  have hF := Sub.refl 0x1E0460C
  apply Keeps.done
  repeat' first
    | extract_lets | with_reducible assumption | with_reducible exact Keeps.refl _ | exact hF.within rfl
    | (with_reducible apply Keeps.trans; on_goal 2 => with_reducible first | apply State.writeBack_keeps)
    | (with_reducible apply Keeps.ite <;> intro _)

theorem State.sramWalk_keeps (s : State) (k bad : Nat) {F : Nat} (hF : Sub 0x1E0460C F) : Keeps F s (State.sramWalk s
    k bad) := by
  unfold State.sramWalk
  repeat' first
    | extract_lets | with_reducible assumption | with_reducible exact Keeps.refl _ | exact hF.within rfl
    | (with_reducible apply Keeps.trans; on_goal 2 => with_reducible first
          | apply State.setSlc_keeps | apply State.access_keeps | apply State.strike_keeps
          | apply State.readWay_keeps)
    | (with_reducible apply Keeps.ite <;> intro _)
    | split

theorem execSramScrub_keeps (k bad : Nat) (s : State) : Keeps.Out 0x1E0460C s (execSramScrub k bad s) := by
  unfold execSramScrub
  have hF := Sub.refl 0x1E0460C
  apply Keeps.done
  repeat' first
    | extract_lets | with_reducible assumption | with_reducible exact Keeps.refl _ | exact hF.within rfl
    | (with_reducible apply Keeps.trans; on_goal 2 => with_reducible first | apply State.sramWalk_keeps)
    | (with_reducible apply Keeps.ite <;> intro _)

theorem State.startFlush_keeps (s : State) (inv : Bool) (by' : Nat) {F : Nat} (hF : Sub 0x2008 F) : Keeps F s
    (State.startFlush s inv by') := by
  unfold State.startFlush
  repeat' first
    | extract_lets | with_reducible assumption | with_reducible exact Keeps.refl _ | exact hF.within rfl
    | (with_reducible apply Keeps.trans; on_goal 2 => with_reducible first
          | apply State.fset_keeps | apply State.setFlag_keeps)
    | (with_reducible apply Keeps.ite <;> intro _)
    | split
    | (with_reducible apply Keeps.fst; on_goal 2 => with_reducible assumption)
    | (with_reducible apply Keeps.snd; on_goal 2 => with_reducible assumption)
    | with_reducible apply Keeps.mk_flush

theorem State.stopFlush_keeps (s : State) {F : Nat} (hF : Sub 0x2008 F) : Keeps F s (State.stopFlush s) := by
  unfold State.stopFlush
  repeat' first
    | extract_lets | with_reducible assumption | with_reducible exact Keeps.refl _ | exact hF.within rfl
    | (with_reducible apply Keeps.trans; on_goal 2 => with_reducible first
          | apply State.fset_keeps | apply State.setFlag_keeps)
    | split
    | (with_reducible apply Keeps.fst; on_goal 2 => with_reducible assumption)
    | (with_reducible apply Keeps.snd; on_goal 2 => with_reducible assumption)
    | with_reducible apply Keeps.mk_flush

theorem State.closeMerges_keeps (s : State) {F : Nat} (hF : Sub 0x60C F) : Keeps F s (State.closeMerges s) := by
  unfold State.closeMerges
  repeat' first
    | extract_lets | with_reducible assumption | with_reducible exact Keeps.refl _ | exact hF.within rfl
    | (with_reducible apply Keeps.trans; on_goal 2 => with_reducible first | apply State.closeMerge_keeps)
    | (with_reducible apply Keeps.foldl; intro _ _ _)
    | (with_reducible apply Keeps.ite <;> intro _)

theorem State.flushOne_keeps (s : State) (k : Nat) {F : Nat} (hF : Sub 0x1E0420C F) : Keeps F s (State.flushOne s k)
    := by
  unfold State.flushOne
  repeat' first
    | extract_lets | with_reducible assumption | with_reducible exact Keeps.refl _ | exact hF.within rfl
    | (with_reducible apply Keeps.trans; on_goal 2 => with_reducible first
          | apply State.setSlc_keeps | apply State.access_keeps | apply State.readLineWay_keeps)
    | (with_reducible apply Keeps.ite <;> intro _)
    | split

theorem State.flushStep_keeps (s : State) {F : Nat} (hF : Sub 0x1E0460C F) : Keeps F s (State.flushStep s) := by
  unfold State.flushStep
  repeat' first
    | extract_lets | with_reducible assumption | with_reducible exact Keeps.refl _ | exact hF.within rfl
    | (with_reducible apply Keeps.trans; on_goal 2 => with_reducible first
          | apply State.fset_keeps | apply State.closeMerges_keeps | apply State.flushOne_keeps)
    | (with_reducible apply Keeps.foldl; intro _ _ _)
    | (with_reducible apply Keeps.ite <;> intro _)

theorem execFlush_keeps (s : State) : Keeps.Out 0x1E0460C s (execFlush s) := by
  unfold execFlush
  have hF := Sub.refl 0x1E0460C
  apply Keeps.done
  repeat' first
    | extract_lets | with_reducible assumption | with_reducible exact Keeps.refl _ | exact hF.within rfl
    | (with_reducible apply Keeps.trans; on_goal 2 => with_reducible first | apply State.flushStep_keeps)
    | (with_reducible apply Keeps.ite <;> intro _)

theorem State.invalidate_keeps (s : State) {F : Nat} (hF : Sub 0x1E046DC F) : Keeps F s (State.invalidate s) := by
  unfold State.invalidate
  repeat' first
    | extract_lets | with_reducible assumption | with_reducible exact Keeps.refl _ | exact hF.within rfl
    | (with_reducible apply Keeps.trans; on_goal 2 => with_reducible first | apply State.fill_keeps)
    | split
    | (with_reducible apply Keeps.fst; on_goal 2 => with_reducible assumption)
    | (with_reducible apply Keeps.snd; on_goal 2 => with_reducible assumption)
    | with_reducible apply Keeps.mk_slices
    | exact fun _ k => SMap.rising_map _ (State.tables_slices k)

theorem State.flushEnd_keeps (s : State) (f : FlushSt) {F : Nat} (hF : Sub 0x1E066DC F) : Keeps F s (State.flushEnd s
    f) := by
  unfold State.flushEnd
  repeat' first
    | extract_lets | with_reducible assumption | with_reducible exact Keeps.refl _ | exact hF.within rfl
    | (with_reducible apply Keeps.trans; on_goal 2 => with_reducible first
          | apply State.fset_keeps | apply State.bumpSat_keeps | apply State.int_keeps | apply State.stopFlush_keeps
          | apply State.invalidate_keeps)
    | (with_reducible apply Keeps.ite <;> intro _)

theorem State.fenceReads_keeps (s : State) (m : Nat) {F : Nat} (hF : Sub 0x1E046DC F) : Keeps F s (State.fenceReads s
    m) := by
  unfold State.fenceReads
  repeat' first
    | extract_lets | with_reducible assumption | with_reducible exact Keeps.refl _ | exact hF.within rfl
    | (with_reducible apply Keeps.trans; on_goal 2 => with_reducible first
          | apply State.setEng_keeps | apply State.fencedRead_keeps)
    | (with_reducible apply Keeps.foldl; intro _ _ _)
    | split
    | (with_reducible apply Keeps.fst; on_goal 2 => with_reducible assumption)
    | (with_reducible apply Keeps.snd; on_goal 2 => with_reducible assumption)
    | with_reducible apply Keeps.mk_slices
    | exact fun _ k => SMap.rising_map _ (State.tables_slices k)

theorem State.dropSlice_keeps (s : State) (pc k : Nat) {F : Nat} (hF : Sub 0x1800208 F) : Keeps F s (State.dropSlice s
    pc k) := by
  unfold State.dropSlice
  repeat' first
    | extract_lets | with_reducible assumption | with_reducible exact Keeps.refl _ | exact hF.within rfl
    | (with_reducible apply Keeps.trans; on_goal 2 => with_reducible first
          | apply State.bumpSat_keeps | apply State.fault_keeps | apply State.int_keeps | apply State.setSlc_keeps)
    | (with_reducible apply Keeps.ite <;> intro _)

theorem State.fenceEngine_keeps (s : State) (m : Nat) (perm : Bool) {F : Nat} (hF : Sub 0x1E846DC F) : Keeps F s
    (State.fenceEngine s m perm) := by
  unfold State.fenceEngine
  repeat' first
    | extract_lets | with_reducible assumption | with_reducible exact Keeps.refl _ | exact hF.within rfl
    | (with_reducible apply Keeps.trans; on_goal 2 => with_reducible first
          | apply State.setFlag_keeps | apply State.int_keeps | apply State.setEng_keeps
          | apply State.setEngBit_keeps | apply State.enterSr_keeps | apply State.dropWrites_keeps
          | apply State.fenceReads_keeps | apply State.dropSlice_keeps)
    | (with_reducible apply Keeps.foldl; intro _ _ _)
    | (with_reducible apply Keeps.ite <;> intro _)
    | split
    | (with_reducible apply Keeps.fst; on_goal 2 => with_reducible assumption)
    | (with_reducible apply Keeps.snd; on_goal 2 => with_reducible assumption)
    | dsimp +zetaDelta only

theorem State.refetchTags_keeps (s : State) (pc : Nat) {F : Nat} (hF : Sub 0x60C F) : Keeps F s (State.refetchTags s
    pc) := by
  unfold State.refetchTags
  repeat' first
    | extract_lets | with_reducible assumption | with_reducible exact Keeps.refl _ | exact hF.within rfl
    | (with_reducible apply Keeps.trans; on_goal 2 => with_reducible first | apply State.sendTag_keeps)
    | (with_reducible apply Keeps.foldl; intro _ _ _)

theorem State.retryMerges_keeps (s : State) (pc : Nat) {F : Nat} (hF : Sub 0x60C F) : Keeps F s (State.retryMerges s
    pc) := by
  unfold State.retryMerges
  repeat' first
    | extract_lets | with_reducible assumption | with_reducible exact Keeps.refl _ | exact hF.within rfl
    | (with_reducible apply Keeps.trans; on_goal 2 => with_reducible first | apply State.closeMerge_keeps)
    | (with_reducible apply Keeps.foldl; intro _ _ _)

theorem State.startLift_keeps (s : State) (m : Nat) {F : Nat} (hF : Sub 0x80408 F) : Keeps F s (State.startLift s m)
    := by
  unfold State.startLift
  repeat' first
    | extract_lets | with_reducible assumption | with_reducible exact Keeps.refl _ | exact hF.within rfl
    | (with_reducible apply Keeps.trans; on_goal 2 => with_reducible first
          | apply State.setEng_keeps | apply State.leaveSr_keeps)

theorem State.srxEng_keeps (s : State) (m : Nat) {F : Nat} (hF : Sub 0x80408 F) : Keeps F s (State.srxEng s m) := by
  unfold State.srxEng
  repeat' first
    | extract_lets | with_reducible assumption | with_reducible exact Keeps.refl _ | exact hF.within rfl
    | (with_reducible apply Keeps.trans; on_goal 2 => with_reducible first
          | apply State.leaveSr_keeps | apply State.startLift_keeps)
    | (with_reducible apply Keeps.ite <;> intro _)
    | split
    | (with_reducible apply Keeps.fst; on_goal 2 => with_reducible assumption)
    | (with_reducible apply Keeps.snd; on_goal 2 => with_reducible assumption)

theorem State.srxDie_keeps (s : State) (d : Nat) {F : Nat} (hF : Sub 0x80408 F) : Keeps F s (State.srxDie s d) := by
  unfold State.srxDie
  repeat' first
    | extract_lets | with_reducible assumption | with_reducible exact Keeps.refl _ | exact hF.within rfl
    | (with_reducible apply Keeps.trans; on_goal 2 => with_reducible first | apply State.srxEng_keeps)
    | (with_reducible apply Keeps.foldl; intro _ _ _)
    | (with_reducible apply Keeps.foldlP; intro _ _ _)
    | (with_reducible apply Keeps.ite <;> intro _)
    | split
    | (with_reducible apply Keeps.fst; on_goal 2 => with_reducible assumption)
    | (with_reducible apply Keeps.snd; on_goal 2 => with_reducible assumption)

theorem State.srxAll_keeps (s : State) {F : Nat} (hF : Sub 0x80408 F) : Keeps F s (State.srxAll s) := by
  unfold State.srxAll
  repeat' first
    | extract_lets | with_reducible assumption | with_reducible exact Keeps.refl _ | exact hF.within rfl
    | (with_reducible apply Keeps.trans; on_goal 2 => with_reducible first | apply State.srxEng_keeps)
    | (with_reducible apply Keeps.foldl; intro _ _ _)
    | (with_reducible apply Keeps.foldlP; intro _ _ _)
    | (with_reducible apply Keeps.ite <;> intro _)
    | split
    | (with_reducible apply Keeps.fst; on_goal 2 => with_reducible assumption)
    | (with_reducible apply Keeps.snd; on_goal 2 => with_reducible assumption)

theorem State.clearFence_keeps (s : State) (m : Nat) {F : Nat} (hF : Sub 0x60C F) : Keeps F s (State.clearFence s m)
    := by
  unfold State.clearFence
  repeat' first
    | extract_lets | with_reducible assumption | with_reducible exact Keeps.refl _ | exact hF.within rfl
    | (with_reducible apply Keeps.trans; on_goal 2 => with_reducible first
          | apply State.setFlag_keeps | apply State.setEng_keeps | apply State.setEngBit_keeps
          | apply State.refetchTags_keeps | apply State.retryMerges_keeps)
    | split

/-! ### Machine/Scan.lean -/

theorem State.putRun_keeps (s : State) (r : ScanRun) {F : Nat} (hF : Sub 0x10000 F) : Keeps F s (State.putRun s r) :=
    by
  unfold State.putRun
  repeat' first
    | extract_lets | with_reducible assumption | with_reducible exact Keeps.refl _ | exact hF.within rfl
    | split
    | (with_reducible apply Keeps.fst; on_goal 2 => with_reducible assumption)
    | (with_reducible apply Keeps.snd; on_goal 2 => with_reducible assumption)
    | with_reducible apply Keeps.mk_scn

theorem State.scanArrive_keeps (s : State) (r : ScanRun) (e : Nat) (t : Ret) (word : List Nat) {F : Nat} (hF : Sub
    0x10008 F) : Keeps F s (State.scanArrive s r e t word) := by
  unfold State.scanArrive
  repeat' first
    | extract_lets | with_reducible assumption | with_reducible exact Keeps.refl _ | exact hF.within rfl
    | (with_reducible apply Keeps.trans; on_goal 2 => with_reducible first
          | apply State.bump_keeps | apply State.putRun_keeps)
    | (with_reducible apply Keeps.ite <;> intro _)

theorem State.dropRet_keeps (s : State) (m : Nat) (t : Ret) {F : Nat} (hF : Sub 0x400 F) : Keeps F s (State.dropRet s
    m t) := by
  unfold State.dropRet
  repeat' first
    | extract_lets | with_reducible assumption | with_reducible exact Keeps.refl _ | exact hF.within rfl
    | (with_reducible apply Keeps.trans; on_goal 2 => with_reducible first | apply State.setEng_keeps)

theorem State.dropStrayRets_keeps (s : State) {F : Nat} (hF : Sub 0x400 F) : Keeps F s (State.dropStrayRets s) := by
  unfold State.dropStrayRets
  repeat' first
    | extract_lets | with_reducible assumption | with_reducible exact Keeps.refl _ | exact hF.within rfl
    | (with_reducible apply Keeps.trans; on_goal 2 => with_reducible first | apply State.setEng_keeps)
    | (with_reducible apply Keeps.foldl; intro _ _ _)
    | (with_reducible apply Keeps.ite <;> intro _)

theorem State.scanStep_keeps (s : State) (d : ScanDesc) (r : ScanRun) (e : Nat) {F : Nat} (hF : Sub 0x1E146CC F) : ∀
    o, (State.scanStep s d r e) = some o → Keeps F s o := by
  intro o e
  unfold State.scanStep at e
  repeat' (first | (injection e; subst_vars) | extract_lets at e | split at e | contradiction)
  repeat' first
    | extract_lets | with_reducible assumption | with_reducible exact Keeps.refl _ | exact hF.within rfl
    | (with_reducible apply Keeps.trans; on_goal 2 => with_reducible first
          | apply State.bump_keeps | apply State.int_keeps | apply State.sliceOp_keeps | apply State.putRun_keeps
          | apply State.scanArrive_keeps | apply State.dropRet_keeps)
    | (with_reducible apply Keeps.ite <;> intro _)

theorem State.scanGo_keeps (fuel : Nat) (s : State) (d : ScanDesc) (num e : Nat) {F : Nat} (hF : Sub 0x1E146CC F) :
    Keeps F s (State.scanGo fuel s d num e) := by
  induction fuel generalizing s e with
  | zero => exact Keeps.refl _
  | succ m ih =>
    unfold State.scanGo
    repeat' first
      | extract_lets
      | with_reducible assumption
      | with_reducible exact Keeps.refl _
      | exact hF.within rfl
      | (with_reducible apply Keeps.trans; on_goal 2 => with_reducible first
            | exact State.scanStep_keeps _ _ _ _ (hF.within rfl) _ (by with_reducible assumption) | apply ih)
      | split

theorem State.scnRegs_keeps (s : State) {F : Nat} (hF : Sub 0x8 F) : Keeps F s (State.scnRegs s) := by
  unfold State.scnRegs
  repeat' first
    | extract_lets | with_reducible assumption | with_reducible exact Keeps.refl _ | exact hF.within rfl
    | (with_reducible apply Keeps.trans; on_goal 2 => with_reducible first
          | apply State.setReg_keeps | apply State.fset_keeps)
    | (with_reducible apply Keeps.foldl; intro _ _ _)

theorem State.enqueueScan_keeps (s : State) (num : Nat) {F : Nat} (hF : Sub 0x1810008 F) : Keeps F s
    (State.enqueueScan s num) := by
  unfold State.enqueueScan
  repeat' first
    | extract_lets | with_reducible assumption | with_reducible exact Keeps.refl _ | exact hF.within rfl
    | (with_reducible apply Keeps.trans; on_goal 2 => with_reducible first
          | apply State.int_keeps | apply State.scnRegs_keeps)
    | (with_reducible apply Keeps.ite <;> intro _)
    | split
    | (with_reducible apply Keeps.fst; on_goal 2 => with_reducible assumption)
    | (with_reducible apply Keeps.snd; on_goal 2 => with_reducible assumption)
    | with_reducible apply Keeps.mk_scn

theorem State.takeSpill_keeps (s : State) {F : Nat} (hF : Sub 0x10000 F) : Keeps F s (State.takeSpill s) := by
  unfold State.takeSpill
  repeat' first
    | extract_lets | with_reducible assumption | with_reducible exact Keeps.refl _ | exact hF.within rfl
    | (with_reducible apply Keeps.ite <;> intro _)
    | split
    | (with_reducible apply Keeps.fst; on_goal 2 => with_reducible assumption)
    | (with_reducible apply Keeps.snd; on_goal 2 => with_reducible assumption)
    | with_reducible apply Keeps.mk_scn

theorem State.scanFeed_keeps (s : State) {F : Nat} (hF : Sub 0x1E146CC F) : Keeps F s (State.scanFeed s) := by
  unfold State.scanFeed
  repeat' first
    | extract_lets | with_reducible assumption | with_reducible exact Keeps.refl _ | exact hF.within rfl
    | (with_reducible apply Keeps.trans; on_goal 2 => with_reducible first
          | apply State.dropStrayRets_keeps | apply State.scanGo_keeps | apply State.scnRegs_keeps)
    | (with_reducible apply Keeps.foldl; intro _ _ _)
    | split

theorem State.dealTo_keeps (s : State) (num e most : Nat) {F : Nat} (hF : Sub 0x10100 F) : Keeps F s (State.dealTo s
    num e most).1 := by
  unfold State.dealTo
  repeat' first
    | extract_lets | with_reducible assumption | with_reducible exact Keeps.refl _ | exact hF.within rfl
    | (with_reducible apply Keeps.trans; on_goal 2 => with_reducible first | apply State.putRun_keeps)
    | split
    | (with_reducible apply Keeps.fst; on_goal 2 => with_reducible assumption)
    | (with_reducible apply Keeps.snd; on_goal 2 => with_reducible assumption)
    | with_reducible apply Keeps.mk_sch

theorem State.dealEng_keeps (s : State) (r : ScanRun) (e : Nat) {F : Nat} (hF : Sub 0x10100 F) : Keeps F s
    (State.dealEng s r e) := by
  unfold State.dealEng
  repeat' first
    | extract_lets | with_reducible assumption | with_reducible exact Keeps.refl _ | exact hF.within rfl
    | (with_reducible apply Keeps.trans; on_goal 2 => with_reducible first | apply State.dealTo_keeps)
    | split
    | (with_reducible apply Keeps.fst; on_goal 2 => with_reducible assumption)
    | (with_reducible apply Keeps.snd; on_goal 2 => with_reducible assumption)
    | with_reducible apply Keeps.mk_scn

theorem State.dealPool_keeps (s : State) (pick : ScanRun → Bool) {F : Nat} (hF : Sub 0x10100 F) : Keeps F s
    (State.dealPool s pick) := by
  unfold State.dealPool
  repeat' first
    | extract_lets | with_reducible assumption | with_reducible exact Keeps.refl _ | exact hF.within rfl
    | (with_reducible apply Keeps.trans; on_goal 2 => with_reducible first | apply State.dealEng_keeps)
    | (with_reducible apply Keeps.foldl; intro _ _ _)
    | (with_reducible apply Keeps.ite <;> intro _)
    | split

theorem State.scanWindow_keeps (s : State) {F : Nat} (hF : Sub 0x1E147CC F) : Keeps F s (State.scanWindow s) := by
  unfold State.scanWindow
  repeat' first
    | extract_lets | with_reducible assumption | with_reducible exact Keeps.refl _ | exact hF.within rfl
    | (with_reducible apply Keeps.trans; on_goal 2 => with_reducible first
          | apply State.scanFeed_keeps | apply State.dealPool_keeps)
    | (with_reducible apply Keeps.foldl; intro _ _ _)
    | split
    | (with_reducible apply Keeps.fst; on_goal 2 => with_reducible assumption)
    | (with_reducible apply Keeps.snd; on_goal 2 => with_reducible assumption)
    | with_reducible apply Keeps.mk_scn

theorem State.startScan_keeps (s : State) {F : Nat} (hF : Sub 0x1E147CC F) : Keeps F s (State.startScan s) := by
  unfold State.startScan
  repeat' first
    | extract_lets | with_reducible assumption | with_reducible exact Keeps.refl _ | exact hF.within rfl
    | (with_reducible apply Keeps.trans; on_goal 2 => with_reducible first
          | apply State.fset_keeps | apply State.bumpSat_keeps | apply State.scanFeed_keeps
          | apply State.dealPool_keeps)
    | (with_reducible apply Keeps.foldl; intro _ _ _)
    | split
    | (with_reducible apply Keeps.fst; on_goal 2 => with_reducible assumption)
    | (with_reducible apply Keeps.snd; on_goal 2 => with_reducible assumption)
    | with_reducible apply Keeps.mk_scn

theorem execScanStart_keeps (s : State) : Keeps.Out 0x1E147CC s (execScanStart s) := by
  unfold execScanStart
  have hF := Sub.refl 0x1E147CC
  apply Keeps.done
  repeat' first
    | extract_lets | with_reducible assumption | with_reducible exact Keeps.refl _ | exact hF.within rfl
    | (with_reducible apply Keeps.trans; on_goal 2 => with_reducible first | apply State.startScan_keeps)
    | (with_reducible apply Keeps.ite <;> intro _)

theorem State.fillOrScan_keeps (s : State) (m : Nat) (errs : List (Nat × Nat)) {F : Nat} (hF : Sub 0x1E146DC F) :
    Keeps F s (State.fillOrScan s m errs) := by
  unfold State.fillOrScan
  repeat' first
    | extract_lets | with_reducible assumption | with_reducible exact Keeps.refl _ | exact hF.within rfl
    | (with_reducible apply Keeps.trans; on_goal 2 => with_reducible first
          | apply State.retWord_keeps | apply State.fill_keeps | apply State.scanArrive_keeps
          | apply State.dropRet_keeps)
    | split
    | (with_reducible apply Keeps.fst; on_goal 2 => with_reducible assumption)

theorem execFill_keeps (m : Nat) (errs : List (Nat × Nat)) (s : State) : Keeps.Out 0x1E146DC s (execFill m errs s) :=
    by
  unfold execFill
  have hF := Sub.refl 0x1E146DC
  apply Keeps.done
  repeat' first
    | extract_lets | with_reducible assumption | with_reducible exact Keeps.refl _ | exact hF.within rfl
    | (with_reducible apply Keeps.trans; on_goal 2 => with_reducible first
          | apply State.scanFeed_keeps | apply State.fillOrScan_keeps)
    | (with_reducible apply Keeps.ite <;> intro _)

theorem execPendingOperation_keeps (line : Nat) (s : State) : Keeps.Out 0x1E146CC s (execPendingOperation line s) :=
    by
  unfold execPendingOperation
  have hF := Sub.refl 0x1E146CC
  apply Keeps.done
  repeat' first
    | extract_lets | with_reducible assumption | with_reducible exact Keeps.refl _ | exact hF.within rfl
    | (with_reducible apply Keeps.trans; on_goal 2 => with_reducible first
          | apply State.runPending_keeps | apply State.scanFeed_keeps)
    | (with_reducible apply Keeps.ite <;> intro _)

theorem execAtomExecute_keeps (line : Nat) (s : State) : Keeps.Out 0x1E146CC s (execAtomExecute line s) := by
  unfold execAtomExecute
  have hF := Sub.refl 0x1E146CC
  apply Keeps.done
  repeat' first
    | extract_lets | with_reducible assumption | with_reducible exact Keeps.refl _ | exact hF.within rfl
    | (with_reducible apply Keeps.trans; on_goal 2 => with_reducible first
          | apply State.runPending_keeps | apply State.scanFeed_keeps)
    | (with_reducible apply Keeps.ite <;> intro _)

theorem State.stageLine_keeps (s : State) (e : Nat) {F : Nat} (hF : Sub 0x1E1460C F) : Keeps F s (State.stageLine s e)
    := by
  unfold State.stageLine
  repeat' first
    | extract_lets | with_reducible assumption | with_reducible exact Keeps.refl _ | exact hF.within rfl
    | (with_reducible apply Keeps.trans; on_goal 2 => with_reducible first
          | apply State.bump_keeps | apply State.bumpSat_keeps | apply State.setSlc_keeps
          | apply State.countFenced_keeps | apply State.access_keeps | apply State.takeWay_keeps
          | apply State.closeMerge_keeps | apply State.putRun_keeps)
    | (with_reducible apply Keeps.ite <;> intro _)
    | split
    | (with_reducible apply Keeps.fst; on_goal 2 => with_reducible assumption)

theorem execStagingLine_keeps (e : Nat) (s : State) : Keeps.Out 0x1E146CC s (execStagingLine e s) := by
  unfold execStagingLine
  have hF := Sub.refl 0x1E146CC
  apply Keeps.done
  repeat' first
    | extract_lets | with_reducible assumption | with_reducible exact Keeps.refl _ | exact hF.within rfl
    | (with_reducible apply Keeps.trans; on_goal 2 => with_reducible first
          | apply State.scanFeed_keeps | apply State.stageLine_keeps)
    | (with_reducible apply Keeps.ite <;> intro _)

theorem State.dropScan_keeps (s : State) (num : Nat) {F : Nat} (hF : Sub 0x10008 F) : Keeps F s (State.dropScan s num)
    := by
  unfold State.dropScan
  repeat' first
    | extract_lets | with_reducible assumption | with_reducible exact Keeps.refl _ | exact hF.within rfl
    | (with_reducible apply Keeps.trans; on_goal 2 => with_reducible first
          | apply State.scnRegs_keeps | apply State.takeSpill_keeps)
    | split
    | (with_reducible apply Keeps.fst; on_goal 2 => with_reducible assumption)
    | (with_reducible apply Keeps.snd; on_goal 2 => with_reducible assumption)
    | with_reducible apply Keeps.mk_scn

theorem State.completeScan_keeps (s : State) (t : Txn) (r : ScanRun) {F : Nat} (hF : Sub 0x18140C8 F) : Keeps F s
    (State.completeScan s t r) := by
  unfold State.completeScan
  repeat' first
    | extract_lets | with_reducible assumption | with_reducible exact Keeps.refl _ | exact hF.within rfl
    | (with_reducible apply Keeps.trans; on_goal 2 => with_reducible first
          | apply State.bump_keeps | apply State.int_keeps | apply State.endTxn_keeps | apply State.dropScan_keeps)
    | (with_reducible apply Keeps.ite <;> intro _)

theorem State.abortScan_keeps (s : State) (t : Txn) (cause : Nat) {F : Nat} (hF : Sub 0x18140C8 F) : Keeps F s
    (State.abortScan s t cause) := by
  unfold State.abortScan
  repeat' first
    | extract_lets | with_reducible assumption | with_reducible exact Keeps.refl _ | exact hF.within rfl
    | (with_reducible apply Keeps.trans; on_goal 2 => with_reducible first
          | apply State.bumpSat_keeps | apply State.int_keeps | apply State.endTxn_keeps
          | apply State.dropScan_keeps)
    | (with_reducible apply Keeps.foldl; intro _ _ _)
    | split
    | (with_reducible apply Keeps.fst; on_goal 2 => with_reducible assumption)
    | (with_reducible apply Keeps.snd; on_goal 2 => with_reducible assumption)
    | dsimp +zetaDelta only

theorem execScanComplete_keeps (reqId tag : Nat) (s : State) : Keeps.Out 0x18140C8 s (execScanComplete reqId tag s) :=
    by
  unfold execScanComplete
  have hF := Sub.refl 0x18140C8
  apply Keeps.done
  repeat' first
    | extract_lets | with_reducible assumption | with_reducible exact Keeps.refl _ | exact hF.within rfl
    | (with_reducible apply Keeps.trans; on_goal 2 => with_reducible first | apply State.completeScan_keeps)
    | (with_reducible apply Keeps.ite <;> intro _)
    | split

theorem execTimeLimit_keeps (reqId tag : Nat) (s : State) : Keeps.Out 0x18140C8 s (execTimeLimit reqId tag s) := by
  unfold execTimeLimit
  have hF := Sub.refl 0x18140C8
  apply Keeps.done
  repeat' first
    | extract_lets | with_reducible assumption | with_reducible exact Keeps.refl _ | exact hF.within rfl
    | (with_reducible apply Keeps.trans; on_goal 2 => with_reducible first | apply State.abortScan_keeps)
    | (with_reducible apply Keeps.ite <;> intro _)
    | split

theorem State.abortScans_keeps (s : State) (cause : Nat) (pick : Txn → Bool) {F : Nat} (hF : Sub 0x18140C8 F) : Keeps
    F s (State.abortScans s cause pick) := by
  unfold State.abortScans
  repeat' first
    | extract_lets | with_reducible assumption | with_reducible exact Keeps.refl _ | exact hF.within rfl
    | (with_reducible apply Keeps.trans; on_goal 2 => with_reducible first | apply State.abortScan_keeps)
    | (with_reducible apply Keeps.foldl; intro _ _ _)

theorem State.resetScn_keeps (s : State) {F : Nat} (hF : Sub 0x18140C8 F) : Keeps F s (State.resetScn s) := by
  unfold State.resetScn
  repeat' first
    | extract_lets | with_reducible assumption | with_reducible exact Keeps.refl _ | exact hF.within rfl
    | (with_reducible apply Keeps.trans; on_goal 2 => with_reducible first | apply State.abortScans_keeps)

/-! ### Machine/Sched.lean -/

theorem State.modelRegs_keeps (s : State) {F : Nat} (hF : Sub 0x8 F) : Keeps F s (State.modelRegs s) := by
  unfold State.modelRegs
  repeat' first
    | extract_lets | with_reducible assumption | with_reducible exact Keeps.refl _ | exact hF.within rfl
    | (with_reducible apply Keeps.trans; on_goal 2 => with_reducible first | apply State.fset_keeps)

theorem State.setEff_keeps (s : State) (n v : Nat) (trimmed : Bool) {F : Nat} (hF : Sub 0x8 F) : Keeps F s
    (State.setEff s n v trimmed) := by
  unfold State.setEff
  repeat' first
    | extract_lets | with_reducible assumption | with_reducible exact Keeps.refl _ | exact hF.within rfl
    | (with_reducible apply Keeps.trans; on_goal 2 => with_reducible first
          | apply State.fset_keeps | apply State.setFlag_keeps)

theorem State.recompute_keeps (s : State) (round : Bool) {F : Nat} (hF : Sub 0x1E00108 F) : Keeps F s (State.recompute
    s round) := by
  unfold State.recompute
  repeat' first
    | extract_lets | with_reducible assumption | with_reducible exact Keeps.refl _ | exact hF.within rfl
    | (with_reducible apply Keeps.trans; on_goal 2 => with_reducible first
          | apply State.fset_keeps | apply State.setFlag_keeps | apply State.bumpSat_keeps | apply State.int_keeps
          | apply State.event_keeps | apply State.modelRegs_keeps | apply State.setEff_keeps)
    | (with_reducible apply Keeps.foldl; intro _ _ _)
    | (with_reducible apply Keeps.ite <;> intro _)
    | split
    | (with_reducible apply Keeps.fst; on_goal 2 => with_reducible assumption)
    | (with_reducible apply Keeps.snd; on_goal 2 => with_reducible assumption)
    | with_reducible apply Keeps.mk_sch

theorem execModelRecompute_keeps (s : State) : Keeps.Out 0x1E00108 s (execModelRecompute s) := by
  unfold execModelRecompute
  have hF := Sub.refl 0x1E00108
  apply Keeps.done
  repeat' first
    | extract_lets | with_reducible assumption | with_reducible exact Keeps.refl _ | exact hF.within rfl
    | (with_reducible apply Keeps.trans; on_goal 2 => with_reducible first | apply State.recompute_keeps)
    | (with_reducible apply Keeps.ite <;> intro _)

theorem execModelHoldExpiry_keeps (p : Nat) (s : State) : Keeps.Out 0x100 s (execModelHoldExpiry p s) := by
  unfold execModelHoldExpiry
  have hF := Sub.refl 0x100
  apply Keeps.done
  repeat' first
    | extract_lets | with_reducible assumption | with_reducible exact Keeps.refl _ | exact hF.within rfl
    | (with_reducible apply Keeps.ite <;> intro _)
    | split
    | (with_reducible apply Keeps.fst; on_goal 2 => with_reducible assumption)
    | (with_reducible apply Keeps.snd; on_goal 2 => with_reducible assumption)
    | with_reducible apply Keeps.mk_sch

theorem State.budgetAtWindow_keeps (s : State) (n budget : Nat) (rsv : Bool) {F : Nat} (hF : Sub 0x100 F) : Keeps F s
    (State.budgetAtWindow s n budget rsv) := by
  unfold State.budgetAtWindow
  repeat' first
    | extract_lets | with_reducible assumption | with_reducible exact Keeps.refl _ | exact hF.within rfl
    | split
    | (with_reducible apply Keeps.fst; on_goal 2 => with_reducible assumption)
    | (with_reducible apply Keeps.snd; on_goal 2 => with_reducible assumption)
    | with_reducible apply Keeps.mk_sch

theorem State.setC60_keeps (s : State) {F : Nat} (hF : Sub 0x100 F) : Keeps F s (State.setC60 s) := by
  unfold State.setC60
  repeat' first
    | extract_lets | with_reducible assumption | with_reducible exact Keeps.refl _ | exact hF.within rfl
    | (with_reducible apply Keeps.trans; on_goal 2 => with_reducible first | apply State.budgetAtWindow_keeps)

theorem State.setC62_keeps (s : State) {F : Nat} (hF : Sub 0x100 F) : Keeps F s (State.setC62 s) := by
  unfold State.setC62
  repeat' first
    | extract_lets | with_reducible assumption | with_reducible exact Keeps.refl _ | exact hF.within rfl
    | (with_reducible apply Keeps.trans; on_goal 2 => with_reducible first | apply State.budgetAtWindow_keeps)
    | (with_reducible apply Keeps.ite <;> intro _)

theorem State.governor_keeps (s : State) (headroom : Int) (throttle : Bool) {F : Nat} (hF : Sub 0x108 F) : Keeps F s
    (State.governor s headroom throttle) := by
  unfold State.governor
  repeat' first
    | extract_lets | with_reducible assumption | with_reducible exact Keeps.refl _ | exact hF.within rfl
    | (with_reducible apply Keeps.trans; on_goal 2 => with_reducible first
          | apply State.fset_keeps | apply State.setC60_keeps)
    | (with_reducible apply Keeps.ite <;> intro _)
    | split
    | (with_reducible apply Keeps.fst; on_goal 2 => with_reducible assumption)
    | (with_reducible apply Keeps.snd; on_goal 2 => with_reducible assumption)
    | with_reducible apply Keeps.mk_sch

theorem State.setTokens_keeps (s : State) (n : Nat) (v : Int) {F : Nat} (hF : Sub 0x100 F) : Keeps F s
    (State.setTokens s n v) := by
  unfold State.setTokens
  repeat' first
    | extract_lets | with_reducible assumption | with_reducible exact Keeps.refl _ | exact hF.within rfl
    | split
    | (with_reducible apply Keeps.fst; on_goal 2 => with_reducible assumption)
    | (with_reducible apply Keeps.snd; on_goal 2 => with_reducible assumption)
    | with_reducible apply Keeps.mk_sch

theorem State.applyBudget_keeps (s : State) (n : Nat) {F : Nat} (hF : Sub 0x108 F) : Keeps F s (State.applyBudget s n)
    := by
  unfold State.applyBudget
  repeat' first
    | extract_lets | with_reducible assumption | with_reducible exact Keeps.refl _ | exact hF.within rfl
    | (with_reducible apply Keeps.trans; on_goal 2 => with_reducible first
          | apply State.fset_keeps | apply State.setFlag_keeps | apply State.modelRegs_keeps
          | apply State.setEff_keeps)
    | split
    | (with_reducible apply Keeps.fst; on_goal 2 => with_reducible assumption)
    | (with_reducible apply Keeps.snd; on_goal 2 => with_reducible assumption)
    | with_reducible apply Keeps.mk_sch

theorem State.refill_keeps (s : State) (n : Nat) {F : Nat} (hF : Sub 0x100 F) : Keeps F s (State.refill s n) := by
  unfold State.refill
  repeat' first
    | extract_lets | with_reducible assumption | with_reducible exact Keeps.refl _ | exact hF.within rfl
    | (with_reducible apply Keeps.trans; on_goal 2 => with_reducible first | apply State.setTokens_keeps)

theorem State.windowStart_keeps (s : State) (n : Nat) {F : Nat} (hF : Sub 0x1E147CC F) : Keeps F s (State.windowStart
    s n) := by
  unfold State.windowStart
  repeat' first
    | extract_lets | with_reducible assumption | with_reducible exact Keeps.refl _ | exact hF.within rfl
    | (with_reducible apply Keeps.trans; on_goal 2 => with_reducible first
          | apply State.scanWindow_keeps | apply State.applyBudget_keeps | apply State.refill_keeps)
    | (with_reducible apply Keeps.ite <;> intro _)

theorem execWindowStart_keeps (n : Nat) (s : State) : Keeps.Out 0x1E147CC s (execWindowStart n s) := by
  unfold execWindowStart
  have hF := Sub.refl 0x1E147CC
  apply Keeps.done
  repeat' first
    | extract_lets | with_reducible assumption | with_reducible exact Keeps.refl _ | exact hF.within rfl
    | (with_reducible apply Keeps.trans; on_goal 2 => with_reducible first | apply State.windowStart_keeps)
    | (with_reducible apply Keeps.ite <;> intro _)

theorem State.spend_keeps (s : State) (n lines : Nat) {F : Nat} (hF : Sub 0x108 F) : ∀ o, (State.spend s n lines) =
    some o → Keeps F s o := by
  intro o e
  unfold State.spend at e
  repeat' (first | (injection e; subst_vars) | extract_lets at e | split at e | contradiction)
  repeat' first
    | extract_lets | with_reducible assumption | with_reducible exact Keeps.refl _ | exact hF.within rfl
    | (with_reducible apply Keeps.trans; on_goal 2 => with_reducible first
          | apply State.bump_keeps | apply State.setTokens_keeps)

theorem State.poolRefill_keeps (s : State) {F : Nat} (hF : Sub 0x100 F) : Keeps F s (State.poolRefill s) := by
  unfold State.poolRefill
  repeat' first
    | extract_lets | with_reducible assumption | with_reducible exact Keeps.refl _ | exact hF.within rfl
    | split
    | (with_reducible apply Keeps.fst; on_goal 2 => with_reducible assumption)
    | (with_reducible apply Keeps.snd; on_goal 2 => with_reducible assumption)
    | with_reducible apply Keeps.mk_sch

theorem execPoolRefill_keeps (s : State) : Keeps.Out 0x100 s (execPoolRefill s) := by
  unfold execPoolRefill
  have hF := Sub.refl 0x100
  apply Keeps.done
  repeat' first
    | extract_lets | with_reducible assumption | with_reducible exact Keeps.refl _ | exact hF.within rfl
    | (with_reducible apply Keeps.trans; on_goal 2 => with_reducible first | apply State.poolRefill_keeps)
    | (with_reducible apply Keeps.ite <;> intro _)

theorem State.setC61_keeps (s : State) (on : Bool) (pc : Nat) {F : Nat} (hF : Sub 0x108 F) : Keeps F s (State.setC61 s
    on pc) := by
  unfold State.setC61
  repeat' first
    | extract_lets | with_reducible assumption | with_reducible exact Keeps.refl _ | exact hF.within rfl
    | (with_reducible apply Keeps.trans; on_goal 2 => with_reducible first
          | apply State.fset_keeps | apply State.setFlag_keeps | apply State.budgetAtWindow_keeps
          | apply State.applyBudget_keeps)

theorem State.launch_keeps (s : State) (t : Txn) {F : Nat} (hF : Sub 0x1E146CC F) : Keeps F s (State.launch s t) := by
  unfold State.launch
  repeat' first
    | extract_lets | with_reducible assumption | with_reducible exact Keeps.refl _ | exact hF.within rfl
    | (with_reducible apply Keeps.trans; on_goal 2 => with_reducible first
          | apply State.setTxn_keeps | apply State.sliceOp_keeps | apply State.enqueueScan_keeps)
    | (with_reducible apply Keeps.foldl; intro _ _ _)
    | (with_reducible apply Keeps.ite <;> intro _)

theorem State.admitTxn_keeps (s : State) (t : Txn) {F : Nat} (hF : Sub 0x3E147CC F) : Keeps F s (State.admitTxn s t)
    := by
  unfold State.admitTxn
  repeat' first
    | extract_lets | with_reducible assumption | with_reducible exact Keeps.refl _ | exact hF.within rfl
    | (with_reducible apply Keeps.trans; on_goal 2 => with_reducible first
          | apply State.bump_keeps | apply State.trace_keeps | apply State.setTxn_keeps
          | apply State.setTokens_keeps | apply State.launch_keeps)
    | (with_reducible apply Keeps.ite <;> intro _)
    | split
    | (with_reducible apply Keeps.fst; on_goal 2 => with_reducible assumption)
    | (with_reducible apply Keeps.snd; on_goal 2 => with_reducible assumption)
    | with_reducible apply Keeps.mk_sch

theorem State.tryAdmit_keeps (s : State) (t : Txn) {F : Nat} (hF : Sub 0x3E147CC F) : Keeps F s (State.tryAdmit s t)
    := by
  unfold State.tryAdmit
  repeat' first
    | extract_lets | with_reducible assumption | with_reducible exact Keeps.refl _ | exact hF.within rfl
    | (with_reducible apply Keeps.trans; on_goal 2 => with_reducible first
          | apply State.bumpSat_keeps | apply State.setTxn_keeps | apply State.admitTxn_keeps)
    | (with_reducible apply Keeps.ite <;> intro _)
    | split
    | (with_reducible apply Keeps.fst; on_goal 2 => with_reducible assumption)
    | (with_reducible apply Keeps.snd; on_goal 2 => with_reducible assumption)

theorem execAdmission_keeps (n : Nat) (s : State) : Keeps.Out 0x3E147CC s (execAdmission n s) := by
  unfold execAdmission
  have hF := Sub.refl 0x3E147CC
  apply Keeps.done
  repeat' first
    | extract_lets | with_reducible assumption | with_reducible exact Keeps.refl _ | exact hF.within rfl
    | (with_reducible apply Keeps.trans; on_goal 2 => with_reducible first | apply State.tryAdmit_keeps)
    | (with_reducible apply Keeps.ite <;> intro _)
    | split

/-! ### Machine/Records.lean -/

theorem State.keepFail_keeps (s : State) (r : Nat × Nat) {F : Nat} (hF : Sub 0x8 F) : Keeps F s (State.keepFail s r)
    := by
  unfold State.keepFail
  repeat' first
    | extract_lets | with_reducible assumption | with_reducible exact Keeps.refl _ | exact hF.within rfl
    | (with_reducible apply Keeps.trans; on_goal 2 => with_reducible first | apply State.setReg_keeps)
    | split

theorem State.noteFails_keeps (s : State) (m : Nat) (recs : List (Nat × Nat)) {F : Nat} (hF : Sub 0x1800008 F) : Keeps
    F s (State.noteFails s m recs) := by
  unfold State.noteFails
  repeat' first
    | extract_lets | with_reducible assumption | with_reducible exact Keeps.refl _ | exact hF.within rfl
    | (with_reducible apply Keeps.trans; on_goal 2 => with_reducible first
          | apply State.bumpSat_keeps | apply State.record_keeps | apply State.keepFail_keeps)
    | (with_reducible apply Keeps.foldl; intro _ _ _)
    | split
    | (with_reducible apply Keeps.fst; on_goal 2 => with_reducible assumption)
    | (with_reducible apply Keeps.snd; on_goal 2 => with_reducible assumption)

theorem State.noteTest_keeps (s : State) (m set action : Nat) (fails : List (Nat × Nat)) {F : Nat} (hF : Sub 0x1808008
    F) : Keeps F s (State.noteTest s m set action fails) := by
  unfold State.noteTest
  repeat' first
    | extract_lets | with_reducible assumption | with_reducible exact Keeps.refl _ | exact hF.within rfl
    | (with_reducible apply Keeps.trans; on_goal 2 => with_reducible first
          | apply State.setReg_keeps | apply State.int_keeps | apply State.noteFails_keeps)
    | (with_reducible apply Keeps.ite <;> intro _)
    | with_reducible apply Keeps.mk_stk

theorem State.hardenLater_keeps (s : State) (x : Nat) {F : Nat} (hF : Sub 0x4000 F) : Keeps F s (State.hardenLater s
    x) := by
  unfold State.hardenLater
  repeat' first
    | extract_lets | with_reducible assumption | with_reducible exact Keeps.refl _ | exact hF.within rfl
    | (with_reducible apply Keeps.ite <;> intro _)
    | split
    | (with_reducible apply Keeps.fst; on_goal 2 => with_reducible assumption)
    | (with_reducible apply Keeps.snd; on_goal 2 => with_reducible assumption)
    | with_reducible apply Keeps.mk_ecc

theorem State.hardenIndex_keeps (s : State) (k : Nat) (fenced : Bool) {F : Nat} (hF : Sub 0x4000 F) : Keeps F s
    (State.hardenIndex s k fenced) := by
  unfold State.hardenIndex
  repeat' first
    | extract_lets | with_reducible assumption | with_reducible exact Keeps.refl _ | exact hF.within rfl
    | (with_reducible apply Keeps.trans; on_goal 2 => with_reducible first | apply State.hardenLater_keeps)
    | (with_reducible apply Keeps.ite <;> intro _)
    | split
    | (with_reducible apply Keeps.fst; on_goal 2 => with_reducible assumption)
    | (with_reducible apply Keeps.snd; on_goal 2 => with_reducible assumption)

theorem State.hardenRow_keeps (s : State) (m bg bank row : Nat) {F : Nat} (hF : Sub 0x4000 F) : Keeps F s
    (State.hardenRow s m bg bank row) := by
  unfold State.hardenRow
  repeat' first
    | extract_lets | with_reducible assumption | with_reducible exact Keeps.refl _ | exact hF.within rfl
    | (with_reducible apply Keeps.trans; on_goal 2 => with_reducible first | apply State.hardenLater_keeps)
    | (with_reducible apply Keeps.ite <;> intro _)
    | split
    | (with_reducible apply Keeps.fst; on_goal 2 => with_reducible assumption)
    | (with_reducible apply Keeps.snd; on_goal 2 => with_reducible assumption)

theorem State.hardenVia_keeps (s : State) (m group pos : Nat) {F : Nat} (hF : Sub 0x4000 F) : Keeps F s
    (State.hardenVia s m group pos) := by
  unfold State.hardenVia
  repeat' first
    | extract_lets | with_reducible assumption | with_reducible exact Keeps.refl _ | exact hF.within rfl
    | (with_reducible apply Keeps.trans; on_goal 2 => with_reducible first | apply State.hardenLater_keeps)
    | (with_reducible apply Keeps.ite <;> intro _)
    | split
    | (with_reducible apply Keeps.fst; on_goal 2 => with_reducible assumption)
    | (with_reducible apply Keeps.snd; on_goal 2 => with_reducible assumption)

end Sys2Proof.Machine
end

