-- ==== Sys2Proof/Laws/FrameCare.lean ====
section
/-! SUPPORT. What each operation keeps: scrub, sparing, evacuation, tests and calibration. -/

namespace Sys2Proof.Machine

/-! ### Machine/Scrub.lean -/

theorem State.readLine_keeps (s : State) (who : Reader) (line cls : Nat) {F : Nat} (hF : Sub 0x1E046CC F) : Keeps F s
    (State.readLine s who line cls) := by
  unfold State.readLine
  repeat' first
    | extract_lets | with_reducible assumption | with_reducible exact Keeps.refl _ | exact hF.within rfl
    | (with_reducible apply Keeps.trans; on_goal 2 => with_reducible first | apply State.sliceOp_keeps)

theorem State.readSeal_keeps (s : State) (line : Nat) {F : Nat} (hF : Sub 0x40C F) : Keeps F s (State.readSeal s line)
    := by
  unfold State.readSeal
  repeat' first
    | extract_lets | with_reducible assumption | with_reducible exact Keeps.refl _ | exact hF.within rfl
    | (with_reducible apply Keeps.trans; on_goal 2 => with_reducible first | apply State.enterRead_keeps)

theorem State.scrubbed_keeps (s : State) (m : Nat) (r : Ret) (errs : List (Nat × Nat)) {F : Nat} (hF : Sub 0x1E0441C
    F) : Keeps F s (State.scrubbed s m r errs).1 := by
  unfold State.scrubbed
  repeat' first
    | extract_lets | with_reducible assumption | with_reducible exact Keeps.refl _ | exact hF.within rfl
    | (with_reducible apply Keeps.trans; on_goal 2 => with_reducible first
          | apply State.bump_keeps | apply State.bumpSat_keeps | apply State.offerRewrite_keeps
          | apply State.retWord_keeps)
    | (with_reducible apply Keeps.ite <;> intro _)

theorem State.setScrubPtr_keeps (s : State) (line : Nat) {F : Nat} (hF : Sub 0x8 F) : Keeps F s (State.setScrubPtr s
    line) := by
  unfold State.setScrubPtr
  repeat' first
    | extract_lets | with_reducible assumption | with_reducible exact Keeps.refl _ | exact hF.within rfl
    | (with_reducible apply Keeps.trans; on_goal 2 => with_reducible first | apply State.fset_keeps)

theorem State.sealNext_keeps (s : State) (i : Nat) {F : Nat} (hF : Sub 0x4008 F) : Keeps F s (State.sealNext s i) :=
    by
  unfold State.sealNext
  repeat' first
    | extract_lets | with_reducible assumption | with_reducible exact Keeps.refl _ | exact hF.within rfl
    | (with_reducible apply Keeps.trans; on_goal 2 => with_reducible first
          | apply State.fset_keeps | apply State.bumpSat_keeps | apply State.setScrubPtr_keeps)
    | (with_reducible apply Keeps.ite <;> intro _)
    | split
    | (with_reducible apply Keeps.fst; on_goal 2 => with_reducible assumption)
    | (with_reducible apply Keeps.snd; on_goal 2 => with_reducible assumption)
    | with_reducible apply Keeps.mk_ecc

theorem State.patrolNext_keeps (s : State) (line : Nat) {F : Nat} (hF : Sub 0x4008 F) : Keeps F s (State.patrolNext s
    line) := by
  unfold State.patrolNext
  repeat' first
    | extract_lets | with_reducible assumption | with_reducible exact Keeps.refl _ | exact hF.within rfl
    | (with_reducible apply Keeps.trans; on_goal 2 => with_reducible first | apply State.setScrubPtr_keeps)
    | (with_reducible apply Keeps.ite <;> intro _)
    | split
    | (with_reducible apply Keeps.fst; on_goal 2 => with_reducible assumption)
    | (with_reducible apply Keeps.snd; on_goal 2 => with_reducible assumption)
    | with_reducible apply Keeps.mk_ecc

theorem State.patrolStep_keeps (s : State) {F : Nat} (hF : Sub 0x4008 F) : Keeps F s (State.patrolStep s) := by
  unfold State.patrolStep
  repeat' first
    | extract_lets | with_reducible assumption | with_reducible exact Keeps.refl _ | exact hF.within rfl
    | (with_reducible apply Keeps.trans; on_goal 2 => with_reducible first
          | apply State.sealNext_keeps | apply State.patrolNext_keeps)
    | split

theorem State.patrolIssue_keeps (s : State) {F : Nat} (hF : Sub 0x1E047CC F) : Keeps F s (State.patrolIssue s) := by
  unfold State.patrolIssue
  repeat' first
    | extract_lets | with_reducible assumption | with_reducible exact Keeps.refl _ | exact hF.within rfl
    | (with_reducible apply Keeps.trans; on_goal 2 => with_reducible first
          | exact State.spend_keeps _ _ _ (hF.within rfl) _ (by with_reducible assumption)
          | apply State.readLine_keeps | apply State.readSeal_keeps | apply State.patrolStep_keeps)
    | (with_reducible apply Keeps.ite <;> intro _)
    | split

theorem State.fastDone_keeps (s : State) (f : FastScrub) (m : Nat) (r : Ret) (errs : List (Nat × Nat)) {F : Nat} (hF :
    Sub 0x1E0441C F) : Keeps F s (State.fastDone s f m r errs) := by
  unfold State.fastDone
  repeat' first
    | extract_lets | with_reducible assumption | with_reducible exact Keeps.refl _ | exact hF.within rfl
    | (with_reducible apply Keeps.trans; on_goal 2 => with_reducible first | apply State.scrubbed_keeps)
    | (with_reducible apply Keeps.ite <;> intro _)
    | split
    | (with_reducible apply Keeps.fst; on_goal 2 => with_reducible assumption)
    | (with_reducible apply Keeps.snd; on_goal 2 => with_reducible assumption)
    | with_reducible apply Keeps.mk_ecc

theorem State.fastIssue_keeps (s : State) (f : FastScrub) {F : Nat} (hF : Sub 0x1E047CC F) : Keeps F s
    (State.fastIssue s f) := by
  unfold State.fastIssue
  repeat' first
    | extract_lets | with_reducible assumption | with_reducible exact Keeps.refl _ | exact hF.within rfl
    | (with_reducible apply Keeps.trans; on_goal 2 => with_reducible first
          | exact State.spend_keeps _ _ _ (hF.within rfl) _ (by with_reducible assumption)
          | apply State.readLine_keeps)
    | (with_reducible apply Keeps.ite <;> intro _)
    | split
    | (with_reducible apply Keeps.fst; on_goal 2 => with_reducible assumption)
    | (with_reducible apply Keeps.snd; on_goal 2 => with_reducible assumption)
    | with_reducible apply Keeps.mk_ecc

theorem State.scrubTake_keeps (s : State) (errs : List (Nat × Nat)) {F : Nat} (hF : Sub 0x1E0441C F) : ∀ o,
    (State.scrubTake s errs) = some o → Keeps F s o := by
  intro o e
  unfold State.scrubTake at e
  repeat' (first | (injection e; subst_vars) | extract_lets at e | split at e | contradiction)
  repeat' first
    | extract_lets | with_reducible assumption | with_reducible exact Keeps.refl _ | exact hF.within rfl
    | (with_reducible apply Keeps.trans; on_goal 2 => with_reducible first
          | apply State.dropRet_keeps | apply State.scrubbed_keeps | apply State.fastDone_keeps)
    | (with_reducible apply Keeps.ite <;> intro _)
    | split

theorem State.scrubIssue_keeps (s : State) {F : Nat} (hF : Sub 0x1E047CC F) : Keeps F s (State.scrubIssue s) := by
  unfold State.scrubIssue
  repeat' first
    | extract_lets | with_reducible assumption | with_reducible exact Keeps.refl _ | exact hF.within rfl
    | (with_reducible apply Keeps.trans; on_goal 2 => with_reducible first
          | apply State.patrolIssue_keeps | apply State.fastIssue_keeps)
    | (with_reducible apply Keeps.ite <;> intro _)
    | split

theorem State.scrubStep_keeps (s : State) (errs : List (Nat × Nat)) {F : Nat} (hF : Sub 0x1E047DC F) : Keeps F s
    (State.scrubStep s errs) := by
  unfold State.scrubStep
  repeat' first
    | extract_lets | with_reducible assumption | with_reducible exact Keeps.refl _ | exact hF.within rfl
    | (with_reducible apply Keeps.trans; on_goal 2 => with_reducible first
          | exact State.scrubTake_keeps _ _ (hF.within rfl) _ (by with_reducible assumption)
          | apply State.scrubIssue_keeps)
    | with_reducible apply Keeps.getD
    | exact State.scrubTake_keeps _ _ (hF.within rfl)
    | (with_reducible apply Keeps.ite <;> intro _)
    | split

theorem execPatrolScrubLine_keeps (errs : List (Nat × Nat)) (s : State) : Keeps.Out 0x1E047DC s (execPatrolScrubLine
    errs s) := by
  unfold execPatrolScrubLine
  have hF := Sub.refl 0x1E047DC
  apply Keeps.done
  repeat' first
    | extract_lets | with_reducible assumption | with_reducible exact Keeps.refl _ | exact hF.within rfl
    | (with_reducible apply Keeps.trans; on_goal 2 => with_reducible first | apply State.scrubStep_keeps)
    | (with_reducible apply Keeps.ite <;> intro _)

theorem State.putReef2_keeps (s : State) (r : Option Reef2Run) {F : Nat} (hF : Sub 0x4000 F) : Keeps F s
    (State.putReef2 s r) := by
  unfold State.putReef2
  repeat' first
    | extract_lets | with_reducible assumption | with_reducible exact Keeps.refl _ | exact hF.within rfl
    | (with_reducible apply Keeps.ite <;> intro _)
    | split
    | (with_reducible apply Keeps.fst; on_goal 2 => with_reducible assumption)
    | (with_reducible apply Keeps.snd; on_goal 2 => with_reducible assumption)
    | with_reducible apply Keeps.mk_ecc

theorem State.reefIssue_keeps (s : State) (r : Reef2Run) {F : Nat} (hF : Sub 0x1E847CC F) : Keeps F s (State.reefIssue
    s r) := by
  unfold State.reefIssue
  repeat' first
    | extract_lets | with_reducible assumption | with_reducible exact Keeps.refl _ | exact hF.within rfl
    | (with_reducible apply Keeps.trans; on_goal 2 => with_reducible first
          | apply State.leaveSr_keeps
          | exact State.spend_keeps _ _ _ (hF.within rfl) _ (by with_reducible assumption)
          | apply State.readLine_keeps | apply State.readSeal_keeps | apply State.patrolStep_keeps
          | apply State.putReef2_keeps)
    | (with_reducible apply Keeps.ite <;> intro _)
    | split
    | (with_reducible apply Keeps.fst; on_goal 2 => with_reducible assumption)
    | (with_reducible apply Keeps.snd; on_goal 2 => with_reducible assumption)

theorem State.reefEnd_keeps (s : State) (r : Reef2Run) {F : Nat} (hF : Sub 0x84408 F) : Keeps F s (State.reefEnd s r)
    := by
  unfold State.reefEnd
  repeat' first
    | extract_lets | with_reducible assumption | with_reducible exact Keeps.refl _ | exact hF.within rfl
    | (with_reducible apply Keeps.trans; on_goal 2 => with_reducible first
          | apply State.enterSr_keeps | apply State.putReef2_keeps)
    | (with_reducible apply Keeps.foldl; intro _ _ _)
    | (with_reducible apply Keeps.foldlP; intro _ _ _)
    | (with_reducible apply Keeps.ite <;> intro _)
    | split
    | (with_reducible apply Keeps.fst; on_goal 2 => with_reducible assumption)
    | (with_reducible apply Keeps.snd; on_goal 2 => with_reducible assumption)

theorem State.reefTick_keeps (s : State) {F : Nat} (hF : Sub 0x1E847DC F) : Keeps F s (State.reefTick s) := by
  unfold State.reefTick
  repeat' first
    | extract_lets | with_reducible assumption | with_reducible exact Keeps.refl _ | exact hF.within rfl
    | (with_reducible apply Keeps.trans; on_goal 2 => with_reducible first
          | apply State.dropRet_keeps | apply State.scrubbed_keeps | apply State.putReef2_keeps
          | apply State.reefIssue_keeps | apply State.reefEnd_keeps)
    | (with_reducible apply Keeps.ite <;> intro _)
    | split
    | (with_reducible apply Keeps.fst; on_goal 2 => with_reducible assumption)
    | (with_reducible apply Keeps.snd; on_goal 2 => with_reducible assumption)

theorem State.reef2Scrub_keeps (s : State) (errs : List (Nat × List (Nat × Nat))) {F : Nat} (hF : Sub 0x4100 F) :
    Keeps F s (State.reef2Scrub s errs) := by
  unfold State.reef2Scrub
  repeat' first
    | extract_lets | with_reducible assumption | with_reducible exact Keeps.refl _ | exact hF.within rfl
    | (with_reducible apply Keeps.trans; on_goal 2 => with_reducible first
          | apply State.setTokens_keeps | apply State.putReef2_keeps)
    | (with_reducible apply Keeps.ite <;> intro _)

theorem execReef2Scrub_keeps (errs : List (Nat × List (Nat × Nat))) (s : State) : Keeps.Out 0x4100 s (execReef2Scrub
    errs s) := by
  unfold execReef2Scrub
  have hF := Sub.refl 0x4100
  apply Keeps.done
  repeat' first
    | extract_lets | with_reducible assumption | with_reducible exact Keeps.refl _ | exact hF.within rfl
    | (with_reducible apply Keeps.trans; on_goal 2 => with_reducible first | apply State.reef2Scrub_keeps)
    | (with_reducible apply Keeps.ite <;> intro _)

theorem State.startSweep_keeps (s : State) {F : Nat} (hF : Sub 0x4100 F) : Keeps F s (State.startSweep s) := by
  unfold State.startSweep
  repeat' first
    | extract_lets | with_reducible assumption | with_reducible exact Keeps.refl _ | exact hF.within rfl
    | (with_reducible apply Keeps.trans; on_goal 2 => with_reducible first | apply State.setC60_keeps)
    | (with_reducible apply Keeps.ite <;> intro _)
    | split
    | (with_reducible apply Keeps.fst; on_goal 2 => with_reducible assumption)
    | (with_reducible apply Keeps.snd; on_goal 2 => with_reducible assumption)
    | with_reducible apply Keeps.mk_ecc

theorem State.markLost_keeps (s : State) (k : Nat) {F : Nat} (hF : Sub 0x4008 F) : Keeps F s (State.markLost s k) :=
    by
  unfold State.markLost
  repeat' first
    | extract_lets | with_reducible assumption | with_reducible exact Keeps.refl _ | exact hF.within rfl
    | (with_reducible apply Keeps.trans; on_goal 2 => with_reducible first
          | apply State.fset_keeps | apply State.setFlag_keeps)
    | split
    | (with_reducible apply Keeps.fst; on_goal 2 => with_reducible assumption)
    | (with_reducible apply Keeps.snd; on_goal 2 => with_reducible assumption)
    | with_reducible apply Keeps.mk_ecc

theorem State.clearHeld_keeps (s : State) (line : Nat) {F : Nat} (hF : Sub 0x200 F) : Keeps F s (State.clearHeld s
    line) := by
  unfold State.clearHeld
  repeat' first
    | extract_lets | with_reducible assumption | with_reducible exact Keeps.refl _ | exact hF.within rfl
    | (with_reducible apply Keeps.trans; on_goal 2 => with_reducible first | apply State.setSlc_keeps)
    | split

theorem State.swept_keeps (s : State) (v : Sweep) (m : Nat) (r : Ret) (errs : List (Nat × Nat)) {F : Nat} (hF : Sub
    0x1E0441C F) : Keeps F s (State.swept s v m r errs) := by
  unfold State.swept
  repeat' first
    | extract_lets | with_reducible assumption | with_reducible exact Keeps.refl _ | exact hF.within rfl
    | (with_reducible apply Keeps.trans; on_goal 2 => with_reducible first
          | apply State.encode_keeps | apply State.wrqPut_keeps | apply State.retWord_keeps
          | apply State.dropRet_keeps)
    | (with_reducible apply Keeps.ite <;> intro _)
    | split
    | (with_reducible apply Keeps.fst; on_goal 2 => with_reducible assumption)
    | (with_reducible apply Keeps.snd; on_goal 2 => with_reducible assumption)
    | with_reducible apply Keeps.mk_ecc

theorem State.sweepIssue_keeps (s : State) (v : Sweep) {F : Nat} (hF : Sub 0x1E047CC F) : Keeps F s (State.sweepIssue
    s v) := by
  unfold State.sweepIssue
  repeat' first
    | extract_lets | with_reducible assumption | with_reducible exact Keeps.refl _ | exact hF.within rfl
    | (with_reducible apply Keeps.trans; on_goal 2 => with_reducible first
          | exact State.spend_keeps _ _ _ (hF.within rfl) _ (by with_reducible assumption)
          | apply State.readLine_keeps | apply State.clearHeld_keeps)
    | (with_reducible apply Keeps.ite <;> intro _)
    | split
    | (with_reducible apply Keeps.fst; on_goal 2 => with_reducible assumption)
    | (with_reducible apply Keeps.snd; on_goal 2 => with_reducible assumption)
    | with_reducible apply Keeps.mk_ecc

theorem State.sweepTake_keeps (s : State) (errs : List (Nat × Nat)) {F : Nat} (hF : Sub 0x1E0441C F) : ∀ o,
    (State.sweepTake s errs) = some o → Keeps F s o := by
  intro o e
  unfold State.sweepTake at e
  repeat' (first | (injection e; subst_vars) | extract_lets at e | split at e | contradiction)
  repeat' first
    | extract_lets | with_reducible assumption | with_reducible exact Keeps.refl _ | exact hF.within rfl
    | (with_reducible apply Keeps.trans; on_goal 2 => with_reducible first
          | apply State.dropRet_keeps | apply State.swept_keeps)
    | split

theorem State.sweepStep_keeps (s : State) (errs : List (Nat × Nat)) {F : Nat} (hF : Sub 0x1E047DC F) : Keeps F s
    (State.sweepStep s errs) := by
  unfold State.sweepStep
  repeat' first
    | extract_lets | with_reducible assumption | with_reducible exact Keeps.refl _ | exact hF.within rfl
    | (with_reducible apply Keeps.trans; on_goal 2 => with_reducible first
          | apply State.startSweep_keeps | apply State.sweepIssue_keeps
          | exact State.sweepTake_keeps _ _ (hF.within rfl) _ (by with_reducible assumption))
    | with_reducible apply Keeps.getD
    | exact State.sweepTake_keeps _ _ (hF.within rfl)
    | split

theorem execRetentionSweep_keeps (errs : List (Nat × Nat)) (s : State) : Keeps.Out 0x1E047DC s (execRetentionSweep
    errs s) := by
  unfold execRetentionSweep
  have hF := Sub.refl 0x1E047DC
  apply Keeps.done
  repeat' first
    | extract_lets | with_reducible assumption | with_reducible exact Keeps.refl _ | exact hF.within rfl
    | (with_reducible apply Keeps.trans; on_goal 2 => with_reducible first | apply State.sweepStep_keeps)
    | (with_reducible apply Keeps.ite <;> intro _)

theorem State.sweepEnd_keeps (s : State) (w : Sweep) {F : Nat} (hF : Sub 0x1804108 F) : Keeps F s (State.sweepEnd s w)
    := by
  unfold State.sweepEnd
  repeat' first
    | extract_lets | with_reducible assumption | with_reducible exact Keeps.refl _ | exact hF.within rfl
    | (with_reducible apply Keeps.trans; on_goal 2 => with_reducible first
          | apply State.setFlag_keeps | apply State.int_keeps | apply State.setC60_keeps
          | apply State.startSweep_keeps)
    | (with_reducible apply Keeps.ite <;> intro _)
    | split
    | (with_reducible apply Keeps.fst; on_goal 2 => with_reducible assumption)
    | (with_reducible apply Keeps.snd; on_goal 2 => with_reducible assumption)
    | with_reducible apply Keeps.mk_ecc

theorem execSweepDone_keeps (s : State) : Keeps.Out 0x1804108 s (execSweepDone s) := by
  unfold execSweepDone
  have hF := Sub.refl 0x1804108
  apply Keeps.done
  repeat' first
    | extract_lets | with_reducible assumption | with_reducible exact Keeps.refl _ | exact hF.within rfl
    | (with_reducible apply Keeps.trans; on_goal 2 => with_reducible first | apply State.sweepEnd_keeps)
    | (with_reducible apply Keeps.ite <;> intro _)
    | split

theorem State.clearLost_keeps (s : State) (k : Nat) {F : Nat} (hF : Sub 0x4008 F) : Keeps F s (State.clearLost s k) :=
    by
  unfold State.clearLost
  repeat' first
    | extract_lets | with_reducible assumption | with_reducible exact Keeps.refl _ | exact hF.within rfl
    | (with_reducible apply Keeps.trans; on_goal 2 => with_reducible first | apply State.setFlag_keeps)
    | (with_reducible apply Keeps.ite <;> intro _)
    | split
    | (with_reducible apply Keeps.fst; on_goal 2 => with_reducible assumption)
    | (with_reducible apply Keeps.snd; on_goal 2 => with_reducible assumption)
    | with_reducible apply Keeps.mk_ecc

theorem execClearRetlost_keeps (h : Halyard) (s : State) : Keeps.Out 0x13E04148 s (execClearRetlost h s) := by
  unfold execClearRetlost
  have hF := Sub.refl 0x13E04148
  apply Keeps.done
  repeat' first
    | extract_lets | with_reducible assumption | with_reducible exact Keeps.refl _ | exact hF.within rfl
    | (with_reducible apply Keeps.trans; on_goal 2 => with_reducible first
          | apply State.replyOk_keeps | apply State.replySt_keeps | apply State.replyBad_keeps
          | apply State.packet_keeps | apply State.startSweep_keeps | apply State.clearLost_keeps)
    | (with_reducible apply Keeps.foldl; intro _ _ _)
    | split
    | intro _

theorem execScrubCfg_keeps (h : Halyard) (s : State) : Keeps.Out 0x13E04148 s (execScrubCfg h s) := by
  unfold execScrubCfg
  have hF := Sub.refl 0x13E04148
  apply Keeps.done
  repeat' first
    | extract_lets | with_reducible assumption | with_reducible exact Keeps.refl _ | exact hF.within rfl
    | (with_reducible apply Keeps.trans; on_goal 2 => with_reducible first
          | apply State.fset_keeps | apply State.setFlag_keeps | apply State.replyOk_keeps
          | apply State.replyBad_keeps | apply State.packet_keeps | apply State.setC60_keeps)
    | split
    | intro _

theorem execFastScrub_keeps (h : Halyard) (s : State) : Keeps.Out 0x13E04148 s (execFastScrub h s) := by
  unfold execFastScrub
  have hF := Sub.refl 0x13E04148
  apply Keeps.done
  repeat' first
    | extract_lets | with_reducible assumption | with_reducible exact Keeps.refl _ | exact hF.within rfl
    | (with_reducible apply Keeps.trans; on_goal 2 => with_reducible first
          | apply State.replySt_keeps | apply State.replyBad_keeps | apply State.accept_keeps
          | apply State.packet_keeps | apply State.setC60_keeps)
    | split
    | (with_reducible apply Keeps.fst; on_goal 2 => with_reducible assumption)
    | (with_reducible apply Keeps.snd; on_goal 2 => with_reducible assumption)
    | with_reducible apply Keeps.mk_ecc
    | intro _

theorem State.fastEnd_keeps (s : State) (f : FastScrub) {F : Nat} (hF : Sub 0x1E04108 F) : Keeps F s (State.fastEnd s
    f) := by
  unfold State.fastEnd
  repeat' first
    | extract_lets | with_reducible assumption | with_reducible exact Keeps.refl _ | exact hF.within rfl
    | (with_reducible apply Keeps.trans; on_goal 2 => with_reducible first
          | apply State.setFlag_keeps | apply State.finishOp_keeps | apply State.setC60_keeps
          | apply State.startSweep_keeps)
    | split
    | (with_reducible apply Keeps.fst; on_goal 2 => with_reducible assumption)
    | (with_reducible apply Keeps.snd; on_goal 2 => with_reducible assumption)
    | with_reducible apply Keeps.mk_ecc

theorem execFastScrubDone_keeps (s : State) : Keeps.Out 0x1E04108 s (execFastScrubDone s) := by
  unfold execFastScrubDone
  have hF := Sub.refl 0x1E04108
  apply Keeps.done
  repeat' first
    | extract_lets | with_reducible assumption | with_reducible exact Keeps.refl _ | exact hF.within rfl
    | (with_reducible apply Keeps.trans; on_goal 2 => with_reducible first | apply State.fastEnd_keeps)
    | (with_reducible apply Keeps.ite <;> intro _)
    | split

/-! ### Machine/Ecc.lean -/

theorem State.armInj_keeps (s : State) (p : List Nat) {F : Nat} (hF : Sub 0x4008 F) : Keeps F s (State.armInj s p) :=
    by
  unfold State.armInj
  repeat' first
    | extract_lets | with_reducible assumption | with_reducible exact Keeps.refl _ | exact hF.within rfl
    | (with_reducible apply Keeps.trans; on_goal 2 => with_reducible first | apply State.showInj_keeps)
    | (with_reducible apply Keeps.ite <;> intro _)
    | split
    | (with_reducible apply Keeps.fst; on_goal 2 => with_reducible assumption)
    | (with_reducible apply Keeps.snd; on_goal 2 => with_reducible assumption)
    | with_reducible apply Keeps.mk_ecc

theorem execErrInject_keeps (h : Halyard) (s : State) : Keeps.Out 0x13E04048 s (execErrInject h s) := by
  unfold execErrInject
  have hF := Sub.refl 0x13E04048
  apply Keeps.done
  repeat' first
    | extract_lets | with_reducible assumption | with_reducible exact Keeps.refl _ | exact hF.within rfl
    | (with_reducible apply Keeps.trans; on_goal 2 => with_reducible first
          | apply State.replyOk_keeps | apply State.replySt_keeps | apply State.replyBad_keeps
          | apply State.packet_keeps | apply State.armInj_keeps)
    | split
    | intro _

theorem execRowSpare_keeps (h : Halyard) (s : State) : Keeps.Out 0x13E04048 s (execRowSpare h s) := by
  unfold execRowSpare
  have hF := Sub.refl 0x13E04048
  apply Keeps.done
  repeat' first
    | extract_lets | with_reducible assumption | with_reducible exact Keeps.refl _ | exact hF.within rfl
    | (with_reducible apply Keeps.trans; on_goal 2 => with_reducible first
          | apply State.replySt_keeps | apply State.replyBad_keeps | apply State.accept_keeps
          | apply State.packet_keeps)
    | split
    | (with_reducible apply Keeps.fst; on_goal 2 => with_reducible assumption)
    | (with_reducible apply Keeps.snd; on_goal 2 => with_reducible assumption)
    | with_reducible apply Keeps.mk_ecc
    | intro _

theorem State.spareWord_keeps (j : SpareJob) (a spare : Nat) (errs : List (Nat × List (Nat × Nat))) (s : State) (i :
    Nat) {F : Nat} (hF : Sub 0x1E0401C F) : Keeps F s (State.spareWord j a spare errs s i) := by
  unfold State.spareWord
  repeat' first
    | extract_lets | with_reducible assumption | with_reducible exact Keeps.refl _ | exact hF.within rfl
    | (with_reducible apply Keeps.trans; on_goal 2 => with_reducible first
          | apply State.setWord_keeps | apply State.encode_keeps | apply State.readWord_keeps
          | apply State.decode_keeps)

theorem State.spareFails_keeps (s : State) (j : SpareJob) {F : Nat} (hF : Sub 0x1E04008 F) : Keeps F s
    (State.spareFails s j) := by
  unfold State.spareFails
  repeat' first
    | extract_lets | with_reducible assumption | with_reducible exact Keeps.refl _ | exact hF.within rfl
    | (with_reducible apply Keeps.trans; on_goal 2 => with_reducible first
          | apply State.finishOp_keeps | apply State.wantEvac_keeps)
    | (with_reducible apply Keeps.ite <;> intro _)
    | split
    | (with_reducible apply Keeps.fst; on_goal 2 => with_reducible assumption)
    | (with_reducible apply Keeps.snd; on_goal 2 => with_reducible assumption)

theorem State.putSpare_keeps (s : State) (j : SpareJob) (r : Option SpareJob) {F : Nat} (hF : Sub 0x4000 F) : Keeps F
    s (State.putSpare s j r) := by
  unfold State.putSpare
  repeat' first
    | extract_lets | with_reducible assumption | with_reducible exact Keeps.refl _ | exact hF.within rfl
    | (with_reducible apply Keeps.ite <;> intro _)
    | split
    | (with_reducible apply Keeps.fst; on_goal 2 => with_reducible assumption)
    | (with_reducible apply Keeps.snd; on_goal 2 => with_reducible assumption)
    | with_reducible apply Keeps.mk_ecc

theorem State.lockSpare_keeps (s : State) (j : SpareJob) (errs : List (Nat × List (Nat × Nat))) {F : Nat} (hF : Sub
    0x1E04408 F) : Keeps F s (State.lockSpare s j errs) := by
  unfold State.lockSpare
  repeat' first
    | extract_lets | with_reducible assumption | with_reducible exact Keeps.refl _ | exact hF.within rfl
    | (with_reducible apply Keeps.trans; on_goal 2 => with_reducible first
          | apply State.closeBank_keeps | apply State.spareFails_keeps | apply State.putSpare_keeps)
    | (with_reducible apply Keeps.ite <;> intro _)
    | split
    | (with_reducible apply Keeps.fst; on_goal 2 => with_reducible assumption)
    | (with_reducible apply Keeps.snd; on_goal 2 => with_reducible assumption)

theorem State.lockTimed_keeps (s : State) (m t : Nat) (e : QEnt) (n : Nat) {F : Nat} (hF : Sub 0x408 F) : Keeps F s
    (State.lockTimed s m t e n) := by
  unfold State.lockTimed
  repeat' first
    | extract_lets | with_reducible assumption | with_reducible exact Keeps.refl _ | exact hF.within rfl
    | (with_reducible apply Keeps.trans; on_goal 2 => with_reducible first
          | apply State.sendAct_keeps | apply State.preTimed_keeps | apply State.colTimed_keeps)
    | (with_reducible apply Keeps.ite <;> intro _)
    | split
    | (with_reducible apply Keeps.fst; on_goal 2 => with_reducible assumption)
    | (with_reducible apply Keeps.snd; on_goal 2 => with_reducible assumption)

theorem State.lockSend_keeps (s : State) (m t : Nat) (j : SpareJob) (n : Nat) {F : Nat} (hF : Sub 0x4408 F) : Keeps F
    s (State.lockSend s m t j n) := by
  unfold State.lockSend
  repeat' first
    | extract_lets | with_reducible assumption | with_reducible exact Keeps.refl _ | exact hF.within rfl
    | (with_reducible apply Keeps.trans; on_goal 2 => with_reducible first
          | apply State.setEng_keeps | apply State.putSpare_keeps | apply State.lockTimed_keeps)
    | (with_reducible apply Keeps.ite <;> intro _)
    | split
    | (with_reducible apply Keeps.fst; on_goal 2 => with_reducible assumption)
    | (with_reducible apply Keeps.snd; on_goal 2 => with_reducible assumption)

theorem State.rowSpare_keeps (s : State) (j : SpareJob) {F : Nat} (hF : Sub 0x1E0501C F) : Keeps F s (State.rowSpare s
    j) := by
  unfold State.rowSpare
  repeat' first
    | extract_lets | with_reducible assumption | with_reducible exact Keeps.refl _ | exact hF.within rfl
    | (with_reducible apply Keeps.trans; on_goal 2 => with_reducible first
          | apply State.int_keeps | apply State.event_keeps | apply State.finishOp_keeps
          | apply State.clearTracker_keeps | apply State.hardenRow_keeps | apply State.spareWord_keeps
          | apply State.putSpare_keeps)
    | (with_reducible apply Keeps.foldl; intro _ _ _)
    | split
    | (with_reducible apply Keeps.fst; on_goal 2 => with_reducible assumption)
    | (with_reducible apply Keeps.snd; on_goal 2 => with_reducible assumption)
    | with_reducible apply Keeps.mk_ecc
    | with_reducible apply Keeps.mk_remap_ecc

theorem State.spareStep_keeps (s : State) (j : SpareJob) {F : Nat} (hF : Sub 0x1E0541C F) : Keeps F s (State.spareStep
    s j) := by
  unfold State.spareStep
  repeat' first
    | extract_lets | with_reducible assumption | with_reducible exact Keeps.refl _ | exact hF.within rfl
    | (with_reducible apply Keeps.trans; on_goal 2 => with_reducible first
          | apply State.lockSend_keeps | apply State.rowSpare_keeps)
    | (with_reducible apply Keeps.ite <;> intro _)
    | split
    | (with_reducible apply Keeps.fst; on_goal 2 => with_reducible assumption)
    | (with_reducible apply Keeps.snd; on_goal 2 => with_reducible assumption)

theorem State.spareTick_keeps (s : State) {F : Nat} (hF : Sub 0x1E0541C F) : Keeps F s (State.spareTick s) := by
  unfold State.spareTick
  repeat' first
    | extract_lets | with_reducible assumption | with_reducible exact Keeps.refl _ | exact hF.within rfl
    | (with_reducible apply Keeps.trans; on_goal 2 => with_reducible first | apply State.spareStep_keeps)
    | (with_reducible apply Keeps.foldl; intro _ _ _)
    | (with_reducible apply Keeps.foldlP; intro _ _ _)
    | (with_reducible apply Keeps.ite <;> intro _)
    | split
    | (with_reducible apply Keeps.fst; on_goal 2 => with_reducible assumption)
    | (with_reducible apply Keeps.snd; on_goal 2 => with_reducible assumption)

theorem execSoftRowSpare_keeps (errs : List (Nat × List (Nat × Nat))) (s : State) : Keeps.Out 0x1E04408 s
    (execSoftRowSpare errs s) := by
  unfold execSoftRowSpare
  have hF := Sub.refl 0x1E04408
  apply Keeps.done
  repeat' first
    | extract_lets | with_reducible assumption | with_reducible exact Keeps.refl _ | exact hF.within rfl
    | (with_reducible apply Keeps.trans; on_goal 2 => with_reducible first | apply State.lockSpare_keeps)
    | (with_reducible apply Keeps.ite <;> intro _)
    | split
    | (with_reducible apply Keeps.fst; on_goal 2 => with_reducible assumption)
    | (with_reducible apply Keeps.snd; on_goal 2 => with_reducible assumption)

theorem State.beginEvac_keeps (s : State) (k : Nat) (op : Option Nat) {F : Nat} (hF : Sub 0x4008 F) : Keeps F s
    (State.beginEvac s k op) := by
  unfold State.beginEvac
  repeat' first
    | extract_lets | with_reducible assumption | with_reducible exact Keeps.refl _ | exact hF.within rfl
    | (with_reducible apply Keeps.trans; on_goal 2 => with_reducible first | apply State.fset_keeps)
    | split
    | (with_reducible apply Keeps.fst; on_goal 2 => with_reducible assumption)
    | (with_reducible apply Keeps.snd; on_goal 2 => with_reducible assumption)
    | with_reducible apply Keeps.mk_ecc

theorem State.nextEvac_keeps (s : State) {F : Nat} (hF : Sub 0x1804008 F) : Keeps F s (State.nextEvac s) := by
  unfold State.nextEvac
  repeat' first
    | extract_lets | with_reducible assumption | with_reducible exact Keeps.refl _ | exact hF.within rfl
    | (with_reducible apply Keeps.trans; on_goal 2 => with_reducible first
          | apply State.setFlag_keeps | apply State.pcFailed_keeps | apply State.beginEvac_keeps)
    | (with_reducible apply Keeps.ite <;> intro _)
    | split
    | (with_reducible apply Keeps.fst; on_goal 2 => with_reducible assumption)
    | (with_reducible apply Keeps.snd; on_goal 2 => with_reducible assumption)
    | with_reducible apply Keeps.mk_ecc

theorem execEvacuate_keeps (h : Halyard) (s : State) : Keeps.Out 0x13E04048 s (execEvacuate h s) := by
  unfold execEvacuate
  have hF := Sub.refl 0x13E04048
  apply Keeps.done
  repeat' first
    | extract_lets | with_reducible assumption | with_reducible exact Keeps.refl _ | exact hF.within rfl
    | (with_reducible apply Keeps.trans; on_goal 2 => with_reducible first
          | apply State.replySt_keeps | apply State.replyBad_keeps | apply State.accept_keeps
          | apply State.packet_keeps | apply State.beginEvac_keeps)
    | split
    | (with_reducible apply Keeps.fst; on_goal 2 => with_reducible assumption)
    | (with_reducible apply Keeps.snd; on_goal 2 => with_reducible assumption)
    | with_reducible apply Keeps.mk_ecc
    | intro _

theorem State.reportEvac_keeps (s : State) (e : Evac) (result : Nat) {F : Nat} (hF : Sub 0x1E04008 F) : Keeps F s
    (State.reportEvac s e result) := by
  unfold State.reportEvac
  repeat' first
    | extract_lets | with_reducible assumption | with_reducible exact Keeps.refl _ | exact hF.within rfl
    | (with_reducible apply Keeps.trans; on_goal 2 => with_reducible first
          | apply State.fset_keeps | apply State.int_keeps | apply State.event_keeps | apply State.finishOp_keeps
          | apply State.nextEvac_keeps)
    | split
    | (with_reducible apply Keeps.fst; on_goal 2 => with_reducible assumption)
    | (with_reducible apply Keeps.snd; on_goal 2 => with_reducible assumption)
    | with_reducible apply Keeps.mk_ecc

theorem State.abandonEvac_keeps (s : State) (result : Nat) {F : Nat} (hF : Sub 0x1E04508 F) : Keeps F s
    (State.abandonEvac s result) := by
  unfold State.abandonEvac
  repeat' first
    | extract_lets | with_reducible assumption | with_reducible exact Keeps.refl _ | exact hF.within rfl
    | (with_reducible apply Keeps.trans; on_goal 2 => with_reducible first
          | apply State.fset_keeps | apply State.setFlag_keeps | apply State.setEng_keeps
          | apply State.pcFailed_keeps | apply State.endFull_keeps | apply State.setC61_keeps
          | apply State.reportEvac_keeps)
    | (with_reducible apply Keeps.ite <;> intro _)
    | split

theorem State.evacTested_keeps (s : State) (e : Evac) (fails : List (Nat × Nat)) {F : Nat} (hF : Sub 0x1E0C508 F) :
    Keeps F s (State.evacTested s e fails) := by
  unfold State.evacTested
  repeat' first
    | extract_lets | with_reducible assumption | with_reducible exact Keeps.refl _ | exact hF.within rfl
    | (with_reducible apply Keeps.trans; on_goal 2 => with_reducible first
          | apply State.fset_keeps | apply State.setFlag_keeps | apply State.int_keeps | apply State.event_keeps
          | apply State.setC61_keeps | apply State.noteTest_keeps | apply State.abandonEvac_keeps)
    | (with_reducible apply Keeps.ite <;> intro _)
    | split
    | (with_reducible apply Keeps.fst; on_goal 2 => with_reducible assumption)
    | (with_reducible apply Keeps.snd; on_goal 2 => with_reducible assumption)
    | with_reducible apply Keeps.mk_ecc

theorem execEvacStart_keeps (fails : List (Nat × Nat)) (s : State) : Keeps.Out 0x1E0C508 s (execEvacStart fails s) :=
    by
  unfold execEvacStart
  have hF := Sub.refl 0x1E0C508
  apply Keeps.done
  repeat' first
    | extract_lets | with_reducible assumption | with_reducible exact Keeps.refl _ | exact hF.within rfl
    | (with_reducible apply Keeps.trans; on_goal 2 => with_reducible first
          | apply State.nextEvac_keeps | apply State.evacTested_keeps)
    | (with_reducible apply Keeps.ite <;> intro _)
    | split

theorem State.copyPut_keeps (s : State) (e : Evac) (line : Nat) (w : List Nat) {F : Nat} (hF : Sub 0x40C F) : Keeps F
    s (State.copyPut s e line w) := by
  unfold State.copyPut
  repeat' first
    | extract_lets | with_reducible assumption | with_reducible exact Keeps.refl _ | exact hF.within rfl
    | (with_reducible apply Keeps.trans; on_goal 2 => with_reducible first
          | apply State.bumpSat_keeps | apply State.wrqPut_keeps)
    | (with_reducible apply Keeps.ite <;> intro _)

theorem State.copied_keeps (s : State) (e : Evac) (m : Nat) (r : Ret) (errs : List (Nat × Nat)) {F : Nat} (hF : Sub
    0x1E0441C F) : Keeps F s (State.copied s e m r errs) := by
  unfold State.copied
  repeat' first
    | extract_lets | with_reducible assumption | with_reducible exact Keeps.refl _ | exact hF.within rfl
    | (with_reducible apply Keeps.trans; on_goal 2 => with_reducible first
          | apply State.encode_keeps | apply State.retWord_keeps | apply State.dropRet_keeps
          | apply State.copyPut_keeps)
    | (with_reducible apply Keeps.ite <;> intro _)
    | split
    | (with_reducible apply Keeps.fst; on_goal 2 => with_reducible assumption)
    | (with_reducible apply Keeps.snd; on_goal 2 => with_reducible assumption)
    | with_reducible apply Keeps.mk_ecc

theorem State.copyIssue_keeps (s : State) (e : Evac) {F : Nat} (hF : Sub 0x1E047CC F) : Keeps F s (State.copyIssue s
    e) := by
  unfold State.copyIssue
  repeat' first
    | extract_lets | with_reducible assumption | with_reducible exact Keeps.refl _ | exact hF.within rfl
    | (with_reducible apply Keeps.trans; on_goal 2 => with_reducible first
          | apply State.encode_keeps | apply State.poisonCreated_keeps
          | exact State.spend_keeps _ _ _ (hF.within rfl) _ (by with_reducible assumption)
          | apply State.readLine_keeps | apply State.copyPut_keeps)
    | (with_reducible apply Keeps.ite <;> intro _)
    | split
    | (with_reducible apply Keeps.fst; on_goal 2 => with_reducible assumption)
    | (with_reducible apply Keeps.snd; on_goal 2 => with_reducible assumption)
    | with_reducible apply Keeps.mk_ecc

theorem State.copyTake_keeps (s : State) (errs : List (Nat × Nat)) {F : Nat} (hF : Sub 0x1E0441C F) : ∀ o,
    (State.copyTake s errs) = some o → Keeps F s o := by
  intro o e
  unfold State.copyTake at e
  repeat' (first | (injection e; subst_vars) | extract_lets at e | split at e | contradiction)
  repeat' first
    | extract_lets | with_reducible assumption | with_reducible exact Keeps.refl _ | exact hF.within rfl
    | (with_reducible apply Keeps.trans; on_goal 2 => with_reducible first
          | apply State.dropRet_keeps | apply State.copied_keeps)
    | (with_reducible apply Keeps.ite <;> intro _)
    | split

theorem State.copyStep_keeps (s : State) (errs : List (Nat × Nat)) {F : Nat} (hF : Sub 0x1E047DC F) : Keeps F s
    (State.copyStep s errs) := by
  unfold State.copyStep
  repeat' first
    | extract_lets | with_reducible assumption | with_reducible exact Keeps.refl _ | exact hF.within rfl
    | (with_reducible apply Keeps.trans; on_goal 2 => with_reducible first
          | apply State.copyIssue_keeps
          | exact State.copyTake_keeps _ _ (hF.within rfl) _ (by with_reducible assumption))
    | with_reducible apply Keeps.getD
    | exact State.copyTake_keeps _ _ (hF.within rfl)
    | split

theorem execEvacCopyLine_keeps (errs : List (Nat × Nat)) (s : State) : Keeps.Out 0x1E047DC s (execEvacCopyLine errs s)
    := by
  unfold execEvacCopyLine
  have hF := Sub.refl 0x1E047DC
  apply Keeps.done
  repeat' first
    | extract_lets | with_reducible assumption | with_reducible exact Keeps.refl _ | exact hF.within rfl
    | (with_reducible apply Keeps.trans; on_goal 2 => with_reducible first | apply State.copyStep_keeps)
    | (with_reducible apply Keeps.ite <;> intro _)

theorem State.moveEntries_keeps (s : State) (m m16 : Nat) {F : Nat} (hF : Sub 0x400 F) : Keeps F s (State.moveEntries
    s m m16) := by
  unfold State.moveEntries
  repeat' first
    | extract_lets | with_reducible assumption | with_reducible exact Keeps.refl _ | exact hF.within rfl
    | (with_reducible apply Keeps.trans; on_goal 2 => with_reducible first | apply State.setEng_keeps)

theorem State.clearHealing_keeps (s : State) (k : Nat) {F : Nat} (hF : Sub 0x4008 F) : Keeps F s (State.clearHealing s
    k) := by
  unfold State.clearHealing
  repeat' first
    | extract_lets | with_reducible assumption | with_reducible exact Keeps.refl _ | exact hF.within rfl
    | (with_reducible apply Keeps.trans; on_goal 2 => with_reducible first
          | apply State.setReg_keeps | apply State.fset_keeps | apply State.setFlag_keeps
          | apply State.clearTracker_keeps)
    | split
    | (with_reducible apply Keeps.fst; on_goal 2 => with_reducible assumption)
    | (with_reducible apply Keeps.snd; on_goal 2 => with_reducible assumption)
    | with_reducible apply Keeps.mk_ecc

theorem State.evacSwitch_keeps (s : State) (e : Evac) {F : Nat} (hF : Sub 0x1E0450C F) : Keeps F s (State.evacSwitch s
    e) := by
  unfold State.evacSwitch
  repeat' first
    | extract_lets | with_reducible assumption | with_reducible exact Keeps.refl _ | exact hF.within rfl
    | (with_reducible apply Keeps.trans; on_goal 2 => with_reducible first
          | apply State.fset_keeps | apply State.setFlag_keeps | apply State.fresh_keeps
          | apply State.noteBoundary_keeps | apply State.setC61_keeps | apply State.hardenIndex_keeps
          | apply State.reportEvac_keeps | apply State.moveEntries_keeps | apply State.clearHealing_keeps)

theorem State.evacEnd_keeps (s : State) (e : Evac) {F : Nat} (hF : Sub 0x1E04D0C F) : Keeps F s (State.evacEnd s e) :=
    by
  unfold State.evacEnd
  repeat' first
    | extract_lets | with_reducible assumption | with_reducible exact Keeps.refl _ | exact hF.within rfl
    | (with_reducible apply Keeps.trans; on_goal 2 => with_reducible first
          | apply State.slotStep_keeps | apply State.evacSwitch_keeps)
    | (with_reducible apply Keeps.ite <;> intro _)
    | split
    | (with_reducible apply Keeps.fst; on_goal 2 => with_reducible assumption)

theorem execEvacDone_keeps (s : State) : Keeps.Out 0x1E04D0C s (execEvacDone s) := by
  unfold execEvacDone
  have hF := Sub.refl 0x1E04D0C
  apply Keeps.done
  repeat' first
    | extract_lets | with_reducible assumption | with_reducible exact Keeps.refl _ | exact hF.within rfl
    | (with_reducible apply Keeps.trans; on_goal 2 => with_reducible first | apply State.evacEnd_keeps)
    | (with_reducible apply Keeps.ite <;> intro _)
    | split

theorem State.dropSpares_keeps (s : State) (k : Nat) {F : Nat} (hF : Sub 0x1E04008 F) : Keeps F s (State.dropSpares s
    k) := by
  unfold State.dropSpares
  repeat' first
    | extract_lets | with_reducible assumption | with_reducible exact Keeps.refl _ | exact hF.within rfl
    | (with_reducible apply Keeps.trans; on_goal 2 => with_reducible first | apply State.finishOp_keeps)
    | (with_reducible apply Keeps.foldl; intro _ _ _)
    | (with_reducible apply Keeps.foldlP; intro _ _ _)
    | (with_reducible apply Keeps.ite <;> intro _)
    | split
    | (with_reducible apply Keeps.fst; on_goal 2 => with_reducible assumption)
    | (with_reducible apply Keeps.snd; on_goal 2 => with_reducible assumption)
    | with_reducible apply Keeps.mk_ecc

theorem State.permFence_keeps (s : State) (k cause : Nat) {F : Nat} (hF : Sub 0x1E846DC F) : Keeps F s
    (State.permFence s k cause) := by
  unfold State.permFence
  repeat' first
    | extract_lets | with_reducible assumption | with_reducible exact Keeps.refl _ | exact hF.within rfl
    | (with_reducible apply Keeps.trans; on_goal 2 => with_reducible first
          | apply State.fset_keeps | apply State.int_keeps | apply State.event_keeps | apply State.fenceEngine_keeps
          | apply State.hardenIndex_keeps | apply State.dropSpares_keeps)
    | (with_reducible apply Keeps.ite <;> intro _)
    | split
    | (with_reducible apply Keeps.fst; on_goal 2 => with_reducible assumption)
    | (with_reducible apply Keeps.snd; on_goal 2 => with_reducible assumption)
    | with_reducible apply Keeps.mk_ecc

/-! ### Machine/ScanCmds.lean -/

theorem State.reserve_keeps (s : State) (i cls engs rate : Nat) {F : Nat} (hF : Sub 0x108 F) : Keeps F s
    (State.reserve s i cls engs rate) := by
  unfold State.reserve
  repeat' first
    | extract_lets | with_reducible assumption | with_reducible exact Keeps.refl _ | exact hF.within rfl
    | (with_reducible apply Keeps.trans; on_goal 2 => with_reducible first
          | apply State.fset_keeps | apply State.setFlag_keeps | apply State.scnRegs_keeps
          | apply State.setC62_keeps)

theorem execScnReserve_keeps (h : Halyard) (s : State) : Keeps.Out 0x13E04148 s (execScnReserve h s) := by
  unfold execScnReserve
  have hF := Sub.refl 0x13E04148
  apply Keeps.done
  repeat' first
    | extract_lets | with_reducible assumption | with_reducible exact Keeps.refl _ | exact hF.within rfl
    | (with_reducible apply Keeps.trans; on_goal 2 => with_reducible first
          | apply State.replyOk_keeps | apply State.replySt_keeps | apply State.replyBad_keeps
          | apply State.packet_keeps | apply State.reserve_keeps)
    | split
    | intro _

theorem State.releaseRes_keeps (s : State) (i : Nat) {F : Nat} (hF : Sub 0x10108 F) : Keeps F s (State.releaseRes s i)
    := by
  unfold State.releaseRes
  repeat' first
    | extract_lets | with_reducible assumption | with_reducible exact Keeps.refl _ | exact hF.within rfl
    | (with_reducible apply Keeps.trans; on_goal 2 => with_reducible first
          | apply State.setReg_keeps | apply State.scnRegs_keeps | apply State.setC62_keeps)
    | split
    | (with_reducible apply Keeps.fst; on_goal 2 => with_reducible assumption)
    | (with_reducible apply Keeps.snd; on_goal 2 => with_reducible assumption)
    | with_reducible apply Keeps.mk_scn

theorem execScnRelease_keeps (h : Halyard) (s : State) : Keeps.Out 0x13E14148 s (execScnRelease h s) := by
  unfold execScnRelease
  have hF := Sub.refl 0x13E14148
  apply Keeps.done
  repeat' first
    | extract_lets | with_reducible assumption | with_reducible exact Keeps.refl _ | exact hF.within rfl
    | (with_reducible apply Keeps.trans; on_goal 2 => with_reducible first
          | apply State.replyOk_keeps | apply State.replyBad_keeps | apply State.packet_keeps
          | apply State.releaseRes_keeps)
    | split
    | intro _

theorem execScnLimits_keeps (h : Halyard) (s : State) : Keeps.Out 0x13E04148 s (execScnLimits h s) := by
  unfold execScnLimits
  have hF := Sub.refl 0x13E04148
  apply Keeps.done
  repeat' first
    | extract_lets | with_reducible assumption | with_reducible exact Keeps.refl _ | exact hF.within rfl
    | (with_reducible apply Keeps.trans; on_goal 2 => with_reducible first
          | apply State.fset_keeps | apply State.replyOk_keeps | apply State.replyBad_keeps
          | apply State.packet_keeps | apply State.setC62_keeps)
    | split
    | intro _

theorem execScnCancel_keeps (h : Halyard) (s : State) : Keeps.Out 0x13E140C8 s (execScnCancel h s) := by
  unfold execScnCancel
  have hF := Sub.refl 0x13E140C8
  apply Keeps.done
  repeat' first
    | extract_lets | with_reducible assumption | with_reducible exact Keeps.refl _ | exact hF.within rfl
    | (with_reducible apply Keeps.trans; on_goal 2 => with_reducible first
          | apply State.replyOk_keeps | apply State.replyBad_keeps | apply State.packet_keeps
          | apply State.abortScan_keeps)
    | split
    | intro _

theorem execFlushCtrlStart_keeps (inv : Bool) (s : State) : Keeps.Out 0x2008 s (execFlushCtrlStart inv s) := by
  unfold execFlushCtrlStart
  have hF := Sub.refl 0x2008
  apply Keeps.done
  repeat' first
    | extract_lets | with_reducible assumption | with_reducible exact Keeps.refl _ | exact hF.within rfl
    | (with_reducible apply Keeps.trans; on_goal 2 => with_reducible first | apply State.startFlush_keeps)
    | (with_reducible apply Keeps.ite <;> intro _)

theorem execFlushDone_keeps (s : State) : Keeps.Out 0x1E066DC s (execFlushDone s) := by
  unfold execFlushDone
  have hF := Sub.refl 0x1E066DC
  apply Keeps.done
  repeat' first
    | extract_lets | with_reducible assumption | with_reducible exact Keeps.refl _ | exact hF.within rfl
    | (with_reducible apply Keeps.trans; on_goal 2 => with_reducible first | apply State.flushEnd_keeps)
    | (with_reducible apply Keeps.ite <;> intro _)
    | split

/-! ### Machine/Stk.lean -/

theorem State.markVia_keeps (s : State) (m v : Nat) {F : Nat} (hF : Sub 0x8 F) : Keeps F s (State.markVia s m v) := by
  unfold State.markVia
  repeat' first
    | extract_lets | with_reducible assumption | with_reducible exact Keeps.refl _ | exact hF.within rfl
    | (with_reducible apply Keeps.trans; on_goal 2 => with_reducible first | apply State.fset_keeps)
    | (with_reducible apply Keeps.ite <;> intro _)

theorem State.eraseMat_keeps (s : State) (k mat : Nat) {F : Nat} (hF : Sub 0x1804008 F) : Keeps F s (State.eraseMat s
    k mat) := by
  unfold State.eraseMat
  repeat' first
    | extract_lets | with_reducible assumption | with_reducible exact Keeps.refl _ | exact hF.within rfl
    | (with_reducible apply Keeps.trans; on_goal 2 => with_reducible first
          | apply State.fset_keeps | apply State.setFlag_keeps | apply State.int_keeps | apply State.wantEvac_keeps)
    | (with_reducible apply Keeps.ite <;> intro _)

theorem State.lostIndex_keeps (s : State) (k : Nat) {F : Nat} (hF : Sub 0x1804008 F) : Keeps F s (State.lostIndex s k)
    := by
  unfold State.lostIndex
  repeat' first
    | extract_lets | with_reducible assumption | with_reducible exact Keeps.refl _ | exact hF.within rfl
    | (with_reducible apply Keeps.trans; on_goal 2 => with_reducible first
          | apply State.wantEvac_keeps | apply State.pcFailed_keeps | apply State.nextEvac_keeps)
    | (with_reducible apply Keeps.ite <;> intro _)

theorem State.mastLost_keeps (s : State) (m : Nat) {F : Nat} (hF : Sub 0x1E04508 F) : Keeps F s (State.mastLost s m)
    := by
  unfold State.mastLost
  repeat' first
    | extract_lets | with_reducible assumption | with_reducible exact Keeps.refl _ | exact hF.within rfl
    | (with_reducible apply Keeps.trans; on_goal 2 => with_reducible first
          | apply State.fset_keeps | apply State.pcFailed_keeps | apply State.abandonEvac_keeps
          | apply State.lostIndex_keeps)
    | (with_reducible apply Keeps.ite <;> intro _)
    | split
    | (with_reducible apply Keeps.fst; on_goal 2 => with_reducible assumption)
    | (with_reducible apply Keeps.snd; on_goal 2 => with_reducible assumption)
    | with_reducible apply Keeps.mk_ecc

theorem State.loseMast_keeps (s : State) (m : Nat) {F : Nat} (hF : Sub 0x1E04508 F) : Keeps F s (State.loseMast s m)
    := by
  unfold State.loseMast
  repeat' first
    | extract_lets | with_reducible assumption | with_reducible exact Keeps.refl _ | exact hF.within rfl
    | (with_reducible apply Keeps.trans; on_goal 2 => with_reducible first
          | apply State.fset_keeps | apply State.bumpSat_keeps | apply State.fault_keeps | apply State.int_keeps
          | apply State.mastLost_keeps)
    | (with_reducible apply Keeps.ite <;> intro _)

theorem State.degradeMast_keeps (s : State) (m mat : Nat) {F : Nat} (hF : Sub 0x1804008 F) : Keeps F s
    (State.degradeMast s m mat) := by
  unfold State.degradeMast
  repeat' first
    | extract_lets | with_reducible assumption | with_reducible exact Keeps.refl _ | exact hF.within rfl
    | (with_reducible apply Keeps.trans; on_goal 2 => with_reducible first
          | apply State.fset_keeps | apply State.bumpSat_keeps | apply State.fault_keeps | apply State.int_keeps
          | apply State.eraseMat_keeps)
    | split

theorem State.viaLost_keeps (s : State) (m v : Nat) {F : Nat} (hF : Sub 0x1E04508 F) : Keeps F s (State.viaLost s m v)
    := by
  unfold State.viaLost
  repeat' first
    | extract_lets | with_reducible assumption | with_reducible exact Keeps.refl _ | exact hF.within rfl
    | (with_reducible apply Keeps.trans; on_goal 2 => with_reducible first
          | apply State.loseMast_keeps | apply State.degradeMast_keeps)
    | (with_reducible apply Keeps.ite <;> intro _)
    | split
    | (with_reducible apply Keeps.fst; on_goal 2 => with_reducible assumption)
    | (with_reducible apply Keeps.snd; on_goal 2 => with_reducible assumption)

theorem State.calMast_keeps (s : State) (m : Nat) {F : Nat} (hF : Sub 0x40000 F) : Keeps F s (State.calMast s m) := by
  unfold State.calMast
  repeat' first
    | extract_lets | with_reducible assumption | with_reducible exact Keeps.refl _ | exact hF.within rfl
    | (with_reducible apply Keeps.ite <;> intro _)
    | split
    | (with_reducible apply Keeps.fst; on_goal 2 => with_reducible assumption)
    | (with_reducible apply Keeps.snd; on_goal 2 => with_reducible assumption)
    | with_reducible apply Keeps.mk_cal

theorem State.noteErrs_keeps (s : State) (m : Nat) (first : Bool) (errs : List (Nat × Nat)) {F : Nat} (hF : Sub
    0x1800008 F) : Keeps F s (State.noteErrs s m first errs) := by
  unfold State.noteErrs
  repeat' first
    | extract_lets | with_reducible assumption | with_reducible exact Keeps.refl _ | exact hF.within rfl
    | (with_reducible apply Keeps.trans; on_goal 2 => with_reducible first
          | apply State.fset_keeps | apply State.bumpSat_keeps | apply State.int_keeps)
    | (with_reducible apply Keeps.ite <;> intro _)

theorem State.dropTest_keeps (s : State) (m : Nat) {F : Nat} (hF : Sub 0x8000 F) : Keeps F s (State.dropTest s m) :=
    by
  unfold State.dropTest
  repeat' first
    | extract_lets | with_reducible assumption | with_reducible exact Keeps.refl _ | exact hF.within rfl
    | split
    | (with_reducible apply Keeps.fst; on_goal 2 => with_reducible assumption)
    | (with_reducible apply Keeps.snd; on_goal 2 => with_reducible assumption)
    | with_reducible apply Keeps.mk_stk

theorem State.putTest_keeps (s : State) (t : FieldTest) {F : Nat} (hF : Sub 0x8000 F) : Keeps F s (State.putTest s t)
    := by
  unfold State.putTest
  repeat' first
    | extract_lets | with_reducible assumption | with_reducible exact Keeps.refl _ | exact hF.within rfl
    | (with_reducible apply Keeps.trans; on_goal 2 => with_reducible first | apply State.dropTest_keeps)
    | split
    | (with_reducible apply Keeps.fst; on_goal 2 => with_reducible assumption)
    | (with_reducible apply Keeps.snd; on_goal 2 => with_reducible assumption)
    | with_reducible apply Keeps.mk_stk

theorem State.endTest_keeps (s : State) (t : FieldTest) (remaps outcome : Nat) {F : Nat} (hF : Sub 0x1E08008 F) :
    Keeps F s (State.endTest s t remaps outcome) := by
  unfold State.endTest
  repeat' first
    | extract_lets | with_reducible assumption | with_reducible exact Keeps.refl _ | exact hF.within rfl
    | (with_reducible apply Keeps.trans; on_goal 2 => with_reducible first
          | apply State.finishOp_keeps | apply State.dropTest_keeps)
    | split

theorem State.setDelay_keeps (s : State) (m setting v : Nat) {F : Nat} (hF : Sub 0x40000 F) : Keeps F s
    (State.setDelay s m setting v) := by
  unfold State.setDelay
  repeat' first
    | extract_lets | with_reducible assumption | with_reducible exact Keeps.refl _ | exact hF.within rfl
    | (with_reducible apply Keeps.ite <;> intro _)
    | split
    | (with_reducible apply Keeps.fst; on_goal 2 => with_reducible assumption)
    | (with_reducible apply Keeps.snd; on_goal 2 => with_reducible assumption)
    | with_reducible apply Keeps.mk_cal

theorem State.remapVia_keeps (s : State) (m v : Nat) {F : Nat} (hF : Sub 0x1844008 F) : Keeps F s (State.remapVia s m
    v) := by
  unfold State.remapVia
  repeat' first
    | extract_lets | with_reducible assumption | with_reducible exact Keeps.refl _ | exact hF.within rfl
    | (with_reducible apply Keeps.trans; on_goal 2 => with_reducible first
          | apply State.fset_keeps | apply State.bumpSat_keeps | apply State.int_keeps | apply State.hardenVia_keeps
          | apply State.markVia_keeps | apply State.calMast_keeps | apply State.setDelay_keeps)
    | (with_reducible apply Keeps.ite <;> intro _)

theorem State.spareBad_keeps (s : State) (m v : Nat) {F : Nat} (hF : Sub 0x1E04508 F) : Keeps F s (State.spareBad s m
    v) := by
  unfold State.spareBad
  repeat' first
    | extract_lets | with_reducible assumption | with_reducible exact Keeps.refl _ | exact hF.within rfl
    | (with_reducible apply Keeps.trans; on_goal 2 => with_reducible first
          | apply State.fset_keeps | apply State.markVia_keeps | apply State.viaLost_keeps)
    | (with_reducible apply Keeps.ite <;> intro _)

theorem State.judgeVia_keeps (s : State) (m : Nat) (erred : List Nat) (v : Nat) {F : Nat} (hF : Sub 0x1E44508 F) :
    Keeps F s (State.judgeVia s m erred v).1 := by
  unfold State.judgeVia
  repeat' first
    | extract_lets | with_reducible assumption | with_reducible exact Keeps.refl _ | exact hF.within rfl
    | (with_reducible apply Keeps.trans; on_goal 2 => with_reducible first
          | apply State.markVia_keeps | apply State.viaLost_keeps | apply State.remapVia_keeps
          | apply State.spareBad_keeps)
    | split

theorem State.noteVias_keeps (s : State) (m : Nat) (failed : List Nat) {F : Nat} (hF : Sub 0x1808008 F) : Keeps F s
    (State.noteVias s m failed) := by
  unfold State.noteVias
  repeat' first
    | extract_lets | with_reducible assumption | with_reducible exact Keeps.refl _ | exact hF.within rfl
    | (with_reducible apply Keeps.trans; on_goal 2 => with_reducible first | apply State.fault_keeps)
    | (with_reducible apply Keeps.ite <;> intro _)
    | split
    | (with_reducible apply Keeps.fst; on_goal 2 => with_reducible assumption)
    | (with_reducible apply Keeps.snd; on_goal 2 => with_reducible assumption)
    | with_reducible apply Keeps.mk_stk

theorem State.judgeTest_keeps (s : State) (t : FieldTest) {F : Nat} (hF : Sub 0x1E4C508 F) : Keeps F s
    (State.judgeTest s t) := by
  unfold State.judgeTest
  repeat' first
    | extract_lets | with_reducible assumption | with_reducible exact Keeps.refl _ | exact hF.within rfl
    | (with_reducible apply Keeps.trans; on_goal 2 => with_reducible first
          | apply State.noteFails_keeps | apply State.endTest_keeps | apply State.judgeVia_keeps
          | apply State.noteVias_keeps)
    | (with_reducible apply Keeps.foldlP; intro _ _ _)

theorem State.askTest_keeps (s : State) (t : FieldTest) {F : Nat} (hF : Sub 0x8408 F) : Keeps F s (State.askTest s t)
    := by
  unfold State.askTest
  repeat' first
    | extract_lets | with_reducible assumption | with_reducible exact Keeps.refl _ | exact hF.within rfl
    | (with_reducible apply Keeps.trans; on_goal 2 => with_reducible first
          | apply State.askSlot_keeps | apply State.putTest_keeps)

theorem State.testSlot_keeps (s : State) (t : FieldTest) {F : Nat} (hF : Sub 0x1E4C508 F) : Keeps F s (State.testSlot
    s t) := by
  unfold State.testSlot
  repeat' first
    | extract_lets | with_reducible assumption | with_reducible exact Keeps.refl _ | exact hF.within rfl
    | (with_reducible apply Keeps.trans; on_goal 2 => with_reducible first
          | apply State.fset_keeps | apply State.bumpSat_keeps | apply State.noteErrs_keeps
          | apply State.putTest_keeps | apply State.endTest_keeps | apply State.judgeTest_keeps)
    | (with_reducible apply Keeps.ite <;> intro _)

theorem State.testGranted_keeps (s : State) (m : Nat) {F : Nat} (hF : Sub 0x1E4C508 F) : Keeps F s (State.testGranted
    s m) := by
  unfold State.testGranted
  repeat' first
    | extract_lets | with_reducible assumption | with_reducible exact Keeps.refl _ | exact hF.within rfl
    | (with_reducible apply Keeps.trans; on_goal 2 => with_reducible first | apply State.testSlot_keeps)
    | (with_reducible apply Keeps.ite <;> intro _)
    | split

theorem State.beginTest_keeps (s : State) (m : Nat) (op : Option Nat) (errs : List (Nat × Nat)) {F : Nat} (hF : Sub
    0x8408 F) : Keeps F s (State.beginTest s m op errs) := by
  unfold State.beginTest
  repeat' first
    | extract_lets | with_reducible assumption | with_reducible exact Keeps.refl _ | exact hF.within rfl
    | (with_reducible apply Keeps.trans; on_goal 2 => with_reducible first | apply State.askTest_keeps)

theorem State.retest_keeps (s : State) (t : FieldTest) (errs : List (Nat × Nat)) {F : Nat} (hF : Sub 0x8408 F) : Keeps
    F s (State.retest s t errs) := by
  unfold State.retest
  repeat' first
    | extract_lets | with_reducible assumption | with_reducible exact Keeps.refl _ | exact hF.within rfl
    | (with_reducible apply Keeps.trans; on_goal 2 => with_reducible first | apply State.askTest_keeps)
    | (with_reducible apply Keeps.ite <;> intro _)

theorem State.fieldTick_keeps (s : State) (errs : List (Nat × Nat)) {F : Nat} (hF : Sub 0x8408 F) : Keeps F s
    (State.fieldTick s errs) := by
  unfold State.fieldTick
  repeat' first
    | extract_lets | with_reducible assumption | with_reducible exact Keeps.refl _ | exact hF.within rfl
    | (with_reducible apply Keeps.trans; on_goal 2 => with_reducible first
          | apply State.fset_keeps | apply State.beginTest_keeps)
    | (with_reducible apply Keeps.ite <;> intro _)
    | split
    | (with_reducible apply Keeps.fst; on_goal 2 => with_reducible assumption)
    | (with_reducible apply Keeps.snd; on_goal 2 => with_reducible assumption)
    | with_reducible apply Keeps.mk_stk

theorem State.dueTest_keeps (s : State) {F : Nat} (hF : Sub 0x8408 F) : Keeps F s (State.dueTest s) := by
  unfold State.dueTest
  repeat' first
    | extract_lets | with_reducible assumption | with_reducible exact Keeps.refl _ | exact hF.within rfl
    | (with_reducible apply Keeps.trans; on_goal 2 => with_reducible first | apply State.beginTest_keeps)
    | (with_reducible apply Keeps.ite <;> intro _)
    | split
    | (with_reducible apply Keeps.fst; on_goal 2 => with_reducible assumption)
    | (with_reducible apply Keeps.snd; on_goal 2 => with_reducible assumption)
    | with_reducible apply Keeps.mk_stk

theorem execFieldTestTick_keeps (errs : List (Nat × Nat)) (s : State) : Keeps.Out 0x8408 s (execFieldTestTick errs s)
    := by
  unfold execFieldTestTick
  have hF := Sub.refl 0x8408
  apply Keeps.done
  repeat' first
    | extract_lets | with_reducible assumption | with_reducible exact Keeps.refl _ | exact hF.within rfl
    | (with_reducible apply Keeps.trans; on_goal 2 => with_reducible first | apply State.fieldTick_keeps)
    | (with_reducible apply Keeps.ite <;> intro _)

theorem execFieldTestRetest_keeps (m : Nat) (errs : List (Nat × Nat)) (s : State) : Keeps.Out 0x8408 s
    (execFieldTestRetest m errs s) := by
  unfold execFieldTestRetest
  have hF := Sub.refl 0x8408
  apply Keeps.done
  repeat' first
    | extract_lets | with_reducible assumption | with_reducible exact Keeps.refl _ | exact hF.within rfl
    | (with_reducible apply Keeps.trans; on_goal 2 => with_reducible first | apply State.retest_keeps)
    | (with_reducible apply Keeps.ite <;> intro _)
    | split

theorem execFieldTest_keeps (h : Halyard) (errs : List (Nat × Nat)) (s : State) : Keeps.Out 0x13E0C448 s
    (execFieldTest h errs s) := by
  unfold execFieldTest
  have hF := Sub.refl 0x13E0C448
  apply Keeps.done
  repeat' first
    | extract_lets | with_reducible assumption | with_reducible exact Keeps.refl _ | exact hF.within rfl
    | (with_reducible apply Keeps.trans; on_goal 2 => with_reducible first
          | apply State.replySt_keeps | apply State.replyBad_keeps | apply State.accept_keeps
          | apply State.packet_keeps | apply State.beginTest_keeps)
    | split
    | intro _

theorem State.mastRemapped_keeps (s : State) (m : Nat) {F : Nat} (hF : Sub 0x8 F) : Keeps F s (State.mastRemapped s m)
    := by
  unfold State.mastRemapped
  repeat' first
    | extract_lets | with_reducible assumption | with_reducible exact Keeps.refl _ | exact hF.within rfl
    | (with_reducible apply Keeps.trans; on_goal 2 => with_reducible first | apply State.fset_keeps)
    | (with_reducible apply Keeps.ite <;> intro _)

theorem State.reportLost_keeps (s : State) (m : Nat) {F : Nat} (hF : Sub 0x1800008 F) : Keeps F s (State.reportLost s
    m) := by
  unfold State.reportLost
  repeat' first
    | extract_lets | with_reducible assumption | with_reducible exact Keeps.refl _ | exact hF.within rfl
    | (with_reducible apply Keeps.trans; on_goal 2 => with_reducible first
          | apply State.fset_keeps | apply State.bumpSat_keeps | apply State.fault_keeps | apply State.int_keeps)
    | (with_reducible apply Keeps.ite <;> intro _)

theorem State.trainLost_keeps (s : State) (m v : Nat) {F : Nat} (hF : Sub 0x1800008 F) : Keeps F s (State.trainLost s
    m v) := by
  unfold State.trainLost
  repeat' first
    | extract_lets | with_reducible assumption | with_reducible exact Keeps.refl _ | exact hF.within rfl
    | (with_reducible apply Keeps.trans; on_goal 2 => with_reducible first
          | apply State.fset_keeps | apply State.bumpSat_keeps | apply State.fault_keeps | apply State.int_keeps
          | apply State.reportLost_keeps)
    | (with_reducible apply Keeps.ite <;> intro _)
    | split
    | (with_reducible apply Keeps.fst; on_goal 2 => with_reducible assumption)
    | (with_reducible apply Keeps.snd; on_goal 2 => with_reducible assumption)

theorem State.trainVia_keeps (s : State) (m : Nat) (bad : List Nat) (v : Nat) {F : Nat} (hF : Sub 0x1804008 F) : Keeps
    F s (State.trainVia s m bad v).1 := by
  unfold State.trainVia
  repeat' first
    | extract_lets | with_reducible assumption | with_reducible exact Keeps.refl _ | exact hF.within rfl
    | (with_reducible apply Keeps.trans; on_goal 2 => with_reducible first
          | apply State.fset_keeps | apply State.hardenVia_keeps | apply State.markVia_keeps
          | apply State.mastRemapped_keeps | apply State.trainLost_keeps)
    | split

theorem State.trainMast_keeps (s : State) (m : Nat) (l : List ViaTrain) {F : Nat} (hF : Sub 0x1844008 F) : Keeps F s
    (State.trainMast s m l) := by
  unfold State.trainMast
  repeat' first
    | extract_lets | with_reducible assumption | with_reducible exact Keeps.refl _ | exact hF.within rfl
    | (with_reducible apply Keeps.trans; on_goal 2 => with_reducible first
          | apply State.fset_keeps | apply State.noteFails_keeps | apply State.setDelay_keeps
          | apply State.trainVia_keeps)
    | (with_reducible apply Keeps.foldl; intro _ _ _)
    | (with_reducible apply Keeps.foldlP; intro _ _ _)
    | (with_reducible apply Keeps.ite <;> intro _)
    | split
    | (with_reducible apply Keeps.fst; on_goal 2 => with_reducible assumption)
    | (with_reducible apply Keeps.snd; on_goal 2 => with_reducible assumption)

theorem State.relayTrained_keeps (s : State) (m : Nat) (l : List ViaTrain) {F : Nat} (hF : Sub 0x1E44508 F) : Keeps F
    s (State.relayTrained s m l) := by
  unfold State.relayTrained
  repeat' first
    | extract_lets | with_reducible assumption | with_reducible exact Keeps.refl _ | exact hF.within rfl
    | (with_reducible apply Keeps.trans; on_goal 2 => with_reducible first
          | apply State.eraseMat_keeps | apply State.mastLost_keeps | apply State.trainMast_keeps)
    | (with_reducible apply Keeps.ite <;> intro _)
    | split

theorem State.trainRelayMasts_keeps (s : State) (l : List (Nat × List ViaTrain)) {F : Nat} (hF : Sub 0x1E44508 F) :
    Keeps F s (State.trainRelayMasts s l) := by
  unfold State.trainRelayMasts
  repeat' first
    | extract_lets | with_reducible assumption | with_reducible exact Keeps.refl _ | exact hF.within rfl
    | (with_reducible apply Keeps.trans; on_goal 2 => with_reducible first | apply State.relayTrained_keeps)
    | (with_reducible apply Keeps.foldl; intro _ _ _)
    | (with_reducible apply Keeps.foldlP; intro _ _ _)
    | (with_reducible apply Keeps.ite <;> intro _)
    | split
    | (with_reducible apply Keeps.fst; on_goal 2 => with_reducible assumption)
    | (with_reducible apply Keeps.snd; on_goal 2 => with_reducible assumption)

theorem execBistRun_keeps (h : Halyard) (s : State) : Keeps.Out 0x13E0C048 s (execBistRun h s) := by
  unfold execBistRun
  have hF := Sub.refl 0x13E0C048
  apply Keeps.done
  repeat' first
    | extract_lets | with_reducible assumption | with_reducible exact Keeps.refl _ | exact hF.within rfl
    | (with_reducible apply Keeps.trans; on_goal 2 => with_reducible first
          | apply State.setFlag_keeps | apply State.replySt_keeps | apply State.replyBad_keeps
          | apply State.accept_keeps | apply State.packet_keeps)
    | split
    | (with_reducible apply Keeps.fst; on_goal 2 => with_reducible assumption)
    | (with_reducible apply Keeps.snd; on_goal 2 => with_reducible assumption)
    | with_reducible apply Keeps.mk_stk
    | intro _

theorem State.freeSpare_keeps (s : State) (m : Nat) {F : Nat} (hF : Sub 0x8 F) : Keeps F s (State.freeSpare s m) := by
  unfold State.freeSpare
  repeat' first
    | extract_lets | with_reducible assumption | with_reducible exact Keeps.refl _ | exact hF.within rfl
    | (with_reducible apply Keeps.trans; on_goal 2 => with_reducible first
          | apply State.fset_keeps | apply State.setFlag_keeps | apply State.setEngBit_keeps)
    | (with_reducible apply Keeps.ite <;> intro _)

theorem State.bistDone_keeps (s : State) (m set id : Nat) (fails : List (Nat × Nat)) {F : Nat} (hF : Sub 0x1E08008 F)
    : Keeps F s (State.bistDone s m set id fails) := by
  unfold State.bistDone
  repeat' first
    | extract_lets | with_reducible assumption | with_reducible exact Keeps.refl _ | exact hF.within rfl
    | (with_reducible apply Keeps.trans; on_goal 2 => with_reducible first
          | apply State.fset_keeps | apply State.setFlag_keeps | apply State.int_keeps | apply State.finishOp_keeps
          | apply State.noteTest_keeps | apply State.freeSpare_keeps)
    | (with_reducible apply Keeps.ite <;> intro _)
    | split
    | (with_reducible apply Keeps.fst; on_goal 2 => with_reducible assumption)
    | (with_reducible apply Keeps.snd; on_goal 2 => with_reducible assumption)
    | with_reducible apply Keeps.mk_stk

theorem execBistDone_keeps (fails : List (Nat × Nat)) (s : State) : Keeps.Out 0x1E08008 s (execBistDone fails s) := by
  unfold execBistDone
  have hF := Sub.refl 0x1E08008
  apply Keeps.done
  repeat' first
    | extract_lets | with_reducible assumption | with_reducible exact Keeps.refl _ | exact hF.within rfl
    | (with_reducible apply Keeps.trans; on_goal 2 => with_reducible first | apply State.bistDone_keeps)
    | (with_reducible apply Keeps.ite <;> intro _)
    | split

theorem execBistResult_keeps (h : Halyard) (s : State) : Keeps.Out 0x13E04048 s (execBistResult h s) := by
  unfold execBistResult
  have hF := Sub.refl 0x13E04048
  apply Keeps.done
  repeat' first
    | extract_lets | with_reducible assumption | with_reducible exact Keeps.refl _ | exact hF.within rfl
    | (with_reducible apply Keeps.trans; on_goal 2 => with_reducible first
          | apply State.replyOk_keeps | apply State.replyBad_keeps | apply State.packet_keeps)
    | split
    | intro _

theorem State.startRelay_keeps (s : State) (cause : Nat) {F : Nat} (hF : Sub 0x8008 F) : Keeps F s (State.startRelay s
    cause) := by
  unfold State.startRelay
  repeat' first
    | extract_lets | with_reducible assumption | with_reducible exact Keeps.refl _ | exact hF.within rfl
    | (with_reducible apply Keeps.trans; on_goal 2 => with_reducible first
          | apply State.fset_keeps | apply State.setFlag_keeps)
    | split
    | (with_reducible apply Keeps.fst; on_goal 2 => with_reducible assumption)
    | (with_reducible apply Keeps.snd; on_goal 2 => with_reducible assumption)
    | with_reducible apply Keeps.mk_stk

theorem State.relayHold_keeps (s : State) (r : RelaySt) {F : Nat} (hF : Sub 0x8C408 F) : Keeps F s (State.relayHold s
    r) := by
  unfold State.relayHold
  repeat' first
    | extract_lets | with_reducible assumption | with_reducible exact Keeps.refl _ | exact hF.within rfl
    | (with_reducible apply Keeps.trans; on_goal 2 => with_reducible first
          | apply State.fset_keeps | apply State.enterSr_keeps)
    | (with_reducible apply Keeps.foldl; intro _ _ _)
    | (with_reducible apply Keeps.ite <;> intro _)
    | split
    | (with_reducible apply Keeps.fst; on_goal 2 => with_reducible assumption)
    | (with_reducible apply Keeps.snd; on_goal 2 => with_reducible assumption)
    | with_reducible apply Keeps.mk_stk

theorem State.relayTrain_keeps (s : State) (r : RelaySt) {F : Nat} (hF : Sub 0x8008 F) : Keeps F s (State.relayTrain s
    r) := by
  unfold State.relayTrain
  repeat' first
    | extract_lets | with_reducible assumption | with_reducible exact Keeps.refl _ | exact hF.within rfl
    | (with_reducible apply Keeps.trans; on_goal 2 => with_reducible first | apply State.fset_keeps)
    | split
    | (with_reducible apply Keeps.fst; on_goal 2 => with_reducible assumption)
    | (with_reducible apply Keeps.snd; on_goal 2 => with_reducible assumption)
    | with_reducible apply Keeps.mk_stk

theorem State.relayAgain_keeps (s : State) (r : RelaySt) {F : Nat} (hF : Sub 0x8008 F) : Keeps F s (State.relayAgain s
    r) := by
  unfold State.relayAgain
  repeat' first
    | extract_lets | with_reducible assumption | with_reducible exact Keeps.refl _ | exact hF.within rfl
    | (with_reducible apply Keeps.trans; on_goal 2 => with_reducible first | apply State.fset_keeps)
    | split
    | (with_reducible apply Keeps.fst; on_goal 2 => with_reducible assumption)
    | (with_reducible apply Keeps.snd; on_goal 2 => with_reducible assumption)
    | with_reducible apply Keeps.mk_stk

theorem State.relayEnd_keeps (s : State) (r : RelaySt) (state : Nat) {F : Nat} (hF : Sub 0x1888408 F) : Keeps F s
    (State.relayEnd s r state) := by
  unfold State.relayEnd
  repeat' first
    | extract_lets | with_reducible assumption | with_reducible exact Keeps.refl _ | exact hF.within rfl
    | (with_reducible apply Keeps.trans; on_goal 2 => with_reducible first
          | apply State.fset_keeps | apply State.setFlag_keeps | apply State.bumpSat_keeps | apply State.int_keeps
          | apply State.endReaction_keeps | apply State.srxDie_keeps)
    | (with_reducible apply Keeps.foldl; intro _ _ _)
    | (with_reducible apply Keeps.ite <;> intro _)
    | split
    | (with_reducible apply Keeps.fst; on_goal 2 => with_reducible assumption)
    | (with_reducible apply Keeps.snd; on_goal 2 => with_reducible assumption)
    | with_reducible apply Keeps.mk_stk

theorem State.relayLost_keeps (s : State) {F : Nat} (hF : Sub 0x1E847DC F) : Keeps F s (State.relayLost s) := by
  unfold State.relayLost
  repeat' first
    | extract_lets | with_reducible assumption | with_reducible exact Keeps.refl _ | exact hF.within rfl
    | (with_reducible apply Keeps.trans; on_goal 2 => with_reducible first
          | apply State.fset_keeps | apply State.setFlag_keeps | apply State.int_keeps
          | apply State.abandonEvac_keeps | apply State.permFence_keeps | apply State.reportLost_keeps)
    | (with_reducible apply Keeps.foldl; intro _ _ _)
    | (with_reducible apply Keeps.ite <;> intro _)

theorem State.relayStep_keeps (s : State) (r : RelaySt) (trained : Option (List (Nat × List ViaTrain))) {F : Nat} (hF
    : Sub 0x1ECC7DC F) : Keeps F s (State.relayStep s r trained) := by
  unfold State.relayStep
  repeat' first
    | extract_lets | with_reducible assumption | with_reducible exact Keeps.refl _ | exact hF.within rfl
    | (with_reducible apply Keeps.trans; on_goal 2 => with_reducible first
          | apply State.trainRelayMasts_keeps | apply State.relayHold_keeps | apply State.relayTrain_keeps
          | apply State.relayAgain_keeps | apply State.relayEnd_keeps | apply State.relayLost_keeps)
    | (with_reducible apply Keeps.ite <;> intro _)
    | split
    | (with_reducible apply Keeps.fst; on_goal 2 => with_reducible assumption)
    | (with_reducible apply Keeps.snd; on_goal 2 => with_reducible assumption)

/-! ### Machine/Tap.lean -/

theorem State.tapSelect_keeps (s : State) (ir : Nat) (out : TdoOut) {F : Nat} (hF : Sub 0x20000 F) : Keeps F s
    (State.tapSelect s ir out) := by
  unfold State.tapSelect
  repeat' first
    | extract_lets | with_reducible assumption | with_reducible exact Keeps.refl _ | exact hF.within rfl
    | split
    | (with_reducible apply Keeps.fst; on_goal 2 => with_reducible assumption)
    | (with_reducible apply Keeps.snd; on_goal 2 => with_reducible assumption)
    | with_reducible apply Keeps.mk_tap

theorem State.tapReset_keeps (s : State) {F : Nat} (hF : Sub 0x20000 F) : Keeps F s (State.tapReset s) := by
  unfold State.tapReset
  repeat' first
    | extract_lets | with_reducible assumption | with_reducible exact Keeps.refl _ | exact hF.within rfl
    | split
    | (with_reducible apply Keeps.fst; on_goal 2 => with_reducible assumption)
    | (with_reducible apply Keeps.snd; on_goal 2 => with_reducible assumption)
    | with_reducible apply Keeps.mk_tap

theorem execTrstN_keeps (s : State) : Keeps.Out 0x20000 s (execTrstN s) := by
  unfold execTrstN
  have hF := Sub.refl 0x20000
  apply Keeps.done
  repeat' first
    | extract_lets | with_reducible assumption | with_reducible exact Keeps.refl _ | exact hF.within rfl
    | (with_reducible apply Keeps.trans; on_goal 2 => with_reducible first | apply State.tapReset_keeps)

theorem execIdcode_keeps (s : State) : Keeps.Out 0x20000 s (execIdcode s) := by
  unfold execIdcode
  have hF := Sub.refl 0x20000
  apply Keeps.done
  repeat' first
    | extract_lets | with_reducible assumption | with_reducible exact Keeps.refl _ | exact hF.within rfl
    | (with_reducible apply Keeps.trans; on_goal 2 => with_reducible first | apply State.tapSelect_keeps)

theorem execSamplePreload_keeps (pins preload : Nat) (s : State) : Keeps.Out 0x20000 s (execSamplePreload pins preload
    s) := by
  unfold execSamplePreload
  have hF := Sub.refl 0x20000
  apply Keeps.done
  repeat' first
    | extract_lets | with_reducible assumption | with_reducible exact Keeps.refl _ | exact hF.within rfl
    | (with_reducible apply Keeps.trans; on_goal 2 => with_reducible first | apply State.tapSelect_keeps)
    | split
    | (with_reducible apply Keeps.fst; on_goal 2 => with_reducible assumption)
    | (with_reducible apply Keeps.snd; on_goal 2 => with_reducible assumption)
    | with_reducible apply Keeps.mk_tap

theorem execExtest_keeps (pins value : Nat) (s : State) : Keeps.Out 0x20000 s (execExtest pins value s) := by
  unfold execExtest
  have hF := Sub.refl 0x20000
  apply Keeps.done
  repeat' first
    | extract_lets | with_reducible assumption | with_reducible exact Keeps.refl _ | exact hF.within rfl
    | (with_reducible apply Keeps.trans; on_goal 2 => with_reducible first | apply State.tapSelect_keeps)
    | split
    | (with_reducible apply Keeps.fst; on_goal 2 => with_reducible assumption)
    | (with_reducible apply Keeps.snd; on_goal 2 => with_reducible assumption)
    | with_reducible apply Keeps.mk_tap

theorem execClamp_keeps (s : State) : Keeps.Out 0x20000 s (execClamp s) := by
  unfold execClamp
  have hF := Sub.refl 0x20000
  apply Keeps.done
  repeat' first
    | extract_lets | with_reducible assumption | with_reducible exact Keeps.refl _ | exact hF.within rfl
    | (with_reducible apply Keeps.trans; on_goal 2 => with_reducible first | apply State.tapSelect_keeps)

theorem execHighz_keeps (s : State) : Keeps.Out 0x20000 s (execHighz s) := by
  unfold execHighz
  have hF := Sub.refl 0x20000
  apply Keeps.done
  repeat' first
    | extract_lets | with_reducible assumption | with_reducible exact Keeps.refl _ | exact hF.within rfl
    | (with_reducible apply Keeps.trans; on_goal 2 => with_reducible first | apply State.tapSelect_keeps)

theorem execBypass_keeps (s : State) : Keeps.Out 0x20000 s (execBypass s) := by
  unfold execBypass
  have hF := Sub.refl 0x20000
  apply Keeps.done
  repeat' first
    | extract_lets | with_reducible assumption | with_reducible exact Keeps.refl _ | exact hF.within rfl
    | (with_reducible apply Keeps.trans; on_goal 2 => with_reducible first | apply State.tapSelect_keeps)

theorem State.tapChain_keeps (s : State) {F : Nat} (hF : Sub 0x20000 F) : Keeps F s (State.tapChain s) := by
  unfold State.tapChain
  repeat' first
    | extract_lets | with_reducible assumption | with_reducible exact Keeps.refl _ | exact hF.within rfl
    | (with_reducible apply Keeps.trans; on_goal 2 => with_reducible first | apply State.tapSelect_keeps)
    | (with_reducible apply Keeps.ite <;> intro _)

theorem execStkDsel_keeps (dies : Nat) (s : State) : Keeps.Out 0x20008 s (execStkDsel dies s) := by
  unfold execStkDsel
  have hF := Sub.refl 0x20008
  apply Keeps.done
  repeat' first
    | extract_lets | with_reducible assumption | with_reducible exact Keeps.refl _ | exact hF.within rfl
    | (with_reducible apply Keeps.trans; on_goal 2 => with_reducible first
          | apply State.fset_keeps | apply State.tapSelect_keeps)
    | (with_reducible apply Keeps.ite <;> intro _)

theorem execStkDtap_keeps (s : State) : Keeps.Out 0x20000 s (execStkDtap s) := by
  unfold execStkDtap
  have hF := Sub.refl 0x20000
  apply Keeps.done
  repeat' first
    | extract_lets | with_reducible assumption | with_reducible exact Keeps.refl _ | exact hF.within rfl
    | (with_reducible apply Keeps.trans; on_goal 2 => with_reducible first | apply State.tapChain_keeps)

theorem State.dieTap_keeps (s : State) (d : Nat) (f : State → State) {F : Nat} (hF : Sub 0x20000 F) (hf : ∀ (x0 :
    State), Keeps F x0 (f x0)) : Keeps F s (State.dieTap s d f) := by
  unfold State.dieTap
  repeat' first
    | extract_lets | with_reducible assumption | with_reducible exact Keeps.refl _ | exact hF.within rfl
    | (with_reducible apply Keeps.trans; on_goal 2 => with_reducible first | apply State.tapChain_keeps | apply hf)
    | (with_reducible apply Keeps.ite <;> intro _)

theorem State.setDtap_keeps (s : State) (d ir w b : Nat) {F : Nat} (hF : Sub 0x20000 F) : Keeps F s (State.setDtap s d
    ir w b) := by
  unfold State.setDtap
  repeat' first
    | extract_lets | with_reducible assumption | with_reducible exact Keeps.refl _ | exact hF.within rfl
    | split
    | (with_reducible apply Keeps.fst; on_goal 2 => with_reducible assumption)
    | (with_reducible apply Keeps.snd; on_goal 2 => with_reducible assumption)
    | with_reducible apply Keeps.mk_tap

theorem execDtapIdcode_keeps (d : Nat) (s : State) : Keeps.Out 0x20004 s (execDtapIdcode d s) := by
  unfold execDtapIdcode
  have hF := Sub.refl 0x20004
  apply Keeps.done
  repeat' first
    | extract_lets | with_reducible assumption | with_reducible exact Keeps.refl _ | exact hF.within rfl
    | (with_reducible apply Keeps.trans; on_goal 2 => with_reducible first
          | apply State.fresh_keeps | apply State.dieTap_keeps | apply State.setDtap_keeps)
    | split
    | intro _

theorem execDtapSample_keeps (d vias : Nat) (s : State) : Keeps.Out 0x20000 s (execDtapSample d vias s) := by
  unfold execDtapSample
  have hF := Sub.refl 0x20000
  apply Keeps.done
  repeat' first
    | extract_lets | with_reducible assumption | with_reducible exact Keeps.refl _ | exact hF.within rfl
    | (with_reducible apply Keeps.trans; on_goal 2 => with_reducible first
          | apply State.dieTap_keeps | apply State.setDtap_keeps)
    | split
    | intro _

theorem State.takeMasts_keeps (s : State) (d : Nat) (f : State → State) {F : Nat} (hF : Sub 0x1820008 F) (hf : ∀ (x0 :
    State), Keeps F x0 (f x0)) : Keeps F s (State.takeMasts s d f) := by
  unfold State.takeMasts
  repeat' first
    | extract_lets | with_reducible assumption | with_reducible exact Keeps.refl _ | exact hF.within rfl
    | (with_reducible apply Keeps.trans; on_goal 2 => with_reducible first
          | apply State.setFlag_keeps | apply State.int_keeps | apply State.dieTap_keeps | apply State.setDtap_keeps
          | apply hf)
    | (with_reducible apply Keeps.ite <;> intro _)
    | split
    | intro _

theorem State.driveDwr_keeps (s : State) (d ir vias value : Nat) {F : Nat} (hF : Sub 0x20000 F) : Keeps F s
    (State.driveDwr s d ir vias value) := by
  unfold State.driveDwr
  repeat' first
    | extract_lets | with_reducible assumption | with_reducible exact Keeps.refl _ | exact hF.within rfl
    | (with_reducible apply Keeps.trans; on_goal 2 => with_reducible first | apply State.setDtap_keeps)
    | split
    | (with_reducible apply Keeps.fst; on_goal 2 => with_reducible assumption)
    | (with_reducible apply Keeps.snd; on_goal 2 => with_reducible assumption)
    | with_reducible apply Keeps.mk_tap

theorem execDtapExtest_keeps (d vias value : Nat) (s : State) : Keeps.Out 0x1820008 s (execDtapExtest d vias value s)
    := by
  unfold execDtapExtest
  have hF := Sub.refl 0x1820008
  apply Keeps.done
  repeat' first
    | extract_lets | with_reducible assumption | with_reducible exact Keeps.refl _ | exact hF.within rfl
    | (with_reducible apply Keeps.trans; on_goal 2 => with_reducible first
          | apply State.takeMasts_keeps | apply State.driveDwr_keeps)
    | split
    | intro _

theorem execDtapIntest_keeps (d vias value : Nat) (s : State) : Keeps.Out 0x1820008 s (execDtapIntest d vias value s)
    := by
  unfold execDtapIntest
  have hF := Sub.refl 0x1820008
  apply Keeps.done
  repeat' first
    | extract_lets | with_reducible assumption | with_reducible exact Keeps.refl _ | exact hF.within rfl
    | (with_reducible apply Keeps.trans; on_goal 2 => with_reducible first
          | apply State.takeMasts_keeps | apply State.driveDwr_keeps)
    | split
    | intro _

theorem execDieBist_keeps (d : Nat) (pass : Bool) (sig : Nat) (s : State) : Keeps.Out 0x1820008 s (execDieBist d pass
    sig s) := by
  unfold execDieBist
  have hF := Sub.refl 0x1820008
  apply Keeps.done
  repeat' first
    | extract_lets | with_reducible assumption | with_reducible exact Keeps.refl _ | exact hF.within rfl
    | (with_reducible apply Keeps.trans; on_goal 2 => with_reducible first
          | apply State.setDtap_keeps | apply State.takeMasts_keeps)
    | split
    | intro _

theorem execDtapBypass_keeps (d : Nat) (s : State) : Keeps.Out 0x20000 s (execDtapBypass d s) := by
  unfold execDtapBypass
  have hF := Sub.refl 0x20000
  apply Keeps.done
  repeat' first
    | extract_lets | with_reducible assumption | with_reducible exact Keeps.refl _ | exact hF.within rfl
    | (with_reducible apply Keeps.trans; on_goal 2 => with_reducible first
          | apply State.dieTap_keeps | apply State.setDtap_keeps)
    | split
    | intro _

/-! ### Machine/Cal.lean -/

theorem State.calAdd_keeps (s : State) (j : CalJob) {F : Nat} (hF : Sub 0x40000 F) : Keeps F s (State.calAdd s j) :=
    by
  unfold State.calAdd
  repeat' first
    | extract_lets | with_reducible assumption | with_reducible exact Keeps.refl _ | exact hF.within rfl
    | (with_reducible apply Keeps.ite <;> intro _)
    | split
    | (with_reducible apply Keeps.fst; on_goal 2 => with_reducible assumption)
    | (with_reducible apply Keeps.snd; on_goal 2 => with_reducible assumption)
    | with_reducible apply Keeps.mk_cal

theorem State.calTest_keeps (s : State) (kind idx : Nat) {F : Nat} (hF : Sub 0x40000 F) : Keeps F s (State.calTest s
    kind idx) := by
  unfold State.calTest
  repeat' first
    | extract_lets | with_reducible assumption | with_reducible exact Keeps.refl _ | exact hF.within rfl
    | (with_reducible apply Keeps.trans; on_goal 2 => with_reducible first | apply State.calAdd_keeps)
    | (with_reducible apply Keeps.ite <;> intro _)
    | split
    | (with_reducible apply Keeps.fst; on_goal 2 => with_reducible assumption)
    | (with_reducible apply Keeps.snd; on_goal 2 => with_reducible assumption)
    | with_reducible apply Keeps.mk_cal

theorem State.calTrigger_keeps (s : State) {F : Nat} (hF : Sub 0x40000 F) : Keeps F s (State.calTrigger s) := by
  unfold State.calTrigger
  repeat' first
    | extract_lets | with_reducible assumption | with_reducible exact Keeps.refl _ | exact hF.within rfl
    | (with_reducible apply Keeps.trans; on_goal 2 => with_reducible first | apply State.calTest_keeps)
    | (with_reducible apply Keeps.foldl; intro _ _ _)

theorem execCalTrigger_keeps (s : State) : Keeps.Out 0x40000 s (execCalTrigger s) := by
  unfold execCalTrigger
  have hF := Sub.refl 0x40000
  apply Keeps.done
  repeat' first
    | extract_lets | with_reducible assumption | with_reducible exact Keeps.refl _ | exact hF.within rfl
    | (with_reducible apply Keeps.trans; on_goal 2 => with_reducible first | apply State.calTrigger_keeps)
    | (with_reducible apply Keeps.ite <;> intro _)

theorem State.calRetest_keeps (s : State) {F : Nat} (hF : Sub 0x40000 F) : Keeps F s (State.calRetest s) := by
  unfold State.calRetest
  repeat' first
    | extract_lets | with_reducible assumption | with_reducible exact Keeps.refl _ | exact hF.within rfl
    | (with_reducible apply Keeps.trans; on_goal 2 => with_reducible first | apply State.calTest_keeps)
    | (with_reducible apply Keeps.foldl; intro _ _ _)
    | split
    | (with_reducible apply Keeps.fst; on_goal 2 => with_reducible assumption)
    | (with_reducible apply Keeps.snd; on_goal 2 => with_reducible assumption)
    | with_reducible apply Keeps.mk_cal

theorem execCalHoldExpiry_keeps (s : State) : Keeps.Out 0x40000 s (execCalHoldExpiry s) := by
  unfold execCalHoldExpiry
  have hF := Sub.refl 0x40000
  apply Keeps.done
  repeat' first
    | extract_lets | with_reducible assumption | with_reducible exact Keeps.refl _ | exact hF.within rfl
    | (with_reducible apply Keeps.trans; on_goal 2 => with_reducible first | apply State.calRetest_keeps)
    | (with_reducible apply Keeps.ite <;> intro _)

theorem State.setRun_keeps (s : State) (r : CalRun) {F : Nat} (hF : Sub 0x40000 F) : Keeps F s (State.setRun s r) :=
    by
  unfold State.setRun
  repeat' first
    | extract_lets | with_reducible assumption | with_reducible exact Keeps.refl _ | exact hF.within rfl
    | split
    | (with_reducible apply Keeps.fst; on_goal 2 => with_reducible assumption)
    | (with_reducible apply Keeps.snd; on_goal 2 => with_reducible assumption)
    | with_reducible apply Keeps.mk_cal

theorem State.calStart_keeps (s : State) {F : Nat} (hF : Sub 0x440008 F) : Keeps F s (State.calStart s) := by
  unfold State.calStart
  repeat' first
    | extract_lets | with_reducible assumption | with_reducible exact Keeps.refl _ | exact hF.within rfl
    | (with_reducible apply Keeps.trans; on_goal 2 => with_reducible first
          | apply State.fset_keeps | apply State.runOp_keeps | apply State.setRun_keeps)
    | (with_reducible apply Keeps.ite <;> intro _)
    | split
    | (with_reducible apply Keeps.fst; on_goal 2 => with_reducible assumption)
    | (with_reducible apply Keeps.snd; on_goal 2 => with_reducible assumption)
    | with_reducible apply Keeps.mk_cal

theorem State.calFill_keeps (n : Nat) (s : State) {F : Nat} (hF : Sub 0x40408 F) : Keeps F s (State.calFill n s) := by
  induction n generalizing s with
  | zero => exact Keeps.refl _
  | succ m ih =>
    unfold State.calFill
    repeat' first
      | extract_lets
      | with_reducible assumption
      | with_reducible exact Keeps.refl _
      | exact hF.within rfl
      | (with_reducible apply Keeps.trans; on_goal 2 => with_reducible first
            | apply State.askSlot_keeps | apply State.setRun_keeps | apply ih)
      | (with_reducible apply Keeps.ite <;> intro _)
      | split

theorem State.calJudge_keeps (m : Nat) (a : State × CalRun × SMap Int) (x : Nat × Int × Nat) {F : Nat} (hF : Sub
    0x1800008 F) : Keeps F a.1 (State.calJudge m a x).1 := by
  unfold State.calJudge
  repeat' first
    | extract_lets | with_reducible assumption | with_reducible exact Keeps.refl _ | exact hF.within rfl
    | (with_reducible apply Keeps.trans; on_goal 2 => with_reducible first
          | apply State.fault_keeps | apply State.int_keeps)
    | (with_reducible apply Keeps.ite <;> intro _)

theorem State.calMeasure_keeps (s : State) (r : CalRun) (m : Nat) (meas : List (Nat × Int × Nat)) {F : Nat} (hF : Sub
    0x1800008 F) : Keeps F s (State.calMeasure s r m meas).1 := by
  unfold State.calMeasure
  repeat' first
    | extract_lets | with_reducible assumption | with_reducible exact Keeps.refl _ | exact hF.within rfl
    | (with_reducible apply Keeps.trans; on_goal 2 => with_reducible first | apply State.calJudge_keeps)
    | (with_reducible apply Keeps.foldlP; intro _ _ _)

theorem State.calStep_keeps (s : State) (m : Nat) (owed : SMap Int) {F : Nat} (hF : Sub 0x40000 F) : Keeps F s
    (State.calStep s m owed) := by
  unfold State.calStep
  repeat' first
    | extract_lets | with_reducible assumption | with_reducible exact Keeps.refl _ | exact hF.within rfl
    | (with_reducible apply Keeps.trans; on_goal 2 => with_reducible first | apply State.setDelay_keeps)
    | (with_reducible apply Keeps.foldl; intro _ _ _)
    | split
    | (with_reducible apply Keeps.fst; on_goal 2 => with_reducible assumption)
    | (with_reducible apply Keeps.snd; on_goal 2 => with_reducible assumption)

theorem State.calOwe_keeps (s : State) (r : CalRun) (m : Nat) (owed : SMap Int) {F : Nat} (hF : Sub 0x40408 F) : Keeps
    F s (State.calOwe s r m owed) := by
  unfold State.calOwe
  repeat' first
    | extract_lets | with_reducible assumption | with_reducible exact Keeps.refl _ | exact hF.within rfl
    | (with_reducible apply Keeps.trans; on_goal 2 => with_reducible first
          | apply State.askSlot_keeps | apply State.setRun_keeps)
    | (with_reducible apply Keeps.ite <;> intro _)

theorem State.calSlot_keeps (s : State) (r : CalRun) (w : CalMast) (meas : List (Nat × Int × Nat)) {F : Nat} (hF : Sub
    0x1840408 F) : Keeps F s (State.calSlot s r w meas) := by
  unfold State.calSlot
  repeat' first
    | extract_lets | with_reducible assumption | with_reducible exact Keeps.refl _ | exact hF.within rfl
    | (with_reducible apply Keeps.trans; on_goal 2 => with_reducible first
          | apply State.calMeasure_keeps | apply State.calOwe_keeps)
    | (with_reducible apply Keeps.ite <;> intro _)

theorem State.calGranted_keeps (s : State) (m : Nat) {F : Nat} (hF : Sub 0x40408 F) : Keeps F s (State.calGranted s m)
    := by
  unfold State.calGranted
  repeat' first
    | extract_lets | with_reducible assumption | with_reducible exact Keeps.refl _ | exact hF.within rfl
    | (with_reducible apply Keeps.trans; on_goal 2 => with_reducible first
          | apply State.calStep_keeps | apply State.calOwe_keeps)
    | (with_reducible apply Keeps.ite <;> intro _)
    | split
    | (with_reducible apply Keeps.fst; on_goal 2 => with_reducible assumption)
    | (with_reducible apply Keeps.snd; on_goal 2 => with_reducible assumption)

theorem execRefreshSlot_keeps (m : Nat) (s : State) : Keeps.Out 0x1E4CD08 s (execRefreshSlot m s) := by
  unfold execRefreshSlot
  have hF := Sub.refl 0x1E4CD08
  apply Keeps.done
  repeat' first
    | extract_lets | with_reducible assumption | with_reducible exact Keeps.refl _ | exact hF.within rfl
    | (with_reducible apply Keeps.trans; on_goal 2 => with_reducible first
          | apply State.refreshSlot_keeps | apply State.testGranted_keeps | apply State.calGranted_keeps)
    | (with_reducible apply Keeps.ite <;> intro _)

theorem State.calSkips_keeps (s : State) (m k off : Nat) {F : Nat} (hF : Sub 0x60C F) : Keeps F s (State.calSkips s m
    k off).1 := by
  unfold State.calSkips
  repeat' first
    | extract_lets | with_reducible assumption | with_reducible exact Keeps.refl _ | exact hF.within rfl
    | (with_reducible apply Keeps.trans; on_goal 2 => with_reducible first
          | apply State.access_keeps | apply State.closeMerge_keeps)
    | (with_reducible apply Keeps.ite <;> intro _)
    | split

theorem State.calIssue_keeps (s : State) (r : CalRun) (m : Nat) {F : Nat} (hF : Sub 0x1E447CC F) : Keeps F s
    (State.calIssue s r m) := by
  unfold State.calIssue
  repeat' first
    | extract_lets | with_reducible assumption | with_reducible exact Keeps.refl _ | exact hF.within rfl
    | (with_reducible apply Keeps.trans; on_goal 2 => with_reducible first
          | apply State.enterRead_keeps
          | exact State.spend_keeps _ _ _ (hF.within rfl) _ (by with_reducible assumption)
          | apply State.readLine_keeps | apply State.setRun_keeps | apply State.calSkips_keeps)
    | (with_reducible apply Keeps.ite <;> intro _)
    | split
    | (with_reducible apply Keeps.fst; on_goal 2 => with_reducible assumption)
    | (with_reducible apply Keeps.snd; on_goal 2 => with_reducible assumption)
    | with_reducible apply Keeps.mk_cal

theorem State.calTake_keeps (s : State) (r : CalRun) (m m' : Nat) (t : Ret) (errs : List (Nat × Nat)) {F : Nat} (hF :
    Sub 0x1E4451C F) : Keeps F s (State.calTake s r m m' t errs) := by
  unfold State.calTake
  repeat' first
    | extract_lets | with_reducible assumption | with_reducible exact Keeps.refl _ | exact hF.within rfl
    | (with_reducible apply Keeps.trans; on_goal 2 => with_reducible first
          | apply State.retWord_keeps | apply State.dropRet_keeps | apply State.abandonEvac_keeps
          | apply State.setRun_keeps)
    | (with_reducible apply Keeps.ite <;> intro _)
    | split
    | (with_reducible apply Keeps.fst; on_goal 2 => with_reducible assumption)
    | (with_reducible apply Keeps.snd; on_goal 2 => with_reducible assumption)

theorem State.calDram_keeps (s : State) (r : CalRun) (m : Nat) (meas : List (Nat × Int × Nat)) (errs : List (Nat ×
    Nat)) {F : Nat} (hF : Sub 0x1E447DC F) : Keeps F s (State.calDram s r m meas errs) := by
  unfold State.calDram
  repeat' first
    | extract_lets | with_reducible assumption | with_reducible exact Keeps.refl _ | exact hF.within rfl
    | (with_reducible apply Keeps.trans; on_goal 2 => with_reducible first
          | apply State.askSlot_keeps | apply State.setRun_keeps | apply State.calMeasure_keeps
          | apply State.calIssue_keeps | apply State.calTake_keeps)
    | (with_reducible apply Keeps.ite <;> intro _)
    | split

theorem State.calDrop_keeps (s : State) {F : Nat} (hF : Sub 0x40000 F) : Keeps F s (State.calDrop s) := by
  unfold State.calDrop
  repeat' first
    | extract_lets | with_reducible assumption | with_reducible exact Keeps.refl _ | exact hF.within rfl
    | (with_reducible apply Keeps.trans; on_goal 2 => with_reducible first | apply State.setRun_keeps)
    | split

theorem State.calAt_keeps (s : State) (m : Nat) (meas : List (Nat × Int × Nat)) (errs : List (Nat × Nat)) {F : Nat}
    (hF : Sub 0x1E447DC F) : Keeps F s (State.calAt s m meas errs) := by
  unfold State.calAt
  repeat' first
    | extract_lets | with_reducible assumption | with_reducible exact Keeps.refl _ | exact hF.within rfl
    | (with_reducible apply Keeps.trans; on_goal 2 => with_reducible first
          | apply State.calSlot_keeps | apply State.calDram_keeps)
    | (with_reducible apply Keeps.ite <;> intro _)
    | split

theorem State.dieRun_keeps (s : State) (m : Nat) (meas : List (Nat × Int × Nat)) (errs : List (Nat × Nat)) {F : Nat}
    (hF : Sub 0x1E447DC F) : Keeps F s (State.dieRun s m meas errs) := by
  unfold State.dieRun
  repeat' first
    | extract_lets | with_reducible assumption | with_reducible exact Keeps.refl _ | exact hF.within rfl
    | (with_reducible apply Keeps.trans; on_goal 2 => with_reducible first
          | apply State.calStart_keeps | apply State.calFill_keeps | apply State.calDrop_keeps
          | apply State.calAt_keeps)
    | (with_reducible apply Keeps.ite <;> intro _)
    | split

theorem execDieRun_keeps (m : Nat) (meas : List (Nat × Int × Nat)) (errs : List (Nat × Nat)) (s : State) : Keeps.Out
    0x1E447DC s (execDieRun m meas errs s) := by
  unfold execDieRun
  have hF := Sub.refl 0x1E447DC
  apply Keeps.done
  repeat' first
    | extract_lets | with_reducible assumption | with_reducible exact Keeps.refl _ | exact hF.within rfl
    | (with_reducible apply Keeps.trans; on_goal 2 => with_reducible first | apply State.dieRun_keeps)
    | (with_reducible apply Keeps.ite <;> intro _)

theorem State.calResult_keeps (s : State) (r : CalRun) {F : Nat} (hF : Sub 0x1E40008 F) : Keeps F s (State.calResult s
    r) := by
  unfold State.calResult
  repeat' first
    | extract_lets | with_reducible assumption | with_reducible exact Keeps.refl _ | exact hF.within rfl
    | (with_reducible apply Keeps.trans; on_goal 2 => with_reducible first | apply State.finishOp_keeps)
    | (with_reducible apply Keeps.ite <;> intro _)
    | split
    | (with_reducible apply Keeps.fst; on_goal 2 => with_reducible assumption)
    | (with_reducible apply Keeps.snd; on_goal 2 => with_reducible assumption)
    | with_reducible apply Keeps.mk_cal

theorem State.calEnd_keeps (s : State) (r : CalRun) {F : Nat} (hF : Sub 0x1E40008 F) : Keeps F s (State.calEnd s r) :=
    by
  unfold State.calEnd
  repeat' first
    | extract_lets | with_reducible assumption | with_reducible exact Keeps.refl _ | exact hF.within rfl
    | (with_reducible apply Keeps.trans; on_goal 2 => with_reducible first
          | apply State.fset_keeps | apply State.bumpSat_keeps | apply State.int_keeps | apply State.calTest_keeps
          | apply State.calResult_keeps)
    | (with_reducible apply Keeps.ite <;> intro _)
    | split
    | (with_reducible apply Keeps.fst; on_goal 2 => with_reducible assumption)
    | (with_reducible apply Keeps.snd; on_goal 2 => with_reducible assumption)
    | with_reducible apply Keeps.mk_cal

theorem execRunDone_keeps (s : State) : Keeps.Out 0x1E40008 s (execRunDone s) := by
  unfold execRunDone
  have hF := Sub.refl 0x1E40008
  apply Keeps.done
  repeat' first
    | extract_lets | with_reducible assumption | with_reducible exact Keeps.refl _ | exact hF.within rfl
    | (with_reducible apply Keeps.trans; on_goal 2 => with_reducible first | apply State.calEnd_keeps)
    | (with_reducible apply Keeps.ite <;> intro _)
    | split

theorem State.endWindow_keeps (s : State) (p steps eye outcome : Nat) {F : Nat} (hF : Sub 0x1E40008 F) : Keeps F s
    (State.endWindow s p steps eye outcome) := by
  unfold State.endWindow
  repeat' first
    | extract_lets | with_reducible assumption | with_reducible exact Keeps.refl _ | exact hF.within rfl
    | (with_reducible apply Keeps.trans; on_goal 2 => with_reducible first
          | apply State.int_keeps | apply State.finishOp_keeps)
    | (with_reducible apply Keeps.ite <;> intro _)
    | split
    | (with_reducible apply Keeps.fst; on_goal 2 => with_reducible assumption)
    | (with_reducible apply Keeps.snd; on_goal 2 => with_reducible assumption)
    | with_reducible apply Keeps.mk_cal

theorem State.calAbandon_keeps (s : State) {F : Nat} (hF : Sub 0x1E40408 F) : Keeps F s (State.calAbandon s) := by
  unfold State.calAbandon
  repeat' first
    | extract_lets | with_reducible assumption | with_reducible exact Keeps.refl _ | exact hF.within rfl
    | (with_reducible apply Keeps.trans; on_goal 2 => with_reducible first
          | apply State.dropSlot_keeps | apply State.calResult_keeps | apply State.endWindow_keeps)
    | (with_reducible apply Keeps.foldl; intro _ _ _)
    | split
    | (with_reducible apply Keeps.fst; on_goal 2 => with_reducible assumption)
    | (with_reducible apply Keeps.snd; on_goal 2 => with_reducible assumption)
    | with_reducible apply Keeps.mk_cal

theorem State.calReset_keeps (s : State) {F : Nat} (hF : Sub 0x1E40408 F) : Keeps F s (State.calReset s) := by
  unfold State.calReset
  repeat' first
    | extract_lets | with_reducible assumption | with_reducible exact Keeps.refl _ | exact hF.within rfl
    | (with_reducible apply Keeps.trans; on_goal 2 => with_reducible first
          | apply State.abortOps_keeps | apply State.calAbandon_keeps)

theorem State.trackLane_keeps (p : Nat) (a : State × Nat × Nat) (x : Nat × Nat × Nat × Nat) {F : Nat} (hF : Sub
    0x1800028 F) : Keeps F a.1 (State.trackLane p a x).1 := by
  unfold State.trackLane
  repeat' first
    | extract_lets | with_reducible assumption | with_reducible exact Keeps.refl _ | exact hF.within rfl
    | (with_reducible apply Keeps.trans; on_goal 2 => with_reducible first
          | apply State.fault_keeps | apply State.int_keeps | apply State.setLane_keeps)
    | (with_reducible apply Keeps.ite <;> intro _)
    | split

theorem State.showEye_keeps (p : Nat) (a : State × Nat × Nat) (m : Nat) {F : Nat} (hF : Sub 0x180000C F) : Keeps F a.1
    (State.showEye p a m).1 := by
  unfold State.showEye
  repeat' first
    | extract_lets | with_reducible assumption | with_reducible exact Keeps.refl _ | exact hF.within rfl
    | (with_reducible apply Keeps.trans; on_goal 2 => with_reducible first
          | apply State.fset_keeps | apply State.fresh_keeps | apply State.fault_keeps | apply State.int_keeps)
    | (with_reducible apply Keeps.ite <;> intro _)
    | split
    | (with_reducible apply Keeps.fst; on_goal 2 => with_reducible assumption)
    | (with_reducible apply Keeps.snd; on_goal 2 => with_reducible assumption)

theorem State.newWindow_keeps (s : State) (p : Nat) {F : Nat} (hF : Sub 0x20 F) : Keeps F s (State.newWindow s p) :=
    by
  unfold State.newWindow
  repeat' first
    | extract_lets | with_reducible assumption | with_reducible exact Keeps.refl _ | exact hF.within rfl
    | (with_reducible apply Keeps.trans; on_goal 2 => with_reducible first | apply State.setLane_keeps)
    | (with_reducible apply Keeps.foldl; intro _ _ _)
    | (with_reducible apply Keeps.foldlP; intro _ _ _)
    | (with_reducible apply Keeps.ite <;> intro _)
    | split
    | (with_reducible apply Keeps.fst; on_goal 2 => with_reducible assumption)
    | (with_reducible apply Keeps.snd; on_goal 2 => with_reducible assumption)

theorem State.trackWindow_keeps (s : State) (p : Nat) (counts : List (Nat × Nat × Nat × Nat)) {F : Nat} (hF : Sub
    0x1E4002C F) : Keeps F s (State.trackWindow s p counts) := by
  unfold State.trackWindow
  repeat' first
    | extract_lets | with_reducible assumption | with_reducible exact Keeps.refl _ | exact hF.within rfl
    | (with_reducible apply Keeps.trans; on_goal 2 => with_reducible first
          | apply State.endWindow_keeps | apply State.trackLane_keeps | apply State.showEye_keeps
          | apply State.newWindow_keeps)
    | (with_reducible apply Keeps.foldl; intro _ _ _)
    | (with_reducible apply Keeps.foldlP; intro _ _ _)
    | (with_reducible apply Keeps.ite <;> intro _)
    | split
    | (with_reducible apply Keeps.fst; on_goal 2 => with_reducible assumption)
    | (with_reducible apply Keeps.snd; on_goal 2 => with_reducible assumption)

theorem State.windowTick_keeps (s : State) {F : Nat} (hF : Sub 0x1E40008 F) : Keeps F s (State.windowTick s) := by
  unfold State.windowTick
  repeat' first
    | extract_lets | with_reducible assumption | with_reducible exact Keeps.refl _ | exact hF.within rfl
    | (with_reducible apply Keeps.trans; on_goal 2 => with_reducible first | apply State.endWindow_keeps)
    | (with_reducible apply Keeps.foldl; intro _ _ _)
    | (with_reducible apply Keeps.foldlP; intro _ _ _)
    | (with_reducible apply Keeps.ite <;> intro _)
    | split
    | (with_reducible apply Keeps.fst; on_goal 2 => with_reducible assumption)
    | (with_reducible apply Keeps.snd; on_goal 2 => with_reducible assumption)

theorem execLaneTrackWindow_keeps (p : Nat) (counts : List (Nat × Nat × Nat × Nat)) (s : State) : Keeps.Out 0x1E4002C
    s (execLaneTrackWindow p counts s) := by
  unfold execLaneTrackWindow
  have hF := Sub.refl 0x1E4002C
  apply Keeps.done
  repeat' first
    | extract_lets | with_reducible assumption | with_reducible exact Keeps.refl _ | exact hF.within rfl
    | (with_reducible apply Keeps.trans; on_goal 2 => with_reducible first | apply State.trackWindow_keeps)
    | (with_reducible apply Keeps.ite <;> intro _)

theorem State.fioStart_keeps (s : State) {F : Nat} (hF : Sub 0x440000 F) : Keeps F s (State.fioStart s) := by
  unfold State.fioStart
  repeat' first
    | extract_lets | with_reducible assumption | with_reducible exact Keeps.refl _ | exact hF.within rfl
    | (with_reducible apply Keeps.trans; on_goal 2 => with_reducible first
          | apply State.runOp_keeps | apply State.setRun_keeps)
    | (with_reducible apply Keeps.ite <;> intro _)
    | split
    | (with_reducible apply Keeps.fst; on_goal 2 => with_reducible assumption)
    | (with_reducible apply Keeps.snd; on_goal 2 => with_reducible assumption)
    | with_reducible apply Keeps.mk_cal

theorem State.fioSkip_keeps (s : State) (r : CalRun) {F : Nat} (hF : Sub 0x1E40008 F) : Keeps F s (State.fioSkip s r)
    := by
  unfold State.fioSkip
  repeat' first
    | extract_lets | with_reducible assumption | with_reducible exact Keeps.refl _ | exact hF.within rfl
    | (with_reducible apply Keeps.trans; on_goal 2 => with_reducible first | apply State.calResult_keeps)
    | split
    | (with_reducible apply Keeps.fst; on_goal 2 => with_reducible assumption)
    | (with_reducible apply Keeps.snd; on_goal 2 => with_reducible assumption)
    | with_reducible apply Keeps.mk_cal

theorem State.fioMeasure_keeps (s : State) (r : CalRun) (count : Nat) {F : Nat} (hF : Sub 0x1E40008 F) : Keeps F s
    (State.fioMeasure s r count) := by
  unfold State.fioMeasure
  repeat' first
    | extract_lets | with_reducible assumption | with_reducible exact Keeps.refl _ | exact hF.within rfl
    | (with_reducible apply Keeps.trans; on_goal 2 => with_reducible first
          | apply State.int_keeps | apply State.setRun_keeps | apply State.fioSkip_keeps)
    | (with_reducible apply Keeps.ite <;> intro _)
    | split
    | (with_reducible apply Keeps.fst; on_goal 2 => with_reducible assumption)
    | (with_reducible apply Keeps.snd; on_goal 2 => with_reducible assumption)
    | with_reducible apply Keeps.mk_cal

theorem execFioTrimMeasure_keeps (count : Nat) (s : State) : Keeps.Out 0x1E40008 s (execFioTrimMeasure count s) := by
  unfold execFioTrimMeasure
  have hF := Sub.refl 0x1E40008
  apply Keeps.done
  repeat' first
    | extract_lets | with_reducible assumption | with_reducible exact Keeps.refl _ | exact hF.within rfl
    | (with_reducible apply Keeps.trans; on_goal 2 => with_reducible first
          | apply State.fioStart_keeps | apply State.fioMeasure_keeps)
    | (with_reducible apply Keeps.ite <;> intro _)
    | split

theorem State.showTrim_keeps (s : State) {F : Nat} (hF : Sub 0x8 F) : Keeps F s (State.showTrim s) := by
  unfold State.showTrim
  repeat' first
    | extract_lets | with_reducible assumption | with_reducible exact Keeps.refl _ | exact hF.within rfl
    | (with_reducible apply Keeps.trans; on_goal 2 => with_reducible first | apply State.fset_keeps)

theorem State.trimMove_keeps (s : State) (up : Bool) {F : Nat} (hF : Sub 0x1840008 F) : Keeps F s (State.trimMove s
    up) := by
  unfold State.trimMove
  repeat' first
    | extract_lets | with_reducible assumption | with_reducible exact Keeps.refl _ | exact hF.within rfl
    | (with_reducible apply Keeps.trans; on_goal 2 => with_reducible first
          | apply State.bumpSat_keeps | apply State.fault_keeps | apply State.int_keeps | apply State.setRun_keeps)
    | (with_reducible apply Keeps.ite <;> intro _)
    | split
    | (with_reducible apply Keeps.fst; on_goal 2 => with_reducible assumption)
    | (with_reducible apply Keeps.snd; on_goal 2 => with_reducible assumption)
    | with_reducible apply Keeps.mk_cal

theorem State.fioStep_keeps (s : State) {F : Nat} (hF : Sub 0x1840008 F) : Keeps F s (State.fioStep s) := by
  unfold State.fioStep
  repeat' first
    | extract_lets | with_reducible assumption | with_reducible exact Keeps.refl _ | exact hF.within rfl
    | (with_reducible apply Keeps.trans; on_goal 2 => with_reducible first
          | apply State.showTrim_keeps | apply State.trimMove_keeps)
    | split
    | (with_reducible apply Keeps.fst; on_goal 2 => with_reducible assumption)
    | (with_reducible apply Keeps.snd; on_goal 2 => with_reducible assumption)
    | with_reducible apply Keeps.mk_cal

theorem execFioTrimStep_keeps (s : State) : Keeps.Out 0x1840008 s (execFioTrimStep s) := by
  unfold execFioTrimStep
  have hF := Sub.refl 0x1840008
  apply Keeps.done
  repeat' first
    | extract_lets | with_reducible assumption | with_reducible exact Keeps.refl _ | exact hF.within rfl
    | (with_reducible apply Keeps.trans; on_goal 2 => with_reducible first | apply State.fioStep_keeps)
    | (with_reducible apply Keeps.ite <;> intro _)

theorem execCalRun_keeps (h : Halyard) (s : State) : Keeps.Out 0x13E44068 s (execCalRun h s) := by
  unfold execCalRun
  have hF := Sub.refl 0x13E44068
  apply Keeps.done
  repeat' first
    | extract_lets | with_reducible assumption | with_reducible exact Keeps.refl _ | exact hF.within rfl
    | (with_reducible apply Keeps.trans; on_goal 2 => with_reducible first
          | apply State.replySt_keeps | apply State.replyBad_keeps | apply State.accept_keeps
          | apply State.packet_keeps | apply State.calAdd_keeps | apply State.newWindow_keeps)
    | (with_reducible apply Keeps.foldl; intro _ _ _)
    | split
    | with_reducible apply Keeps.mk_cal
    | intro _

theorem execCalStatus_keeps (h : Halyard) (s : State) : Keeps.Out 0x13E04048 s (execCalStatus h s) := by
  unfold execCalStatus
  have hF := Sub.refl 0x13E04048
  apply Keeps.done
  repeat' first
    | extract_lets | with_reducible assumption | with_reducible exact Keeps.refl _ | exact hF.within rfl
    | (with_reducible apply Keeps.trans; on_goal 2 => with_reducible first
          | apply State.replyOk_keeps | apply State.replyBad_keeps | apply State.packet_keeps)
    | split
    | intro _

theorem execCalCfg_keeps (h : Halyard) (s : State) : Keeps.Out 0x13E04048 s (execCalCfg h s) := by
  unfold execCalCfg
  have hF := Sub.refl 0x13E04048
  apply Keeps.done
  repeat' first
    | extract_lets | with_reducible assumption | with_reducible exact Keeps.refl _ | exact hF.within rfl
    | (with_reducible apply Keeps.trans; on_goal 2 => with_reducible first
          | apply State.setReg_keeps | apply State.replyOk_keeps | apply State.replyBad_keeps
          | apply State.packet_keeps)
    | split
    | intro _

end Sys2Proof.Machine
end

