-- ==== Sys2Proof/Laws/FrameHouse.lean ====
section
/-! SUPPORT. What each operation keeps: thermal, power states, fuses, clocks and the two-wire ports. -/

namespace Sys2Proof.Machine

/-! ### Machine/Endings.lean -/

theorem State.forceDisable_keeps (s : State) (p : Nat) {F : Nat} (hF : Sub 0x180416C F) : Keeps F s
    (State.forceDisable s p) := by
  unfold State.forceDisable
  repeat' first
    | extract_lets | with_reducible assumption | with_reducible exact Keeps.refl _ | exact hF.within rfl
    | (with_reducible apply Keeps.trans; on_goal 2 => with_reducible first
          | apply State.setFlag_keeps | apply State.disablePort_keeps)

theorem State.disableAll_keeps (s : State) {F : Nat} (hF : Sub 0x180416C F) : Keeps F s (State.disableAll s) := by
  unfold State.disableAll
  repeat' first
    | extract_lets | with_reducible assumption | with_reducible exact Keeps.refl _ | exact hF.within rfl
    | (with_reducible apply Keeps.trans; on_goal 2 => with_reducible first | apply State.forceDisable_keeps)
    | (with_reducible apply Keeps.foldl; intro _ _ _)

theorem State.enableAll_keeps (s : State) {F : Nat} (hF : Sub 0x16C F) : Keeps F s (State.enableAll s) := by
  unfold State.enableAll
  repeat' first
    | extract_lets | with_reducible assumption | with_reducible exact Keeps.refl _ | exact hF.within rfl
    | (with_reducible apply Keeps.trans; on_goal 2 => with_reducible first | apply State.enablePort_keeps)
    | (with_reducible apply Keeps.foldl; intro _ _ _)
    | (with_reducible apply Keeps.ite <;> intro _)

theorem State.discardRequests_keeps (s : State) {F : Nat} (hF : Sub 0x1E146DC F) : Keeps F s (State.discardRequests s)
    := by
  unfold State.discardRequests
  repeat' first
    | extract_lets | with_reducible assumption | with_reducible exact Keeps.refl _ | exact hF.within rfl
    | (with_reducible apply Keeps.trans; on_goal 2 => with_reducible first
          | apply State.fill_keeps | apply State.scnRegs_keeps)
    | split
    | (with_reducible apply Keeps.fst; on_goal 2 => with_reducible assumption)
    | (with_reducible apply Keeps.snd; on_goal 2 => with_reducible assumption)
    | with_reducible apply Keeps.mk_scn
    | with_reducible apply Keeps.mk_txns_slices_engs
    | exact fun _ k => SMap.rising_map _ (State.tables_slices k)
    | exact fun _ k => SMap.rising_map _ (State.tables_engs k)

theorem State.discardReceived_keeps (s : State) {F : Nat} (hF : Sub 0x40 F) : Keeps F s (State.discardReceived s) :=
    by
  unfold State.discardReceived
  repeat' first
    | extract_lets | with_reducible assumption | with_reducible exact Keeps.refl _ | exact hF.within rfl
    | split
    | (with_reducible apply Keeps.fst; on_goal 2 => with_reducible assumption)
    | (with_reducible apply Keeps.snd; on_goal 2 => with_reducible assumption)
    | with_reducible apply Keeps.mk_links
    | exact fun _ k => SMap.rising_map _ (State.tables_links k)

theorem State.endPackets_keeps (s : State) (status : Nat) {F : Nat} (hF : Sub 0x9E04048 F) : Keeps F s
    (State.endPackets s status) := by
  unfold State.endPackets
  repeat' first
    | extract_lets | with_reducible assumption | with_reducible exact Keeps.refl _ | exact hF.within rfl
    | (with_reducible apply Keeps.trans; on_goal 2 => with_reducible first | apply State.replySt_keeps)
    | (with_reducible apply Keeps.foldl; intro _ _ _)
    | split
    | (with_reducible apply Keeps.fst; on_goal 2 => with_reducible assumption)
    | (with_reducible apply Keeps.snd; on_goal 2 => with_reducible assumption)
    | with_reducible apply Keeps.mk_mgc
    | with_reducible apply Keeps.mk_otp

theorem State.dropStaging_keeps (s : State) {F : Nat} (hF : Sub 0x400008 F) : Keeps F s (State.dropStaging s) := by
  unfold State.dropStaging
  repeat' first
    | extract_lets | with_reducible assumption | with_reducible exact Keeps.refl _ | exact hF.within rfl
    | (with_reducible apply Keeps.trans; on_goal 2 => with_reducible first
          | apply State.setReg_keeps | apply State.fset_keeps)
    | split
    | (with_reducible apply Keeps.fst; on_goal 2 => with_reducible assumption)
    | (with_reducible apply Keeps.snd; on_goal 2 => with_reducible assumption)
    | with_reducible apply Keeps.mk_mgc

theorem State.endActivity_keeps (s : State) (keep : Option Nat) {F : Nat} (hF : Sub 0x9E4C508 F) : Keeps F s
    (State.endActivity s keep) := by
  unfold State.endActivity
  repeat' first
    | extract_lets | with_reducible assumption | with_reducible exact Keeps.refl _ | exact hF.within rfl
    | (with_reducible apply Keeps.trans; on_goal 2 => with_reducible first
          | apply State.setFlag_keeps | apply State.abortOps_keeps | apply State.setC60_keeps
          | apply State.abandonEvac_keeps | apply State.calAbandon_keeps)
    | (with_reducible apply Keeps.ite <;> intro _)
    | split
    | (with_reducible apply Keeps.fst; on_goal 2 => with_reducible assumption)
    | (with_reducible apply Keeps.snd; on_goal 2 => with_reducible assumption)
    | with_reducible apply Keeps.mk_bbx
    | with_reducible apply Keeps.mk_ecc
    | with_reducible apply Keeps.mk_ecc_stk
    | with_reducible apply Keeps.mk_otp

theorem State.storeWord_keeps (s : State) (line : Nat) (w : List Nat) {F : Nat} (hF : Sub 0x10 F) : Keeps F s
    (State.storeWord s line w) := by
  unfold State.storeWord
  repeat' first
    | extract_lets | with_reducible assumption | with_reducible exact Keeps.refl _ | exact hF.within rfl
    | (with_reducible apply Keeps.trans; on_goal 2 => with_reducible first | apply State.setWord_keeps)
    | (with_reducible apply Keeps.ite <;> intro _)
    | split

theorem State.storeLine_keeps (s : State) (line : Nat) (data : List Nat) (utag dev : Nat) {F : Nat} (hF : Sub
    0x1804018 F) : Keeps F s (State.storeLine s line data utag dev) := by
  unfold State.storeLine
  repeat' first
    | extract_lets | with_reducible assumption | with_reducible exact Keeps.refl _ | exact hF.within rfl
    | (with_reducible apply Keeps.trans; on_goal 2 => with_reducible first
          | apply State.encode_keeps | apply State.storeWord_keeps)

theorem State.drainWrites_keeps (s : State) {F : Nat} (hF : Sub 0x410 F) : Keeps F s (State.drainWrites s) := by
  unfold State.drainWrites
  repeat' first
    | extract_lets | with_reducible assumption | with_reducible exact Keeps.refl _ | exact hF.within rfl
    | (with_reducible apply Keeps.trans; on_goal 2 => with_reducible first
          | apply State.setWord_keeps | apply State.setEng_keeps)
    | (with_reducible apply Keeps.foldl; intro _ _ _)
    | (with_reducible apply Keeps.ite <;> intro _)

theorem State.underWord_keeps (s : State) (line : Nat) {F : Nat} (hF : Sub 0x1E0401C F) : Keeps F s (State.underWord s
    line).1 := by
  unfold State.underWord
  repeat' first
    | extract_lets | with_reducible assumption | with_reducible exact Keeps.refl _ | exact hF.within rfl
    | (with_reducible apply Keeps.trans; on_goal 2 => with_reducible first | apply State.decode_keeps)

theorem State.tagUnder_keeps (s : State) (w : List Nat) (ue : Bool) {F : Nat} (hF : Sub 0x1800008 F) : Keeps F s
    (State.tagUnder s w ue).1 := by
  unfold State.tagUnder
  repeat' first
    | extract_lets | with_reducible assumption | with_reducible exact Keeps.refl _ | exact hF.within rfl
    | (with_reducible apply Keeps.trans; on_goal 2 => with_reducible first
          | apply State.bumpSat_keeps | apply State.int_keeps)
    | (with_reducible apply Keeps.ite <;> intro _)
    | split
    | (with_reducible apply Keeps.fst; on_goal 2 => with_reducible assumption)
    | (with_reducible apply Keeps.snd; on_goal 2 => with_reducible assumption)

theorem State.readUnsaved_keeps (s : State) (k key : Nat) {F : Nat} (hF : Sub 0x1E0420C F) : Keeps F s
    (State.readUnsaved s k key).1 := by
  unfold State.readUnsaved
  repeat' first
    | extract_lets | with_reducible assumption | with_reducible exact Keeps.refl _ | exact hF.within rfl
    | (with_reducible apply Keeps.trans; on_goal 2 => with_reducible first
          | apply State.sramInject_keeps | apply State.sramLost_keeps | apply State.sramFixed_keeps)
    | (with_reducible apply Keeps.ite <;> intro _)
    | split
    | (with_reducible apply Keeps.fst; on_goal 2 => with_reducible assumption)
    | (with_reducible apply Keeps.snd; on_goal 2 => with_reducible assumption)

theorem State.saveWay_keeps (s : State) (w : Way) {F : Nat} (hF : Sub 0x1E0401C F) : Keeps F s (State.saveWay s w) :=
    by
  unfold State.saveWay
  repeat' first
    | extract_lets | with_reducible assumption | with_reducible exact Keeps.refl _ | exact hF.within rfl
    | (with_reducible apply Keeps.trans; on_goal 2 => with_reducible first
          | apply State.storeLine_keeps | apply State.underWord_keeps | apply State.tagUnder_keeps)
    | (with_reducible apply Keeps.ite <;> intro _)
    | split
    | (with_reducible apply Keeps.fst; on_goal 2 => with_reducible assumption)
    | (with_reducible apply Keeps.snd; on_goal 2 => with_reducible assumption)

theorem holdLine_keeps (a : State × List Nat) (line : Nat) (data : List Nat) (utag dev : Nat) (whole : Bool) {F : Nat}
    (hF : Sub 0x180440C F) : Keeps F a.1 (holdLine a line data utag dev whole).1 := by
  unfold holdLine
  repeat' first
    | extract_lets | with_reducible assumption | with_reducible exact Keeps.refl _ | exact hF.within rfl
    | (with_reducible apply Keeps.trans; on_goal 2 => with_reducible first
          | apply State.encode_keeps | apply State.wrqPut_keeps | apply State.mirror_keeps)
    | split

theorem State.flushWay_keeps (k : Nat) (a : State × List Nat) (key : Nat) {F : Nat} (hF : Sub 0x1E0461C F) : Keeps F
    a.1 (State.flushWay k a key).1 := by
  unfold State.flushWay
  repeat' first
    | extract_lets | with_reducible assumption | with_reducible exact Keeps.refl _ | exact hF.within rfl
    | (with_reducible apply Keeps.trans; on_goal 2 => with_reducible first
          | apply State.readUnsaved_keeps | apply State.saveWay_keeps | apply holdLine_keeps)
    | (with_reducible apply Keeps.ite <;> intro _)
    | split
    | (with_reducible apply Keeps.fst; on_goal 2 => with_reducible assumption)
    | (with_reducible apply Keeps.snd; on_goal 2 => with_reducible assumption)

theorem State.flushBuffer_keeps (a : State × List Nat) (b : WbLine) {F : Nat} (hF : Sub 0x180441C F) : Keeps F a.1
    (State.flushBuffer a b).1 := by
  unfold State.flushBuffer
  repeat' first
    | extract_lets | with_reducible assumption | with_reducible exact Keeps.refl _ | exact hF.within rfl
    | (with_reducible apply Keeps.trans; on_goal 2 => with_reducible first
          | apply State.storeLine_keeps | apply holdLine_keeps)
    | split

theorem State.flushSlice_keeps (a : State × List Nat) (k : Nat) {F : Nat} (hF : Sub 0x1E0461C F) : Keeps F a.1
    (State.flushSlice a k).1 := by
  unfold State.flushSlice
  repeat' first
    | extract_lets | with_reducible assumption | with_reducible exact Keeps.refl _ | exact hF.within rfl
    | (with_reducible apply Keeps.trans; on_goal 2 => with_reducible first
          | apply State.setSlc_keeps | apply State.flushWay_keeps | apply State.flushBuffer_keeps)
    | (with_reducible apply Keeps.foldlP; intro _ _ _)

theorem State.flushAll_keeps (s : State) {F : Nat} (hF : Sub 0x1E0461C F) : Keeps F s (State.flushAll s).1 := by
  unfold State.flushAll
  repeat' first
    | extract_lets | with_reducible assumption | with_reducible exact Keeps.refl _ | exact hF.within rfl
    | (with_reducible apply Keeps.trans; on_goal 2 => with_reducible first
          | apply State.drainWrites_keeps | apply State.flushSlice_keeps)
    | (with_reducible apply Keeps.foldlP; intro _ _ _)

/-! ### Machine/Thm.lean -/

theorem State.setDie_keeps (s : State) (d : Nat) (v : DieTherm) {F : Nat} (hF : Sub 0x80000 F) : Keeps F s
    (State.setDie s d v) := by
  unfold State.setDie
  repeat' first
    | extract_lets | with_reducible assumption | with_reducible exact Keeps.refl _ | exact hF.within rfl
    | split
    | (with_reducible apply Keeps.fst; on_goal 2 => with_reducible assumption)
    | (with_reducible apply Keeps.snd; on_goal 2 => with_reducible assumption)
    | with_reducible apply Keeps.mk_thm

theorem State.sampleSensor_keeps (d : Nat) (vals : List (Nat × Int)) (s : State) (i : Nat) {F : Nat} (hF : Sub
    0x1880008 F) : Keeps F s (State.sampleSensor d vals s i) := by
  unfold State.sampleSensor
  repeat' first
    | extract_lets | with_reducible assumption | with_reducible exact Keeps.refl _ | exact hF.within rfl
    | (with_reducible apply Keeps.trans; on_goal 2 => with_reducible first
          | apply State.fset_keeps | apply State.fault_keeps | apply State.int_keeps | apply State.setDie_keeps)
    | (with_reducible apply Keeps.ite <;> intro _)

theorem State.setSubst_keeps (s : State) (d : Nat) (on : Bool) {F : Nat} (hF : Sub 0x8 F) : Keeps F s (State.setSubst
    s d on) := by
  unfold State.setSubst
  repeat' first
    | extract_lets | with_reducible assumption | with_reducible exact Keeps.refl _ | exact hF.within rfl
    | (with_reducible apply Keeps.trans; on_goal 2 => with_reducible first
          | apply State.fset_keeps | apply State.setFlag_keeps)

theorem State.showMax_keeps (s : State) {F : Nat} (hF : Sub 0x8 F) : Keeps F s (State.showMax s) := by
  unfold State.showMax
  repeat' first
    | extract_lets | with_reducible assumption | with_reducible exact Keeps.refl _ | exact hF.within rfl
    | (with_reducible apply Keeps.trans; on_goal 2 => with_reducible first | apply State.fset_keeps)
    | (with_reducible apply Keeps.ite <;> intro _)

theorem State.noteCool_keeps (s : State) (d : Nat) (v : Int) {F : Nat} (hF : Sub 0x80000 F) : Keeps F s
    (State.noteCool s d v) := by
  unfold State.noteCool
  repeat' first
    | extract_lets | with_reducible assumption | with_reducible exact Keeps.refl _ | exact hF.within rfl
    | split
    | (with_reducible apply Keeps.fst; on_goal 2 => with_reducible assumption)
    | (with_reducible apply Keeps.snd; on_goal 2 => with_reducible assumption)
    | with_reducible apply Keeps.mk_thm

theorem State.setUsed_keeps (s : State) (d : Nat) (v : Int) {F : Nat} (hF : Sub 0x80008 F) : Keeps F s (State.setUsed
    s d v) := by
  unfold State.setUsed
  repeat' first
    | extract_lets | with_reducible assumption | with_reducible exact Keeps.refl _ | exact hF.within rfl
    | (with_reducible apply Keeps.trans; on_goal 2 => with_reducible first
          | apply State.fset_keeps | apply State.showMax_keeps | apply State.noteCool_keeps)
    | (with_reducible apply Keeps.ite <;> intro _)

theorem State.suspicion_keeps (s : State) (d : Nat) {F : Nat} (hF : Sub 0x1E80008 F) : Keeps F s (State.suspicion s d)
    := by
  unfold State.suspicion
  repeat' first
    | extract_lets | with_reducible assumption | with_reducible exact Keeps.refl _ | exact hF.within rfl
    | (with_reducible apply Keeps.trans; on_goal 2 => with_reducible first
          | apply State.setFlag_keeps | apply State.fault_keeps | apply State.int_keeps | apply State.event_keeps
          | apply State.setDie_keeps | apply State.setSubst_keeps)
    | (with_reducible apply Keeps.ite <;> intro _)

theorem State.holdSensors_keeps (s : State) (d : Nat) {F : Nat} (hF : Sub 0x80008 F) : Keeps F s (State.holdSensors s
    d) := by
  unfold State.holdSensors
  repeat' first
    | extract_lets | with_reducible assumption | with_reducible exact Keeps.refl _ | exact hF.within rfl
    | (with_reducible apply Keeps.trans; on_goal 2 => with_reducible first
          | apply State.setDie_keeps | apply State.setSubst_keeps | apply State.setUsed_keeps)

theorem State.unholdSensors_keeps (s : State) (d : Nat) (good : Bool) {F : Nat} (hF : Sub 0x80008 F) : Keeps F s
    (State.unholdSensors s d good) := by
  unfold State.unholdSensors
  repeat' first
    | extract_lets | with_reducible assumption | with_reducible exact Keeps.refl _ | exact hF.within rfl
    | (with_reducible apply Keeps.trans; on_goal 2 => with_reducible first
          | apply State.setDie_keeps | apply State.setSubst_keeps)
    | (with_reducible apply Keeps.ite <;> intro _)

theorem State.useReading_keeps (s : State) (d : Nat) (r : Option Int) {F : Nat} (hF : Sub 0x8000C F) : Keeps F s
    (State.useReading s d r) := by
  unfold State.useReading
  repeat' first
    | extract_lets | with_reducible assumption | with_reducible exact Keeps.refl _ | exact hF.within rfl
    | (with_reducible apply Keeps.trans; on_goal 2 => with_reducible first
          | apply State.fresh_keeps | apply State.setUsed_keeps)
    | (with_reducible apply Keeps.ite <;> intro _)
    | split
    | (with_reducible apply Keeps.fst; on_goal 2 => with_reducible assumption)
    | (with_reducible apply Keeps.snd; on_goal 2 => with_reducible assumption)

theorem State.formTemp_keeps (s : State) (d : Nat) {F : Nat} (hF : Sub 0x1E8000C F) : Keeps F s (State.formTemp s d)
    := by
  unfold State.formTemp
  repeat' first
    | extract_lets | with_reducible assumption | with_reducible exact Keeps.refl _ | exact hF.within rfl
    | (with_reducible apply Keeps.trans; on_goal 2 => with_reducible first
          | apply State.fset_keeps | apply State.setDie_keeps | apply State.setUsed_keeps
          | apply State.suspicion_keeps | apply State.useReading_keeps)
    | (with_reducible apply Keeps.ite <;> intro _)
    | split

theorem State.fastSample_keeps (s : State) (d : Nat) {F : Nat} (hF : Sub 0x80008 F) : Keeps F s (State.fastSample s d)
    := by
  unfold State.fastSample
  repeat' first
    | extract_lets | with_reducible assumption | with_reducible exact Keeps.refl _ | exact hF.within rfl
    | (with_reducible apply Keeps.trans; on_goal 2 => with_reducible first
          | apply State.fset_keeps | apply State.setFlag_keeps | apply State.setDie_keeps)
    | (with_reducible apply Keeps.ite <;> intro _)

theorem State.throttle_keeps (s : State) {F : Nat} (hF : Sub 0x1800008 F) : Keeps F s (State.throttle s) := by
  unfold State.throttle
  repeat' first
    | extract_lets | with_reducible assumption | with_reducible exact Keeps.refl _ | exact hF.within rfl
    | (with_reducible apply Keeps.trans; on_goal 2 => with_reducible first
          | apply State.setFlag_keeps | apply State.int_keeps)
    | (with_reducible apply Keeps.ite <;> intro _)

theorem State.showWarn_keeps (s : State) {F : Nat} (hF : Sub 0x8 F) : Keeps F s (State.showWarn s) := by
  unfold State.showWarn
  repeat' first
    | extract_lets | with_reducible assumption | with_reducible exact Keeps.refl _ | exact hF.within rfl
    | (with_reducible apply Keeps.trans; on_goal 2 => with_reducible first
          | apply State.setFlag_keeps | apply State.alert_keeps)

theorem State.warn_keeps (s : State) (d : Nat) {F : Nat} (hF : Sub 0x1E80008 F) : Keeps F s (State.warn s d) := by
  unfold State.warn
  repeat' first
    | extract_lets | with_reducible assumption | with_reducible exact Keeps.refl _ | exact hF.within rfl
    | (with_reducible apply Keeps.trans; on_goal 2 => with_reducible first
          | apply State.int_keeps | apply State.event_keeps | apply State.setDie_keeps | apply State.showWarn_keeps)
    | (with_reducible apply Keeps.ite <;> intro _)

theorem State.holdDie_keeps (s : State) (d : Nat) {F : Nat} (hF : Sub 0x1E80008 F) : Keeps F s (State.holdDie s d) :=
    by
  unfold State.holdDie
  repeat' first
    | extract_lets | with_reducible assumption | with_reducible exact Keeps.refl _ | exact hF.within rfl
    | (with_reducible apply Keeps.trans; on_goal 2 => with_reducible first
          | apply State.holdSensors_keeps | apply State.fastSample_keeps | apply State.throttle_keeps
          | apply State.warn_keeps)
    | (with_reducible apply Keeps.ite <;> intro _)
    | split
    | (with_reducible apply Keeps.fst; on_goal 2 => with_reducible assumption)
    | (with_reducible apply Keeps.snd; on_goal 2 => with_reducible assumption)

theorem State.thermalClear_keeps (s : State) (d : Nat) {F : Nat} (hF : Sub 0x1E80008 F) : Keeps F s
    (State.thermalClear s d) := by
  unfold State.thermalClear
  repeat' first
    | extract_lets | with_reducible assumption | with_reducible exact Keeps.refl _ | exact hF.within rfl
    | (with_reducible apply Keeps.trans; on_goal 2 => with_reducible first
          | apply State.int_keeps | apply State.event_keeps | apply State.setDie_keeps | apply State.showWarn_keeps)
    | (with_reducible apply Keeps.ite <;> intro _)

theorem execThermalClear_keeps (d : Nat) (s : State) : Keeps.Out 0x1E80008 s (execThermalClear d s) := by
  unfold execThermalClear
  have hF := Sub.refl 0x1E80008
  apply Keeps.done
  repeat' first
    | extract_lets | with_reducible assumption | with_reducible exact Keeps.refl _ | exact hF.within rfl
    | (with_reducible apply Keeps.trans; on_goal 2 => with_reducible first | apply State.thermalClear_keeps)
    | (with_reducible apply Keeps.ite <;> intro _)

theorem State.tripFlush_keeps (s : State) {F : Nat} (hF : Sub 0x1E8461C F) : Keeps F s (State.tripFlush s) := by
  unfold State.tripFlush
  repeat' first
    | extract_lets | with_reducible assumption | with_reducible exact Keeps.refl _ | exact hF.within rfl
    | (with_reducible apply Keeps.trans; on_goal 2 => with_reducible first
          | apply State.bumpSat_keeps | apply State.int_keeps | apply State.flushAll_keeps)
    | (with_reducible apply Keeps.ite <;> intro _)
    | split
    | (with_reducible apply Keeps.fst; on_goal 2 => with_reducible assumption)
    | (with_reducible apply Keeps.snd; on_goal 2 => with_reducible assumption)
    | with_reducible apply Keeps.mk_thm

theorem State.showPwr_keeps (s : State) {F : Nat} (hF : Sub 0x8 F) : Keeps F s (State.showPwr s) := by
  unfold State.showPwr
  repeat' first
    | extract_lets | with_reducible assumption | with_reducible exact Keeps.refl _ | exact hF.within rfl
    | (with_reducible apply Keeps.trans; on_goal 2 => with_reducible first
          | apply State.fset_keeps | apply State.setFlag_keeps)

theorem State.endPwrSet_keeps (s : State) (op : Option Nat) (status result : Nat) {F : Nat} (hF : Sub 0x1E00008 F) :
    Keeps F s (State.endPwrSet s op status result) := by
  unfold State.endPwrSet
  repeat' first
    | extract_lets | with_reducible assumption | with_reducible exact Keeps.refl _ | exact hF.within rfl
    | (with_reducible apply Keeps.trans; on_goal 2 => with_reducible first
          | apply State.setReg_keeps | apply State.finishOp_keeps)
    | split

theorem State.tripPower_keeps (s : State) {F : Nat} (hF : Sub 0x11E00008 F) : Keeps F s (State.tripPower s) := by
  unfold State.tripPower
  repeat' first
    | extract_lets | with_reducible assumption | with_reducible exact Keeps.refl _ | exact hF.within rfl
    | (with_reducible apply Keeps.trans; on_goal 2 => with_reducible first
          | apply State.showPwr_keeps | apply State.endPwrSet_keeps)
    | (with_reducible apply Keeps.foldl; intro _ _ _)
    | (with_reducible apply Keeps.foldlP; intro _ _ _)
    | split
    | (with_reducible apply Keeps.fst; on_goal 2 => with_reducible assumption)
    | (with_reducible apply Keeps.snd; on_goal 2 => with_reducible assumption)
    | with_reducible apply Keeps.mk_pw

theorem State.noteAudit_keeps (s : State) {F : Nat} (hF : Sub 0x80000 F) : Keeps F s (State.noteAudit s) := by
  unfold State.noteAudit
  repeat' first
    | extract_lets | with_reducible assumption | with_reducible exact Keeps.refl _ | exact hF.within rfl
    | split
    | (with_reducible apply Keeps.fst; on_goal 2 => with_reducible assumption)
    | (with_reducible apply Keeps.snd; on_goal 2 => with_reducible assumption)
    | with_reducible apply Keeps.mk_thm

theorem State.trip_keeps (s : State) (d : Nat) (v : Int) (subst : Bool) {F : Nat} (hF : Sub 0x19EDE7FC F) : Keeps F s
    (State.trip s d v subst) := by
  unfold State.trip
  repeat' first
    | extract_lets | with_reducible assumption | with_reducible exact Keeps.refl _ | exact hF.within rfl
    | (with_reducible apply Keeps.trans; on_goal 2 => with_reducible first
          | apply State.setReg_keeps | apply State.setFlag_keeps | apply State.fault_keeps | apply State.int_keeps
          | apply State.record_keeps | apply State.enterSr_keeps | apply State.stopFlush_keeps
          | apply State.disableAll_keeps | apply State.discardRequests_keeps | apply State.endPackets_keeps
          | apply State.endActivity_keeps | apply State.tripFlush_keeps | apply State.tripPower_keeps
          | apply State.noteAudit_keeps)
    | (with_reducible apply Keeps.foldl; intro _ _ _)
    | (with_reducible apply Keeps.ite <;> intro _)
    | split
    | (with_reducible apply Keeps.fst; on_goal 2 => with_reducible assumption)
    | (with_reducible apply Keeps.snd; on_goal 2 => with_reducible assumption)
    | with_reducible apply Keeps.mk_mgc
    | with_reducible apply Keeps.mk_thm

theorem State.tripTest_keeps (s : State) (d : Nat) {F : Nat} (hF : Sub 0x19EDE7FC F) : Keeps F s (State.tripTest s d)
    := by
  unfold State.tripTest
  repeat' first
    | extract_lets | with_reducible assumption | with_reducible exact Keeps.refl _ | exact hF.within rfl
    | (with_reducible apply Keeps.trans; on_goal 2 => with_reducible first | apply State.trip_keeps)
    | (with_reducible apply Keeps.ite <;> intro _)
    | split
    | (with_reducible apply Keeps.fst; on_goal 2 => with_reducible assumption)
    | (with_reducible apply Keeps.snd; on_goal 2 => with_reducible assumption)
    | dsimp +zetaDelta only

theorem State.restartHold_keeps (s : State) {F : Nat} (hF : Sub 0x80008 F) : Keeps F s (State.restartHold s) := by
  unfold State.restartHold
  repeat' first
    | extract_lets | with_reducible assumption | with_reducible exact Keeps.refl _ | exact hF.within rfl
    | (with_reducible apply Keeps.trans; on_goal 2 => with_reducible first | apply State.setFlag_keeps)
    | (with_reducible apply Keeps.ite <;> intro _)
    | split
    | (with_reducible apply Keeps.fst; on_goal 2 => with_reducible assumption)
    | (with_reducible apply Keeps.snd; on_goal 2 => with_reducible assumption)
    | with_reducible apply Keeps.mk_thm

theorem State.sampleDie_keeps (s : State) (d : Nat) (vals : List (Nat × Int)) {F : Nat} (hF : Sub 0x19EDE7FC F) :
    Keeps F s (State.sampleDie s d vals) := by
  unfold State.sampleDie
  repeat' first
    | extract_lets | with_reducible assumption | with_reducible exact Keeps.refl _ | exact hF.within rfl
    | (with_reducible apply Keeps.trans; on_goal 2 => with_reducible first
          | apply State.sampleSensor_keeps | apply State.holdSensors_keeps | apply State.unholdSensors_keeps
          | apply State.formTemp_keeps | apply State.fastSample_keeps | apply State.throttle_keeps
          | apply State.warn_keeps | apply State.tripTest_keeps | apply State.restartHold_keeps)
    | (with_reducible apply Keeps.foldl; intro _ _ _)
    | (with_reducible apply Keeps.ite <;> intro _)

theorem execThmSample_keeps (d : Nat) (vals : List (Nat × Int)) (s : State) : Keeps.Out 0x19EDE7FC s (execThmSample d
    vals s) := by
  unfold execThmSample
  have hF := Sub.refl 0x19EDE7FC
  apply Keeps.done
  repeat' first
    | extract_lets | with_reducible assumption | with_reducible exact Keeps.refl _ | exact hF.within rfl
    | (with_reducible apply Keeps.trans; on_goal 2 => with_reducible first | apply State.sampleDie_keeps)
    | (with_reducible apply Keeps.ite <;> intro _)

theorem State.aonSample_keeps (s : State) (temps : List Int) {F : Nat} (hF : Sub 0x80000 F) : Keeps F s
    (State.aonSample s temps) := by
  unfold State.aonSample
  repeat' first
    | extract_lets | with_reducible assumption | with_reducible exact Keeps.refl _ | exact hF.within rfl
    | (with_reducible apply Keeps.ite <;> intro _)
    | split
    | (with_reducible apply Keeps.fst; on_goal 2 => with_reducible assumption)
    | (with_reducible apply Keeps.snd; on_goal 2 => with_reducible assumption)
    | with_reducible apply Keeps.mk_thm

theorem execAonThermalSample_keeps (temps : List Int) (s : State) : Keeps.Out 0x80000 s (execAonThermalSample temps s)
    := by
  unfold execAonThermalSample
  have hF := Sub.refl 0x80000
  apply Keeps.done
  repeat' first
    | extract_lets | with_reducible assumption | with_reducible exact Keeps.refl _ | exact hF.within rfl
    | (with_reducible apply Keeps.trans; on_goal 2 => with_reducible first | apply State.aonSample_keeps)
    | (with_reducible apply Keeps.ite <;> intro _)
    | split
    | (with_reducible apply Keeps.fst; on_goal 2 => with_reducible assumption)
    | (with_reducible apply Keeps.snd; on_goal 2 => with_reducible assumption)

theorem State.restart_keeps (s : State) {F : Nat} (hF : Sub 0x188456C F) : Keeps F s (State.restart s) := by
  unfold State.restart
  repeat' first
    | extract_lets | with_reducible assumption | with_reducible exact Keeps.refl _ | exact hF.within rfl
    | (with_reducible apply Keeps.trans; on_goal 2 => with_reducible first
          | apply State.fset_keeps | apply State.setFlag_keeps | apply State.int_keeps | apply State.srxAll_keeps
          | apply State.startSweep_keeps | apply State.markLost_keeps | apply State.enableAll_keeps)
    | (with_reducible apply Keeps.foldl; intro _ _ _)
    | (with_reducible apply Keeps.ite <;> intro _)
    | split
    | (with_reducible apply Keeps.fst; on_goal 2 => with_reducible assumption)
    | (with_reducible apply Keeps.snd; on_goal 2 => with_reducible assumption)
    | with_reducible apply Keeps.mk_thm

theorem execRestart_keeps (s : State) : Keeps.Out 0x188456C s (execRestart s) := by
  unfold execRestart
  have hF := Sub.refl 0x188456C
  apply Keeps.done
  repeat' first
    | extract_lets | with_reducible assumption | with_reducible exact Keeps.refl _ | exact hF.within rfl
    | (with_reducible apply Keeps.trans; on_goal 2 => with_reducible first | apply State.restart_keeps)
    | (with_reducible apply Keeps.ite <;> intro _)
    | split

theorem execReadTelemetry_keeps (h : Halyard) (s : State) : Keeps.Out 0x13E04048 s (execReadTelemetry h s) := by
  unfold execReadTelemetry
  have hF := Sub.refl 0x13E04048
  apply Keeps.done
  repeat' first
    | extract_lets | with_reducible assumption | with_reducible exact Keeps.refl _ | exact hF.within rfl
    | (with_reducible apply Keeps.trans; on_goal 2 => with_reducible first
          | apply State.replyOk_keeps | apply State.packet_keeps)
    | split
    | intro _

theorem execThmRead_keeps (h : Halyard) (s : State) : Keeps.Out 0x13E04048 s (execThmRead h s) := by
  unfold execThmRead
  have hF := Sub.refl 0x13E04048
  apply Keeps.done
  repeat' first
    | extract_lets | with_reducible assumption | with_reducible exact Keeps.refl _ | exact hF.within rfl
    | (with_reducible apply Keeps.trans; on_goal 2 => with_reducible first
          | apply State.replyOk_keeps | apply State.replyBad_keeps | apply State.packet_keeps)
    | split
    | intro _

theorem State.retestLevels_keeps (s : State) {F : Nat} (hF : Sub 0x1E80008 F) : Keeps F s (State.retestLevels s) := by
  unfold State.retestLevels
  repeat' first
    | extract_lets | with_reducible assumption | with_reducible exact Keeps.refl _ | exact hF.within rfl
    | (with_reducible apply Keeps.trans; on_goal 2 => with_reducible first
          | apply State.throttle_keeps | apply State.warn_keeps)
    | (with_reducible apply Keeps.foldl; intro _ _ _)

theorem execThmSetWarn_keeps (h : Halyard) (s : State) : Keeps.Out 0x13E84048 s (execThmSetWarn h s) := by
  unfold execThmSetWarn
  have hF := Sub.refl 0x13E84048
  apply Keeps.done
  repeat' first
    | extract_lets | with_reducible assumption | with_reducible exact Keeps.refl _ | exact hF.within rfl
    | (with_reducible apply Keeps.trans; on_goal 2 => with_reducible first
          | apply State.fset_keeps | apply State.replyOk_keeps | apply State.replyBad_keeps
          | apply State.packet_keeps | apply State.retestLevels_keeps)
    | split
    | intro _

theorem execThmModel_keeps (h : Halyard) (s : State) : Keeps.Out 0x13E04048 s (execThmModel h s) := by
  unfold execThmModel
  have hF := Sub.refl 0x13E04048
  apply Keeps.done
  repeat' first
    | extract_lets | with_reducible assumption | with_reducible exact Keeps.refl _ | exact hF.within rfl
    | (with_reducible apply Keeps.trans; on_goal 2 => with_reducible first
          | apply State.replyOk_keeps | apply State.packet_keeps)
    | split
    | intro _

theorem State.measure_keeps (s : State) (o : RoundObs) {F : Nat} (hF : Sub 0x80008 F) : Keeps F s (State.measure s o)
    := by
  unfold State.measure
  repeat' first
    | extract_lets | with_reducible assumption | with_reducible exact Keeps.refl _ | exact hF.within rfl
    | (with_reducible apply Keeps.trans; on_goal 2 => with_reducible first | apply State.fset_keeps)
    | split
    | (with_reducible apply Keeps.fst; on_goal 2 => with_reducible assumption)
    | (with_reducible apply Keeps.snd; on_goal 2 => with_reducible assumption)
    | with_reducible apply Keeps.mk_thm

theorem State.advanceModel_keeps (s : State) (o : RoundObs) {F : Nat} (hF : Sub 0x19EDE7FC F) : Keeps F s
    (State.advanceModel s o) := by
  unfold State.advanceModel
  repeat' first
    | extract_lets | with_reducible assumption | with_reducible exact Keeps.refl _ | exact hF.within rfl
    | (with_reducible apply Keeps.trans; on_goal 2 => with_reducible first
          | apply State.fset_keeps | apply State.setFlag_keeps | apply State.setDie_keeps
          | apply State.setUsed_keeps | apply State.fastSample_keeps | apply State.throttle_keeps
          | apply State.warn_keeps | apply State.tripTest_keeps | apply State.restartHold_keeps)
    | (with_reducible apply Keeps.foldl; intro _ _ _)
    | (with_reducible apply Keeps.ite <;> intro _)
    | split
    | (with_reducible apply Keeps.fst; on_goal 2 => with_reducible assumption)
    | (with_reducible apply Keeps.snd; on_goal 2 => with_reducible assumption)
    | with_reducible apply Keeps.mk_thm

theorem State.fioComp_keeps (s : State) {F : Nat} (hF : Sub 0xC0000 F) : Keeps F s (State.fioComp s) := by
  unfold State.fioComp
  repeat' first
    | extract_lets | with_reducible assumption | with_reducible exact Keeps.refl _ | exact hF.within rfl
    | (with_reducible apply Keeps.ite <;> intro _)
    | split
    | (with_reducible apply Keeps.fst; on_goal 2 => with_reducible assumption)
    | (with_reducible apply Keeps.snd; on_goal 2 => with_reducible assumption)
    | with_reducible apply Keeps.mk_cal
    | with_reducible apply Keeps.mk_thm

theorem State.auditEngine_keeps (compare : Bool) (s : State) (m : Nat) {F : Nat} (hF : Sub 0x1800408 F) : Keeps F s
    (State.auditEngine compare s m) := by
  unfold State.auditEngine
  repeat' first
    | extract_lets | with_reducible assumption | with_reducible exact Keeps.refl _ | exact hF.within rfl
    | (with_reducible apply Keeps.trans; on_goal 2 => with_reducible first
          | apply State.fault_keeps | apply State.int_keeps | apply State.setEng_keeps)
    | (with_reducible apply Keeps.ite <;> intro _)

theorem State.missRefs_keeps (s : State) (missed : List (Nat × Nat)) {F : Nat} (hF : Sub 0x408 F) : Keeps F s
    (State.missRefs s missed) := by
  unfold State.missRefs
  repeat' first
    | extract_lets | with_reducible assumption | with_reducible exact Keeps.refl _ | exact hF.within rfl
    | (with_reducible apply Keeps.trans; on_goal 2 => with_reducible first
          | apply State.fset_keeps | apply State.setEng_keeps)
    | (with_reducible apply Keeps.foldl; intro _ _ _)

theorem State.auditRound_keeps (s : State) {F : Nat} (hF : Sub 0x5800408 F) : Keeps F s (State.auditRound s) := by
  unfold State.auditRound
  repeat' first
    | extract_lets | with_reducible assumption | with_reducible exact Keeps.refl _ | exact hF.within rfl
    | (with_reducible apply Keeps.trans; on_goal 2 => with_reducible first | apply State.auditEngine_keeps)
    | (with_reducible apply Keeps.foldl; intro _ _ _)
    | split
    | (with_reducible apply Keeps.fst; on_goal 2 => with_reducible assumption)
    | (with_reducible apply Keeps.snd; on_goal 2 => with_reducible assumption)
    | with_reducible apply Keeps.mk_cns

theorem State.governStep_keeps (s : State) {F : Nat} (hF : Sub 0x108 F) : Keeps F s (State.governStep s) := by
  unfold State.governStep
  repeat' first
    | extract_lets | with_reducible assumption | with_reducible exact Keeps.refl _ | exact hF.within rfl
    | (with_reducible apply Keeps.trans; on_goal 2 => with_reducible first
          | apply State.fset_keeps | apply State.setFlag_keeps | apply State.governor_keeps)

theorem State.wakeScrub_keeps (s : State) {F : Nat} (hF : Sub 0x11E047DC F) : Keeps F s (State.wakeScrub s) := by
  unfold State.wakeScrub
  repeat' first
    | extract_lets | with_reducible assumption | with_reducible exact Keeps.refl _ | exact hF.within rfl
    | (with_reducible apply Keeps.trans; on_goal 2 => with_reducible first
          | apply State.setFlag_keeps | apply State.fill_keeps | apply State.setC60_keeps)
    | (with_reducible apply Keeps.ite <;> intro _)
    | split
    | (with_reducible apply Keeps.fst; on_goal 2 => with_reducible assumption)
    | (with_reducible apply Keeps.snd; on_goal 2 => with_reducible assumption)
    | with_reducible apply Keeps.mk_ecc_pw

theorem State.latchTemps_keeps (s : State) {F : Nat} (hF : Sub 0x80000 F) : Keeps F s (State.latchTemps s) := by
  unfold State.latchTemps
  repeat' first
    | extract_lets | with_reducible assumption | with_reducible exact Keeps.refl _ | exact hF.within rfl
    | split
    | (with_reducible apply Keeps.fst; on_goal 2 => with_reducible assumption)
    | (with_reducible apply Keeps.snd; on_goal 2 => with_reducible assumption)
    | with_reducible apply Keeps.mk_thm

theorem State.round_keeps (s : State) (o : RoundObs) {F : Nat} (hF : Sub 0x1DEDE7FC F) : Keeps F s (State.round s o)
    := by
  unfold State.round
  repeat' first
    | extract_lets | with_reducible assumption | with_reducible exact Keeps.refl _ | exact hF.within rfl
    | (with_reducible apply Keeps.trans; on_goal 2 => with_reducible first
          | apply State.bump_keeps | apply State.recompute_keeps | apply State.measure_keeps
          | apply State.advanceModel_keeps | apply State.fioComp_keeps | apply State.missRefs_keeps
          | apply State.auditRound_keeps | apply State.governStep_keeps | apply State.wakeScrub_keeps
          | apply State.latchTemps_keeps)
    | (with_reducible apply Keeps.ite <;> intro _)

theorem State.firstRound_keeps (s : State) (o : RoundObs) (temp : Int) {F : Nat} (hF : Sub 0x1DEDE7FC F) : Keeps F s
    (State.firstRound s o temp) := by
  unfold State.firstRound
  repeat' first
    | extract_lets | with_reducible assumption | with_reducible exact Keeps.refl _ | exact hF.within rfl
    | (with_reducible apply Keeps.trans; on_goal 2 => with_reducible first
          | apply State.setDie_keeps | apply State.setUsed_keeps | apply State.round_keeps)

/-! ### Machine/Power.lean -/

theorem State.supersede_keeps (s : State) {F : Nat} (hF : Sub 0x11E00008 F) : Keeps F s (State.supersede s) := by
  unfold State.supersede
  repeat' first
    | extract_lets | with_reducible assumption | with_reducible exact Keeps.refl _ | exact hF.within rfl
    | (with_reducible apply Keeps.trans; on_goal 2 => with_reducible first
          | apply State.int_keeps | apply State.showPwr_keeps | apply State.endPwrSet_keeps)
    | split
    | (with_reducible apply Keeps.fst; on_goal 2 => with_reducible assumption)
    | (with_reducible apply Keeps.snd; on_goal 2 => with_reducible assumption)
    | with_reducible apply Keeps.mk_pw

theorem State.powerFlush_keeps (s : State) (inv : Bool) {F : Nat} (hF : Sub 0x10002008 F) : Keeps F s
    (State.powerFlush s inv) := by
  unfold State.powerFlush
  repeat' first
    | extract_lets | with_reducible assumption | with_reducible exact Keeps.refl _ | exact hF.within rfl
    | (with_reducible apply Keeps.trans; on_goal 2 => with_reducible first | apply State.startFlush_keeps)
    | split
    | (with_reducible apply Keeps.fst; on_goal 2 => with_reducible assumption)
    | (with_reducible apply Keeps.snd; on_goal 2 => with_reducible assumption)
    | with_reducible apply Keeps.mk_flush_pw

theorem State.yieldFlush_keeps (s : State) {F : Nat} (hF : Sub 0x10002008 F) : Keeps F s (State.yieldFlush s) := by
  unfold State.yieldFlush
  repeat' first
    | extract_lets | with_reducible assumption | with_reducible exact Keeps.refl _ | exact hF.within rfl
    | (with_reducible apply Keeps.trans; on_goal 2 => with_reducible first | apply State.stopFlush_keeps)
    | (with_reducible apply Keeps.ite <;> intro _)
    | split
    | (with_reducible apply Keeps.fst; on_goal 2 => with_reducible assumption)
    | (with_reducible apply Keeps.snd; on_goal 2 => with_reducible assumption)
    | with_reducible apply Keeps.mk_flush
    | with_reducible apply Keeps.mk_pw

theorem State.orderIdle_keeps (s : State) (st : Nat) (deep : Bool) {F : Nat} (hF : Sub 0x20 F) : Keeps F s
    (State.orderIdle s st deep) := by
  unfold State.orderIdle
  repeat' first
    | extract_lets | with_reducible assumption | with_reducible exact Keeps.refl _ | exact hF.within rfl
    | (with_reducible apply Keeps.trans; on_goal 2 => with_reducible first | apply State.setPort_keeps)
    | (with_reducible apply Keeps.foldl; intro _ _ _)
    | (with_reducible apply Keeps.ite <;> intro _)

theorem State.withdrawIdle_keeps (s : State) {F : Nat} (hF : Sub 0x20 F) : Keeps F s (State.withdrawIdle s) := by
  unfold State.withdrawIdle
  repeat' first
    | extract_lets | with_reducible assumption | with_reducible exact Keeps.refl _ | exact hF.within rfl
    | (with_reducible apply Keeps.trans; on_goal 2 => with_reducible first | apply State.setPort_keeps)
    | (with_reducible apply Keeps.foldl; intro _ _ _)
    | (with_reducible apply Keeps.ite <;> intro _)

theorem State.enterPwr_keeps (s : State) (cur : Nat) {F : Nat} (hF : Sub 0x10000008 F) : Keeps F s (State.enterPwr s
    cur) := by
  unfold State.enterPwr
  repeat' first
    | extract_lets | with_reducible assumption | with_reducible exact Keeps.refl _ | exact hF.within rfl
    | (with_reducible apply Keeps.trans; on_goal 2 => with_reducible first
          | apply State.fset_keeps | apply State.showPwr_keeps)
    | split
    | (with_reducible apply Keeps.fst; on_goal 2 => with_reducible assumption)
    | (with_reducible apply Keeps.snd; on_goal 2 => with_reducible assumption)
    | with_reducible apply Keeps.mk_pw

theorem State.reef1Step_keeps (s : State) (k : Nat) {F : Nat} (hF : Sub 0x10000428 F) : Keeps F s (State.reef1Step s
    k) := by
  unfold State.reef1Step
  repeat' first
    | extract_lets | with_reducible assumption | with_reducible exact Keeps.refl _ | exact hF.within rfl
    | (with_reducible apply Keeps.trans; on_goal 2 => with_reducible first
          | apply State.bump_keeps | apply State.enterPd_keeps | apply State.orderIdle_keeps
          | apply State.enterPwr_keeps)
    | (with_reducible apply Keeps.foldl; intro _ _ _)
    | (with_reducible apply Keeps.ite <;> intro _)

theorem State.reef2Step_keeps (s : State) (k : Nat) {F : Nat} (hF : Sub 0x1008657C F) : Keeps F s (State.reef2Step s
    k) := by
  unfold State.reef2Step
  repeat' first
    | extract_lets | with_reducible assumption | with_reducible exact Keeps.refl _ | exact hF.within rfl
    | (with_reducible apply Keeps.trans; on_goal 2 => with_reducible first
          | apply State.setFlag_keeps | apply State.bump_keeps | apply State.abandonBringup_keeps
          | apply State.enterSr_keeps | apply State.drainWrites_keeps | apply State.powerFlush_keeps
          | apply State.orderIdle_keeps | apply State.enterPwr_keeps)
    | (with_reducible apply Keeps.foldl; intro _ _ _)
    | (with_reducible apply Keeps.ite <;> intro _)

theorem State.stopForEntry_keeps (s : State) (op : Option Nat) {F : Nat} (hF : Sub 0x19E5C5C8 F) : Keeps F s
    (State.stopForEntry s op) := by
  unfold State.stopForEntry
  repeat' first
    | extract_lets | with_reducible assumption | with_reducible exact Keeps.refl _ | exact hF.within rfl
    | (with_reducible apply Keeps.trans; on_goal 2 => with_reducible first
          | apply State.setFlag_keeps | apply State.abortScans_keeps | apply State.dropStaging_keeps
          | apply State.endActivity_keeps)
    | (with_reducible apply Keeps.foldl; intro _ _ _)
    | (with_reducible apply Keeps.ite <;> intro _)
    | split
    | (with_reducible apply Keeps.fst; on_goal 2 => with_reducible assumption)
    | (with_reducible apply Keeps.snd; on_goal 2 => with_reducible assumption)
    | with_reducible apply Keeps.mk_mgc
    | with_reducible apply Keeps.mk_pw

theorem State.writeSeal_keeps (s : State) (k : Nat) {F : Nat} (hF : Sub 0x1804018 F) : Keeps F s (State.writeSeal s k)
    := by
  unfold State.writeSeal
  repeat' first
    | extract_lets | with_reducible assumption | with_reducible exact Keeps.refl _ | exact hF.within rfl
    | (with_reducible apply Keeps.trans; on_goal 2 => with_reducible first
          | apply State.setWord_keeps | apply State.record_keeps | apply State.encode_keeps)
    | (with_reducible apply Keeps.ite <;> intro _)

theorem State.saveShadow_keeps (s : State) {F : Nat} (hF : Sub 0x10000000 F) : Keeps F s (State.saveShadow s) := by
  unfold State.saveShadow
  repeat' first
    | extract_lets | with_reducible assumption | with_reducible exact Keeps.refl _ | exact hF.within rfl
    | split
    | (with_reducible apply Keeps.fst; on_goal 2 => with_reducible assumption)
    | (with_reducible apply Keeps.snd; on_goal 2 => with_reducible assumption)
    | with_reducible apply Keeps.mk_pw

theorem State.captureAudit_keeps (s : State) {F : Nat} (hF : Sub 0x10000000 F) : Keeps F s (State.captureAudit s) :=
    by
  unfold State.captureAudit
  repeat' first
    | extract_lets | with_reducible assumption | with_reducible exact Keeps.refl _ | exact hF.within rfl
    | split
    | (with_reducible apply Keeps.fst; on_goal 2 => with_reducible assumption)
    | (with_reducible apply Keeps.snd; on_goal 2 => with_reducible assumption)
    | with_reducible apply Keeps.mk_pw

theorem State.dropArrays_keeps (s : State) (keep : Nat → Bool) {F : Nat} (hF : Sub 0x210 F) : Keeps F s
    (State.dropArrays s keep) := by
  exact ⟨fun h => SMap.wf_filter _ h, id, id, rfl, fun p k => by
    cases p <;> first | rfl | exact ⟨rfl, rfl⟩ | exact absurd (hF.bit k) (by decide)⟩

theorem State.entryStep6_keeps (s : State) (e : PwrEntry) {F : Nat} (hF : Sub 0x1E147FC F) : Keeps F s
    (State.entryStep6 s e) := by
  unfold State.entryStep6
  repeat' first
    | extract_lets | with_reducible assumption | with_reducible exact Keeps.refl _ | exact hF.within rfl
    | (with_reducible apply Keeps.trans; on_goal 2 => with_reducible first
          | apply State.fset_keeps | apply State.event_keeps | apply State.sendEvent_keeps
          | apply State.disableAll_keeps | apply State.discardRequests_keeps | apply State.discardReceived_keeps
          | apply State.endPwrSet_keeps)
    | (with_reducible apply Keeps.foldl; intro _ _ _)
    | split
    | (with_reducible apply Keeps.fst; on_goal 2 => with_reducible assumption)
    | (with_reducible apply Keeps.snd; on_goal 2 => with_reducible assumption)
    | with_reducible apply Keeps.mk_mgc

theorem State.entryStep7_keeps (s : State) (e : PwrEntry) {F : Nat} (hF : Sub 0x10084618 F) : Keeps F s
    (State.entryStep7 s e) := by
  unfold State.entryStep7
  repeat' first
    | extract_lets | with_reducible assumption | with_reducible exact Keeps.refl _ | exact hF.within rfl
    | (with_reducible apply Keeps.trans; on_goal 2 => with_reducible first
          | apply State.enterSr_keeps | apply State.captureAudit_keeps | apply State.dropArrays_keeps)
    | (with_reducible apply Keeps.foldl; intro _ _ _)
    | (with_reducible apply Keeps.ite <;> intro _)

theorem State.clocksOff_keeps (s : State) {F : Nat} (hF : Sub 0x100008 F) : Keeps F s (State.clocksOff s) := by
  unfold State.clocksOff
  repeat' first
    | extract_lets | with_reducible assumption | with_reducible exact Keeps.refl _ | exact hF.within rfl
    | (with_reducible apply Keeps.trans; on_goal 2 => with_reducible first | apply State.setFlag_keeps)
    | (with_reducible apply Keeps.foldl; intro _ _ _)
    | split
    | (with_reducible apply Keeps.fst; on_goal 2 => with_reducible assumption)
    | (with_reducible apply Keeps.snd; on_goal 2 => with_reducible assumption)
    | with_reducible apply Keeps.mk_clk

theorem State.entryStep8_keeps (s : State) (e : PwrEntry) {F : Nat} (hF : Sub 0x11D00008 F) : Keeps F s
    (State.entryStep8 s e) := by
  unfold State.entryStep8
  repeat' first
    | extract_lets | with_reducible assumption | with_reducible exact Keeps.refl _ | exact hF.within rfl
    | (with_reducible apply Keeps.trans; on_goal 2 => with_reducible first
          | apply State.bumpSat_keeps | apply State.int_keeps | apply State.ringRegs_keeps
          | apply State.showPwr_keeps | apply State.enterPwr_keeps | apply State.clocksOff_keeps)
    | (with_reducible apply Keeps.ite <;> intro _)
    | split
    | (with_reducible apply Keeps.fst; on_goal 2 => with_reducible assumption)
    | (with_reducible apply Keeps.snd; on_goal 2 => with_reducible assumption)
    | with_reducible apply Keeps.mk_bbx_pw
    | with_reducible apply Keeps.mk_mgc_pw

theorem State.furlStep_keeps (s : State) (e : PwrEntry) (k : Nat) {F : Nat} (hF : Sub 0x19FDE7FC F) : Keeps F s
    (State.furlStep s e k) := by
  unfold State.furlStep
  repeat' first
    | extract_lets | with_reducible assumption | with_reducible exact Keeps.refl _ | exact hF.within rfl
    | (with_reducible apply Keeps.trans; on_goal 2 => with_reducible first
          | apply State.bump_keeps | apply State.commitRecords_keeps | apply State.powerFlush_keeps
          | apply State.stopForEntry_keeps | apply State.writeSeal_keeps | apply State.saveShadow_keeps
          | apply State.entryStep6_keeps | apply State.entryStep7_keeps | apply State.entryStep8_keeps)
    | (with_reducible apply Keeps.foldl; intro _ _ _)
    | (with_reducible apply Keeps.ite <;> intro _)

theorem State.nextStep_keeps (s : State) (e : PwrEntry) {F : Nat} (hF : Sub 0x19FDE7FC F) : Keeps F s (State.nextStep
    s e) := by
  unfold State.nextStep
  repeat' first
    | extract_lets | with_reducible assumption | with_reducible exact Keeps.refl _ | exact hF.within rfl
    | (with_reducible apply Keeps.trans; on_goal 2 => with_reducible first
          | apply State.showPwr_keeps | apply State.reef1Step_keeps | apply State.reef2Step_keeps
          | apply State.furlStep_keeps)
    | (with_reducible apply Keeps.ite <;> intro _)
    | split
    | (with_reducible apply Keeps.fst; on_goal 2 => with_reducible assumption)
    | (with_reducible apply Keeps.snd; on_goal 2 => with_reducible assumption)
    | with_reducible apply Keeps.mk_pw

theorem State.entryTick_keeps (s : State) {F : Nat} (hF : Sub 0x19FDE7FC F) : Keeps F s (State.entryTick s) := by
  unfold State.entryTick
  repeat' first
    | extract_lets | with_reducible assumption | with_reducible exact Keeps.refl _ | exact hF.within rfl
    | (with_reducible apply Keeps.trans; on_goal 2 => with_reducible first | apply State.nextStep_keeps)
    | (with_reducible apply Keeps.ite <;> intro _)
    | split

theorem State.startEntry_keeps (s : State) (target : Nat) (op : Option Nat) {F : Nat} (hF : Sub 0x10400008 F) : Keeps
    F s (State.startEntry s target op) := by
  unfold State.startEntry
  repeat' first
    | extract_lets | with_reducible assumption | with_reducible exact Keeps.refl _ | exact hF.within rfl
    | (with_reducible apply Keeps.trans; on_goal 2 => with_reducible first
          | apply State.runOp_keeps | apply State.showPwr_keeps)
    | (with_reducible apply Keeps.ite <;> intro _)
    | split
    | (with_reducible apply Keeps.fst; on_goal 2 => with_reducible assumption)
    | (with_reducible apply Keeps.snd; on_goal 2 => with_reducible assumption)
    | with_reducible apply Keeps.mk_pw

theorem State.restoreEngines_keeps (s : State) (origin : Nat) {F : Nat} (hF : Sub 0x80408 F) : Keeps F s
    (State.restoreEngines s origin) := by
  unfold State.restoreEngines
  repeat' first
    | extract_lets | with_reducible assumption | with_reducible exact Keeps.refl _ | exact hF.within rfl
    | (with_reducible apply Keeps.trans; on_goal 2 => with_reducible first
          | apply State.enterPd_keeps | apply State.srxAll_keeps)
    | (with_reducible apply Keeps.foldl; intro _ _ _)
    | (with_reducible apply Keeps.ite <;> intro _)

theorem State.requeueEvac_keeps (s : State) {F : Nat} (hF : Sub 0x10004008 F) : Keeps F s (State.requeueEvac s) := by
  unfold State.requeueEvac
  repeat' first
    | extract_lets | with_reducible assumption | with_reducible exact Keeps.refl _ | exact hF.within rfl
    | (with_reducible apply Keeps.trans; on_goal 2 => with_reducible first | apply State.wantEvac_keeps)
    | (with_reducible apply Keeps.foldl; intro _ _ _)
    | (with_reducible apply Keeps.ite <;> intro _)
    | with_reducible apply Keeps.mk_pw

theorem State.unwind_keeps (s : State) (e : PwrEntry) (cause code : Nat) {F : Nat} (hF : Sub 0x11E866FC F) : Keeps F s
    (State.unwind s e cause code) := by
  unfold State.unwind
  repeat' first
    | extract_lets | with_reducible assumption | with_reducible exact Keeps.refl _ | exact hF.within rfl
    | (with_reducible apply Keeps.trans; on_goal 2 => with_reducible first
          | apply State.int_keeps | apply State.fill_keeps | apply State.showPwr_keeps | apply State.endPwrSet_keeps
          | apply State.yieldFlush_keeps | apply State.withdrawIdle_keeps | apply State.restoreEngines_keeps
          | apply State.requeueEvac_keeps)
    | (with_reducible apply Keeps.foldl; intro _ _ _)
    | (with_reducible apply Keeps.ite <;> intro _)
    | split
    | (with_reducible apply Keeps.fst; on_goal 2 => with_reducible assumption)
    | (with_reducible apply Keeps.snd; on_goal 2 => with_reducible assumption)
    | with_reducible apply Keeps.mk_pw

theorem execEntryUnwind_keeps (s : State) : Keeps.Out 0x11E866FC s (execEntryUnwind s) := by
  unfold execEntryUnwind
  have hF := Sub.refl 0x11E866FC
  apply Keeps.done
  repeat' first
    | extract_lets | with_reducible assumption | with_reducible exact Keeps.refl _ | exact hF.within rfl
    | (with_reducible apply Keeps.trans; on_goal 2 => with_reducible first | apply State.unwind_keeps)
    | (with_reducible apply Keeps.ite <;> intro _)
    | split

theorem execDrainTimeout_keeps (s : State) : Keeps.Out 0x11E866FC s (execDrainTimeout s) := by
  unfold execDrainTimeout
  have hF := Sub.refl 0x11E866FC
  apply Keeps.done
  repeat' first
    | extract_lets | with_reducible assumption | with_reducible exact Keeps.refl _ | exact hF.within rfl
    | (with_reducible apply Keeps.trans; on_goal 2 => with_reducible first | apply State.unwind_keeps)
    | (with_reducible apply Keeps.ite <;> intro _)
    | split

theorem execReef1Entry_keeps (s : State) : Keeps.Out 0x10400008 s (execReef1Entry s) := by
  unfold execReef1Entry
  have hF := Sub.refl 0x10400008
  apply Keeps.done
  repeat' first
    | extract_lets | with_reducible assumption | with_reducible exact Keeps.refl _ | exact hF.within rfl
    | (with_reducible apply Keeps.trans; on_goal 2 => with_reducible first | apply State.startEntry_keeps)
    | (with_reducible apply Keeps.ite <;> intro _)

theorem execReef2Entry_keeps (s : State) : Keeps.Out 0x10400408 s (execReef2Entry s) := by
  unfold execReef2Entry
  have hF := Sub.refl 0x10400408
  apply Keeps.done
  repeat' first
    | extract_lets | with_reducible assumption | with_reducible exact Keeps.refl _ | exact hF.within rfl
    | (with_reducible apply Keeps.trans; on_goal 2 => with_reducible first
          | apply State.leavePd_keeps | apply State.startEntry_keeps)
    | (with_reducible apply Keeps.foldl; intro _ _ _)
    | (with_reducible apply Keeps.ite <;> intro _)

theorem State.relockLplls_keeps (s : State) {F : Nat} (hF : Sub 0x16C F) : Keeps F s (State.relockLplls s) := by
  unfold State.relockLplls
  repeat' first
    | extract_lets | with_reducible assumption | with_reducible exact Keeps.refl _ | exact hF.within rfl
    | (with_reducible apply Keeps.trans; on_goal 2 => with_reducible first
          | apply State.setFlag_keeps | apply State.leavePllWait_keeps)
    | (with_reducible apply Keeps.foldl; intro _ _ _)
    | (with_reducible apply Keeps.ite <;> intro _)

theorem State.reefExit_keeps (s : State) (ns : Nat) {F : Nat} (hF : Sub 0x11E8456C F) : Keeps F s (State.reefExit s
    ns) := by
  unfold State.reefExit
  repeat' first
    | extract_lets | with_reducible assumption | with_reducible exact Keeps.refl _ | exact hF.within rfl
    | (with_reducible apply Keeps.trans; on_goal 2 => with_reducible first
          | apply State.fset_keeps | apply State.lightExit_keeps | apply State.deepExit_keeps
          | apply State.leavePd_keeps | apply State.withdrawIdle_keeps | apply State.enterPwr_keeps
          | apply State.restoreEngines_keeps | apply State.relockLplls_keeps)
    | (with_reducible apply Keeps.foldl; intro _ _ _)
    | (with_reducible apply Keeps.ite <;> intro _)
    | split
    | (with_reducible apply Keeps.fst; on_goal 2 => with_reducible assumption)
    | (with_reducible apply Keeps.snd; on_goal 2 => with_reducible assumption)
    | with_reducible apply Keeps.mk_pw

theorem execReefExit_keeps (ns : Nat) (s : State) : Keeps.Out 0x11E8456C s (execReefExit ns s) := by
  unfold execReefExit
  have hF := Sub.refl 0x11E8456C
  apply Keeps.done
  repeat' first
    | extract_lets | with_reducible assumption | with_reducible exact Keeps.refl _ | exact hF.within rfl
    | (with_reducible apply Keeps.trans; on_goal 2 => with_reducible first | apply State.reefExit_keeps)
    | (with_reducible apply Keeps.ite <;> intro _)

theorem execWakePin_keeps (s : State) : Keeps.Out 0x10000000 s (execWakePin s) := by
  unfold execWakePin
  have hF := Sub.refl 0x10000000
  apply Keeps.done
  repeat' first
    | extract_lets | with_reducible assumption | with_reducible exact Keeps.refl _ | exact hF.within rfl
    | (with_reducible apply Keeps.trans; on_goal 2 => with_reducible first | apply State.wakeEvent_keeps)
    | (with_reducible apply Keeps.ite <;> intro _)

theorem execFurlWakeTimer_keeps (s : State) : Keeps.Out 0x10000000 s (execFurlWakeTimer s) := by
  unfold execFurlWakeTimer
  have hF := Sub.refl 0x10000000
  apply Keeps.done
  repeat' first
    | extract_lets | with_reducible assumption | with_reducible exact Keeps.refl _ | exact hF.within rfl
    | (with_reducible apply Keeps.trans; on_goal 2 => with_reducible first | apply State.wakeEvent_keeps)
    | (with_reducible apply Keeps.ite <;> intro _)

theorem execCustomerWakeTimer_keeps (s : State) : Keeps.Out 0x10000000 s (execCustomerWakeTimer s) := by
  unfold execCustomerWakeTimer
  have hF := Sub.refl 0x10000000
  apply Keeps.done
  repeat' first
    | extract_lets | with_reducible assumption | with_reducible exact Keeps.refl _ | exact hF.within rfl
    | (with_reducible apply Keeps.trans; on_goal 2 => with_reducible first | apply State.wakeEvent_keeps)
    | (with_reducible apply Keeps.ite <;> intro _)

theorem State.resolvePwr_keeps (s : State) (h : Halyard) (t : Nat) {F : Nat} (hF : Sub 0x11E04048 F) : Keeps F s
    (State.resolvePwr s h t) := by
  unfold State.resolvePwr
  repeat' first
    | extract_lets | with_reducible assumption | with_reducible exact Keeps.refl _ | exact hF.within rfl
    | (with_reducible apply Keeps.trans; on_goal 2 => with_reducible first
          | apply State.wakeEvent_keeps | apply State.replyOk_keeps | apply State.accept_keeps
          | apply State.showPwr_keeps | apply State.endPwrSet_keeps | apply State.supersede_keeps
          | apply State.startEntry_keeps)
    | (with_reducible apply Keeps.ite <;> intro _)
    | split
    | (with_reducible apply Keeps.fst; on_goal 2 => with_reducible assumption)
    | (with_reducible apply Keeps.snd; on_goal 2 => with_reducible assumption)
    | with_reducible apply Keeps.mk_pw
    | intro _

theorem execPwrSet_keeps (h : Halyard) (s : State) : Keeps.Out 0x13E04048 s (execPwrSet h s) := by
  unfold execPwrSet
  have hF := Sub.refl 0x13E04048
  apply Keeps.done
  repeat' first
    | extract_lets | with_reducible assumption | with_reducible exact Keeps.refl _ | exact hF.within rfl
    | (with_reducible apply Keeps.trans; on_goal 2 => with_reducible first
          | apply State.replySt_keeps | apply State.replyBad_keeps | apply State.packet_keeps
          | apply State.resolvePwr_keeps)
    | split
    | intro _

theorem execPendingPowerRequest_keeps (s : State) : Keeps.Out 0x11E00008 s (execPendingPowerRequest s) := by
  unfold execPendingPowerRequest
  have hF := Sub.refl 0x11E00008
  apply Keeps.done
  repeat' first
    | extract_lets | with_reducible assumption | with_reducible exact Keeps.refl _ | exact hF.within rfl
    | (with_reducible apply Keeps.trans; on_goal 2 => with_reducible first
          | apply State.showPwr_keeps | apply State.endPwrSet_keeps | apply State.startEntry_keeps)
    | (with_reducible apply Keeps.ite <;> intro _)
    | split
    | (with_reducible apply Keeps.fst; on_goal 2 => with_reducible assumption)
    | (with_reducible apply Keeps.snd; on_goal 2 => with_reducible assumption)
    | with_reducible apply Keeps.mk_pw

theorem execPwrGet_keeps (h : Halyard) (s : State) : Keeps.Out 0x13E04048 s (execPwrGet h s) := by
  unfold execPwrGet
  have hF := Sub.refl 0x13E04048
  apply Keeps.done
  repeat' first
    | extract_lets | with_reducible assumption | with_reducible exact Keeps.refl _ | exact hF.within rfl
    | (with_reducible apply Keeps.trans; on_goal 2 => with_reducible first
          | apply State.replyOk_keeps | apply State.packet_keeps)
    | split
    | intro _

theorem State.setRetMask_keeps (s : State) (mask : Nat) {F : Nat} (hF : Sub 0x8 F) : Keeps F s (State.setRetMask s
    mask) := by
  unfold State.setRetMask
  repeat' first
    | extract_lets | with_reducible assumption | with_reducible exact Keeps.refl _ | exact hF.within rfl
    | (with_reducible apply Keeps.trans; on_goal 2 => with_reducible first | apply State.setReg_keeps)
    | (with_reducible apply Keeps.foldl; intro _ _ _)

theorem execSetRetention_keeps (h : Halyard) (s : State) : Keeps.Out 0x13E04048 s (execSetRetention h s) := by
  unfold execSetRetention
  have hF := Sub.refl 0x13E04048
  apply Keeps.done
  repeat' first
    | extract_lets | with_reducible assumption | with_reducible exact Keeps.refl _ | exact hF.within rfl
    | (with_reducible apply Keeps.trans; on_goal 2 => with_reducible first
          | apply State.setFlag_keeps | apply State.replyOk_keeps | apply State.replyBad_keeps
          | apply State.packet_keeps | apply State.setRetMask_keeps)
    | split
    | intro _

theorem execSetWake_keeps (h : Halyard) (s : State) : Keeps.Out 0x13E04048 s (execSetWake h s) := by
  unfold execSetWake
  have hF := Sub.refl 0x13E04048
  apply Keeps.done
  repeat' first
    | extract_lets | with_reducible assumption | with_reducible exact Keeps.refl _ | exact hF.within rfl
    | (with_reducible apply Keeps.trans; on_goal 2 => with_reducible first
          | apply State.setReg_keeps | apply State.replyOk_keeps | apply State.replyBad_keeps
          | apply State.packet_keeps)
    | split
    | intro _

/-! ### Machine/Otp.lean -/

theorem State.showRepair_keeps (s : State) {F : Nat} (hF : Sub 0x8 F) : Keeps F s (State.showRepair s) := by
  unfold State.showRepair
  repeat' first
    | extract_lets | with_reducible assumption | with_reducible exact Keeps.refl _ | exact hF.within rfl
    | (with_reducible apply Keeps.trans; on_goal 2 => with_reducible first | apply State.setReg_keeps)

theorem State.noteBadEntries_keeps (s : State) {F : Nat} (hF : Sub 0x1800008 F) : Keeps F s (State.noteBadEntries s)
    := by
  unfold State.noteBadEntries
  repeat' first
    | extract_lets | with_reducible assumption | with_reducible exact Keeps.refl _ | exact hF.within rfl
    | (with_reducible apply Keeps.trans; on_goal 2 => with_reducible first
          | apply State.fset_keeps | apply State.int_keeps | apply State.record_keeps)
    | (with_reducible apply Keeps.foldl; intro _ _ _)
    | (with_reducible apply Keeps.ite <;> intro _)

theorem State.senseRegion_keeps (s : State) (r : Nat) {F : Nat} (hF : Sub 0x8000008 F) : Keeps F s (State.senseRegion
    s r) := by
  unfold State.senseRegion
  repeat' first
    | extract_lets | with_reducible assumption | with_reducible exact Keeps.refl _ | exact hF.within rfl
    | (with_reducible apply Keeps.trans; on_goal 2 => with_reducible first
          | apply State.fset_keeps | apply State.setFlag_keeps)
    | split
    | (with_reducible apply Keeps.fst; on_goal 2 => with_reducible assumption)
    | (with_reducible apply Keeps.snd; on_goal 2 => with_reducible assumption)
    | with_reducible apply Keeps.mk_otp

theorem State.senseEntry_keeps (s : State) (w : Nat) {F : Nat} (hF : Sub 0x8000000 F) : Keeps F s (State.senseEntry s
    w) := by
  unfold State.senseEntry
  repeat' first
    | extract_lets | with_reducible assumption | with_reducible exact Keeps.refl _ | exact hF.within rfl
    | split
    | (with_reducible apply Keeps.fst; on_goal 2 => with_reducible assumption)
    | (with_reducible apply Keeps.snd; on_goal 2 => with_reducible assumption)
    | with_reducible apply Keeps.mk_otp

theorem State.noteMarginal_keeps (s : State) {F : Nat} (hF : Sub 0x1800008 F) : Keeps F s (State.noteMarginal s) := by
  unfold State.noteMarginal
  repeat' first
    | extract_lets | with_reducible assumption | with_reducible exact Keeps.refl _ | exact hF.within rfl
    | (with_reducible apply Keeps.trans; on_goal 2 => with_reducible first
          | apply State.setReg_keeps | apply State.fset_keeps | apply State.int_keeps | apply State.record_keeps)
    | (with_reducible apply Keeps.foldl; intro _ _ _)

theorem State.showLocks_keeps (s : State) {F : Nat} (hF : Sub 0x8 F) : Keeps F s (State.showLocks s) := by
  unfold State.showLocks
  repeat' first
    | extract_lets | with_reducible assumption | with_reducible exact Keeps.refl _ | exact hF.within rfl
    | (with_reducible apply Keeps.trans; on_goal 2 => with_reducible first
          | apply State.fset_keeps | apply State.setFlag_keeps)

theorem State.loadCust_keeps (s : State) {F : Nat} (hF : Sub 0x8 F) : Keeps F s (State.loadCust s) := by
  unfold State.loadCust
  repeat' first
    | extract_lets | with_reducible assumption | with_reducible exact Keeps.refl _ | exact hF.within rfl
    | (with_reducible apply Keeps.trans; on_goal 2 => with_reducible first
          | apply State.setReg_keeps | apply State.fset_keeps | apply State.setFlag_keeps)

theorem State.loadLens_keeps (s : State) {F : Nat} (hF : Sub 0x8 F) : Keeps F s (State.loadLens s) := by
  unfold State.loadLens
  repeat' first
    | extract_lets | with_reducible assumption | with_reducible exact Keeps.refl _ | exact hF.within rfl
    | (with_reducible apply Keeps.trans; on_goal 2 => with_reducible first | apply State.fset_keeps)

theorem State.loadId_keeps (s : State) {F : Nat} (hF : Sub 0x8 F) : Keeps F s (State.loadId s) := by
  unfold State.loadId
  repeat' first
    | extract_lets | with_reducible assumption | with_reducible exact Keeps.refl _ | exact hF.within rfl
    | (with_reducible apply Keeps.trans; on_goal 2 => with_reducible first
          | apply State.setReg_keeps | apply State.fset_keeps)

theorem State.senseFuses_keeps (s : State) {F : Nat} (hF : Sub 0x9800009 F) : Keeps F s (State.senseFuses s) := by
  unfold State.senseFuses
  repeat' first
    | extract_lets | with_reducible assumption | with_reducible exact Keeps.refl _ | exact hF.within rfl
    | (with_reducible apply Keeps.trans; on_goal 2 => with_reducible first
          | apply State.setReg_keeps | apply State.showRepair_keeps | apply State.noteBadEntries_keeps
          | apply State.senseRegion_keeps | apply State.senseEntry_keeps | apply State.noteMarginal_keeps
          | apply State.showLocks_keeps | apply State.loadCust_keeps | apply State.loadLens_keeps
          | apply State.loadId_keeps)
    | (with_reducible apply Keeps.foldl; intro _ _ _)
    | (with_reducible apply Keeps.ite <;> intro _)
    | split
    | (with_reducible apply Keeps.fst; on_goal 2 => with_reducible assumption)
    | (with_reducible apply Keeps.snd; on_goal 2 => with_reducible assumption)
    | with_reducible apply Keeps.mk_otp
    | with_reducible apply Keeps.mk_part

theorem State.setFword_keeps (s : State) (w : Nat) (f : FuseWord) {F : Nat} (hF : Sub 0x8000000 F) : Keeps F s
    (State.setFword s w f) := by
  unfold State.setFword
  repeat' first
    | extract_lets | with_reducible assumption | with_reducible exact Keeps.refl _ | exact hF.within rfl
    | split
    | (with_reducible apply Keeps.fst; on_goal 2 => with_reducible assumption)
    | (with_reducible apply Keeps.snd; on_goal 2 => with_reducible assumption)
    | with_reducible apply Keeps.mk_otp

theorem State.cutPulse_keeps (s : State) {F : Nat} (hF : Sub 0x8000004 F) : Keeps F s (State.cutPulse s) := by
  unfold State.cutPulse
  repeat' first
    | extract_lets | with_reducible assumption | with_reducible exact Keeps.refl _ | exact hF.within rfl
    | (with_reducible apply Keeps.trans; on_goal 2 => with_reducible first | apply State.setFword_keeps)
    | split
    | (with_reducible apply Keeps.fst; on_goal 2 => with_reducible assumption)
    | (with_reducible apply Keeps.snd; on_goal 2 => with_reducible assumption)
    | with_reducible apply Keeps.mk_free

theorem State.startFuse_keeps (s : State) (j : FuseJob) {F : Nat} (hF : Sub 0x8000008 F) : Keeps F s (State.startFuse
    s j) := by
  unfold State.startFuse
  repeat' first
    | extract_lets | with_reducible assumption | with_reducible exact Keeps.refl _ | exact hF.within rfl
    | (with_reducible apply Keeps.trans; on_goal 2 => with_reducible first
          | apply State.fset_keeps | apply State.setFlag_keeps)
    | split
    | (with_reducible apply Keeps.fst; on_goal 2 => with_reducible assumption)
    | (with_reducible apply Keeps.snd; on_goal 2 => with_reducible assumption)
    | with_reducible apply Keeps.mk_otp

theorem State.hardenNext_keeps (s : State) {F : Nat} (hF : Sub 0x9E04008 F) : Keeps F s (State.hardenNext s) := by
  unfold State.hardenNext
  repeat' first
    | extract_lets | with_reducible assumption | with_reducible exact Keeps.refl _ | exact hF.within rfl
    | (with_reducible apply Keeps.trans; on_goal 2 => with_reducible first
          | apply State.runOp_keeps | apply State.finishOp_keeps | apply State.startFuse_keeps)
    | (with_reducible apply Keeps.ite <;> intro _)
    | split
    | (with_reducible apply Keeps.fst; on_goal 2 => with_reducible assumption)
    | (with_reducible apply Keeps.snd; on_goal 2 => with_reducible assumption)
    | with_reducible apply Keeps.mk_ecc
    | with_reducible apply Keeps.mk_otp

theorem State.endFuse_keeps (s : State) (j : FuseJob) (pulses weak failed result : Nat) {F : Nat} (hF : Sub 0x9E04048
    F) : Keeps F s (State.endFuse s j pulses weak failed result) := by
  unfold State.endFuse
  repeat' first
    | extract_lets | with_reducible assumption | with_reducible exact Keeps.refl _ | exact hF.within rfl
    | (with_reducible apply Keeps.trans; on_goal 2 => with_reducible first
          | apply State.setReg_keeps | apply State.fset_keeps | apply State.setFlag_keeps
          | apply State.bumpSat_keeps | apply State.int_keeps | apply State.record_keeps | apply State.replySt_keeps
          | apply State.finishOp_keeps)
    | (with_reducible apply Keeps.ite <;> intro _)
    | split
    | (with_reducible apply Keeps.fst; on_goal 2 => with_reducible assumption)
    | (with_reducible apply Keeps.snd; on_goal 2 => with_reducible assumption)
    | with_reducible apply Keeps.mk_otp

theorem State.clearMarg_keeps (s : State) (w : Nat) {F : Nat} (hF : Sub 0x8 F) : Keeps F s (State.clearMarg s w) := by
  unfold State.clearMarg
  repeat' first
    | extract_lets | with_reducible assumption | with_reducible exact Keeps.refl _ | exact hF.within rfl
    | (with_reducible apply Keeps.trans; on_goal 2 => with_reducible first | apply State.setReg_keeps)
    | (with_reducible apply Keeps.foldl; intro _ _ _)
    | (with_reducible apply Keeps.ite <;> intro _)

theorem State.fuseDone_keeps (s : State) (j : FuseJob) (pulses : List FuseWord) {F : Nat} (hF : Sub 0x9E04048 F) :
    Keeps F s (State.fuseDone s j pulses) := by
  unfold State.fuseDone
  repeat' first
    | extract_lets | with_reducible assumption | with_reducible exact Keeps.refl _ | exact hF.within rfl
    | (with_reducible apply Keeps.trans; on_goal 2 => with_reducible first
          | apply State.int_keeps | apply State.showRepair_keeps | apply State.showLocks_keeps
          | apply State.setFword_keeps | apply State.endFuse_keeps | apply State.clearMarg_keeps)
    | (with_reducible apply Keeps.ite <;> intro _)

theorem execProgDone_keeps (pulses : List FuseWord) (s : State) : Keeps.Out 0x9E04048 s (execProgDone pulses s) := by
  unfold execProgDone
  have hF := Sub.refl 0x9E04048
  apply Keeps.done
  repeat' first
    | extract_lets | with_reducible assumption | with_reducible exact Keeps.refl _ | exact hF.within rfl
    | (with_reducible apply Keeps.trans; on_goal 2 => with_reducible first
          | apply State.hardenNext_keeps | apply State.fuseDone_keeps)
    | (with_reducible apply Keeps.ite <;> intro _)
    | split

theorem execOtpRead_keeps (h : Halyard) (s : State) : Keeps.Out 0x13E04048 s (execOtpRead h s) := by
  unfold execOtpRead
  have hF := Sub.refl 0x13E04048
  apply Keeps.done
  repeat' first
    | extract_lets | with_reducible assumption | with_reducible exact Keeps.refl _ | exact hF.within rfl
    | (with_reducible apply Keeps.trans; on_goal 2 => with_reducible first
          | apply State.replyOk_keeps | apply State.replySt_keeps | apply State.replyBad_keeps
          | apply State.packet_keeps)
    | split
    | intro _

theorem execOtpProgram_keeps (h : Halyard) (s : State) : Keeps.Out 0x1BE04048 s (execOtpProgram h s) := by
  unfold execOtpProgram
  have hF := Sub.refl 0x1BE04048
  apply Keeps.done
  repeat' first
    | extract_lets | with_reducible assumption | with_reducible exact Keeps.refl _ | exact hF.within rfl
    | (with_reducible apply Keeps.trans; on_goal 2 => with_reducible first
          | apply State.replySt_keeps | apply State.replyBad_keeps | apply State.accept_keeps
          | apply State.packet_keeps | apply State.startFuse_keeps)
    | split
    | intro _

theorem execOtpReblow_keeps (h : Halyard) (s : State) : Keeps.Out 0x1BE04048 s (execOtpReblow h s) := by
  unfold execOtpReblow
  have hF := Sub.refl 0x1BE04048
  apply Keeps.done
  repeat' first
    | extract_lets | with_reducible assumption | with_reducible exact Keeps.refl _ | exact hF.within rfl
    | (with_reducible apply Keeps.trans; on_goal 2 => with_reducible first
          | apply State.replySt_keeps | apply State.replyBad_keeps | apply State.accept_keeps
          | apply State.packet_keeps | apply State.startFuse_keeps)
    | split
    | intro _

theorem execOtpLock_keeps (h : Halyard) (s : State) : Keeps.Out 0x1BE04048 s (execOtpLock h s) := by
  unfold execOtpLock
  have hF := Sub.refl 0x1BE04048
  apply Keeps.done
  repeat' first
    | extract_lets | with_reducible assumption | with_reducible exact Keeps.refl _ | exact hF.within rfl
    | (with_reducible apply Keeps.trans; on_goal 2 => with_reducible first
          | apply State.replyOk_keeps | apply State.replySt_keeps | apply State.replyBad_keeps
          | apply State.packet_keeps | apply State.startFuse_keeps)
    | split
    | intro _

theorem execOtpMargin_keeps (h : Halyard) (s : State) : Keeps.Out 0x13E04048 s (execOtpMargin h s) := by
  unfold execOtpMargin
  have hF := Sub.refl 0x13E04048
  apply Keeps.done
  repeat' first
    | extract_lets | with_reducible assumption | with_reducible exact Keeps.refl _ | exact hF.within rfl
    | (with_reducible apply Keeps.trans; on_goal 2 => with_reducible first
          | apply State.replyOk_keeps | apply State.replySt_keeps | apply State.packet_keeps)
    | split
    | intro _

theorem execRowSpareHard_keeps (h : Halyard) (s : State) : Keeps.Out 0x1BE04048 s (execRowSpareHard h s) := by
  unfold execRowSpareHard
  have hF := Sub.refl 0x1BE04048
  apply Keeps.done
  repeat' first
    | extract_lets | with_reducible assumption | with_reducible exact Keeps.refl _ | exact hF.within rfl
    | (with_reducible apply Keeps.trans; on_goal 2 => with_reducible first
          | apply State.replySt_keeps | apply State.replyBad_keeps | apply State.accept_keeps
          | apply State.packet_keeps | apply State.hardenNext_keeps)
    | split
    | (with_reducible apply Keeps.fst; on_goal 2 => with_reducible assumption)
    | (with_reducible apply Keeps.snd; on_goal 2 => with_reducible assumption)
    | with_reducible apply Keeps.mk_otp
    | intro _

/-! ### Machine/Clock.lean -/

theorem State.showClk_keeps (s : State) {F : Nat} (hF : Sub 0x8 F) : Keeps F s (State.showClk s) := by
  unfold State.showClk
  repeat' first
    | extract_lets | with_reducible assumption | with_reducible exact Keeps.refl _ | exact hF.within rfl
    | (with_reducible apply Keeps.trans; on_goal 2 => with_reducible first | apply State.setFlag_keeps)

theorem State.moveDomains_keeps (s : State) (mask : Nat) (away : Bool) {F : Nat} (hF : Sub 0x100008 F) : Keeps F s
    (State.moveDomains s mask away) := by
  unfold State.moveDomains
  repeat' first
    | extract_lets | with_reducible assumption | with_reducible exact Keeps.refl _ | exact hF.within rfl
    | (with_reducible apply Keeps.trans; on_goal 2 => with_reducible first | apply State.showClk_keeps)
    | split
    | (with_reducible apply Keeps.fst; on_goal 2 => with_reducible assumption)
    | (with_reducible apply Keeps.snd; on_goal 2 => with_reducible assumption)
    | with_reducible apply Keeps.mk_clk

theorem State.limp_keeps (s : State) (reason : Nat) {F : Nat} (hF : Sub 0x19F547FC F) : Keeps F s (State.limp s
    reason) := by
  unfold State.limp
  repeat' first
    | extract_lets | with_reducible assumption | with_reducible exact Keeps.refl _ | exact hF.within rfl
    | (with_reducible apply Keeps.trans; on_goal 2 => with_reducible first
          | apply State.fset_keeps | apply State.setFlag_keeps | apply State.recordState_keeps
          | apply State.alert_keeps | apply State.disableAll_keeps | apply State.discardRequests_keeps
          | apply State.discardReceived_keeps | apply State.endPackets_keeps)
    | split
    | (with_reducible apply Keeps.fst; on_goal 2 => with_reducible assumption)
    | (with_reducible apply Keeps.snd; on_goal 2 => with_reducible assumption)
    | with_reducible apply Keeps.mk_cal_clk_pw

theorem State.clockFail_keeps (s : State) (mon reason count mask source kind loc : Nat) {F : Nat} (hF : Sub 0x1E00008
    F) : Keeps F s (State.clockFail s mon reason count mask source kind loc) := by
  unfold State.clockFail
  repeat' first
    | extract_lets | with_reducible assumption | with_reducible exact Keeps.refl _ | exact hF.within rfl
    | (with_reducible apply Keeps.trans; on_goal 2 => with_reducible first
          | apply State.fault_keeps | apply State.event_keeps | apply State.alert_keeps)
    | (with_reducible apply Keeps.ite <;> intro _)

theorem State.setMon_keeps (s : State) (i : Nat) (m : MonSt) {F : Nat} (hF : Sub 0x100000 F) : Keeps F s (State.setMon
    s i m) := by
  unfold State.setMon
  repeat' first
    | extract_lets | with_reducible assumption | with_reducible exact Keeps.refl _ | exact hF.within rfl
    | split
    | (with_reducible apply Keeps.fst; on_goal 2 => with_reducible assumption)
    | (with_reducible apply Keeps.snd; on_goal 2 => with_reducible assumption)
    | with_reducible apply Keeps.mk_clk

theorem State.refMonitors_keeps (s : State) (alt : Bool) {F : Nat} (hF : Sub 0x8 F) : Keeps F s (State.refMonitors s
    alt) := by
  unfold State.refMonitors
  repeat' first
    | extract_lets | with_reducible assumption | with_reducible exact Keeps.refl _ | exact hF.within rfl
    | (with_reducible apply Keeps.trans; on_goal 2 => with_reducible first
          | apply State.fset_keeps | apply State.setFlag_keeps)
    | (with_reducible apply Keeps.foldl; intro _ _ _)

theorem State.setValid_keeps (s : State) (i : Nat) (b : Bool) {F : Nat} (hF : Sub 0x8 F) : Keeps F s (State.setValid s
    i b) := by
  unfold State.setValid
  repeat' first
    | extract_lets | with_reducible assumption | with_reducible exact Keeps.refl _ | exact hF.within rfl
    | (with_reducible apply Keeps.trans; on_goal 2 => with_reducible first | apply State.setFlag_keeps)

theorem State.sourceFailed_keeps (s : State) (i : Nat) {F : Nat} (hF : Sub 0x1190016C F) : Keeps F s
    (State.sourceFailed s i).1 := by
  unfold State.sourceFailed
  repeat' first
    | extract_lets | with_reducible assumption | with_reducible exact Keeps.refl _ | exact hF.within rfl
    | (with_reducible apply Keeps.trans; on_goal 2 => with_reducible first
          | apply State.fset_keeps | apply State.setFlag_keeps | apply State.bumpSat_keeps | apply State.int_keeps
          | apply State.enterHoldover_keeps | apply State.showClk_keeps | apply State.refMonitors_keeps
          | apply State.setValid_keeps)
    | (with_reducible apply Keeps.foldl; intro _ _ _)
    | (with_reducible apply Keeps.ite <;> intro _)
    | split
    | (with_reducible apply Keeps.fst; on_goal 2 => with_reducible assumption)
    | (with_reducible apply Keeps.snd; on_goal 2 => with_reducible assumption)
    | with_reducible apply Keeps.mk_pw

theorem State.sioFailed_keeps (s : State) (count reason : Nat) {F : Nat} (hF : Sub 0x1F00008 F) : Keeps F s
    (State.sioFailed s count reason) := by
  unfold State.sioFailed
  repeat' first
    | extract_lets | with_reducible assumption | with_reducible exact Keeps.refl _ | exact hF.within rfl
    | (with_reducible apply Keeps.trans; on_goal 2 => with_reducible first
          | apply State.setFlag_keeps | apply State.int_keeps | apply State.moveDomains_keeps
          | apply State.clockFail_keeps)

theorem State.declareFailed_keeps (s : State) (i count reason : Nat) {F : Nat} (hF : Sub 0x19F547FC F) : Keeps F s
    (State.declareFailed s i count reason) := by
  unfold State.declareFailed
  repeat' first
    | extract_lets | with_reducible assumption | with_reducible exact Keeps.refl _ | exact hF.within rfl
    | (with_reducible apply Keeps.trans; on_goal 2 => with_reducible first
          | apply State.setFlag_keeps | apply State.limp_keeps | apply State.clockFail_keeps
          | apply State.setMon_keeps | apply State.sourceFailed_keeps | apply State.sioFailed_keeps)
    | (with_reducible apply Keeps.ite <;> intro _)

theorem State.sourceBack_keeps (s : State) (i : Nat) {F : Nat} (hF : Sub 0x1900008 F) : Keeps F s (State.sourceBack s
    i) := by
  unfold State.sourceBack
  repeat' first
    | extract_lets | with_reducible assumption | with_reducible exact Keeps.refl _ | exact hF.within rfl
    | (with_reducible apply Keeps.trans; on_goal 2 => with_reducible first
          | apply State.setFlag_keeps | apply State.int_keeps | apply State.setMon_keeps
          | apply State.refMonitors_keeps | apply State.setValid_keeps)
    | (with_reducible apply Keeps.ite <;> intro _)

theorem State.revive_keeps (s : State) (i : Nat) {F : Nat} (hF : Sub 0x1900008 F) : Keeps F s (State.revive s i) := by
  unfold State.revive
  repeat' first
    | extract_lets | with_reducible assumption | with_reducible exact Keeps.refl _ | exact hF.within rfl
    | (with_reducible apply Keeps.trans; on_goal 2 => with_reducible first
          | apply State.setValid_keeps | apply State.sourceBack_keeps)
    | (with_reducible apply Keeps.ite <;> intro _)

theorem State.window_keeps (s : State) (i count : Nat) {F : Nat} (hF : Sub 0x19F547FC F) : Keeps F s (State.window s i
    count) := by
  unfold State.window
  repeat' first
    | extract_lets | with_reducible assumption | with_reducible exact Keeps.refl _ | exact hF.within rfl
    | (with_reducible apply Keeps.trans; on_goal 2 => with_reducible first
          | apply State.fset_keeps | apply State.bumpSat_keeps | apply State.setMon_keeps
          | apply State.declareFailed_keeps | apply State.revive_keeps)
    | (with_reducible apply Keeps.ite <;> intro _)

theorem execMonitorWindow_keeps (i count : Nat) (s : State) : Keeps.Out 0x19F547FC s (execMonitorWindow i count s) :=
    by
  unfold execMonitorWindow
  have hF := Sub.refl 0x19F547FC
  apply Keeps.done
  repeat' first
    | extract_lets | with_reducible assumption | with_reducible exact Keeps.refl _ | exact hF.within rfl
    | (with_reducible apply Keeps.trans; on_goal 2 => with_reducible first | apply State.window_keeps)
    | (with_reducible apply Keeps.ite <;> intro _)

theorem State.refBack_keeps (s : State) {F : Nat} (hF : Sub 0x8 F) : Keeps F s (State.refBack s) := by
  unfold State.refBack
  repeat' first
    | extract_lets | with_reducible assumption | with_reducible exact Keeps.refl _ | exact hF.within rfl
    | (with_reducible apply Keeps.trans; on_goal 2 => with_reducible first
          | apply State.fset_keeps | apply State.setFlag_keeps | apply State.showClk_keeps
          | apply State.refMonitors_keeps)
    | (with_reducible apply Keeps.foldl; intro _ _ _)

theorem State.xbStable_keeps (s : State) {F : Nat} (hF : Sub 0x8 F) : Keeps F s (State.xbStable s) := by
  unfold State.xbStable
  repeat' first
    | extract_lets | with_reducible assumption | with_reducible exact Keeps.refl _ | exact hF.within rfl
    | (with_reducible apply Keeps.trans; on_goal 2 => with_reducible first
          | apply State.fset_keeps | apply State.setFlag_keeps | apply State.setValid_keeps)

theorem State.countEnd_keeps (s : State) (i : Nat) {F : Nat} (hF : Sub 0x1900008 F) : Keeps F s (State.countEnd s i)
    := by
  unfold State.countEnd
  repeat' first
    | extract_lets | with_reducible assumption | with_reducible exact Keeps.refl _ | exact hF.within rfl
    | (with_reducible apply Keeps.trans; on_goal 2 => with_reducible first
          | apply State.setFlag_keeps | apply State.setMon_keeps | apply State.setValid_keeps
          | apply State.revive_keeps | apply State.refBack_keeps | apply State.xbStable_keeps)
    | (with_reducible apply Keeps.ite <;> intro _)

theorem execStabilityCountEnd_keeps (i : Nat) (s : State) : Keeps.Out 0x1900008 s (execStabilityCountEnd i s) := by
  unfold execStabilityCountEnd
  have hF := Sub.refl 0x1900008
  apply Keeps.done
  repeat' first
    | extract_lets | with_reducible assumption | with_reducible exact Keeps.refl _ | exact hF.within rfl
    | (with_reducible apply Keeps.trans; on_goal 2 => with_reducible first | apply State.countEnd_keeps)
    | (with_reducible apply Keeps.ite <;> intro _)

theorem execSourceRestart_keeps (i : Nat) (s : State) : Keeps.Out 0x100000 s (execSourceRestart i s) := by
  unfold execSourceRestart
  have hF := Sub.refl 0x100000
  apply Keeps.done
  repeat' first
    | extract_lets | with_reducible assumption | with_reducible exact Keeps.refl _ | exact hF.within rfl
    | (with_reducible apply Keeps.trans; on_goal 2 => with_reducible first | apply State.setMon_keeps)
    | (with_reducible apply Keeps.ite <;> intro _)

theorem execXbAbsent_keeps (s : State) : Keeps.Out 0x1800008 s (execXbAbsent s) := by
  unfold execXbAbsent
  have hF := Sub.refl 0x1800008
  apply Keeps.done
  repeat' first
    | extract_lets | with_reducible assumption | with_reducible exact Keeps.refl _ | exact hF.within rfl
    | (with_reducible apply Keeps.trans; on_goal 2 => with_reducible first | apply State.int_keeps)
    | (with_reducible apply Keeps.ite <;> intro _)

theorem State.holdEngines_keeps (s : State) (on : Bool) {F : Nat} (hF : Sub 0x84408 F) : Keeps F s (State.holdEngines
    s on) := by
  unfold State.holdEngines
  repeat' first
    | extract_lets | with_reducible assumption | with_reducible exact Keeps.refl _ | exact hF.within rfl
    | (with_reducible apply Keeps.trans; on_goal 2 => with_reducible first
          | apply State.enterPd_keeps | apply State.enterSr_keeps | apply State.leaveSr_keeps)
    | (with_reducible apply Keeps.foldl; intro _ _ _)
    | (with_reducible apply Keeps.ite <;> intro _)

theorem State.unlock_keeps (s : State) (j : Nat) {F : Nat} (hF : Sub 0x1F8456C F) : Keeps F s (State.unlock s j) := by
  unfold State.unlock
  repeat' first
    | extract_lets | with_reducible assumption | with_reducible exact Keeps.refl _ | exact hF.within rfl
    | (with_reducible apply Keeps.trans; on_goal 2 => with_reducible first
          | apply State.setFlag_keeps | apply State.bumpSat_keeps | apply State.int_keeps
          | apply State.abandonBringup_keeps | apply State.moveDomains_keeps | apply State.clockFail_keeps
          | apply State.holdEngines_keeps)
    | (with_reducible apply Keeps.foldl; intro _ _ _)
    | (with_reducible apply Keeps.ite <;> intro _)

theorem execPllUnlock_keeps (j : Nat) (s : State) : Keeps.Out 0x1F8456C s (execPllUnlock j s) := by
  unfold execPllUnlock
  have hF := Sub.refl 0x1F8456C
  apply Keeps.done
  repeat' first
    | extract_lets | with_reducible assumption | with_reducible exact Keeps.refl _ | exact hF.within rfl
    | (with_reducible apply Keeps.trans; on_goal 2 => with_reducible first | apply State.unlock_keeps)
    | (with_reducible apply Keeps.ite <;> intro _)

theorem State.relock_keeps (s : State) (j lockUs : Nat) {F : Nat} (hF : Sub 0x18456C F) : Keeps F s (State.relock s j
    lockUs) := by
  unfold State.relock
  repeat' first
    | extract_lets | with_reducible assumption | with_reducible exact Keeps.refl _ | exact hF.within rfl
    | (with_reducible apply Keeps.trans; on_goal 2 => with_reducible first
          | apply State.fset_keeps | apply State.setFlag_keeps | apply State.lpllLocked_keeps
          | apply State.moveDomains_keeps | apply State.holdEngines_keeps)
    | (with_reducible apply Keeps.ite <;> intro _)

theorem execPllRelock_keeps (j lockUs : Nat) (s : State) : Keeps.Out 0x18456C s (execPllRelock j lockUs s) := by
  unfold execPllRelock
  have hF := Sub.refl 0x18456C
  apply Keeps.done
  repeat' first
    | extract_lets | with_reducible assumption | with_reducible exact Keeps.refl _ | exact hF.within rfl
    | (with_reducible apply Keeps.trans; on_goal 2 => with_reducible first | apply State.relock_keeps)
    | (with_reducible apply Keeps.ite <;> intro _)

theorem execDeadSource_keeps (sw old new : Nat) (s : State) : Keeps.Out 0x1E00008 s (execDeadSource sw old new s) :=
    by
  unfold execDeadSource
  have hF := Sub.refl 0x1E00008
  apply Keeps.done
  repeat' first
    | extract_lets | with_reducible assumption | with_reducible exact Keeps.refl _ | exact hF.within rfl
    | (with_reducible apply Keeps.trans; on_goal 2 => with_reducible first
          | apply State.fset_keeps | apply State.bumpSat_keeps | apply State.fault_keeps | apply State.int_keeps
          | apply State.event_keeps)
    | (with_reducible apply Keeps.ite <;> intro _)

theorem State.setGate_keeps (s : State) (b : Nat) (en gated pend : Bool) {F : Nat} (hF : Sub 0x108 F) : Keeps F s
    (State.setGate s b en gated pend) := by
  unfold State.setGate
  repeat' first
    | extract_lets | with_reducible assumption | with_reducible exact Keeps.refl _ | exact hF.within rfl
    | (with_reducible apply Keeps.trans; on_goal 2 => with_reducible first
          | apply State.fset_keeps | apply State.setC62_keeps)
    | (with_reducible apply Keeps.ite <;> intro _)

theorem State.ungate_keeps (s : State) (b : Nat) {F : Nat} (hF : Sub 0x108 F) : Keeps F s (State.ungate s b) := by
  unfold State.ungate
  repeat' first
    | extract_lets | with_reducible assumption | with_reducible exact Keeps.refl _ | exact hF.within rfl
    | (with_reducible apply Keeps.trans; on_goal 2 => with_reducible first | apply State.setGate_keeps)
    | (with_reducible apply Keeps.ite <;> intro _)

theorem State.askGate_keeps (s : State) (b : Nat) {F : Nat} (hF : Sub 0x108 F) : Keeps F s (State.askGate s b) := by
  unfold State.askGate
  repeat' first
    | extract_lets | with_reducible assumption | with_reducible exact Keeps.refl _ | exact hF.within rfl
    | (with_reducible apply Keeps.trans; on_goal 2 => with_reducible first | apply State.setGate_keeps)
    | (with_reducible apply Keeps.ite <;> intro _)

theorem execGateUngate_keeps (b : Nat) (s : State) : Keeps.Out 0x108 s (execGateUngate b s) := by
  unfold execGateUngate
  have hF := Sub.refl 0x108
  apply Keeps.done
  repeat' first
    | extract_lets | with_reducible assumption | with_reducible exact Keeps.refl _ | exact hF.within rfl
    | (with_reducible apply Keeps.trans; on_goal 2 => with_reducible first | apply State.ungate_keeps)
    | (with_reducible apply Keeps.ite <;> intro _)

theorem execGateRequest_keeps (b : Nat) (s : State) : Keeps.Out 0x108 s (execGateRequest b s) := by
  unfold execGateRequest
  have hF := Sub.refl 0x108
  apply Keeps.done
  repeat' first
    | extract_lets | with_reducible assumption | with_reducible exact Keeps.refl _ | exact hF.within rfl
    | (with_reducible apply Keeps.trans; on_goal 2 => with_reducible first | apply State.askGate_keeps)
    | (with_reducible apply Keeps.ite <;> intro _)

theorem execGateTakesEffect_keeps (b : Nat) (s : State) : Keeps.Out 0x108 s (execGateTakesEffect b s) := by
  unfold execGateTakesEffect
  have hF := Sub.refl 0x108
  apply Keeps.done
  repeat' first
    | extract_lets | with_reducible assumption | with_reducible exact Keeps.refl _ | exact hF.within rfl
    | (with_reducible apply Keeps.trans; on_goal 2 => with_reducible first | apply State.setGate_keeps)
    | (with_reducible apply Keeps.ite <;> intro _)

theorem execGatedAccess_keeps (addr : Nat) (write : Bool) (s : State) : Keeps.Out 0x1800008 s (execGatedAccess addr
    write s) := by
  unfold execGatedAccess
  have hF := Sub.refl 0x1800008
  apply Keeps.done
  repeat' first
    | extract_lets | with_reducible assumption | with_reducible exact Keeps.refl _ | exact hF.within rfl
    | (with_reducible apply Keeps.trans; on_goal 2 => with_reducible first | apply State.countGated_keeps)
    | (with_reducible apply Keeps.ite <;> intro _)

/-! ### Machine/Twb.lean -/

theorem State.twErr_keeps (s : State) (e : Nat) {F : Nat} (hF : Sub 0x8 F) : Keeps F s (State.twErr s e) := by
  unfold State.twErr
  repeat' first
    | extract_lets | with_reducible assumption | with_reducible exact Keeps.refl _ | exact hF.within rfl
    | (with_reducible apply Keeps.trans; on_goal 2 => with_reducible first | apply State.fset_keeps)

theorem State.twAccept_keeps (s : State) (l : Nat) (b : List Nat) {F : Nat} (hF : Sub 0x600008 F) : Keeps F s
    (State.twAccept s l b) := by
  unfold State.twAccept
  repeat' first
    | extract_lets | with_reducible assumption | with_reducible exact Keeps.refl _ | exact hF.within rfl
    | (with_reducible apply Keeps.trans; on_goal 2 => with_reducible first | apply State.bumpSat_keeps)
    | (with_reducible apply Keeps.ite <;> intro _)
    | split
    | (with_reducible apply Keeps.fst; on_goal 2 => with_reducible assumption)
    | (with_reducible apply Keeps.snd; on_goal 2 => with_reducible assumption)
    | with_reducible apply Keeps.mk_mgc
    | with_reducible apply Keeps.mk_twb_mgc

theorem State.twPec_keeps (s : State) {F : Nat} (hF : Sub 0x1800008 F) : Keeps F s (State.twPec s) := by
  unfold State.twPec
  repeat' first
    | extract_lets | with_reducible assumption | with_reducible exact Keeps.refl _ | exact hF.within rfl
    | (with_reducible apply Keeps.trans; on_goal 2 => with_reducible first
          | apply State.bumpSat_keeps | apply State.int_keeps | apply State.twErr_keeps)

theorem State.twProto_keeps (s : State) (e : Nat) {F : Nat} (hF : Sub 0x1800008 F) : Keeps F s (State.twProto s e) :=
    by
  unfold State.twProto
  repeat' first
    | extract_lets | with_reducible assumption | with_reducible exact Keeps.refl _ | exact hF.within rfl
    | (with_reducible apply Keeps.trans; on_goal 2 => with_reducible first
          | apply State.bumpSat_keeps | apply State.int_keeps | apply State.twErr_keeps)

theorem State.twWrite_keeps (s : State) (addr : Nat) (bytes : List Nat) {F : Nat} (hF : Sub 0x1E00008 F) : Keeps F s
    (State.twWrite s addr bytes) := by
  unfold State.twWrite
  repeat' first
    | extract_lets | with_reducible assumption | with_reducible exact Keeps.refl _ | exact hF.within rfl
    | (with_reducible apply Keeps.trans; on_goal 2 => with_reducible first
          | apply State.twErr_keeps | apply State.twAccept_keeps | apply State.twPec_keeps
          | apply State.twProto_keeps)
    | (with_reducible apply Keeps.ite <;> intro _)
    | split

theorem State.twMatch_keeps (s : State) {F : Nat} (hF : Sub 0x10000000 F) : Keeps F s (State.twMatch s) := by
  unfold State.twMatch
  repeat' first
    | extract_lets | with_reducible assumption | with_reducible exact Keeps.refl _ | exact hF.within rfl
    | (with_reducible apply Keeps.trans; on_goal 2 => with_reducible first | apply State.wakeEvent_keeps)
    | (with_reducible apply Keeps.ite <;> intro _)

theorem State.twStretch_keeps (s : State) (f : TwFrame) {F : Nat} (hF : Sub 0x10200000 F) : Keeps F s (State.twStretch
    s f) := by
  unfold State.twStretch
  repeat' first
    | extract_lets | with_reducible assumption | with_reducible exact Keeps.refl _ | exact hF.within rfl
    | (with_reducible apply Keeps.trans; on_goal 2 => with_reducible first | apply State.twMatch_keeps)
    | (with_reducible apply Keeps.ite <;> intro _)
    | split
    | (with_reducible apply Keeps.fst; on_goal 2 => with_reducible assumption)
    | (with_reducible apply Keeps.snd; on_goal 2 => with_reducible assumption)
    | with_reducible apply Keeps.mk_twb

theorem execTwWriteFrame_keeps (addr : Nat) (bytes : List Nat) (badStart : Bool) (s : State) : Keeps.Out 0x11E00008 s
    (execTwWriteFrame addr bytes badStart s) := by
  unfold execTwWriteFrame
  have hF := Sub.refl 0x11E00008
  apply Keeps.done
  repeat' first
    | extract_lets | with_reducible assumption | with_reducible exact Keeps.refl _ | exact hF.within rfl
    | (with_reducible apply Keeps.trans; on_goal 2 => with_reducible first
          | apply State.bumpSat_keeps | apply State.twProto_keeps | apply State.twWrite_keeps
          | apply State.twMatch_keeps | apply State.twStretch_keeps)
    | (with_reducible apply Keeps.ite <;> intro _)

theorem State.twRead_keeps (s : State) (addr count : Nat) {F : Nat} (hF : Sub 0x200008 F) : Keeps F s (State.twRead s
    addr count) := by
  unfold State.twRead
  repeat' first
    | extract_lets | with_reducible assumption | with_reducible exact Keeps.refl _ | exact hF.within rfl
    | (with_reducible apply Keeps.trans; on_goal 2 => with_reducible first | apply State.twErr_keeps)
    | (with_reducible apply Keeps.ite <;> intro _)
    | split
    | (with_reducible apply Keeps.fst; on_goal 2 => with_reducible assumption)
    | (with_reducible apply Keeps.snd; on_goal 2 => with_reducible assumption)
    | with_reducible apply Keeps.mk_twb

theorem execTwReadFrame_keeps (addr count : Nat) (s : State) : Keeps.Out 0x10200008 s (execTwReadFrame addr count s)
    := by
  unfold execTwReadFrame
  have hF := Sub.refl 0x10200008
  apply Keeps.done
  repeat' first
    | extract_lets | with_reducible assumption | with_reducible exact Keeps.refl _ | exact hF.within rfl
    | (with_reducible apply Keeps.trans; on_goal 2 => with_reducible first
          | apply State.twMatch_keeps | apply State.twStretch_keeps | apply State.twRead_keeps)
    | (with_reducible apply Keeps.ite <;> intro _)

theorem State.twTick_keeps (s : State) {F : Nat} (hF : Sub 0x1E00008 F) : Keeps F s (State.twTick s) := by
  unfold State.twTick
  repeat' first
    | extract_lets | with_reducible assumption | with_reducible exact Keeps.refl _ | exact hF.within rfl
    | (with_reducible apply Keeps.trans; on_goal 2 => with_reducible first
          | apply State.twProto_keeps | apply State.twWrite_keeps | apply State.twRead_keeps)
    | (with_reducible apply Keeps.ite <;> intro _)
    | split
    | (with_reducible apply Keeps.fst; on_goal 2 => with_reducible assumption)
    | (with_reducible apply Keeps.snd; on_goal 2 => with_reducible assumption)
    | with_reducible apply Keeps.mk_twb

theorem execTwTimeout_keeps (scl : Bool) (s : State) : Keeps.Out 0x1800008 s (execTwTimeout scl s) := by
  unfold execTwTimeout
  have hF := Sub.refl 0x1800008
  apply Keeps.done
  repeat' first
    | extract_lets | with_reducible assumption | with_reducible exact Keeps.refl _ | exact hF.within rfl
    | (with_reducible apply Keeps.trans; on_goal 2 => with_reducible first
          | apply State.bumpSat_keeps | apply State.int_keeps | apply State.twErr_keeps)
    | (with_reducible apply Keeps.ite <;> intro _)

theorem execAttentionPulse_keeps (collision : Bool) (s : State) : Keeps.Out 0x1A00008 s (execAttentionPulse collision
    s) := by
  unfold execAttentionPulse
  have hF := Sub.refl 0x1A00008
  apply Keeps.done
  repeat' first
    | extract_lets | with_reducible assumption | with_reducible exact Keeps.refl _ | exact hF.within rfl
    | (with_reducible apply Keeps.trans; on_goal 2 => with_reducible first
          | apply State.bumpSat_keeps | apply State.int_keeps)
    | (with_reducible apply Keeps.ite <;> intro _)
    | split
    | (with_reducible apply Keeps.fst; on_goal 2 => with_reducible assumption)
    | (with_reducible apply Keeps.snd; on_goal 2 => with_reducible assumption)
    | with_reducible apply Keeps.mk_twb

theorem execSleepAddressMatch_keeps (s : State) : Keeps.Out 0x10000000 s (execSleepAddressMatch s) := by
  unfold execSleepAddressMatch
  have hF := Sub.refl 0x10000000
  apply Keeps.done
  repeat' first
    | extract_lets | with_reducible assumption | with_reducible exact Keeps.refl _ | exact hF.within rfl
    | (with_reducible apply Keeps.trans; on_goal 2 => with_reducible first | apply State.twMatch_keeps)
    | (with_reducible apply Keeps.ite <;> intro _)

theorem State.pmResult_keeps (s : State) (k cmd result : Nat) {F : Nat} (hF : Sub 0x1800008 F) : Keeps F s
    (State.pmResult s k cmd result) := by
  unfold State.pmResult
  repeat' first
    | extract_lets | with_reducible assumption | with_reducible exact Keeps.refl _ | exact hF.within rfl
    | (with_reducible apply Keeps.trans; on_goal 2 => with_reducible first
          | apply State.fset_keeps | apply State.int_keeps)
    | (with_reducible apply Keeps.ite <;> intro _)

theorem State.pmLosses_keeps (s : State) (n : Nat) {F : Nat} (hF : Sub 0x1800008 F) : Keeps F s (State.pmLosses s n)
    := by
  unfold State.pmLosses
  repeat' first
    | extract_lets | with_reducible assumption | with_reducible exact Keeps.refl _ | exact hF.within rfl
    | (with_reducible apply Keeps.trans; on_goal 2 => with_reducible first
          | apply State.fset_keeps | apply State.bumpSat_keeps | apply State.int_keeps)
    | (with_reducible apply Keeps.foldl; intro _ _ _)

theorem State.pmXfer_keeps (s : State) (o : PmOutcome) {F : Nat} (hF : Sub 0x1800008 F) : Keeps F s (State.pmXfer s o)
    := by
  unfold State.pmXfer
  repeat' first
    | extract_lets | with_reducible assumption | with_reducible exact Keeps.refl _ | exact hF.within rfl
    | (with_reducible apply Keeps.trans; on_goal 2 => with_reducible first
          | apply State.fset_keeps | apply State.bumpSat_keeps | apply State.int_keeps | apply State.pmResult_keeps
          | apply State.pmLosses_keeps)
    | (with_reducible apply Keeps.ite <;> intro _)
    | split

theorem State.writePmXfer_keeps (s : State) (v : Nat) (o : PmOutcome) {F : Nat} (hF : Sub 0x1800008 F) : Keeps F s
    (State.writePmXfer s v o) := by
  unfold State.writePmXfer
  repeat' first
    | extract_lets | with_reducible assumption | with_reducible exact Keeps.refl _ | exact hF.within rfl
    | (with_reducible apply Keeps.trans; on_goal 2 => with_reducible first
          | apply State.setReg_keeps | apply State.pmXfer_keeps)
    | (with_reducible apply Keeps.ite <;> intro _)

theorem execPmXfer_keeps (value : Word) (outcome : PmOutcome) (s : State) : Keeps.Out 0x1800008 s (execPmXfer value
    outcome s) := by
  unfold execPmXfer
  have hF := Sub.refl 0x1800008
  apply Keeps.done
  repeat' first
    | extract_lets | with_reducible assumption | with_reducible exact Keeps.refl _ | exact hF.within rfl
    | (with_reducible apply Keeps.trans; on_goal 2 => with_reducible first | apply State.writePmXfer_keeps)
    | (with_reducible apply Keeps.ite <;> intro _)

theorem execPmbusHangRecovery_keeps (clocks : Option Nat) (s : State) : Keeps.Out 0x1800008 s (execPmbusHangRecovery
    clocks s) := by
  unfold execPmbusHangRecovery
  have hF := Sub.refl 0x1800008
  apply Keeps.done
  repeat' first
    | extract_lets | with_reducible assumption | with_reducible exact Keeps.refl _ | exact hF.within rfl
    | (with_reducible apply Keeps.trans; on_goal 2 => with_reducible first
          | apply State.fset_keeps | apply State.bumpSat_keeps | apply State.int_keeps)
    | (with_reducible apply Keeps.ite <;> intro _)
    | split

theorem State.fwReport_keeps (s : State) (source hint : Nat) {F : Nat} (hF : Sub 0x180000C F) : Keeps F s
    (State.fwReport s source hint) := by
  unfold State.fwReport
  repeat' first
    | extract_lets | with_reducible assumption | with_reducible exact Keeps.refl _ | exact hF.within rfl
    | (with_reducible apply Keeps.trans; on_goal 2 => with_reducible first
          | apply State.fresh_keeps | apply State.fault_keeps)

theorem State.pollXfer_keeps (k : Nat) (a : State × Bool) (x : Nat × PmOutcome) {F : Nat} (hF : Sub 0x1A0000C F) :
    Keeps F a.1 (State.pollXfer k a x).1 := by
  unfold State.pollXfer
  repeat' first
    | extract_lets | with_reducible assumption | with_reducible exact Keeps.refl _ | exact hF.within rfl
    | (with_reducible apply Keeps.trans; on_goal 2 => with_reducible first
          | apply State.bumpSat_keeps | apply State.pmResult_keeps | apply State.pmLosses_keeps
          | apply State.fwReport_keeps)
    | (with_reducible apply Keeps.ite <;> intro _)
    | split
    | (with_reducible apply Keeps.fst; on_goal 2 => with_reducible assumption)
    | (with_reducible apply Keeps.snd; on_goal 2 => with_reducible assumption)
    | with_reducible apply Keeps.mk_twb

theorem State.pollOne_keeps (poll : List (Nat × List PmOutcome)) (s : State) (k : Nat) {F : Nat} (hF : Sub 0x1A0000C
    F) : Keeps F s (State.pollOne poll s k) := by
  unfold State.pollOne
  repeat' first
    | extract_lets | with_reducible assumption | with_reducible exact Keeps.refl _ | exact hF.within rfl
    | (with_reducible apply Keeps.trans; on_goal 2 => with_reducible first | apply State.pollXfer_keeps)
    | (with_reducible apply Keeps.foldlP; intro _ _ _)
    | (with_reducible apply Keeps.ite <;> intro _)
    | split

theorem execHousekeepingRound_keeps (obs : RoundObs) (s : State) : Keeps.Out 0x1DEDE7FC s (execHousekeepingRound obs
    s) := by
  unfold execHousekeepingRound
  have hF := Sub.refl 0x1DEDE7FC
  apply Keeps.done
  repeat' first
    | extract_lets | with_reducible assumption | with_reducible exact Keeps.refl _ | exact hF.within rfl
    | (with_reducible apply Keeps.trans; on_goal 2 => with_reducible first
          | apply State.setFlag_keeps | apply State.round_keeps | apply State.pollOne_keeps)
    | (with_reducible apply Keeps.foldl; intro _ _ _)
    | (with_reducible apply Keeps.ite <;> intro _)

end Sys2Proof.Machine
end

