-- ==== Sys2Proof/Laws/FrameFault.lean ====
section
/-! SUPPORT. What each operation keeps: faults, freeze, register accesses and commits. -/

namespace Sys2Proof.Machine

/-! ### Machine/Fault.lean -/

theorem State.restartMgc_keeps (s : State) {F : Nat} (hF : Sub 0x9E04048 F) : Keeps F s (State.restartMgc s) := by
  unfold State.restartMgc
  repeat' first
    | extract_lets | with_reducible assumption | with_reducible exact Keeps.refl _ | exact hF.within rfl
    | (with_reducible apply Keeps.trans; on_goal 2 => with_reducible first
          | apply State.fset_keeps | apply State.abortOps_keeps | apply State.endPackets_keeps)
    | split
    | (with_reducible apply Keeps.fst; on_goal 2 => with_reducible assumption)
    | (with_reducible apply Keeps.snd; on_goal 2 => with_reducible assumption)
    | with_reducible apply Keeps.mk_otp

theorem State.restartEnds_keeps (s : State) {F : Nat} (hF : Sub 0x800008 F) : Keeps F s (State.restartEnds s) := by
  unfold State.restartEnds
  repeat' first
    | extract_lets | with_reducible assumption | with_reducible exact Keeps.refl _ | exact hF.within rfl
    | (with_reducible apply Keeps.trans; on_goal 2 => with_reducible first
          | apply State.fset_keeps | apply State.endReaction_keeps)
    | (with_reducible apply Keeps.ite <;> intro _)

theorem State.dieReset_keeps (s : State) (d : Nat) {F : Nat} (hF : Sub 0x1E84408 F) : Keeps F s (State.dieReset s d)
    := by
  unfold State.dieReset
  repeat' first
    | extract_lets | with_reducible assumption | with_reducible exact Keeps.refl _ | exact hF.within rfl
    | (with_reducible apply Keeps.trans; on_goal 2 => with_reducible first
          | apply State.fset_keeps | apply State.enterSr_keeps | apply State.holdDie_keeps)
    | (with_reducible apply Keeps.foldl; intro _ _ _)
    | (with_reducible apply Keeps.ite <;> intro _)

theorem State.orderDieReset_keeps (s : State) (d : Nat) {F : Nat} (hF : Sub 0x1E84408 F) : Keeps F s
    (State.orderDieReset s d) := by
  unfold State.orderDieReset
  repeat' first
    | extract_lets | with_reducible assumption | with_reducible exact Keeps.refl _ | exact hF.within rfl
    | (with_reducible apply Keeps.trans; on_goal 2 => with_reducible first | apply State.dieReset_keeps)
    | (with_reducible apply Keeps.ite <;> intro _)
    | split
    | (with_reducible apply Keeps.fst; on_goal 2 => with_reducible assumption)
    | (with_reducible apply Keeps.snd; on_goal 2 => with_reducible assumption)
    | with_reducible apply Keeps.mk_flt

theorem State.orderRelay_keeps (s : State) (cause : Nat) {F : Nat} (hF : Sub 0x808008 F) : Keeps F s (State.orderRelay
    s cause) := by
  unfold State.orderRelay
  repeat' first
    | extract_lets | with_reducible assumption | with_reducible exact Keeps.refl _ | exact hF.within rfl
    | (with_reducible apply Keeps.trans; on_goal 2 => with_reducible first | apply State.startRelay_keeps)
    | (with_reducible apply Keeps.ite <;> intro _)
    | split
    | (with_reducible apply Keeps.fst; on_goal 2 => with_reducible assumption)
    | (with_reducible apply Keeps.snd; on_goal 2 => with_reducible assumption)
    | with_reducible apply Keeps.mk_flt

theorem State.dropHold_keeps (s : State) (k : Nat) {F : Nat} (hF : Sub 0x800000 F) : Keeps F s (State.dropHold s k) :=
    by
  unfold State.dropHold
  repeat' first
    | extract_lets | with_reducible assumption | with_reducible exact Keeps.refl _ | exact hF.within rfl
    | split
    | (with_reducible apply Keeps.fst; on_goal 2 => with_reducible assumption)
    | (with_reducible apply Keeps.snd; on_goal 2 => with_reducible assumption)
    | with_reducible apply Keeps.mk_flt

theorem State.fencePerm_keeps (s : State) (k cause : Nat) {F : Nat} (hF : Sub 0x1E846DC F) : Keeps F s
    (State.fencePerm s k cause) := by
  unfold State.fencePerm
  repeat' first
    | extract_lets | with_reducible assumption | with_reducible exact Keeps.refl _ | exact hF.within rfl
    | (with_reducible apply Keeps.trans; on_goal 2 => with_reducible first
          | apply State.endReaction_keeps | apply State.permFence_keeps | apply State.dropHold_keeps)
    | (with_reducible apply Keeps.ite <;> intro _)

theorem State.fenceTemp_keeps (s : State) (k : Nat) {F : Nat} (hF : Sub 0x1E846DC F) : Keeps F s (State.fenceTemp s k)
    := by
  unfold State.fenceTemp
  repeat' first
    | extract_lets | with_reducible assumption | with_reducible exact Keeps.refl _ | exact hF.within rfl
    | (with_reducible apply Keeps.trans; on_goal 2 => with_reducible first | apply State.fenceEngine_keeps)
    | split
    | (with_reducible apply Keeps.fst; on_goal 2 => with_reducible assumption)
    | (with_reducible apply Keeps.snd; on_goal 2 => with_reducible assumption)
    | with_reducible apply Keeps.mk_flt

theorem State.resetTwb_keeps (s : State) {F : Nat} (hF : Sub 0x200000 F) : Keeps F s (State.resetTwb s) := by
  unfold State.resetTwb
  repeat' first
    | extract_lets | with_reducible assumption | with_reducible exact Keeps.refl _ | exact hF.within rfl
    | split
    | (with_reducible apply Keeps.fst; on_goal 2 => with_reducible assumption)
    | (with_reducible apply Keeps.snd; on_goal 2 => with_reducible assumption)
    | with_reducible apply Keeps.mk_twb

theorem State.fenceCause_keeps (s : State) (m : FaultMsg) {F : Nat} (hF : Sub 0x4 F) : Keeps F s (State.fenceCause s
    m).2 := by
  unfold State.fenceCause
  repeat' first
    | extract_lets | with_reducible assumption | with_reducible exact Keeps.refl _ | exact hF.within rfl
    | (with_reducible apply Keeps.trans; on_goal 2 => with_reducible first | apply State.fresh_keeps)
    | split

theorem State.fenceWin_keeps (s : State) (w : Nat) {F : Nat} (hF : Sub 0x1C00008 F) : Keeps F s (State.fenceWin s w)
    := by
  unfold State.fenceWin
  repeat' first
    | extract_lets | with_reducible assumption | with_reducible exact Keeps.refl _ | exact hF.within rfl
    | (with_reducible apply Keeps.trans; on_goal 2 => with_reducible first
          | apply State.setFlag_keeps | apply State.int_keeps)
    | split
    | (with_reducible apply Keeps.fst; on_goal 2 => with_reducible assumption)
    | (with_reducible apply Keeps.snd; on_goal 2 => with_reducible assumption)
    | with_reducible apply Keeps.mk_mgc

theorem State.react_keeps (s : State) (m : FaultMsg) (code target : Nat) {F : Nat} (hF : Sub 0x9EDC7FC F) : Keeps F s
    (State.react s m code target) := by
  unfold State.react
  repeat' first
    | extract_lets | with_reducible assumption | with_reducible exact Keeps.refl _ | exact hF.within rfl
    | (with_reducible apply Keeps.trans; on_goal 2 => with_reducible first
          | apply State.endReaction_keeps | apply State.enterRetrain_keeps | apply State.resetScn_keeps
          | apply State.calReset_keeps | apply State.restartMgc_keeps | apply State.orderDieReset_keeps
          | apply State.orderRelay_keeps | apply State.fencePerm_keeps | apply State.fenceTemp_keeps
          | apply State.resetTwb_keeps | apply State.fenceCause_keeps | apply State.fenceWin_keeps)
    | (with_reducible apply Keeps.foldl; intro _ _ _)
    | (with_reducible apply Keeps.ite <;> intro _)

theorem State.openShadow_keeps (s : State) (k code target id : Nat) {F : Nat} (hF : Sub 0x8 F) : Keeps F s
    (State.openShadow s k code target id) := by
  unfold State.openShadow
  repeat' first
    | extract_lets | with_reducible assumption | with_reducible exact Keeps.refl _ | exact hF.within rfl
    | (with_reducible apply Keeps.trans; on_goal 2 => with_reducible first
          | apply State.setReg_keeps | apply State.fset_keeps | apply State.setFlag_keeps | apply State.bump_keeps)

theorem State.openReaction_keeps (s : State) (code target since : Nat) {F : Nat} (hF : Sub 0x1800008 F) : Keeps F s
    (State.openReaction s code target since).1 := by
  unfold State.openReaction
  repeat' first
    | extract_lets | with_reducible assumption | with_reducible exact Keeps.refl _ | exact hF.within rfl
    | (with_reducible apply Keeps.trans; on_goal 2 => with_reducible first
          | apply State.fset_keeps | apply State.bump_keeps | apply State.bumpSat_keeps | apply State.int_keeps
          | apply State.openShadow_keeps)
    | split
    | (with_reducible apply Keeps.fst; on_goal 2 => with_reducible assumption)
    | (with_reducible apply Keeps.snd; on_goal 2 => with_reducible assumption)
    | dsimp +zetaDelta only
    | with_reducible apply Keeps.mk_flt

theorem State.order_keeps (s : State) (m : FaultMsg) (code : Nat) {F : Nat} (hF : Sub 0x1800008 F) : Keeps F s
    (State.order s m code).1 := by
  unfold State.order
  repeat' first
    | extract_lets | with_reducible assumption | with_reducible exact Keeps.refl _ | exact hF.within rfl
    | (with_reducible apply Keeps.trans; on_goal 2 => with_reducible first | apply State.openReaction_keeps)
    | split

theorem State.adopt_keeps (s : State) (m : FaultMsg) {F : Nat} (hF : Sub 0x1800008 F) : Keeps F s (State.adopt s m).1
    := by
  unfold State.adopt
  repeat' first
    | extract_lets | with_reducible assumption | with_reducible exact Keeps.refl _ | exact hF.within rfl
    | (with_reducible apply Keeps.trans; on_goal 2 => with_reducible first
          | apply State.endReaction_keeps | apply State.openReaction_keeps)
    | (with_reducible apply Keeps.ite <;> intro _)
    | split

theorem State.orderKind_keeps (s : State) (m : FaultMsg) {F : Nat} (hF : Sub 0x1800008 F) : Keeps F s (State.orderKind
    s m).1 := by
  unfold State.orderKind
  repeat' first
    | extract_lets | with_reducible assumption | with_reducible exact Keeps.refl _ | exact hF.within rfl
    | (with_reducible apply Keeps.trans; on_goal 2 => with_reducible first
          | apply State.order_keeps | apply State.adopt_keeps)
    | split

theorem State.runOrdered_keeps (s : State) (m : FaultMsg) (o : Option Ordered) {F : Nat} (hF : Sub 0x9EDC7FC F) :
    Keeps F s (State.runOrdered s m o) := by
  unfold State.runOrdered
  repeat' first
    | extract_lets | with_reducible assumption | with_reducible exact Keeps.refl _ | exact hF.within rfl
    | (with_reducible apply Keeps.trans; on_goal 2 => with_reducible first | apply State.react_keeps)
    | split

theorem State.setClsEntry_keeps (s : State) (src : Nat) (e : ClassEntry) {F : Nat} (hF : Sub 0x800000 F) : Keeps F s
    (State.setClsEntry s src e) := by
  unfold State.setClsEntry
  repeat' first
    | extract_lets | with_reducible assumption | with_reducible exact Keeps.refl _ | exact hF.within rfl
    | split
    | (with_reducible apply Keeps.fst; on_goal 2 => with_reducible assumption)
    | (with_reducible apply Keeps.snd; on_goal 2 => with_reducible assumption)
    | with_reducible apply Keeps.mk_flt

theorem State.pruneReactions_keeps (s : State) {F : Nat} (hF : Sub 0x800000 F) : Keeps F s (State.pruneReactions s) :=
    by
  unfold State.pruneReactions
  repeat' first
    | extract_lets | with_reducible assumption | with_reducible exact Keeps.refl _ | exact hF.within rfl
    | split
    | (with_reducible apply Keeps.fst; on_goal 2 => with_reducible assumption)
    | (with_reducible apply Keeps.snd; on_goal 2 => with_reducible assumption)
    | with_reducible apply Keeps.mk_flt

theorem State.restartHolds_keeps (s : State) (src : Nat) {F : Nat} (hF : Sub 0x800000 F) : Keeps F s
    (State.restartHolds s src) := by
  unfold State.restartHolds
  repeat' first
    | extract_lets | with_reducible assumption | with_reducible exact Keeps.refl _ | exact hF.within rfl
    | split
    | (with_reducible apply Keeps.fst; on_goal 2 => with_reducible assumption)
    | (with_reducible apply Keeps.snd; on_goal 2 => with_reducible assumption)
    | with_reducible apply Keeps.mk_flt

theorem State.faultRecord_keeps (s : State) (m : FaultMsg) (flags shadow sev code id count : Nat) {F : Nat} (hF : Sub
    0x1800008 F) : Keeps F s (State.faultRecord s m flags shadow sev code id count) := by
  unfold State.faultRecord
  repeat' first
    | extract_lets | with_reducible assumption | with_reducible exact Keeps.refl _ | exact hF.within rfl
    | (with_reducible apply Keeps.trans; on_goal 2 => with_reducible first | apply State.record_keeps)

theorem State.faultNotify_keeps (s : State) (m : FaultMsg) (e : ClassEntry) (sev code id : Nat) {F : Nat} (hF : Sub
    0x1E00008 F) : Keeps F s (State.faultNotify s m e sev code id) := by
  unfold State.faultNotify
  repeat' first
    | extract_lets | with_reducible assumption | with_reducible exact Keeps.refl _ | exact hF.within rfl
    | (with_reducible apply Keeps.trans; on_goal 2 => with_reducible first
          | apply State.setReg_keeps | apply State.bump_keeps | apply State.int_keeps | apply State.event_keeps
          | apply State.alert_keeps)

theorem State.acceptMsg_keeps (s : State) (m : FaultMsg) {F : Nat} (hF : Sub 0x2000008 F) : Keeps F s (State.acceptMsg
    s m) := by
  unfold State.acceptMsg
  repeat' first
    | extract_lets | with_reducible assumption | with_reducible exact Keeps.refl _ | exact hF.within rfl
    | (with_reducible apply Keeps.trans; on_goal 2 => with_reducible first
          | apply State.fset_keeps | apply State.bump_keeps | apply State.trace_keeps)

theorem State.judge_keeps (s : State) (m : FaultMsg) {F : Nat} (hF : Sub 0x9EDC7FC F) : Keeps F s (State.judge s m) :=
    by
  unfold State.judge
  repeat' first
    | extract_lets | with_reducible assumption | with_reducible exact Keeps.refl _ | exact hF.within rfl
    | (with_reducible apply Keeps.trans; on_goal 2 => with_reducible first
          | apply State.order_keeps | apply State.orderKind_keeps | apply State.runOrdered_keeps
          | apply State.setClsEntry_keeps | apply State.restartHolds_keeps | apply State.faultRecord_keeps
          | apply State.faultNotify_keeps)
    | (with_reducible apply Keeps.ite <;> intro _)
    | split

theorem State.consequential_keeps (s : State) (m : FaultMsg) (r : Reaction) {F : Nat} (hF : Sub 0x1800008 F) : Keeps F
    s (State.consequential s m r) := by
  unfold State.consequential
  repeat' first
    | extract_lets | with_reducible assumption | with_reducible exact Keeps.refl _ | exact hF.within rfl
    | (with_reducible apply Keeps.trans; on_goal 2 => with_reducible first
          | apply State.bump_keeps | apply State.faultRecord_keeps)
    | (with_reducible apply Keeps.ite <;> intro _)

theorem State.classifyOne_keeps (s : State) {F : Nat} (hF : Sub 0xBEDC7FC F) : Keeps F s (State.classifyOne s) := by
  unfold State.classifyOne
  repeat' first
    | extract_lets | with_reducible assumption | with_reducible exact Keeps.refl _ | exact hF.within rfl
    | (with_reducible apply Keeps.trans; on_goal 2 => with_reducible first
          | apply State.pruneReactions_keeps | apply State.acceptMsg_keeps | apply State.judge_keeps
          | apply State.consequential_keeps)
    | (with_reducible apply Keeps.ite <;> intro _)
    | split
    | (with_reducible apply Keeps.fst; on_goal 2 => with_reducible assumption)
    | (with_reducible apply Keeps.snd; on_goal 2 => with_reducible assumption)
    | with_reducible apply Keeps.mk_flt

theorem State.logOne_keeps (s : State) {F : Nat} (hF : Sub 0x3800008 F) : Keeps F s (State.logOne s) := by
  unfold State.logOne
  repeat' first
    | extract_lets | with_reducible assumption | with_reducible exact Keeps.refl _ | exact hF.within rfl
    | (with_reducible apply Keeps.trans; on_goal 2 => with_reducible first
          | apply State.faultRecord_keeps | apply State.acceptMsg_keeps)
    | split
    | (with_reducible apply Keeps.fst; on_goal 2 => with_reducible assumption)
    | (with_reducible apply Keeps.snd; on_goal 2 => with_reducible assumption)
    | with_reducible apply Keeps.mk_flt

theorem State.arrive_keeps (s : State) (src kind hint loc : Nat) {F : Nat} (hF : Sub 0x1800008 F) : Keeps F s
    (State.arrive s src kind hint loc) := by
  unfold State.arrive
  repeat' first
    | extract_lets | with_reducible assumption | with_reducible exact Keeps.refl _ | exact hF.within rfl
    | (with_reducible apply Keeps.trans; on_goal 2 => with_reducible first
          | apply State.fault_keeps | apply State.int_keeps)
    | (with_reducible apply Keeps.ite <;> intro _)

theorem execFaultMessage_keeps (arrives : Option (Nat × Nat × Nat × Nat)) (s : State) : Keeps.Out 0xBEDC7FC s
    (execFaultMessage arrives s) := by
  unfold execFaultMessage
  have hF := Sub.refl 0xBEDC7FC
  apply Keeps.done
  repeat' first
    | extract_lets | with_reducible assumption | with_reducible exact Keeps.refl _ | exact hF.within rfl
    | (with_reducible apply Keeps.trans; on_goal 2 => with_reducible first
          | apply State.classifyOne_keeps | apply State.logOne_keeps | apply State.arrive_keeps)
    | (with_reducible apply Keeps.ite <;> intro _)
    | split

theorem State.closeShadow_keeps (s : State) (k : Nat) {F : Nat} (hF : Sub 0x800008 F) : Keeps F s (State.closeShadow s
    k) := by
  unfold State.closeShadow
  repeat' first
    | extract_lets | with_reducible assumption | with_reducible exact Keeps.refl _ | exact hF.within rfl
    | (with_reducible apply Keeps.trans; on_goal 2 => with_reducible first
          | apply State.fset_keeps | apply State.setFlag_keeps | apply State.pruneReactions_keeps)
    | (with_reducible apply Keeps.ite <;> intro _)
    | split
    | (with_reducible apply Keeps.fst; on_goal 2 => with_reducible assumption)
    | (with_reducible apply Keeps.snd; on_goal 2 => with_reducible assumption)
    | with_reducible apply Keeps.mk_flt

theorem execShadowEnd_keeps (k : Nat) (s : State) : Keeps.Out 0x800008 s (execShadowEnd k s) := by
  unfold execShadowEnd
  have hF := Sub.refl 0x800008
  apply Keeps.done
  repeat' first
    | extract_lets | with_reducible assumption | with_reducible exact Keeps.refl _ | exact hF.within rfl
    | (with_reducible apply Keeps.trans; on_goal 2 => with_reducible first | apply State.closeShadow_keeps)
    | (with_reducible apply Keeps.ite <;> intro _)

theorem State.liftHold_keeps (s : State) (k : Nat) {F : Nat} (hF : Sub 0x880408 F) : Keeps F s (State.liftHold s k) :=
    by
  unfold State.liftHold
  repeat' first
    | extract_lets | with_reducible assumption | with_reducible exact Keeps.refl _ | exact hF.within rfl
    | (with_reducible apply Keeps.trans; on_goal 2 => with_reducible first
          | apply State.setEng_keeps | apply State.startLift_keeps | apply State.dropHold_keeps)
    | (with_reducible apply Keeps.ite <;> intro _)

theorem State.endLift_keeps (s : State) (m : Nat) {F : Nat} (hF : Sub 0x80060C F) : Keeps F s (State.endLift s m) :=
    by
  unfold State.endLift
  repeat' first
    | extract_lets | with_reducible assumption | with_reducible exact Keeps.refl _ | exact hF.within rfl
    | (with_reducible apply Keeps.trans; on_goal 2 => with_reducible first
          | apply State.endReaction_keeps | apply State.clearFence_keeps)
    | (with_reducible apply Keeps.ite <;> intro _)
    | split

theorem State.checkSr_keeps (s : State) (m : Nat) {F : Nat} (hF : Sub 0x1800408 F) : Keeps F s (State.checkSr s m) :=
    by
  unfold State.checkSr
  repeat' first
    | extract_lets | with_reducible assumption | with_reducible exact Keeps.refl _ | exact hF.within rfl
    | (with_reducible apply Keeps.trans; on_goal 2 => with_reducible first
          | apply State.fault_keeps | apply State.setEng_keeps)
    | (with_reducible apply Keeps.ite <;> intro _)
    | split

theorem execFenceHoldExpiry_keeps (k : Nat) (s : State) : Keeps.Out 0x880408 s (execFenceHoldExpiry k s) := by
  unfold execFenceHoldExpiry
  have hF := Sub.refl 0x880408
  apply Keeps.done
  repeat' first
    | extract_lets | with_reducible assumption | with_reducible exact Keeps.refl _ | exact hF.within rfl
    | (with_reducible apply Keeps.trans; on_goal 2 => with_reducible first | apply State.liftHold_keeps)
    | (with_reducible apply Keeps.ite <;> intro _)

theorem execFencePermanent_keeps (k : Nat) (s : State) : Keeps.Out 0x1E846DC s (execFencePermanent k s) := by
  unfold execFencePermanent
  have hF := Sub.refl 0x1E846DC
  apply Keeps.done
  repeat' first
    | extract_lets | with_reducible assumption | with_reducible exact Keeps.refl _ | exact hF.within rfl
    | (with_reducible apply Keeps.trans; on_goal 2 => with_reducible first
          | apply State.fresh_keeps | apply State.fencePerm_keeps)
    | (with_reducible apply Keeps.ite <;> intro _)

theorem State.startWaiting_keeps (s : State) {F : Nat} (hF : Sub 0x1E8C408 F) : Keeps F s (State.startWaiting s) := by
  unfold State.startWaiting
  repeat' first
    | extract_lets | with_reducible assumption | with_reducible exact Keeps.refl _ | exact hF.within rfl
    | (with_reducible apply Keeps.trans; on_goal 2 => with_reducible first
          | apply State.orderDieReset_keeps | apply State.orderRelay_keeps)
    | (with_reducible apply Keeps.foldl; intro _ _ _)
    | (with_reducible apply Keeps.ite <;> intro _)
    | split
    | (with_reducible apply Keeps.fst; on_goal 2 => with_reducible assumption)
    | (with_reducible apply Keeps.snd; on_goal 2 => with_reducible assumption)
    | with_reducible apply Keeps.mk_flt

theorem State.resetEnd_keeps (s : State) (d len : Nat) {F : Nat} (hF : Sub 0x1E8C408 F) : Keeps F s (State.resetEnd s
    d len) := by
  unfold State.resetEnd
  repeat' first
    | extract_lets | with_reducible assumption | with_reducible exact Keeps.refl _ | exact hF.within rfl
    | (with_reducible apply Keeps.trans; on_goal 2 => with_reducible first
          | apply State.fset_keeps | apply State.bumpSat_keeps | apply State.int_keeps
          | apply State.endReaction_keeps | apply State.startWaiting_keeps)
    | (with_reducible apply Keeps.ite <;> intro _)
    | split
    | (with_reducible apply Keeps.fst; on_goal 2 => with_reducible assumption)
    | (with_reducible apply Keeps.snd; on_goal 2 => with_reducible assumption)

theorem State.resetTick_keeps (s : State) {F : Nat} (hF : Sub 0x1E8C408 F) : Keeps F s (State.resetTick s) := by
  unfold State.resetTick
  repeat' first
    | extract_lets | with_reducible assumption | with_reducible exact Keeps.refl _ | exact hF.within rfl
    | (with_reducible apply Keeps.trans; on_goal 2 => with_reducible first
          | apply State.srxDie_keeps | apply State.resetEnd_keeps)
    | (with_reducible apply Keeps.foldl; intro _ _ _)
    | (with_reducible apply Keeps.foldlP; intro _ _ _)
    | (with_reducible apply Keeps.ite <;> intro _)
    | split
    | (with_reducible apply Keeps.fst; on_goal 2 => with_reducible assumption)
    | (with_reducible apply Keeps.snd; on_goal 2 => with_reducible assumption)
    | with_reducible apply Keeps.mk_flt

theorem State.resetDone_keeps (s : State) (d len : Nat) {F : Nat} (hF : Sub 0x880408 F) : Keeps F s (State.resetDone s
    d len) := by
  unfold State.resetDone
  repeat' first
    | extract_lets | with_reducible assumption | with_reducible exact Keeps.refl _ | exact hF.within rfl
    | (with_reducible apply Keeps.trans; on_goal 2 => with_reducible first | apply State.srxDie_keeps)
    | (with_reducible apply Keeps.ite <;> intro _)
    | with_reducible apply Keeps.mk_flt

theorem execResetDone_keeps (d len : Nat) (s : State) : Keeps.Out 0x880408 s (execResetDone d len s) := by
  unfold execResetDone
  have hF := Sub.refl 0x880408
  apply Keeps.done
  repeat' first
    | extract_lets | with_reducible assumption | with_reducible exact Keeps.refl _ | exact hF.within rfl
    | (with_reducible apply Keeps.trans; on_goal 2 => with_reducible first | apply State.resetDone_keeps)
    | (with_reducible apply Keeps.ite <;> intro _)

theorem State.relayReset_keeps (s : State) (trained : Option (List (Nat × List ViaTrain))) {F : Nat} (hF : Sub
    0x1ECC7DC F) : Keeps F s (State.relayReset s trained) := by
  unfold State.relayReset
  repeat' first
    | extract_lets | with_reducible assumption | with_reducible exact Keeps.refl _ | exact hF.within rfl
    | (with_reducible apply Keeps.trans; on_goal 2 => with_reducible first
          | apply State.relayStep_keeps | apply State.holdDie_keeps | apply State.startWaiting_keeps)
    | (with_reducible apply Keeps.foldl; intro _ _ _)
    | (with_reducible apply Keeps.ite <;> intro _)
    | split

theorem execRelayReset_keeps (trained : Option (List (Nat × List ViaTrain))) (s : State) : Keeps.Out 0x1ECC7DC s
    (execRelayReset trained s) := by
  unfold execRelayReset
  have hF := Sub.refl 0x1ECC7DC
  apply Keeps.done
  repeat' first
    | extract_lets | with_reducible assumption | with_reducible exact Keeps.refl _ | exact hF.within rfl
    | (with_reducible apply Keeps.trans; on_goal 2 => with_reducible first | apply State.relayReset_keeps)
    | (with_reducible apply Keeps.ite <;> intro _)

theorem State.engTick_keeps (s : State) {F : Nat} (hF : Sub 0x1ECD7DC F) : Keeps F s (State.engTick s) := by
  unfold State.engTick
  repeat' first
    | extract_lets | with_reducible assumption | with_reducible exact Keeps.refl _ | exact hF.within rfl
    | (with_reducible apply Keeps.trans; on_goal 2 => with_reducible first
          | apply State.promoWait_keeps | apply State.auditSample_keeps | apply State.reefTick_keeps
          | apply State.spareTick_keeps | apply State.dueTest_keeps | apply State.windowTick_keeps
          | apply State.endLift_keeps | apply State.checkSr_keeps | apply State.resetTick_keeps)
    | (with_reducible apply Keeps.foldl; intro _ _ _)
    | (with_reducible apply Keeps.ite <;> intro _)

theorem State.safeState_keeps (s : State) (reason : Nat) {F : Nat} (hF : Sub 0x9E147FC F) : Keeps F s (State.safeState
    s reason) := by
  unfold State.safeState
  repeat' first
    | extract_lets | with_reducible assumption | with_reducible exact Keeps.refl _ | exact hF.within rfl
    | (with_reducible apply Keeps.trans; on_goal 2 => with_reducible first
          | apply State.fset_keeps | apply State.recordState_keeps | apply State.disableAll_keeps
          | apply State.discardRequests_keeps | apply State.discardReceived_keeps | apply State.endPackets_keeps)

theorem State.classifyAll_keeps (s : State) {F : Nat} (hF : Sub 0xBEDC7FC F) : Keeps F s (State.classifyAll s) := by
  unfold State.classifyAll
  repeat' first
    | extract_lets | with_reducible assumption | with_reducible exact Keeps.refl _ | exact hF.within rfl
    | (with_reducible apply Keeps.trans; on_goal 2 => with_reducible first | apply State.classifyOne_keeps)
    | (with_reducible apply Keeps.foldl; intro _ _ _)

theorem State.watchdog_keeps (s : State) {F : Nat} (hF : Sub 0x1BEDC7FC F) : Keeps F s (State.watchdog s) := by
  unfold State.watchdog
  repeat' first
    | extract_lets | with_reducible assumption | with_reducible exact Keeps.refl _ | exact hF.within rfl
    | (with_reducible apply Keeps.trans; on_goal 2 => with_reducible first
          | apply State.bumpSat_keeps | apply State.fault_keeps | apply State.int_keeps
          | apply State.wakeEvent_keeps | apply State.safeState_keeps | apply State.classifyAll_keeps)
    | (with_reducible apply Keeps.ite <;> intro _)

theorem execWatchdogRestart_keeps (s : State) : Keeps.Out 0x1BEDC7FC s (execWatchdogRestart s) := by
  unfold execWatchdogRestart
  have hF := Sub.refl 0x1BEDC7FC
  apply Keeps.done
  repeat' first
    | extract_lets | with_reducible assumption | with_reducible exact Keeps.refl _ | exact hF.within rfl
    | (with_reducible apply Keeps.trans; on_goal 2 => with_reducible first | apply State.watchdog_keeps)
    | (with_reducible apply Keeps.ite <;> intro _)

theorem execFltRead_keeps (h : Halyard) (s : State) : Keeps.Out 0x13E04048 s (execFltRead h s) := by
  unfold execFltRead
  have hF := Sub.refl 0x13E04048
  apply Keeps.done
  repeat' first
    | extract_lets | with_reducible assumption | with_reducible exact Keeps.refl _ | exact hF.within rfl
    | (with_reducible apply Keeps.trans; on_goal 2 => with_reducible first
          | apply State.replyOk_keeps | apply State.replyBad_keeps | apply State.packet_keeps)
    | split
    | intro _

theorem execFltInject_keeps (h : Halyard) (s : State) : Keeps.Out 0x13E04048 s (execFltInject h s) := by
  unfold execFltInject
  have hF := Sub.refl 0x13E04048
  apply Keeps.done
  repeat' first
    | extract_lets | with_reducible assumption | with_reducible exact Keeps.refl _ | exact hF.within rfl
    | (with_reducible apply Keeps.trans; on_goal 2 => with_reducible first
          | apply State.post_keeps | apply State.replyOk_keeps | apply State.replySt_keeps
          | apply State.replyBad_keeps | apply State.packet_keeps)
    | split
    | intro _

theorem State.writeTable_keeps (s : State) (first : Nat) (words : List Nat) {F : Nat} (hF : Sub 0x800000 F) : Keeps F
    s (State.writeTable s first words) := by
  unfold State.writeTable
  repeat' first
    | extract_lets | with_reducible assumption | with_reducible exact Keeps.refl _ | exact hF.within rfl
    | (with_reducible apply Keeps.trans; on_goal 2 => with_reducible first | apply State.setClsEntry_keeps)
    | (with_reducible apply Keeps.foldl; intro _ _ _)

theorem execFltTable_keeps (h : Halyard) (s : State) : Keeps.Out 0x13E04048 s (execFltTable h s) := by
  unfold execFltTable
  have hF := Sub.refl 0x13E04048
  apply Keeps.done
  repeat' first
    | extract_lets | with_reducible assumption | with_reducible exact Keeps.refl _ | exact hF.within rfl
    | (with_reducible apply Keeps.trans; on_goal 2 => with_reducible first
          | apply State.replyOk_keeps | apply State.replyBad_keeps | apply State.packet_keeps
          | apply State.writeTable_keeps)
    | split
    | intro _

theorem execAlertClear_keeps (h : Halyard) (s : State) : Keeps.Out 0x13E04048 s (execAlertClear h s) := by
  unfold execAlertClear
  have hF := Sub.refl 0x13E04048
  apply Keeps.done
  repeat' first
    | extract_lets | with_reducible assumption | with_reducible exact Keeps.refl _ | exact hF.within rfl
    | (with_reducible apply Keeps.trans; on_goal 2 => with_reducible first
          | apply State.alert_keeps | apply State.replyOk_keeps | apply State.packet_keeps)
    | split
    | intro _

/-! ### Machine/Crow.lean -/

theorem State.fullCommit_keeps (s : State) {F : Nat} (hF : Sub 0x1800008 F) : Keeps F s (State.fullCommit s).1 := by
  unfold State.fullCommit
  repeat' first
    | extract_lets | with_reducible assumption | with_reducible exact Keeps.refl _ | exact hF.within rfl
    | (with_reducible apply Keeps.trans; on_goal 2 => with_reducible first
          | apply State.int_keeps | apply State.commitRecords_keeps)
    | split
    | (with_reducible apply Keeps.fst; on_goal 2 => with_reducible assumption)
    | (with_reducible apply Keeps.snd; on_goal 2 => with_reducible assumption)
    | with_reducible apply Keeps.mk_bbx

theorem execIncrementalCommit_keeps (s : State) : Keeps.Out 0x1800008 s (execIncrementalCommit s) := by
  unfold execIncrementalCommit
  have hF := Sub.refl 0x1800008
  apply Keeps.done
  repeat' first
    | extract_lets | with_reducible assumption | with_reducible exact Keeps.refl _ | exact hF.within rfl
    | (with_reducible apply Keeps.trans; on_goal 2 => with_reducible first
          | apply State.int_keeps | apply State.commitRecords_keeps)
    | (with_reducible apply Keeps.ite <;> intro _)

theorem State.endCommit_keeps (s : State) {F : Nat} (hF : Sub 0x1E00008 F) : Keeps F s (State.endCommit s) := by
  unfold State.endCommit
  repeat' first
    | extract_lets | with_reducible assumption | with_reducible exact Keeps.refl _ | exact hF.within rfl
    | (with_reducible apply Keeps.trans; on_goal 2 => with_reducible first
          | apply State.setFlag_keeps | apply State.finishOp_keeps | apply State.fullCommit_keeps)
    | (with_reducible apply Keeps.ite <;> intro _)
    | split
    | (with_reducible apply Keeps.fst; on_goal 2 => with_reducible assumption)
    | (with_reducible apply Keeps.snd; on_goal 2 => with_reducible assumption)

theorem execCommitDone_keeps (s : State) : Keeps.Out 0x1E00008 s (execCommitDone s) := by
  unfold execCommitDone
  have hF := Sub.refl 0x1E00008
  apply Keeps.done
  repeat' first
    | extract_lets | with_reducible assumption | with_reducible exact Keeps.refl _ | exact hF.within rfl
    | (with_reducible apply Keeps.trans; on_goal 2 => with_reducible first | apply State.endCommit_keeps)
    | split

theorem execBbxCommit_keeps (h : Halyard) (s : State) : Keeps.Out 0x13E04048 s (execBbxCommit h s) := by
  unfold execBbxCommit
  have hF := Sub.refl 0x13E04048
  apply Keeps.done
  repeat' first
    | extract_lets | with_reducible assumption | with_reducible exact Keeps.refl _ | exact hF.within rfl
    | (with_reducible apply Keeps.trans; on_goal 2 => with_reducible first
          | apply State.setFlag_keeps | apply State.replySt_keeps | apply State.accept_keeps
          | apply State.packet_keeps)
    | split
    | (with_reducible apply Keeps.fst; on_goal 2 => with_reducible assumption)
    | (with_reducible apply Keeps.snd; on_goal 2 => with_reducible assumption)
    | with_reducible apply Keeps.mk_bbx
    | intro _

theorem execBbxRead_keeps (h : Halyard) (s : State) : Keeps.Out 0x13E04048 s (execBbxRead h s) := by
  unfold execBbxRead
  have hF := Sub.refl 0x13E04048
  apply Keeps.done
  repeat' first
    | extract_lets | with_reducible assumption | with_reducible exact Keeps.refl _ | exact hF.within rfl
    | (with_reducible apply Keeps.trans; on_goal 2 => with_reducible first
          | apply State.replyOk_keeps | apply State.replySt_keeps | apply State.replyBad_keeps
          | apply State.packet_keeps)
    | split
    | intro _

theorem execBbxDump_keeps (s : State) : Keeps.Out 0x20000 s (execBbxDump s) := by
  unfold execBbxDump
  have hF := Sub.refl 0x20000
  apply Keeps.done
  repeat' first
    | extract_lets | with_reducible assumption | with_reducible exact Keeps.refl _ | exact hF.within rfl
    | (with_reducible apply Keeps.trans; on_goal 2 => with_reducible first | apply State.tapSelect_keeps)

theorem execTraceCfg_keeps (h : Halyard) (s : State) : Keeps.Out 0x13E04048 s (execTraceCfg h s) := by
  unfold execTraceCfg
  have hF := Sub.refl 0x13E04048
  apply Keeps.done
  repeat' first
    | extract_lets | with_reducible assumption | with_reducible exact Keeps.refl _ | exact hF.within rfl
    | (with_reducible apply Keeps.trans; on_goal 2 => with_reducible first
          | apply State.replyOk_keeps | apply State.replyBad_keeps | apply State.packet_keeps)
    | split
    | (with_reducible apply Keeps.fst; on_goal 2 => with_reducible assumption)
    | (with_reducible apply Keeps.snd; on_goal 2 => with_reducible assumption)
    | with_reducible apply Keeps.mk_trc
    | intro _

theorem execTraceRead_keeps (h : Halyard) (s : State) : Keeps.Out 0x13E04048 s (execTraceRead h s) := by
  unfold execTraceRead
  have hF := Sub.refl 0x13E04048
  apply Keeps.done
  repeat' first
    | extract_lets | with_reducible assumption | with_reducible exact Keeps.refl _ | exact hF.within rfl
    | (with_reducible apply Keeps.trans; on_goal 2 => with_reducible first
          | apply State.replyOk_keeps | apply State.replyBad_keeps | apply State.packet_keeps)
    | split
    | (with_reducible apply Keeps.fst; on_goal 2 => with_reducible assumption)
    | (with_reducible apply Keeps.snd; on_goal 2 => with_reducible assumption)
    | with_reducible apply Keeps.mk_trc
    | intro _

theorem State.ignoreFreeze_keeps (s : State) {F : Nat} (hF : Sub 0x5800008 F) : Keeps F s (State.ignoreFreeze s) := by
  unfold State.ignoreFreeze
  repeat' first
    | extract_lets | with_reducible assumption | with_reducible exact Keeps.refl _ | exact hF.within rfl
    | (with_reducible apply Keeps.trans; on_goal 2 => with_reducible first
          | apply State.bumpSat_keeps | apply State.int_keeps)
    | split
    | (with_reducible apply Keeps.fst; on_goal 2 => with_reducible assumption)
    | (with_reducible apply Keeps.snd; on_goal 2 => with_reducible assumption)
    | with_reducible apply Keeps.mk_cns

theorem State.startFreeze_keeps (s : State) (cause : Nat) {F : Nat} (hF : Sub 0x4000008 F) : Keeps F s
    (State.startFreeze s cause) := by
  unfold State.startFreeze
  repeat' first
    | extract_lets | with_reducible assumption | with_reducible exact Keeps.refl _ | exact hF.within rfl
    | (with_reducible apply Keeps.trans; on_goal 2 => with_reducible first
          | apply State.setReg_keeps | apply State.fset_keeps | apply State.bumpSat_keeps)
    | split
    | (with_reducible apply Keeps.fst; on_goal 2 => with_reducible assumption)
    | (with_reducible apply Keeps.snd; on_goal 2 => with_reducible assumption)
    | with_reducible apply Keeps.mk_cns

theorem State.enterFreeze_keeps (s : State) {F : Nat} (hF : Sub 0xDE8440C F) : Keeps F s (State.enterFreeze s) := by
  unfold State.enterFreeze
  repeat' first
    | extract_lets | with_reducible assumption | with_reducible exact Keeps.refl _ | exact hF.within rfl
    | (with_reducible apply Keeps.trans; on_goal 2 => with_reducible first
          | apply State.record_keeps | apply State.enterSr_keeps | apply State.cutPulse_keeps
          | apply State.endCommit_keeps)
    | (with_reducible apply Keeps.foldl; intro _ _ _)
    | (with_reducible apply Keeps.ite <;> intro _)
    | split
    | (with_reducible apply Keeps.fst; on_goal 2 => with_reducible assumption)
    | (with_reducible apply Keeps.snd; on_goal 2 => with_reducible assumption)
    | with_reducible apply Keeps.mk_cns

theorem execFreezeN_keeps (s : State) : Keeps.Out 0x5800008 s (execFreezeN s) := by
  unfold execFreezeN
  have hF := Sub.refl 0x5800008
  apply Keeps.done
  repeat' first
    | extract_lets | with_reducible assumption | with_reducible exact Keeps.refl _ | exact hF.within rfl
    | (with_reducible apply Keeps.trans; on_goal 2 => with_reducible first
          | apply State.ignoreFreeze_keeps | apply State.startFreeze_keeps)
    | (with_reducible apply Keeps.ite <;> intro _)

theorem execFreeze_keeps (h : Halyard) (s : State) : Keeps.Out 0x17E04048 s (execFreeze h s) := by
  unfold execFreeze
  have hF := Sub.refl 0x17E04048
  apply Keeps.done
  repeat' first
    | extract_lets | with_reducible assumption | with_reducible exact Keeps.refl _ | exact hF.within rfl
    | (with_reducible apply Keeps.trans; on_goal 2 => with_reducible first
          | apply State.setFlag_keeps | apply State.replyOk_keeps | apply State.packet_keeps)
    | split
    | (with_reducible apply Keeps.fst; on_goal 2 => with_reducible assumption)
    | (with_reducible apply Keeps.snd; on_goal 2 => with_reducible assumption)
    | with_reducible apply Keeps.mk_cns
    | intro _

theorem execFreezeEntry_keeps (s : State) : Keeps.Out 0xDE8440C s (execFreezeEntry s) := by
  unfold execFreezeEntry
  have hF := Sub.refl 0xDE8440C
  apply Keeps.done
  repeat' first
    | extract_lets | with_reducible assumption | with_reducible exact Keeps.refl _ | exact hF.within rfl
    | (with_reducible apply Keeps.trans; on_goal 2 => with_reducible first
          | apply State.ignoreFreeze_keeps | apply State.startFreeze_keeps | apply State.enterFreeze_keeps)
    | (with_reducible apply Keeps.ite <;> intro _)

theorem execDataLost_keeps (s : State) : Keeps.Out 0x218 s (execDataLost s) := by
  unfold execDataLost
  have hF := Sub.refl 0x218
  apply Keeps.done
  repeat' first
    | extract_lets | with_reducible assumption | with_reducible exact Keeps.refl _ | exact hF.within rfl
    | (with_reducible apply Keeps.trans; on_goal 2 => with_reducible first
          | apply State.setFlag_keeps | apply State.dropArrays_keeps)
    | (with_reducible apply Keeps.ite <;> intro _)

theorem State.thawEngines_keeps (s : State) {F : Nat} (hF : Sub 0x80408 F) : Keeps F s (State.thawEngines s) := by
  unfold State.thawEngines
  repeat' first
    | extract_lets | with_reducible assumption | with_reducible exact Keeps.refl _ | exact hF.within rfl
    | (with_reducible apply Keeps.trans; on_goal 2 => with_reducible first
          | apply State.enterPd_keeps | apply State.srxEng_keeps)
    | (with_reducible apply Keeps.foldl; intro _ _ _)
    | (with_reducible apply Keeps.ite <;> intro _)

theorem State.orderRetrainAll_keeps (s : State) {F : Nat} (hF : Sub 0x9EDC7FC F) : Keeps F s (State.orderRetrainAll s)
    := by
  unfold State.orderRetrainAll
  repeat' first
    | extract_lets | with_reducible assumption | with_reducible exact Keeps.refl _ | exact hF.within rfl
    | (with_reducible apply Keeps.trans; on_goal 2 => with_reducible first
          | apply State.react_keeps | apply State.openReaction_keeps)
    | (with_reducible apply Keeps.ite <;> intro _)

theorem State.resume_keeps (s : State) {F : Nat} (hF : Sub 0xDEDC7FC F) : Keeps F s (State.resume s) := by
  unfold State.resume
  repeat' first
    | extract_lets | with_reducible assumption | with_reducible exact Keeps.refl _ | exact hF.within rfl
    | (with_reducible apply Keeps.trans; on_goal 2 => with_reducible first
          | apply State.fset_keeps | apply State.setFlag_keeps | apply State.bumpSat_keeps | apply State.int_keeps
          | apply State.record_keeps | apply State.setLink_keeps | apply State.thawEngines_keeps
          | apply State.orderRetrainAll_keeps)
    | (with_reducible apply Keeps.foldl; intro _ _ _)
    | split
    | (with_reducible apply Keeps.fst; on_goal 2 => with_reducible assumption)
    | (with_reducible apply Keeps.snd; on_goal 2 => with_reducible assumption)
    | with_reducible apply Keeps.mk_cns

theorem execCnsResume_keeps (pin update : Bool) (s : State) : Keeps.Out 0xDEFC7FC s (execCnsResume pin update s) := by
  unfold execCnsResume
  have hF := Sub.refl 0xDEFC7FC
  apply Keeps.done
  repeat' first
    | extract_lets | with_reducible assumption | with_reducible exact Keeps.refl _ | exact hF.within rfl
    | (with_reducible apply Keeps.trans; on_goal 2 => with_reducible first
          | apply State.setFlag_keeps | apply State.tapSelect_keeps | apply State.resume_keeps)
    | (with_reducible apply Keeps.ite <;> intro _)

theorem execDevStateRd_keeps (s : State) : Keeps.Out 0x20000 s (execDevStateRd s) := by
  unfold execDevStateRd
  have hF := Sub.refl 0x20000
  apply Keeps.done
  repeat' first
    | extract_lets | with_reducible assumption | with_reducible exact Keeps.refl _ | exact hF.within rfl
    | (with_reducible apply Keeps.trans; on_goal 2 => with_reducible first | apply State.tapSelect_keeps)

theorem execVendorOpcode_keeps (op : Nat) (h : Halyard) (s : State) : Keeps.Out 0x13E0404C s (execVendorOpcode op h s)
    := by
  unfold execVendorOpcode
  have hF := Sub.refl 0x13E0404C
  apply Keeps.done
  repeat' first
    | extract_lets | with_reducible assumption | with_reducible exact Keeps.refl _ | exact hF.within rfl
    | (with_reducible apply Keeps.trans; on_goal 2 => with_reducible first
          | apply State.fresh_keeps | apply State.replySt_keeps | apply State.packet_keeps)
    | (with_reducible apply Keeps.ite <;> intro _)
    | split
    | (with_reducible apply Keeps.fst; on_goal 2 => with_reducible assumption)
    | (with_reducible apply Keeps.snd; on_goal 2 => with_reducible assumption)
    | intro _

theorem execBadOpcode_keeps (op : Nat) (h : Halyard) (s : State) : Keeps.Out 0x13E04048 s (execBadOpcode op h s) := by
  unfold execBadOpcode
  have hF := Sub.refl 0x13E04048
  apply Keeps.done
  repeat' first
    | extract_lets | with_reducible assumption | with_reducible exact Keeps.refl _ | exact hF.within rfl
    | (with_reducible apply Keeps.trans; on_goal 2 => with_reducible first
          | apply State.replySt_keeps | apply State.packet_keeps)
    | (with_reducible apply Keeps.ite <;> intro _)
    | split
    | intro _

/-! ### Machine/Image.lean -/

theorem execCnsRead_keeps (shifts : Nat) (s : State) : Keeps.Out 0x20008 s (execCnsRead shifts s) := by
  unfold execCnsRead
  have hF := Sub.refl 0x20008
  apply Keeps.done
  repeat' first
    | extract_lets | with_reducible assumption | with_reducible exact Keeps.refl _ | exact hF.within rfl
    | (with_reducible apply Keeps.trans; on_goal 2 => with_reducible first
          | apply State.fset_keeps | apply State.tapSelect_keeps)

theorem State.nextWin_keeps (s : State) {F : Nat} (hF : Sub 0x8 F) : Keeps F s (State.nextWin s) := by
  unfold State.nextWin
  repeat' first
    | extract_lets | with_reducible assumption | with_reducible exact Keeps.refl _ | exact hF.within rfl
    | (with_reducible apply Keeps.trans; on_goal 2 => with_reducible first | apply State.fset_keeps)
    | (with_reducible apply Keeps.ite <;> intro _)

theorem execImgWin_keeps (j : Nat) (s : State) : Keeps.Out 0x8 s (execImgWin j s) := by
  unfold execImgWin
  have hF := Sub.refl 0x8
  apply Keeps.done
  repeat' first
    | extract_lets | with_reducible assumption | with_reducible exact Keeps.refl _ | exact hF.within rfl
    | (with_reducible apply Keeps.trans; on_goal 2 => with_reducible first | apply State.nextWin_keeps)
    | (with_reducible apply Keeps.ite <;> intro _)

/-! ### Machine/RegCmds.lean -/

theorem State.readRxFfe_keeps (s : State) (p m : Nat) {F : Nat} (hF : Sub 0x2C F) : Keeps F s (State.readRxFfe s p m)
    := by
  unfold State.readRxFfe
  repeat' first
    | extract_lets | with_reducible assumption | with_reducible exact Keeps.refl _ | exact hF.within rfl
    | (with_reducible apply Keeps.trans; on_goal 2 => with_reducible first
          | apply State.fset_keeps | apply State.adaptNow_keeps)

theorem State.latchAon_keeps (s : State) {F : Nat} (hF : Sub 0x8 F) : Keeps F s (State.latchAon s) := by
  unfold State.latchAon
  repeat' first
    | extract_lets | with_reducible assumption | with_reducible exact Keeps.refl _ | exact hF.within rfl
    | (with_reducible apply Keeps.trans; on_goal 2 => with_reducible first | apply State.setReg_keeps)

theorem State.readReg_keeps (s : State) (addr : Nat) {F : Nat} (hF : Sub 0x180002C F) : Keeps F s (State.readReg s
    addr).1 := by
  unfold State.readReg
  repeat' first
    | extract_lets | with_reducible assumption | with_reducible exact Keeps.refl _ | exact hF.within rfl
    | (with_reducible apply Keeps.trans; on_goal 2 => with_reducible first
          | apply State.countGated_keeps | apply State.adaptNow_keeps | apply State.nextWin_keeps
          | apply State.readRxFfe_keeps | apply State.latchAon_keeps)
    | (with_reducible apply Keeps.ite <;> intro _)
    | split
    | (with_reducible apply Keeps.fst; on_goal 2 => with_reducible assumption)
    | (with_reducible apply Keeps.snd; on_goal 2 => with_reducible assumption)
    | dsimp +zetaDelta only

theorem State.plainWrite_keeps (s : State) (r : RegRow) (addr v : Nat) {F : Nat} (hF : Sub 0x8 F) : Keeps F s
    (State.plainWrite s r addr v) := by
  unfold State.plainWrite
  repeat' first
    | extract_lets | with_reducible assumption | with_reducible exact Keeps.refl _ | exact hF.within rfl
    | (with_reducible apply Keeps.trans; on_goal 2 => with_reducible first | apply State.setReg_keeps)
    | (with_reducible apply Keeps.ite <;> intro _)
    | split

theorem State.writeInt_keeps (s : State) (r : RegRow) (b : IntBlk) (addr v setNow : Nat) {F : Nat} (hF : Sub 0x1800008
    F) : Keeps F s (State.writeInt s r b addr v setNow) := by
  unfold State.writeInt
  repeat' first
    | extract_lets | with_reducible assumption | with_reducible exact Keeps.refl _ | exact hF.within rfl
    | (with_reducible apply Keeps.trans; on_goal 2 => with_reducible first
          | apply State.fset_keeps | apply State.int_keeps | apply State.plainWrite_keeps)
    | (with_reducible apply Keeps.foldl; intro _ _ _)
    | (with_reducible apply Keeps.ite <;> intro _)

theorem State.writePrtCtrl_keeps (s : State) (r : RegRow) (p v : Nat) {F : Nat} (hF : Sub 0x1E0416C F) : Keeps F s
    (State.writePrtCtrl s r p v) := by
  unfold State.writePrtCtrl
  repeat' first
    | extract_lets | with_reducible assumption | with_reducible exact Keeps.refl _ | exact hF.within rfl
    | (with_reducible apply Keeps.trans; on_goal 2 => with_reducible first
          | apply State.enablePort_keeps | apply State.disablePort_keeps | apply State.writeRetrain_keeps
          | apply State.testMode_keeps | apply State.plainWrite_keeps)
    | (with_reducible apply Keeps.ite <;> intro _)

theorem State.writeFir_keeps (s : State) (p m v : Nat) {F : Nat} (hF : Sub 0x20 F) : Keeps F s (State.writeFir s p m
    v) := by
  unfold State.writeFir
  repeat' first
    | extract_lets | with_reducible assumption | with_reducible exact Keeps.refl _ | exact hF.within rfl
    | (with_reducible apply Keeps.trans; on_goal 2 => with_reducible first | apply State.setLane_keeps)
    | (with_reducible apply Keeps.ite <;> intro _)

theorem State.writeRxEq_keeps (s : State) (r : RegRow) (p m v : Nat) {F : Nat} (hF : Sub 0x2C F) : Keeps F s
    (State.writeRxEq s r p m v) := by
  unfold State.writeRxEq
  repeat' first
    | extract_lets | with_reducible assumption | with_reducible exact Keeps.refl _ | exact hF.within rfl
    | (with_reducible apply Keeps.trans; on_goal 2 => with_reducible first
          | apply State.adaptNow_keeps | apply State.plainWrite_keeps)

theorem State.writeTestCfg_keeps (s : State) (r : RegRow) (p v : Nat) {F : Nat} (hF : Sub 0x2C F) : Keeps F s
    (State.writeTestCfg s r p v) := by
  unfold State.writeTestCfg
  repeat' first
    | extract_lets | with_reducible assumption | with_reducible exact Keeps.refl _ | exact hF.within rfl
    | (with_reducible apply Keeps.trans; on_goal 2 => with_reducible first
          | apply State.setReg_keeps | apply State.testLanes_keeps | apply State.plainWrite_keeps)
    | (with_reducible apply Keeps.foldl; intro _ _ _)
    | (with_reducible apply Keeps.ite <;> intro _)

theorem State.writeCredits_keeps (s : State) (r : RegRow) (v : Nat) {F : Nat} (hF : Sub 0x8 F) : Keeps F s
    (State.writeCredits s r v) := by
  unfold State.writeCredits
  repeat' first
    | extract_lets | with_reducible assumption | with_reducible exact Keeps.refl _ | exact hF.within rfl
    | (with_reducible apply Keeps.trans; on_goal 2 => with_reducible first | apply State.plainWrite_keeps)
    | (with_reducible apply Keeps.ite <;> intro _)

theorem State.writeXlate_keeps (s : State) (v : Nat) {F : Nat} (hF : Sub 0x8 F) : Keeps F s (State.writeXlate s v) :=
    by
  unfold State.writeXlate
  repeat' first
    | extract_lets | with_reducible assumption | with_reducible exact Keeps.refl _ | exact hF.within rfl
    | (with_reducible apply Keeps.trans; on_goal 2 => with_reducible first | apply State.setReg_keeps)

theorem State.writeProbe_keeps (s : State) (v : Nat) {F : Nat} (hF : Sub 0x8 F) : Keeps F s (State.writeProbe s v) :=
    by
  unfold State.writeProbe
  repeat' first
    | extract_lets | with_reducible assumption | with_reducible exact Keeps.refl _ | exact hF.within rfl
    | (with_reducible apply Keeps.trans; on_goal 2 => with_reducible first | apply State.setReg_keeps)

theorem State.writeGate_keeps (s : State) (v : Nat) {F : Nat} (hF : Sub 0x108 F) : Keeps F s (State.writeGate s v) :=
    by
  unfold State.writeGate
  repeat' first
    | extract_lets | with_reducible assumption | with_reducible exact Keeps.refl _ | exact hF.within rfl
    | (with_reducible apply Keeps.trans; on_goal 2 => with_reducible first
          | apply State.ungate_keeps | apply State.askGate_keeps)
    | (with_reducible apply Keeps.foldl; intro _ _ _)
    | (with_reducible apply Keeps.ite <;> intro _)

theorem State.writeWarn_keeps (s : State) (r : RegRow) (v : Nat) {F : Nat} (hF : Sub 0x1E80008 F) : Keeps F s
    (State.writeWarn s r v) := by
  unfold State.writeWarn
  repeat' first
    | extract_lets | with_reducible assumption | with_reducible exact Keeps.refl _ | exact hF.within rfl
    | (with_reducible apply Keeps.trans; on_goal 2 => with_reducible first
          | apply State.retestLevels_keeps | apply State.plainWrite_keeps)

theorem State.writePrt_keeps (s : State) (r : RegRow) (addr v : Nat) {F : Nat} (hF : Sub 0x1E0416C F) : Keeps F s
    (State.writePrt s r addr v) := by
  unfold State.writePrt
  repeat' first
    | extract_lets | with_reducible assumption | with_reducible exact Keeps.refl _ | exact hF.within rfl
    | (with_reducible apply Keeps.trans; on_goal 2 => with_reducible first
          | apply State.writeSlip_keeps | apply State.plainWrite_keeps | apply State.writePrtCtrl_keeps
          | apply State.writeFir_keeps | apply State.writeRxEq_keeps | apply State.writeTestCfg_keeps)
    | (with_reducible apply Keeps.ite <;> intro _)
    | split

theorem State.actWrite_keeps (s : State) (r : RegRow) (addr v setNow : Nat) (o : PmOutcome) {F : Nat} (hF : Sub
    0x1E8616C F) : Keeps F s (State.actWrite s r addr v setNow o) := by
  unfold State.actWrite
  repeat' first
    | extract_lets | with_reducible assumption | with_reducible exact Keeps.refl _ | exact hF.within rfl
    | (with_reducible apply Keeps.trans; on_goal 2 => with_reducible first
          | apply State.startFlush_keeps | apply State.scnRegs_keeps | apply State.setC62_keeps
          | apply State.throttle_keeps | apply State.writePmXfer_keeps | apply State.plainWrite_keeps
          | apply State.writeInt_keeps | apply State.writeCredits_keeps | apply State.writeXlate_keeps
          | apply State.writeProbe_keeps | apply State.writeGate_keeps | apply State.writeWarn_keeps
          | apply State.writePrt_keeps)
    | (with_reducible apply Keeps.ite <;> intro _)
    | split

theorem State.writeReg_keeps (s : State) (addr v setNow : Nat) (o : PmOutcome) {F : Nat} (hF : Sub 0x1E8616C F) :
    Keeps F s (State.writeReg s addr v setNow o) := by
  unfold State.writeReg
  repeat' first
    | extract_lets | with_reducible assumption | with_reducible exact Keeps.refl _ | exact hF.within rfl
    | (with_reducible apply Keeps.trans; on_goal 2 => with_reducible first
          | apply State.countGated_keeps | apply State.actWrite_keeps)
    | (with_reducible apply Keeps.ite <;> intro _)
    | split

theorem execRegisterWrite_keeps (addr : Nat) (value setNow : Word) (s : State) : Keeps.Out 0x1E8616C s
    (execRegisterWrite addr value setNow s) := by
  unfold execRegisterWrite
  have hF := Sub.refl 0x1E8616C
  apply Keeps.done
  repeat' first
    | extract_lets | with_reducible assumption | with_reducible exact Keeps.refl _ | exact hF.within rfl
    | (with_reducible apply Keeps.trans; on_goal 2 => with_reducible first | apply State.writeReg_keeps)

theorem execXlateLo_keeps (value : Word) (s : State) : Keeps.Out 0x1E8616C s (execXlateLo value s) := by
  unfold execXlateLo
  have hF := Sub.refl 0x1E8616C
  apply Keeps.done
  repeat' first
    | extract_lets | with_reducible assumption | with_reducible exact Keeps.refl _ | exact hF.within rfl
    | (with_reducible apply Keeps.trans; on_goal 2 => with_reducible first | apply State.writeReg_keeps)

theorem execProbeLo_keeps (value : Word) (s : State) : Keeps.Out 0x1E8616C s (execProbeLo value s) := by
  unfold execProbeLo
  have hF := Sub.refl 0x1E8616C
  apply Keeps.done
  repeat' first
    | extract_lets | with_reducible assumption | with_reducible exact Keeps.refl _ | exact hF.within rfl
    | (with_reducible apply Keeps.trans; on_goal 2 => with_reducible first | apply State.writeReg_keeps)

theorem execAonTimeLo_keeps (s : State) : Keeps.Out 0x8 s (execAonTimeLo s) := by
  unfold execAonTimeLo
  have hF := Sub.refl 0x8
  apply Keeps.done
  repeat' first
    | extract_lets | with_reducible assumption | with_reducible exact Keeps.refl _ | exact hF.within rfl
    | (with_reducible apply Keeps.trans; on_goal 2 => with_reducible first | apply State.latchAon_keeps)

theorem State.readRegs_keeps (s : State) (l : List Nat) {F : Nat} (hF : Sub 0x180002C F) : Keeps F s (State.readRegs s
    l).1 := by
  unfold State.readRegs
  repeat' first
    | extract_lets | with_reducible assumption | with_reducible exact Keeps.refl _ | exact hF.within rfl
    | (with_reducible apply Keeps.trans; on_goal 2 => with_reducible first | apply State.readReg_keeps)
    | (with_reducible apply Keeps.foldlP; intro _ _ _)

theorem execRegRead_keeps (h : Halyard) (s : State) : Keeps.Out 0x13E0406C s (execRegRead h s) := by
  unfold execRegRead
  have hF := Sub.refl 0x13E0406C
  apply Keeps.done
  repeat' first
    | extract_lets | with_reducible assumption | with_reducible exact Keeps.refl _ | exact hF.within rfl
    | (with_reducible apply Keeps.trans; on_goal 2 => with_reducible first
          | apply State.replyOk_keeps | apply State.replyBad_keeps | apply State.packet_keeps
          | apply State.readRegs_keeps)
    | split
    | intro _

theorem execRegWrite_keeps (h : Halyard) (obs : WriteObs) (s : State) : Keeps.Out 0x13E8616C s (execRegWrite h obs s)
    := by
  unfold execRegWrite
  have hF := Sub.refl 0x13E8616C
  apply Keeps.done
  repeat' first
    | extract_lets | with_reducible assumption | with_reducible exact Keeps.refl _ | exact hF.within rfl
    | (with_reducible apply Keeps.trans; on_goal 2 => with_reducible first
          | apply State.replyOk_keeps | apply State.replySt_keeps | apply State.replyBad_keeps
          | apply State.packet_keeps | apply State.writeReg_keeps)
    | (with_reducible apply Keeps.foldl; intro _ _ _)
    | split
    | intro _

theorem execRegRmw_keeps (h : Halyard) (obs : WriteObs) (s : State) : Keeps.Out 0x13E8616C s (execRegRmw h obs s) :=
    by
  unfold execRegRmw
  have hF := Sub.refl 0x13E8616C
  apply Keeps.done
  repeat' first
    | extract_lets | with_reducible assumption | with_reducible exact Keeps.refl _ | exact hF.within rfl
    | (with_reducible apply Keeps.trans; on_goal 2 => with_reducible first
          | apply State.replyOk_keeps | apply State.replySt_keeps | apply State.replyBad_keeps
          | apply State.packet_keeps | apply State.readReg_keeps | apply State.writeReg_keeps)
    | split
    | intro _

theorem execRegReadList_keeps (h : Halyard) (s : State) : Keeps.Out 0x13E0406C s (execRegReadList h s) := by
  unfold execRegReadList
  have hF := Sub.refl 0x13E0406C
  apply Keeps.done
  repeat' first
    | extract_lets | with_reducible assumption | with_reducible exact Keeps.refl _ | exact hF.within rfl
    | (with_reducible apply Keeps.trans; on_goal 2 => with_reducible first
          | apply State.replyOk_keeps | apply State.replyBad_keeps | apply State.packet_keeps
          | apply State.readRegs_keeps)
    | split
    | intro _

/-! ### Machine/Commit.lean -/

theorem State.takeStage_keeps (s : State) (h : Halyard) {F : Nat} (hF : Sub 0x400008 F) : Keeps F s (State.takeStage s
    h) := by
  unfold State.takeStage
  repeat' first
    | extract_lets | with_reducible assumption | with_reducible exact Keeps.refl _ | exact hF.within rfl
    | (with_reducible apply Keeps.trans; on_goal 2 => with_reducible first
          | apply State.fset_keeps | apply State.dropStaging_keeps)
    | (with_reducible apply Keeps.ite <;> intro _)
    | split

theorem State.stage_keeps (s : State) (op area : Nat) (h : Halyard) (bad : Option Nat) (put : Staged → Staged) {F :
    Nat} (hF : Sub 0x1E04048 F) : Keeps F s (State.stage s op area h bad put) := by
  unfold State.stage
  repeat' first
    | extract_lets | with_reducible assumption | with_reducible exact Keeps.refl _ | exact hF.within rfl
    | (with_reducible apply Keeps.trans; on_goal 2 => with_reducible first
          | apply State.fset_keeps | apply State.replyOk_keeps | apply State.replySt_keeps
          | apply State.replyBad_keeps | apply State.takeStage_keeps)
    | (with_reducible apply Keeps.ite <;> intro _)
    | split
    | (with_reducible apply Keeps.fst; on_goal 2 => with_reducible assumption)
    | (with_reducible apply Keeps.snd; on_goal 2 => with_reducible assumption)
    | with_reducible apply Keeps.mk_mgc

theorem execStageClass_keeps (h : Halyard) (s : State) : Keeps.Out 0x13E04048 s (execStageClass h s) := by
  unfold execStageClass
  have hF := Sub.refl 0x13E04048
  apply Keeps.done
  repeat' first
    | extract_lets | with_reducible assumption | with_reducible exact Keeps.refl _ | exact hF.within rfl
    | (with_reducible apply Keeps.trans; on_goal 2 => with_reducible first
          | apply State.packet_keeps | apply State.stage_keeps)
    | split
    | intro _

theorem execStageReqmap_keeps (h : Halyard) (s : State) : Keeps.Out 0x13E04048 s (execStageReqmap h s) := by
  unfold execStageReqmap
  have hF := Sub.refl 0x13E04048
  apply Keeps.done
  repeat' first
    | extract_lets | with_reducible assumption | with_reducible exact Keeps.refl _ | exact hF.within rfl
    | (with_reducible apply Keeps.trans; on_goal 2 => with_reducible first
          | apply State.packet_keeps | apply State.stage_keeps)
    | split
    | intro _

theorem execStageAddrmap_keeps (h : Halyard) (s : State) : Keeps.Out 0x13E04048 s (execStageAddrmap h s) := by
  unfold execStageAddrmap
  have hF := Sub.refl 0x13E04048
  apply Keeps.done
  repeat' first
    | extract_lets | with_reducible assumption | with_reducible exact Keeps.refl _ | exact hF.within rfl
    | (with_reducible apply Keeps.trans; on_goal 2 => with_reducible first
          | apply State.packet_keeps | apply State.stage_keeps)
    | split
    | intro _

theorem execStageGuard_keeps (h : Halyard) (s : State) : Keeps.Out 0x13E04048 s (execStageGuard h s) := by
  unfold execStageGuard
  have hF := Sub.refl 0x13E04048
  apply Keeps.done
  repeat' first
    | extract_lets | with_reducible assumption | with_reducible exact Keeps.refl _ | exact hF.within rfl
    | (with_reducible apply Keeps.trans; on_goal 2 => with_reducible first
          | apply State.packet_keeps | apply State.stage_keeps)
    | split
    | intro _

theorem execStageEvtcfg_keeps (h : Halyard) (s : State) : Keeps.Out 0x13E04048 s (execStageEvtcfg h s) := by
  unfold execStageEvtcfg
  have hF := Sub.refl 0x13E04048
  apply Keeps.done
  repeat' first
    | extract_lets | with_reducible assumption | with_reducible exact Keeps.refl _ | exact hF.within rfl
    | (with_reducible apply Keeps.trans; on_goal 2 => with_reducible first
          | apply State.packet_keeps | apply State.stage_keeps)
    | split
    | intro _

theorem execDiscard_keeps (h : Halyard) (s : State) : Keeps.Out 0x13E04048 s (execDiscard h s) := by
  unfold execDiscard
  have hF := Sub.refl 0x13E04048
  apply Keeps.done
  repeat' first
    | extract_lets | with_reducible assumption | with_reducible exact Keeps.refl _ | exact hF.within rfl
    | (with_reducible apply Keeps.trans; on_goal 2 => with_reducible first
          | apply State.replyOk_keeps | apply State.replySt_keeps | apply State.packet_keeps
          | apply State.dropStaging_keeps)
    | split
    | intro _

theorem execStageTimeout_keeps (s : State) : Keeps.Out 0x1C00008 s (execStageTimeout s) := by
  unfold execStageTimeout
  have hF := Sub.refl 0x1C00008
  apply Keeps.done
  repeat' first
    | extract_lets | with_reducible assumption | with_reducible exact Keeps.refl _ | exact hF.within rfl
    | (with_reducible apply Keeps.trans; on_goal 2 => with_reducible first
          | apply State.int_keeps | apply State.dropStaging_keeps)
    | (with_reducible apply Keeps.ite <;> intro _)

theorem State.goCommit_keeps (s : State) (h : Halyard) (mask : Nat) {F : Nat} (hF : Sub 0x1E06048 F) : Keeps F s
    (State.goCommit s h mask) := by
  unfold State.goCommit
  repeat' first
    | extract_lets | with_reducible assumption | with_reducible exact Keeps.refl _ | exact hF.within rfl
    | (with_reducible apply Keeps.trans; on_goal 2 => with_reducible first
          | apply State.replySt_keeps | apply State.startFlush_keeps)
    | (with_reducible apply Keeps.ite <;> intro _)
    | split
    | (with_reducible apply Keeps.fst; on_goal 2 => with_reducible assumption)
    | (with_reducible apply Keeps.snd; on_goal 2 => with_reducible assumption)
    | with_reducible apply Keeps.mk_flush_mgc
    | with_reducible apply Keeps.mk_mgc

theorem State.commitStep_keeps (s : State) {F : Nat} (hF : Sub 0x1E06048 F) : Keeps F s (State.commitStep s) := by
  unfold State.commitStep
  repeat' first
    | extract_lets | with_reducible assumption | with_reducible exact Keeps.refl _ | exact hF.within rfl
    | (with_reducible apply Keeps.trans; on_goal 2 => with_reducible first
          | apply State.respond_keeps | apply State.goCommit_keeps)
    | (with_reducible apply Keeps.ite <;> intro _)
    | split
    | (with_reducible apply Keeps.fst; on_goal 2 => with_reducible assumption)
    | (with_reducible apply Keeps.snd; on_goal 2 => with_reducible assumption)
    | with_reducible apply Keeps.mk_mgc

theorem State.startCommit_keeps (s : State) (h : Halyard) (mask : Nat) {F : Nat} (hF : Sub 0x1E06048 F) : Keeps F s
    (State.startCommit s h mask) := by
  unfold State.startCommit
  repeat' first
    | extract_lets | with_reducible assumption | with_reducible exact Keeps.refl _ | exact hF.within rfl
    | (with_reducible apply Keeps.trans; on_goal 2 => with_reducible first | apply State.goCommit_keeps)
    | (with_reducible apply Keeps.ite <;> intro _)
    | split
    | (with_reducible apply Keeps.fst; on_goal 2 => with_reducible assumption)
    | (with_reducible apply Keeps.snd; on_goal 2 => with_reducible assumption)
    | with_reducible apply Keeps.mk_mgc

theorem execCommit_keeps (h : Halyard) (s : State) : Keeps.Out 0x13E06048 s (execCommit h s) := by
  unfold execCommit
  have hF := Sub.refl 0x13E06048
  apply Keeps.done
  repeat' first
    | extract_lets | with_reducible assumption | with_reducible exact Keeps.refl _ | exact hF.within rfl
    | (with_reducible apply Keeps.trans; on_goal 2 => with_reducible first
          | apply State.replySt_keeps | apply State.replyBad_keeps | apply State.packet_keeps
          | apply State.startCommit_keeps)
    | split
    | intro _

theorem State.applyClass_keeps (s : State) (n : Nat) (w : List Nat) {F : Nat} (hF : Sub 0x108 F) : Keeps F s
    (State.applyClass s n w) := by
  unfold State.applyClass
  repeat' first
    | extract_lets | with_reducible assumption | with_reducible exact Keeps.refl _ | exact hF.within rfl
    | (with_reducible apply Keeps.trans; on_goal 2 => with_reducible first
          | apply State.setReg_keeps | apply State.fset_keeps | apply State.budgetAtWindow_keeps
          | apply State.setTokens_keeps | apply State.applyBudget_keeps)
    | (with_reducible apply Keeps.ite <;> intro _)

theorem State.applyStaged_keeps (s : State) (mask : Nat) {F : Nat} (hF : Sub 0x1C00108 F) : Keeps F s
    (State.applyStaged s mask) := by
  unfold State.applyStaged
  repeat' first
    | extract_lets | with_reducible assumption | with_reducible exact Keeps.refl _ | exact hF.within rfl
    | (with_reducible apply Keeps.trans; on_goal 2 => with_reducible first
          | apply State.setReg_keeps | apply State.fset_keeps | apply State.int_keeps
          | apply State.applyClass_keeps)
    | (with_reducible apply Keeps.foldl; intro _ _ _)
    | (with_reducible apply Keeps.ite <;> intro _)
    | split
    | (with_reducible apply Keeps.fst; on_goal 2 => with_reducible assumption)
    | (with_reducible apply Keeps.snd; on_goal 2 => with_reducible assumption)
    | with_reducible apply Keeps.mk_mgc

theorem State.releaseStage_keeps (s : State) (mask : Nat) {F : Nat} (hF : Sub 0x400008 F) : Keeps F s
    (State.releaseStage s mask) := by
  unfold State.releaseStage
  repeat' first
    | extract_lets | with_reducible assumption | with_reducible exact Keeps.refl _ | exact hF.within rfl
    | (with_reducible apply Keeps.trans; on_goal 2 => with_reducible first
          | apply State.setReg_keeps | apply State.fset_keeps)
    | split
    | (with_reducible apply Keeps.fst; on_goal 2 => with_reducible assumption)
    | (with_reducible apply Keeps.snd; on_goal 2 => with_reducible assumption)
    | with_reducible apply Keeps.mk_mgc

theorem State.applyCommit_keeps (s : State) (c : CommitSt) {F : Nat} (hF : Sub 0x1E04148 F) : Keeps F s
    (State.applyCommit s c) := by
  unfold State.applyCommit
  repeat' first
    | extract_lets | with_reducible assumption | with_reducible exact Keeps.refl _ | exact hF.within rfl
    | (with_reducible apply Keeps.trans; on_goal 2 => with_reducible first
          | apply State.bump_keeps | apply State.event_keeps | apply State.replyOk_keeps
          | apply State.applyStaged_keeps | apply State.releaseStage_keeps)

theorem execCommitApplied_keeps (s : State) : Keeps.Out 0x1E06148 s (execCommitApplied s) := by
  unfold execCommitApplied
  have hF := Sub.refl 0x1E06148
  apply Keeps.done
  repeat' first
    | extract_lets | with_reducible assumption | with_reducible exact Keeps.refl _ | exact hF.within rfl
    | (with_reducible apply Keeps.trans; on_goal 2 => with_reducible first
          | apply State.commitStep_keeps | apply State.applyCommit_keeps)
    | (with_reducible apply Keeps.ite <;> intro _)
    | split

theorem State.quiesceDone_keeps (s : State) {F : Nat} (hF : Sub 0x1E04048 F) : Keeps F s (State.quiesceDone s) := by
  unfold State.quiesceDone
  repeat' first
    | extract_lets | with_reducible assumption | with_reducible exact Keeps.refl _ | exact hF.within rfl
    | (with_reducible apply Keeps.trans; on_goal 2 => with_reducible first | apply State.replyOk_keeps)
    | (with_reducible apply Keeps.foldl; intro _ _ _)
    | split
    | (with_reducible apply Keeps.fst; on_goal 2 => with_reducible assumption)
    | (with_reducible apply Keeps.snd; on_goal 2 => with_reducible assumption)
    | with_reducible apply Keeps.mk_mgc

theorem execQuiesce_keeps (h : Halyard) (s : State) : Keeps.Out 0x13E04048 s (execQuiesce h s) := by
  unfold execQuiesce
  have hF := Sub.refl 0x13E04048
  apply Keeps.done
  repeat' first
    | extract_lets | with_reducible assumption | with_reducible exact Keeps.refl _ | exact hF.within rfl
    | (with_reducible apply Keeps.trans; on_goal 2 => with_reducible first
          | apply State.fset_keeps | apply State.replySt_keeps | apply State.packet_keeps
          | apply State.quiesceDone_keeps)
    | split
    | (with_reducible apply Keeps.fst; on_goal 2 => with_reducible assumption)
    | (with_reducible apply Keeps.snd; on_goal 2 => with_reducible assumption)
    | with_reducible apply Keeps.mk_mgc
    | intro _

theorem execQuiesceDrained_keeps (s : State) : Keeps.Out 0x1E04048 s (execQuiesceDrained s) := by
  unfold execQuiesceDrained
  have hF := Sub.refl 0x1E04048
  apply Keeps.done
  repeat' first
    | extract_lets | with_reducible assumption | with_reducible exact Keeps.refl _ | exact hF.within rfl
    | (with_reducible apply Keeps.trans; on_goal 2 => with_reducible first | apply State.quiesceDone_keeps)
    | (with_reducible apply Keeps.ite <;> intro _)

theorem execQuiesceTimeout_keeps (s : State) : Keeps.Out 0x1E04048 s (execQuiesceTimeout s) := by
  unfold execQuiesceTimeout
  have hF := Sub.refl 0x1E04048
  apply Keeps.done
  repeat' first
    | extract_lets | with_reducible assumption | with_reducible exact Keeps.refl _ | exact hF.within rfl
    | (with_reducible apply Keeps.trans; on_goal 2 => with_reducible first | apply State.replySt_keeps)
    | (with_reducible apply Keeps.ite <;> intro _)
    | split
    | (with_reducible apply Keeps.fst; on_goal 2 => with_reducible assumption)
    | (with_reducible apply Keeps.snd; on_goal 2 => with_reducible assumption)
    | with_reducible apply Keeps.mk_mgc

theorem execUnquiesce_keeps (h : Halyard) (s : State) : Keeps.Out 0x13E04048 s (execUnquiesce h s) := by
  unfold execUnquiesce
  have hF := Sub.refl 0x13E04048
  apply Keeps.done
  repeat' first
    | extract_lets | with_reducible assumption | with_reducible exact Keeps.refl _ | exact hF.within rfl
    | (with_reducible apply Keeps.trans; on_goal 2 => with_reducible first
          | apply State.fset_keeps | apply State.replyOk_keeps | apply State.holdPacket_keeps
          | apply State.packet_keeps)
    | (with_reducible apply Keeps.ite <;> intro _)
    | split
    | (with_reducible apply Keeps.fst; on_goal 2 => with_reducible assumption)
    | (with_reducible apply Keeps.snd; on_goal 2 => with_reducible assumption)
    | with_reducible apply Keeps.mk_mgc
    | intro _

theorem execReadModel_keeps (h : Halyard) (s : State) : Keeps.Out 0x13E04048 s (execReadModel h s) := by
  unfold execReadModel
  have hF := Sub.refl 0x13E04048
  apply Keeps.done
  repeat' first
    | extract_lets | with_reducible assumption | with_reducible exact Keeps.refl _ | exact hF.within rfl
    | (with_reducible apply Keeps.trans; on_goal 2 => with_reducible first
          | apply State.replyOk_keeps | apply State.packet_keeps | apply State.modelRegs_keeps)
    | split
    | intro _

theorem execTableRead_keeps (h : Halyard) (s : State) : Keeps.Out 0x13E04048 s (execTableRead h s) := by
  unfold execTableRead
  have hF := Sub.refl 0x13E04048
  apply Keeps.done
  repeat' first
    | extract_lets | with_reducible assumption | with_reducible exact Keeps.refl _ | exact hF.within rfl
    | (with_reducible apply Keeps.trans; on_goal 2 => with_reducible first
          | apply State.replyOk_keeps | apply State.replyBad_keeps | apply State.packet_keeps)
    | split
    | intro _

/-! ### Machine/Halyard.lean -/

theorem execIdentify_keeps (h : Halyard) (s : State) : Keeps.Out 0x13E04048 s (execIdentify h s) := by
  unfold execIdentify
  have hF := Sub.refl 0x13E04048
  apply Keeps.done
  repeat' first
    | extract_lets | with_reducible assumption | with_reducible exact Keeps.refl _ | exact hF.within rfl
    | (with_reducible apply Keeps.trans; on_goal 2 => with_reducible first
          | apply State.replyOk_keeps | apply State.packet_keeps)
    | split
    | intro _

theorem execDevStatus_keeps (h : Halyard) (s : State) : Keeps.Out 0x13E04048 s (execDevStatus h s) := by
  unfold execDevStatus
  have hF := Sub.refl 0x13E04048
  apply Keeps.done
  repeat' first
    | extract_lets | with_reducible assumption | with_reducible exact Keeps.refl _ | exact hF.within rfl
    | (with_reducible apply Keeps.trans; on_goal 2 => with_reducible first
          | apply State.replyOk_keeps | apply State.packet_keeps)
    | split
    | intro _

theorem execPendingStatus_keeps (h : Halyard) (s : State) : Keeps.Out 0x13E04048 s (execPendingStatus h s) := by
  unfold execPendingStatus
  have hF := Sub.refl 0x13E04048
  apply Keeps.done
  repeat' first
    | extract_lets | with_reducible assumption | with_reducible exact Keeps.refl _ | exact hF.within rfl
    | (with_reducible apply Keeps.trans; on_goal 2 => with_reducible first
          | apply State.replyOk_keeps | apply State.replyBad_keeps | apply State.packet_keeps)
    | split
    | (with_reducible apply Keeps.fst; on_goal 2 => with_reducible assumption)
    | (with_reducible apply Keeps.snd; on_goal 2 => with_reducible assumption)
    | with_reducible apply Keeps.mk_mgc
    | intro _

theorem execEvtRead_keeps (h : Halyard) (s : State) : Keeps.Out 0x13E04048 s (execEvtRead h s) := by
  unfold execEvtRead
  have hF := Sub.refl 0x13E04048
  apply Keeps.done
  repeat' first
    | extract_lets | with_reducible assumption | with_reducible exact Keeps.refl _ | exact hF.within rfl
    | (with_reducible apply Keeps.trans; on_goal 2 => with_reducible first
          | apply State.respond_keeps | apply State.packet_keeps)
    | split
    | (with_reducible apply Keeps.fst; on_goal 2 => with_reducible assumption)
    | (with_reducible apply Keeps.snd; on_goal 2 => with_reducible assumption)
    | with_reducible apply Keeps.mk_mgc
    | intro _

end Sys2Proof.Machine
end

