-- ==== Sys2Proof/Laws/FrameBoot.lean ====
section
/-! SUPPORT. What each operation keeps: boot, the Furl exit, requests and time. -/

namespace Sys2Proof.Machine

/-! ### Machine/Boot.lean -/

theorem State.keepXb_keeps (s t : State) {F : Nat} (hF : Sub 0x100008 F) : Keeps F t (State.keepXb s t) := by
  unfold State.keepXb
  repeat' first
    | extract_lets | with_reducible assumption | with_reducible exact Keeps.refl _ | exact hF.within rfl
    | (with_reducible apply Keeps.trans; on_goal 2 => with_reducible first
          | apply State.fset_keeps | apply State.setFlag_keeps | apply State.setValid_keeps)
    | (with_reducible apply Keeps.ite <;> intro _)
    | split
    | (with_reducible apply Keeps.fst; on_goal 2 => with_reducible assumption)
    | (with_reducible apply Keeps.snd; on_goal 2 => with_reducible assumption)
    | with_reducible apply Keeps.mk_clk

theorem State.scanStore_keeps (s : State) {F : Nat} (hF : Sub 0x8 F) : Keeps F s (State.scanStore s) := by
  unfold State.scanStore
  repeat' first
    | extract_lets | with_reducible assumption | with_reducible exact Keeps.refl _ | exact hF.within rfl
    | (with_reducible apply Keeps.trans; on_goal 2 => with_reducible first
          | apply State.fset_keeps | apply State.setFlag_keeps)
    | split
    | (with_reducible apply Keeps.fst; on_goal 2 => with_reducible assumption)
    | (with_reducible apply Keeps.snd; on_goal 2 => with_reducible assumption)
    | dsimp +zetaDelta only

theorem State.coldReset_keeps (s : State) {F : Nat} (hF : Sub 0x3FFFFFFE F) : Keeps F s (State.coldReset s) := by
  unfold State.coldReset
  refine (State.cutPulse_keeps s (hF.within rfl)).trans ?_
  extract_lets s0 bbx otp t
  have h : Keeps F s0 t := ⟨fun _ => (by decide : Memory.wf [] = true), fun _ => (by decide : Regs.wf [] = true), fun
      _ => rfl, rfl, fun p k => by
    cases p <;> first | rfl | exact ⟨rfl, rfl⟩ | exact absurd (hF.bit k) (by decide)⟩
  exact h.trans ((State.keepXb_keeps s0 t (hF.within rfl)).trans (State.scanStore_keeps _ (hF.within rfl)))

theorem State.warmRef_keeps (s : State) (t : State) (k : Nat) {F : Nat} (hF : Sub 0x8 F) : Keeps F t (State.warmRef s
    t k) := by
  unfold State.warmRef
  repeat' first
    | extract_lets | with_reducible assumption | with_reducible exact Keeps.refl _ | exact hF.within rfl
    | (with_reducible apply Keeps.trans; on_goal 2 => with_reducible first | apply State.fset_keeps)
    | (with_reducible apply Keeps.ite <;> intro _)

theorem State.warmRegs_keeps (s : State) (t : State) {F : Nat} (hF : Sub 0x8 F) : Keeps F t (State.warmRegs s t) := by
  unfold State.warmRegs
  repeat' first
    | extract_lets | with_reducible assumption | with_reducible exact Keeps.refl _ | exact hF.within rfl
    | (with_reducible apply Keeps.trans; on_goal 2 => with_reducible first
          | apply State.setReg_keeps | apply State.warmRef_keeps)
    | (with_reducible apply Keeps.foldl; intro _ _ _)

theorem State.warmIndex_keeps (s : State) (t : State) (k : Nat) {F : Nat} (hF : Sub 0x8 F) : Keeps F t
    (State.warmIndex s t k) := by
  unfold State.warmIndex
  repeat' first
    | extract_lets | with_reducible assumption | with_reducible exact Keeps.refl _ | exact hF.within rfl
    | (with_reducible apply Keeps.trans; on_goal 2 => with_reducible first | apply State.setFlag_keeps)
    | (with_reducible apply Keeps.ite <;> intro _)

theorem State.warmSpare_keeps (s : State) (t : State) (d : Nat) {F : Nat} (hF : Sub 0x8 F) : Keeps F t
    (State.warmSpare s t d) := by
  unfold State.warmSpare
  repeat' first
    | extract_lets | with_reducible assumption | with_reducible exact Keeps.refl _ | exact hF.within rfl
    | (with_reducible apply Keeps.trans; on_goal 2 => with_reducible first | apply State.fset_keeps)
    | (with_reducible apply Keeps.ite <;> intro _)

theorem State.warmTrip_keeps (s : State) (t : State) {F : Nat} (hF : Sub 0x80008 F) : Keeps F t (State.warmTrip s t)
    := by
  unfold State.warmTrip
  repeat' first
    | extract_lets | with_reducible assumption | with_reducible exact Keeps.refl _ | exact hF.within rfl
    | (with_reducible apply Keeps.trans; on_goal 2 => with_reducible first | apply State.setFlag_keeps)
    | (with_reducible apply Keeps.ite <;> intro _)
    | split
    | (with_reducible apply Keeps.fst; on_goal 2 => with_reducible assumption)
    | (with_reducible apply Keeps.snd; on_goal 2 => with_reducible assumption)
    | with_reducible apply Keeps.mk_thm

theorem State.warmReset_keeps (s : State) {F : Nat} (hF : Sub 0x3BDDEFF8 F) : Keeps F s (State.warmReset s) := by
  unfold State.warmReset
  extract_lets a bbx otp mgc b flt pw ecc stk engs t u v w x y z
  have he : SMap.rising engs = true :=
    List.foldlRecOn s.engs _ (motive := fun m => SMap.rising m = true) rfl (fun _ h _ _ => SMap.rising_set _ _ _ h)
  have h : Keeps F s t := ⟨fun _ => (by decide : Memory.wf [] = true), fun _ => (by decide : Regs.wf [] = true), fun _
      => (State.tables_eq _).mpr ⟨rfl, rfl, rfl, he⟩, rfl, fun p k => by
    cases p <;> first | rfl | exact ⟨rfl, rfl⟩ | exact absurd (hF.bit k) (by decide)⟩
  have hu : Keeps F t u := State.warmRegs_keeps s t (hF.within rfl)
  have hv : Keeps F t v := Keeps.foldl _ _ (fun _ k h => h.trans (State.warmIndex_keeps s _ k (hF.within rfl))) hu
  have hw : Keeps F t w :=
    (Keeps.foldl _ _ (fun _ k h => h.trans (State.warmSpare_keeps s _ k (hF.within rfl))) hv).trans
        (State.keepXb_keeps s _ (hF.within rfl))
  have hx : Keeps F t x := (hw.trans (State.warmTrip_keeps s w (hF.within rfl))).trans (State.setReg_keeps _ _ _
      (hF.within rfl))
  have hy : Keeps F t y := ((hx.trans (State.setReg_keeps _ _ _ (hF.within rfl))).trans (State.fset_keeps _ _ _
      (hF.within rfl))).trans (State.setReg_keeps _ _ _ (hF.within rfl))
  have hz : Keeps F t z := (hy.trans (State.setReg_keeps _ _ _ (hF.within rfl))).trans (State.fset_keeps _ _ _
      (hF.within rfl))
  exact h.trans (hz.trans (((State.bumpSat_keeps _ _ _ (hF.within rfl)).trans (State.setFlag_keeps _ _ _ (hF.within
      rfl))).trans (State.ringRegs_keeps _ (hF.within rfl))))

theorem State.bootRecord_keeps (s : State) {F : Nat} (hF : Sub 0x1800008 F) : Keeps F s (State.bootRecord s) := by
  unfold State.bootRecord
  repeat' first
    | extract_lets | with_reducible assumption | with_reducible exact Keeps.refl _ | exact hF.within rfl
    | (with_reducible apply Keeps.trans; on_goal 2 => with_reducible first | apply State.record_keeps)

theorem State.resetHold_keeps (s : State) (reason : Nat) {F : Nat} (hF : Sub 0x9E147FC F) : Keeps F s (State.resetHold
    s reason) := by
  unfold State.resetHold
  repeat' first
    | extract_lets | with_reducible assumption | with_reducible exact Keeps.refl _ | exact hF.within rfl
    | (with_reducible apply Keeps.trans; on_goal 2 => with_reducible first
          | apply State.fset_keeps | apply State.recordState_keeps | apply State.disableAll_keeps
          | apply State.discardRequests_keeps | apply State.discardReceived_keeps | apply State.endPackets_keeps)

theorem State.holdBoot_keeps (s : State) (reason : Nat) {F : Nat} (hF : Sub 0x9E147FC F) : Keeps F s (State.holdBoot s
    reason) := by
  unfold State.holdBoot
  repeat' first
    | extract_lets | with_reducible assumption | with_reducible exact Keeps.refl _ | exact hF.within rfl
    | (with_reducible apply Keeps.trans; on_goal 2 => with_reducible first
          | apply State.bootRecord_keeps | apply State.resetHold_keeps)

theorem State.safeBoot_keeps (s : State) (cause : Nat) {F : Nat} (hF : Sub 0x9E147FC F) : Keeps F s (State.safeBoot s
    cause) := by
  unfold State.safeBoot
  repeat' first
    | extract_lets | with_reducible assumption | with_reducible exact Keeps.refl _ | exact hF.within rfl
    | (with_reducible apply Keeps.trans; on_goal 2 => with_reducible first
          | apply State.fset_keeps | apply State.setFlag_keeps | apply State.safeState_keeps
          | apply State.bootRecord_keeps)

theorem State.startClocks_keeps (s : State) (o : BootObs) {F : Nat} (hF : Sub 0x1DFDE7FC F) : Keeps F s
    (State.startClocks s o) := by
  unfold State.startClocks
  repeat' first
    | extract_lets | with_reducible assumption | with_reducible exact Keeps.refl _ | exact hF.within rfl
    | (with_reducible apply Keeps.trans; on_goal 2 => with_reducible first
          | apply State.fset_keeps | apply State.setFlag_keeps | apply State.firstRound_keeps
          | apply State.showClk_keeps | apply State.setValid_keeps | apply State.countEnd_keeps)
    | (with_reducible apply Keeps.foldl; intro _ _ _)
    | (with_reducible apply Keeps.ite <;> intro _)
    | split
    | (with_reducible apply Keeps.fst; on_goal 2 => with_reducible assumption)
    | (with_reducible apply Keeps.snd; on_goal 2 => with_reducible assumption)
    | dsimp +zetaDelta only

theorem State.showPart_keeps (s : State) (found : List Nat) {F : Nat} (hF : Sub 0x108 F) : Keeps F s (State.showPart s
    found) := by
  unfold State.showPart
  repeat' first
    | extract_lets | with_reducible assumption | with_reducible exact Keeps.refl _ | exact hF.within rfl
    | (with_reducible apply Keeps.trans; on_goal 2 => with_reducible first
          | apply State.fset_keeps | apply State.setFlag_keeps | apply State.modelRegs_keeps
          | apply State.setC60_keeps | apply State.setC62_keeps | apply State.applyBudget_keeps)
    | (with_reducible apply Keeps.ite <;> intro _)

theorem State.loadTrim_keeps (s : State) (o : BootObs) {F : Nat} (hF : Sub 0x40000 F) : Keeps F s (State.loadTrim s o)
    := by
  unfold State.loadTrim
  repeat' first
    | extract_lets | with_reducible assumption | with_reducible exact Keeps.refl _ | exact hF.within rfl
    | split
    | (with_reducible apply Keeps.fst; on_goal 2 => with_reducible assumption)
    | (with_reducible apply Keeps.snd; on_goal 2 => with_reducible assumption)
    | with_reducible apply Keeps.mk_cal

theorem State.useSpare_keeps (s : State) (a bank row spare : Nat) {F : Nat} (hF : Sub 0x5000 F) : Keeps F s
    (State.useSpare s a bank row spare) := by
  unfold State.useSpare
  repeat' first
    | extract_lets | with_reducible assumption | with_reducible exact Keeps.refl _ | exact hF.within rfl
    | split
    | (with_reducible apply Keeps.fst; on_goal 2 => with_reducible assumption)
    | (with_reducible apply Keeps.snd; on_goal 2 => with_reducible assumption)
    | with_reducible apply Keeps.mk_remap_ecc

theorem State.hardRow_keeps (s : State) (m bank row : Nat) {F : Nat} (hF : Sub 0x5000 F) : Keeps F s (State.hardRow s
    m bank row) := by
  unfold State.hardRow
  repeat' first
    | extract_lets | with_reducible assumption | with_reducible exact Keeps.refl _ | exact hF.within rfl
    | (with_reducible apply Keeps.trans; on_goal 2 => with_reducible first | apply State.useSpare_keeps)
    | (with_reducible apply Keeps.ite <;> intro _)
    | split

theorem State.hardRemap_keeps (s : State) (m g pos : Nat) {F : Nat} (hF : Sub 0x8 F) : Keeps F s (State.hardRemap s m
    g pos) := by
  unfold State.hardRemap
  repeat' first
    | extract_lets | with_reducible assumption | with_reducible exact Keeps.refl _ | exact hF.within rfl
    | (with_reducible apply Keeps.trans; on_goal 2 => with_reducible first
          | apply State.fset_keeps | apply State.markVia_keeps | apply State.mastRemapped_keeps)
    | (with_reducible apply Keeps.ite <;> intro _)

theorem State.substitute_keeps (s : State) (k : Nat) {F : Nat} (hF : Sub 0x8 F) : Keeps F s (State.substitute s k) :=
    by
  unfold State.substitute
  repeat' first
    | extract_lets | with_reducible assumption | with_reducible exact Keeps.refl _ | exact hF.within rfl
    | (with_reducible apply Keeps.trans; on_goal 2 => with_reducible first
          | apply State.fset_keeps | apply State.setFlag_keeps)

theorem State.failSpare_keeps (s : State) (d : Nat) {F : Nat} (hF : Sub 0x8 F) : Keeps F s (State.failSpare s d) := by
  unfold State.failSpare
  repeat' first
    | extract_lets | with_reducible assumption | with_reducible exact Keeps.refl _ | exact hF.within rfl
    | (with_reducible apply Keeps.trans; on_goal 2 => with_reducible first
          | apply State.fset_keeps | apply State.setFlag_keeps)
    | (with_reducible apply Keeps.ite <;> intro _)

theorem State.hardFence_keeps (s : State) (k : Nat) {F : Nat} (hF : Sub 0x8 F) : Keeps F s (State.hardFence s k) := by
  unfold State.hardFence
  repeat' first
    | extract_lets | with_reducible assumption | with_reducible exact Keeps.refl _ | exact hF.within rfl
    | (with_reducible apply Keeps.trans; on_goal 2 => with_reducible first
          | apply State.fset_keeps | apply State.setFlag_keeps | apply State.setEngBit_keeps
          | apply State.failSpare_keeps)
    | (with_reducible apply Keeps.ite <;> intro _)

theorem State.hardEntry_keeps (s : State) (x : Nat) {F : Nat} (hF : Sub 0x5008 F) : Keeps F s (State.hardEntry s x) :=
    by
  unfold State.hardEntry
  repeat' first
    | extract_lets | with_reducible assumption | with_reducible exact Keeps.refl _ | exact hF.within rfl
    | (with_reducible apply Keeps.trans; on_goal 2 => with_reducible first
          | apply State.hardRow_keeps | apply State.hardRemap_keeps | apply State.substitute_keeps
          | apply State.hardFence_keeps)
    | (with_reducible apply Keeps.ite <;> intro _)

theorem State.hardEntries_keeps (s : State) {F : Nat} (hF : Sub 0x5008 F) : Keeps F s (State.hardEntries s) := by
  unfold State.hardEntries
  repeat' first
    | extract_lets | with_reducible assumption | with_reducible exact Keeps.refl _ | exact hF.within rfl
    | (with_reducible apply Keeps.trans; on_goal 2 => with_reducible first | apply State.hardEntry_keeps)
    | (with_reducible apply Keeps.foldl; intro _ _ _)

theorem State.trainAll_keeps (s : State) (o : BootObs) {F : Nat} (hF : Sub 0x1844008 F) : Keeps F s (State.trainAll s
    o) := by
  unfold State.trainAll
  repeat' first
    | extract_lets | with_reducible assumption | with_reducible exact Keeps.refl _ | exact hF.within rfl
    | (with_reducible apply Keeps.trans; on_goal 2 => with_reducible first | apply State.trainMast_keeps)
    | (with_reducible apply Keeps.foldl; intro _ _ _)
    | (with_reducible apply Keeps.ite <;> intro _)

theorem State.trainRelays_keeps (s : State) (fails : Nat) {F : Nat} (hF : Sub 0x8 F) : Keeps F s (State.trainRelays s
    fails) := by
  unfold State.trainRelays
  repeat' first
    | extract_lets | with_reducible assumption | with_reducible exact Keeps.refl _ | exact hF.within rfl
    | (with_reducible apply Keeps.trans; on_goal 2 => with_reducible first
          | apply State.fset_keeps | apply State.setFlag_keeps)
    | (with_reducible apply Keeps.ite <;> intro _)

theorem State.spareRows_keeps (s : State) (m : Nat) (fails : List (Nat × Nat)) {F : Nat} (hF : Sub 0x5008 F) : Keeps F
    s (State.spareRows s m fails) := by
  unfold State.spareRows
  repeat' first
    | extract_lets | with_reducible assumption | with_reducible exact Keeps.refl _ | exact hF.within rfl
    | (with_reducible apply Keeps.trans; on_goal 2 => with_reducible first
          | apply State.bumpSat_keeps | apply State.hardenRow_keeps | apply State.useSpare_keeps)
    | (with_reducible apply Keeps.foldl; intro _ _ _)
    | (with_reducible apply Keeps.ite <;> intro _)
    | split
    | (with_reducible apply Keeps.fst; on_goal 2 => with_reducible assumption)
    | (with_reducible apply Keeps.snd; on_goal 2 => with_reducible assumption)
    | with_reducible apply Keeps.mk_ecc

theorem State.noteBist_keeps (s : State) (m action : Nat) (fails : List (Nat × Nat)) {F : Nat} (hF : Sub 0x1808008 F)
    : Keeps F s (State.noteBist s m action fails) := by
  unfold State.noteBist
  repeat' first
    | extract_lets | with_reducible assumption | with_reducible exact Keeps.refl _ | exact hF.within rfl
    | (with_reducible apply Keeps.trans; on_goal 2 => with_reducible first
          | apply State.fset_keeps | apply State.noteTest_keeps)
    | (with_reducible apply Keeps.ite <;> intro _)

theorem State.bootFence_keeps (s : State) (k e cause n : Nat) {F : Nat} (hF : Sub 0x1E846DC F) : Keeps F s
    (State.bootFence s k e cause n).1 := by
  unfold State.bootFence
  repeat' first
    | extract_lets | with_reducible assumption | with_reducible exact Keeps.refl _ | exact hF.within rfl
    | (with_reducible apply Keeps.trans; on_goal 2 => with_reducible first
          | apply State.fset_keeps | apply State.setFlag_keeps | apply State.bumpSat_keeps
          | apply State.permFence_keeps)
    | split

theorem State.keepDegraded_keeps (s : State) (m k : Nat) {F : Nat} (hF : Sub 0x1800008 F) : Keeps F s
    (State.keepDegraded s m k) := by
  unfold State.keepDegraded
  repeat' first
    | extract_lets | with_reducible assumption | with_reducible exact Keeps.refl _ | exact hF.within rfl
    | (with_reducible apply Keeps.trans; on_goal 2 => with_reducible first
          | apply State.fset_keeps | apply State.setFlag_keeps | apply State.int_keeps)

theorem State.bootCause_keeps (s : State) (m : Nat) {F : Nat} (hF : Sub 0x4 F) : Keeps F s (State.bootCause s m).2 :=
    by
  unfold State.bootCause
  repeat' first
    | extract_lets | with_reducible assumption | with_reducible exact Keeps.refl _ | exact hF.within rfl
    | (with_reducible apply Keeps.trans; on_goal 2 => with_reducible first | apply State.fresh_keeps)
    | split

theorem State.repairSpare_keeps (s : State) (d : Nat) (fails : List (Nat × Nat)) {F : Nat} (hF : Sub 0x1E8D6DC F) :
    Keeps F s (State.repairSpare s d fails).1 := by
  unfold State.repairSpare
  repeat' first
    | extract_lets | with_reducible assumption | with_reducible exact Keeps.refl _ | exact hF.within rfl
    | (with_reducible apply Keeps.trans; on_goal 2 => with_reducible first
          | apply State.failSpare_keeps | apply State.spareRows_keeps | apply State.noteBist_keeps
          | apply State.bootFence_keeps | apply State.keepDegraded_keeps | apply State.bootCause_keeps)
    | (with_reducible apply Keeps.ite <;> intro _)
    | split
    | (with_reducible apply Keeps.fst; on_goal 2 => with_reducible assumption)
    | (with_reducible apply Keeps.snd; on_goal 2 => with_reducible assumption)
    | dsimp +zetaDelta only

theorem State.repairPc_keeps (s : State) (m n : Nat) (fails : List (Nat × Nat)) {F : Nat} (hF : Sub 0x1E8D6DC F) :
    Keeps F s (State.repairPc s m n fails).1 := by
  unfold State.repairPc
  repeat' first
    | extract_lets | with_reducible assumption | with_reducible exact Keeps.refl _ | exact hF.within rfl
    | (with_reducible apply Keeps.trans; on_goal 2 => with_reducible first
          | apply State.fset_keeps | apply State.setFlag_keeps | apply State.bumpSat_keeps
          | apply State.hardenIndex_keeps | apply State.substitute_keeps | apply State.spareRows_keeps
          | apply State.noteBist_keeps | apply State.bootFence_keeps | apply State.keepDegraded_keeps
          | apply State.bootCause_keeps)
    | (with_reducible apply Keeps.ite <;> intro _)
    | split

theorem State.repairDie_keeps (found : Nat → List (Nat × Nat)) (s : State) (i k n : Nat) {F : Nat} (hF : Sub 0x1E8D6DC
    F) : Keeps F s (State.repairDie found s i k n).1 := by
  unfold State.repairDie
  repeat' first
    | extract_lets | with_reducible assumption | with_reducible exact Keeps.refl _ | exact hF.within rfl
    | (with_reducible apply Keeps.trans; on_goal 2 => with_reducible first
          | apply State.repairSpare_keeps | apply State.repairPc_keeps)
    | (with_reducible apply Keeps.foldl; intro _ _ _)
    | (with_reducible apply Keeps.foldlP; intro _ _ _)
    | (with_reducible apply Keeps.ite <;> intro _)
    | split
    | (with_reducible apply Keeps.fst; on_goal 2 => with_reducible assumption)
    | (with_reducible apply Keeps.snd; on_goal 2 => with_reducible assumption)

theorem State.repairRound_keeps (found : Nat → List (Nat × Nat)) (a : State × SMap Nat) (k : Nat) {F : Nat} (hF : Sub
    0x1E8D6DC F) : Keeps F a.1 (State.repairRound found a k).1 := by
  unfold State.repairRound
  repeat' first
    | extract_lets | with_reducible assumption | with_reducible exact Keeps.refl _ | exact hF.within rfl
    | (with_reducible apply Keeps.trans; on_goal 2 => with_reducible first | apply State.repairDie_keeps)
    | (with_reducible apply Keeps.foldl; intro _ _ _)
    | (with_reducible apply Keeps.foldlP; intro _ _ _)
    | (with_reducible apply Keeps.ite <;> intro _)
    | split
    | (with_reducible apply Keeps.fst; on_goal 2 => with_reducible assumption)
    | (with_reducible apply Keeps.snd; on_goal 2 => with_reducible assumption)

theorem State.repairAll_keeps (s : State) (words : List (Nat × List (Nat × Nat))) {F : Nat} (hF : Sub 0x1E8D6DC F) :
    Keeps F s (State.repairAll s words).1 := by
  unfold State.repairAll
  repeat' first
    | extract_lets | with_reducible assumption | with_reducible exact Keeps.refl _ | exact hF.within rfl
    | (with_reducible apply Keeps.trans; on_goal 2 => with_reducible first | apply State.repairRound_keeps)
    | (with_reducible apply Keeps.foldlP; intro _ _ _)

theorem State.logAll_keeps (s : State) {F : Nat} (hF : Sub 0x3800008 F) : Keeps F s (State.logAll s) := by
  unfold State.logAll
  repeat' first
    | extract_lets | with_reducible assumption | with_reducible exact Keeps.refl _ | exact hF.within rfl
    | (with_reducible apply Keeps.trans; on_goal 2 => with_reducible first | apply State.logOne_keeps)
    | (with_reducible apply Keeps.foldl; intro _ _ _)

theorem State.sramBist_keeps (s : State) (o : BootObs) {F : Nat} (hF : Sub 0x8008 F) : Keeps F s (State.sramBist s
    o).1 := by
  unfold State.sramBist
  repeat' first
    | extract_lets | with_reducible assumption | with_reducible exact Keeps.refl _ | exact hF.within rfl
    | (with_reducible apply Keeps.trans; on_goal 2 => with_reducible first
          | apply State.fset_keeps | apply State.setFlag_keeps)
    | (with_reducible apply Keeps.foldl; intro _ _ _)
    | (with_reducible apply Keeps.foldlP; intro _ _ _)
    | (with_reducible apply Keeps.ite <;> intro _)
    | split
    | (with_reducible apply Keeps.fst; on_goal 2 => with_reducible assumption)
    | (with_reducible apply Keeps.snd; on_goal 2 => with_reducible assumption)
    | with_reducible apply Keeps.mk_stk

theorem State.bootPhase_keeps (s : State) (step phase : Nat) {F : Nat} (hF : Sub 0x8 F) : Keeps F s (State.bootPhase s
    step phase) := by
  unfold State.bootPhase
  repeat' first
    | extract_lets | with_reducible assumption | with_reducible exact Keeps.refl _ | exact hF.within rfl
    | (with_reducible apply Keeps.trans; on_goal 2 => with_reducible first | apply State.fset_keeps)
    | (with_reducible apply Keeps.ite <;> intro _)
    | split
    | (with_reducible apply Keeps.fst; on_goal 2 => with_reducible assumption)
    | (with_reducible apply Keeps.snd; on_goal 2 => with_reducible assumption)

theorem State.powerUpTests_keeps (s : State) (o : BootObs) {F : Nat} (hF : Sub 0x3ECD6DC F) : Keeps F s
    (State.powerUpTests s o).1 := by
  unfold State.powerUpTests
  repeat' first
    | extract_lets | with_reducible assumption | with_reducible exact Keeps.refl _ | exact hF.within rfl
    | (with_reducible apply Keeps.trans; on_goal 2 => with_reducible first
          | apply State.fset_keeps | apply State.setFlag_keeps | apply State.hardEntries_keeps
          | apply State.trainAll_keeps | apply State.trainRelays_keeps | apply State.repairAll_keeps
          | apply State.logAll_keeps | apply State.sramBist_keeps | apply State.bootPhase_keeps)
    | (with_reducible apply Keeps.foldl; intro _ _ _)
    | (with_reducible apply Keeps.foldlP; intro _ _ _)
    | (with_reducible apply Keeps.ite <;> intro _)
    | split
    | (with_reducible apply Keeps.fst; on_goal 2 => with_reducible assumption)
    | (with_reducible apply Keeps.snd; on_goal 2 => with_reducible assumption)

theorem State.fillMemory_keeps (s : State) (fillMs : Nat) {F : Nat} (hF : Sub 0x218 F) : Keeps F s (State.fillMemory s
    fillMs) := by
  unfold State.fillMemory
  have h : Keeps F s { s with mem := [], slices := [] } := ⟨fun _ => (by decide : Memory.wf [] = true), id, fun k =>
      (State.tables_eq _).mpr ⟨State.tables_ports (s := s) k, State.tables_links (s := s) k, rfl, State.tables_engs (s
      := s) k⟩, rfl, fun p k => by
    cases p <;> first | rfl | exact ⟨rfl, rfl⟩ | exact absurd (hF.bit k) (by decide)⟩
  exact h.trans ((State.fset_keeps _ _ _ (hF.within rfl)).trans (State.fset_keeps _ _ _ (hF.within rfl)))

theorem State.loadPatches_keeps (s : State) {F : Nat} (hF : Sub 0x400008 F) : Keeps F s (State.loadPatches s) := by
  unfold State.loadPatches
  repeat' first
    | extract_lets | with_reducible assumption | with_reducible exact Keeps.refl _ | exact hF.within rfl
    | (with_reducible apply Keeps.trans; on_goal 2 => with_reducible first | apply State.fset_keeps)
    | with_reducible apply Keeps.mk_mgc

theorem State.releaseFirmware_keeps (s : State) (o : BootObs) {F : Nat} (hF : Sub 0x40016C F) : Keeps F s
    (State.releaseFirmware s o) := by
  unfold State.releaseFirmware
  repeat' first
    | extract_lets | with_reducible assumption | with_reducible exact Keeps.refl _ | exact hF.within rfl
    | (with_reducible apply Keeps.trans; on_goal 2 => with_reducible first
          | apply State.fset_keeps | apply State.enablePort_keeps | apply State.loadPatches_keeps)
    | (with_reducible apply Keeps.foldl; intro _ _ _)
    | (with_reducible apply Keeps.ite <;> intro _)
    | with_reducible apply Keeps.mk_mgc

theorem State.testAndRun_keeps (s : State) (o : BootObs) {F : Nat} (hF : Sub 0xBEDD7FC F) : Keeps F s
    (State.testAndRun s o) := by
  unfold State.testAndRun
  repeat' first
    | extract_lets | with_reducible assumption | with_reducible exact Keeps.refl _ | exact hF.within rfl
    | (with_reducible apply Keeps.trans; on_goal 2 => with_reducible first
          | apply State.fset_keeps | apply State.safeBoot_keeps | apply State.powerUpTests_keeps
          | apply State.fillMemory_keeps | apply State.releaseFirmware_keeps)
    | split
    | (with_reducible apply Keeps.fst; on_goal 2 => with_reducible assumption)

theorem State.boot_keeps (s : State) (cold : Bool) (o : BootObs) {F : Nat} (hF : Sub 0x1FFDF7FF F) : Keeps F s
    (State.boot s cold o) := by
  unfold State.boot
  repeat' first
    | extract_lets | with_reducible assumption | with_reducible exact Keeps.refl _ | exact hF.within rfl
    | (with_reducible apply Keeps.trans; on_goal 2 => with_reducible first
          | apply State.fset_keeps | apply State.setRetMask_keeps | apply State.senseFuses_keeps
          | apply State.limp_keeps | apply State.bootRecord_keeps | apply State.holdBoot_keeps
          | apply State.startClocks_keeps | apply State.showPart_keeps | apply State.loadTrim_keeps
          | apply State.testAndRun_keeps)
    | (with_reducible apply Keeps.ite <;> intro _)
    | split
    | (with_reducible apply Keeps.fst; on_goal 2 => with_reducible assumption)
    | (with_reducible apply Keeps.snd; on_goal 2 => with_reducible assumption)
    | with_reducible apply Keeps.mk_now_aon_pw

theorem State.bootCold_keeps (s : State) (o : BootObs) {F : Nat} (hF : Sub 0x3FFFFFFF F) : Keeps F s (State.bootCold s
    o) := by
  unfold State.bootCold
  repeat' first
    | extract_lets | with_reducible assumption | with_reducible exact Keeps.refl _ | exact hF.within rfl
    | (with_reducible apply Keeps.trans; on_goal 2 => with_reducible first
          | apply State.fset_keeps | apply State.coldReset_keeps | apply State.boot_keeps)

theorem execPorstN_keeps (lowNs : Nat) (obs : BootObs) (s : State) : Keeps.Out 0x3FFFFFFF s (execPorstN lowNs obs s)
    := by
  unfold execPorstN
  have hF := Sub.refl 0x3FFFFFFF
  apply Keeps.done
  repeat' first
    | extract_lets | with_reducible assumption | with_reducible exact Keeps.refl _ | exact hF.within rfl
    | (with_reducible apply Keeps.trans; on_goal 2 => with_reducible first | apply State.bootCold_keeps)
    | (with_reducible apply Keeps.ite <;> intro _)

theorem execBootStepTimeout_keeps (s : State) : Keeps.Out 0x9E147FC s (execBootStepTimeout s) := by
  unfold execBootStepTimeout
  have hF := Sub.refl 0x9E147FC
  apply Keeps.done
  repeat' first
    | extract_lets | with_reducible assumption | with_reducible exact Keeps.refl _ | exact hF.within rfl
    | (with_reducible apply Keeps.trans; on_goal 2 => with_reducible first | apply State.holdBoot_keeps)
    | (with_reducible apply Keeps.ite <;> intro _)

theorem State.becomeReady_keeps (s : State) {F : Nat} (hF : Sub 0x1840008 F) : Keeps F s (State.becomeReady s) := by
  unfold State.becomeReady
  repeat' first
    | extract_lets | with_reducible assumption | with_reducible exact Keeps.refl _ | exact hF.within rfl
    | (with_reducible apply Keeps.trans; on_goal 2 => with_reducible first
          | apply State.fset_keeps | apply State.setFlag_keeps | apply State.calAdd_keeps
          | apply State.bootRecord_keeps)
    | (with_reducible apply Keeps.foldl; intro _ _ _)

theorem execReady_keeps (s : State) : Keeps.Out 0x1840008 s (execReady s) := by
  unfold execReady
  have hF := Sub.refl 0x1840008
  apply Keeps.done
  repeat' first
    | extract_lets | with_reducible assumption | with_reducible exact Keeps.refl _ | exact hF.within rfl
    | (with_reducible apply Keeps.trans; on_goal 2 => with_reducible first | apply State.becomeReady_keeps)
    | (with_reducible apply Keeps.ite <;> intro _)

theorem execWarmReset_keeps (h : Halyard) (obs : BootObs) (s : State) : Keeps.Out 0x3FFDFFFF s (execWarmReset h obs s)
    := by
  unfold execWarmReset
  have hF := Sub.refl 0x3FFDFFFF
  apply Keeps.done
  repeat' first
    | extract_lets | with_reducible assumption | with_reducible exact Keeps.refl _ | exact hF.within rfl
    | (with_reducible apply Keeps.trans; on_goal 2 => with_reducible first
          | apply State.replyOk_keeps | apply State.replySt_keeps | apply State.replyBad_keeps
          | apply State.packet_keeps | apply State.fullCommit_keeps | apply State.warmReset_keeps
          | apply State.boot_keeps)
    | split
    | (with_reducible apply Keeps.fst; on_goal 2 => with_reducible assumption)
    | (with_reducible apply Keeps.snd; on_goal 2 => with_reducible assumption)
    | with_reducible apply Keeps.mk_now_aon
    | intro _

theorem State.railReset_keeps (s : State) (rail : Nat) {F : Nat} (hF : Sub 0x3FFFFFFE F) : Keeps F s (State.railReset
    s rail) := by
  unfold State.railReset
  repeat' first
    | extract_lets | with_reducible assumption | with_reducible exact Keeps.refl _ | exact hF.within rfl
    | (with_reducible apply Keeps.trans; on_goal 2 => with_reducible first
          | apply State.fset_keeps | apply State.setFlag_keeps | apply State.setValid_keeps
          | apply State.coldReset_keeps)
    | (with_reducible apply Keeps.ite <;> intro _)
    | split
    | (with_reducible apply Keeps.fst; on_goal 2 => with_reducible assumption)
    | (with_reducible apply Keeps.snd; on_goal 2 => with_reducible assumption)
    | with_reducible apply Keeps.mk_aon_clk
    | with_reducible apply Keeps.mk_inReset

theorem execRailDip_keeps (rail mv : Nat) (s : State) : Keeps.Out 0x3FFFFFFE s (execRailDip rail mv s) := by
  unfold execRailDip
  have hF := Sub.refl 0x3FFFFFFE
  apply Keeps.done
  repeat' first
    | extract_lets | with_reducible assumption | with_reducible exact Keeps.refl _ | exact hF.within rfl
    | (with_reducible apply Keeps.trans; on_goal 2 => with_reducible first | apply State.railReset_keeps)
    | (with_reducible apply Keeps.ite <;> intro _)
    | split

theorem execRailsInRange_keeps (obs : BootObs) (s : State) : Keeps.Out 0x3FFFFFFF s (execRailsInRange obs s) := by
  unfold execRailsInRange
  have hF := Sub.refl 0x3FFFFFFF
  apply Keeps.done
  repeat' first
    | extract_lets | with_reducible assumption | with_reducible exact Keeps.refl _ | exact hF.within rfl
    | (with_reducible apply Keeps.trans; on_goal 2 => with_reducible first | apply State.bootCold_keeps)
    | (with_reducible apply Keeps.ite <;> intro _)

/-! ### Machine/FurlExit.lean -/

theorem State.furlBase_keeps (s : State) (h : Shadow) {F : Nat} (hF : Sub 0x2BDDEFE8 F) : Keeps F s (State.furlBase s
    h) := by
  unfold State.furlBase
  extract_lets aon a bbx ecc stk cal kept b mgc c t
  have h : Keeps F s t := ⟨id, fun k => SMap.wf_filter _ k, fun k => (State.tables_eq _).mpr ⟨SMap.rising_map _
      (State.tables_ports (s := s) k), rfl, rfl, SMap.rising_map _ (State.tables_engs k)⟩, rfl, fun p k => by
    cases p <;> first | rfl | exact ⟨rfl, rfl⟩ | exact absurd (hF.bit k) (by decide)⟩
  exact h.trans ((State.keepXb_keeps s t (hF.within rfl)).trans (State.ringRegs_keeps _ (hF.within rfl)))

theorem State.restoreShadow_keeps (s : State) (h : Shadow) {F : Nat} (hF : Sub 0x8 F) : Keeps F s (State.restoreShadow
    s h) := by
  unfold State.restoreShadow
  repeat' first
    | extract_lets | with_reducible assumption | with_reducible exact Keeps.refl _ | exact hF.within rfl
    | (with_reducible apply Keeps.trans; on_goal 2 => with_reducible first | apply State.setReg_keeps)
    | (with_reducible apply Keeps.foldl; intro _ _ _)
    | (with_reducible apply Keeps.ite <;> intro _)

theorem State.furlClocks_keeps (s : State) (o : FurlObs) {F : Nat} (hF : Sub 0x1900108 F) : Keeps F s
    (State.furlClocks s o) := by
  unfold State.furlClocks
  repeat' first
    | extract_lets | with_reducible assumption | with_reducible exact Keeps.refl _ | exact hF.within rfl
    | (with_reducible apply Keeps.trans; on_goal 2 => with_reducible first
          | apply State.fset_keeps | apply State.setFlag_keeps | apply State.showClk_keeps
          | apply State.refMonitors_keeps | apply State.countEnd_keeps | apply State.askGate_keeps)
    | (with_reducible apply Keeps.foldl; intro _ _ _)
    | (with_reducible apply Keeps.ite <;> intro _)

theorem State.hardVias_keeps (s : State) {F : Nat} (hF : Sub 0x5008 F) : Keeps F s (State.hardVias s) := by
  unfold State.hardVias
  repeat' first
    | extract_lets | with_reducible assumption | with_reducible exact Keeps.refl _ | exact hF.within rfl
    | (with_reducible apply Keeps.trans; on_goal 2 => with_reducible first | apply State.hardEntry_keeps)
    | (with_reducible apply Keeps.foldl; intro _ _ _)
    | (with_reducible apply Keeps.ite <;> intro _)

theorem State.furlRelays_keeps (s : State) (o : FurlObs) {F : Nat} (hF : Sub 0x1E44508 F) : Keeps F s
    (State.furlRelays s o) := by
  unfold State.furlRelays
  repeat' first
    | extract_lets | with_reducible assumption | with_reducible exact Keeps.refl _ | exact hF.within rfl
    | (with_reducible apply Keeps.trans; on_goal 2 => with_reducible first
          | apply State.fset_keeps | apply State.setFlag_keeps | apply State.trainRelayMasts_keeps)
    | (with_reducible apply Keeps.ite <;> intro _)
    | split
    | (with_reducible apply Keeps.fst; on_goal 2 => with_reducible assumption)
    | (with_reducible apply Keeps.snd; on_goal 2 => with_reducible assumption)

theorem State.furlArrays_keeps (s : State) {F : Nat} (hF : Sub 0x408 F) : Keeps F s (State.furlArrays s) := by
  unfold State.furlArrays
  repeat' first
    | extract_lets | with_reducible assumption | with_reducible exact Keeps.refl _ | exact hF.within rfl
    | (with_reducible apply Keeps.trans; on_goal 2 => with_reducible first
          | apply State.setEng_keeps | apply State.setEngBit_keeps | apply State.auditSample_keeps)
    | (with_reducible apply Keeps.foldl; intro _ _ _)
    | (with_reducible apply Keeps.ite <;> intro _)

theorem State.sealHolds_keeps (s : State) (k : Nat) (errs : List (Nat × Nat)) {F : Nat} (hF : Sub 0x1E0401C F) : Keeps
    F s (State.sealHolds s k errs).1 := by
  unfold State.sealHolds
  repeat' first
    | extract_lets | with_reducible assumption | with_reducible exact Keeps.refl _ | exact hF.within rfl
    | (with_reducible apply Keeps.trans; on_goal 2 => with_reducible first
          | apply State.readWord_keeps | apply State.decode_keeps)

theorem State.checkIndex_keeps (o : FurlObs) (h : Shadow) (skip : Bool) (expected : Nat) (a : State × Nat × Nat) (k :
    Nat) {F : Nat} (hF : Sub 0x1E0401C F) : Keeps F a.1 (State.checkIndex o h skip expected a k).1 := by
  unfold State.checkIndex
  repeat' first
    | extract_lets | with_reducible assumption | with_reducible exact Keeps.refl _ | exact hF.within rfl
    | (with_reducible apply Keeps.trans; on_goal 2 => with_reducible first
          | apply State.markLost_keeps | apply State.sealHolds_keeps)
    | (with_reducible apply Keeps.ite <;> intro _)

theorem State.showAudit_keeps (s : State) (h : Shadow) (expected : Nat) (kept : List Nat) (d : Nat) {F : Nat} (hF :
    Sub 0x8 F) : Keeps F s (State.showAudit s h expected kept d) := by
  unfold State.showAudit
  repeat' first
    | extract_lets | with_reducible assumption | with_reducible exact Keeps.refl _ | exact hF.within rfl
    | (with_reducible apply Keeps.trans; on_goal 2 => with_reducible first | apply State.fset_keeps)
    | split
    | (with_reducible apply Keeps.fst; on_goal 2 => with_reducible assumption)
    | (with_reducible apply Keeps.snd; on_goal 2 => with_reducible assumption)
    | dsimp +zetaDelta only

theorem State.setRetLost_keeps (s : State) (mask : Nat) {F : Nat} (hF : Sub 0x8 F) : Keeps F s (State.setRetLost s
    mask) := by
  unfold State.setRetLost
  repeat' first
    | extract_lets | with_reducible assumption | with_reducible exact Keeps.refl _ | exact hF.within rfl
    | (with_reducible apply Keeps.trans; on_goal 2 => with_reducible first | apply State.setReg_keeps)
    | (with_reducible apply Keeps.foldl; intro _ _ _)

theorem State.retentionCheck_keeps (s : State) (o : FurlObs) (h : Shadow) (skip : Bool) {F : Nat} (hF : Sub 0x1E0401C
    F) : Keeps F s (State.retentionCheck s o h skip).1 := by
  unfold State.retentionCheck
  repeat' first
    | extract_lets | with_reducible assumption | with_reducible exact Keeps.refl _ | exact hF.within rfl
    | (with_reducible apply Keeps.trans; on_goal 2 => with_reducible first
          | apply State.setFlag_keeps | apply State.fresh_keeps | apply State.fwReport_keeps
          | apply State.checkIndex_keeps | apply State.showAudit_keeps | apply State.setRetLost_keeps)
    | (with_reducible apply Keeps.foldl; intro _ _ _)
    | (with_reducible apply Keeps.foldlP; intro _ _ _)
    | (with_reducible apply Keeps.ite <;> intro _)

theorem State.fillIndex_keeps (s : State) (k : Nat) {F : Nat} (hF : Sub 0x18 F) : Keeps F s (State.fillIndex s k) :=
    by
  unfold State.fillIndex
  repeat' first
    | extract_lets | with_reducible assumption | with_reducible exact Keeps.refl _ | exact hF.within rfl
    | (with_reducible apply Keeps.trans; on_goal 2 => with_reducible first | apply State.setFlag_keeps)
    | split
    | (with_reducible apply Keeps.fst; on_goal 2 => with_reducible assumption)
    | (with_reducible apply Keeps.snd; on_goal 2 => with_reducible assumption)
    | with_reducible apply Keeps.mk_fillOne

theorem State.wakeFill_keeps (s : State) {F : Nat} (hF : Sub 0x10000018 F) : Keeps F s (State.wakeFill s) := by
  unfold State.wakeFill
  repeat' first
    | extract_lets | with_reducible assumption | with_reducible exact Keeps.refl _ | exact hF.within rfl
    | (with_reducible apply Keeps.trans; on_goal 2 => with_reducible first | apply State.fillIndex_keeps)
    | (with_reducible apply Keeps.foldl; intro _ _ _)
    | split
    | (with_reducible apply Keeps.fst; on_goal 2 => with_reducible assumption)
    | (with_reducible apply Keeps.snd; on_goal 2 => with_reducible assumption)
    | with_reducible apply Keeps.mk_pw

theorem State.furlBudgets_keeps (s : State) {F : Nat} (hF : Sub 0x108 F) : Keeps F s (State.furlBudgets s) := by
  unfold State.furlBudgets
  repeat' first
    | extract_lets | with_reducible assumption | with_reducible exact Keeps.refl _ | exact hF.within rfl
    | (with_reducible apply Keeps.trans; on_goal 2 => with_reducible first
          | apply State.modelRegs_keeps | apply State.setEff_keeps | apply State.setC60_keeps)
    | (with_reducible apply Keeps.foldl; intro _ _ _)

theorem State.furlDone_keeps (s : State) (w : Waking) {F : Nat} (hF : Sub 0x11E046DC F) : Keeps F s (State.furlDone s
    w) := by
  unfold State.furlDone
  repeat' first
    | extract_lets | with_reducible assumption | with_reducible exact Keeps.refl _ | exact hF.within rfl
    | (with_reducible apply Keeps.trans; on_goal 2 => with_reducible first
          | apply State.fset_keeps | apply State.int_keeps | apply State.event_keeps | apply State.fill_keeps
          | apply State.enterPwr_keeps | apply State.requeueEvac_keeps)
    | (with_reducible apply Keeps.ite <;> intro _)
    | split
    | (with_reducible apply Keeps.fst; on_goal 2 => with_reducible assumption)
    | (with_reducible apply Keeps.snd; on_goal 2 => with_reducible assumption)
    | with_reducible apply Keeps.mk_pw

theorem State.wakeTick_keeps (s : State) {F : Nat} (hF : Sub 0x11E046DC F) : Keeps F s (State.wakeTick s) := by
  unfold State.wakeTick
  repeat' first
    | extract_lets | with_reducible assumption | with_reducible exact Keeps.refl _ | exact hF.within rfl
    | (with_reducible apply Keeps.trans; on_goal 2 => with_reducible first
          | apply State.showPwr_keeps | apply State.furlDone_keeps)
    | (with_reducible apply Keeps.ite <;> intro _)
    | split
    | (with_reducible apply Keeps.fst; on_goal 2 => with_reducible assumption)
    | (with_reducible apply Keeps.snd; on_goal 2 => with_reducible assumption)

theorem State.takeTrim_keeps (s : State) {F : Nat} (hF : Sub 0x40000 F) : Keeps F s (State.takeTrim s) := by
  unfold State.takeTrim
  repeat' first
    | extract_lets | with_reducible assumption | with_reducible exact Keeps.refl _ | exact hF.within rfl
    | split
    | (with_reducible apply Keeps.fst; on_goal 2 => with_reducible assumption)
    | (with_reducible apply Keeps.snd; on_goal 2 => with_reducible assumption)
    | with_reducible apply Keeps.mk_cal

theorem State.furlBring_keeps (s : State) (o : FurlObs) (found : List Nat) {F : Nat} (hF : Sub 0x11F4557C F) : Keeps F
    s (State.furlBring s o found) := by
  unfold State.furlBring
  repeat' first
    | extract_lets | with_reducible assumption | with_reducible exact Keeps.refl _ | exact hF.within rfl
    | (with_reducible apply Keeps.trans; on_goal 2 => with_reducible first
          | apply State.fset_keeps | apply State.enableAll_keeps | apply State.showPart_keeps
          | apply State.loadPatches_keeps | apply State.furlClocks_keeps | apply State.hardVias_keeps
          | apply State.furlRelays_keeps | apply State.furlArrays_keeps | apply State.wakeFill_keeps
          | apply State.furlBudgets_keeps | apply State.takeTrim_keeps)

theorem State.furlEnd_keeps (s : State) (o : FurlObs) (h : Shadow) (code : Nat) (skip : Bool) {F : Nat} (hF : Sub
    0x11E0401C F) : Keeps F s (State.furlEnd s o h code skip) := by
  unfold State.furlEnd
  repeat' first
    | extract_lets | with_reducible assumption | with_reducible exact Keeps.refl _ | exact hF.within rfl
    | (with_reducible apply Keeps.trans; on_goal 2 => with_reducible first
          | apply State.int_keeps | apply State.showPwr_keeps | apply State.retentionCheck_keeps)
    | (with_reducible apply Keeps.ite <;> intro _)
    | split
    | (with_reducible apply Keeps.fst; on_goal 2 => with_reducible assumption)
    | (with_reducible apply Keeps.snd; on_goal 2 => with_reducible assumption)
    | with_reducible apply Keeps.mk_pw

theorem State.furlOrHold_keeps (s : State) (o : FurlObs) (h : Shadow) (code : Nat) (skip : Bool) (found : List Nat) {F
    : Nat} (hF : Sub 0x19F557FC F) : Keeps F s (State.furlOrHold s o h code skip found) := by
  unfold State.furlOrHold
  repeat' first
    | extract_lets | with_reducible assumption | with_reducible exact Keeps.refl _ | exact hF.within rfl
    | (with_reducible apply Keeps.trans; on_goal 2 => with_reducible first
          | apply State.dropArrays_keeps | apply State.resetHold_keeps | apply State.furlBring_keeps
          | apply State.furlEnd_keeps)
    | split

theorem State.furlExit_keeps (s : State) (o : FurlObs) (h : Shadow) (code port : Nat) {F : Nat} (hF : Sub 0x3BFDFFFD
    F) : Keeps F s (State.furlExit s o h code port) := by
  unfold State.furlExit
  repeat' first
    | extract_lets | with_reducible assumption | with_reducible exact Keeps.refl _ | exact hF.within rfl
    | (with_reducible apply Keeps.trans; on_goal 2 => with_reducible first
          | apply State.fset_keeps | apply State.senseFuses_keeps | apply State.furlBase_keeps
          | apply State.restoreShadow_keeps | apply State.furlOrHold_keeps)

theorem execFurlExit_keeps (obs : FurlObs) (s : State) : Keeps.Out 0x3BFDFFFD s (execFurlExit obs s) := by
  unfold execFurlExit
  have hF := Sub.refl 0x3BFDFFFD
  apply Keeps.done
  repeat' first
    | extract_lets | with_reducible assumption | with_reducible exact Keeps.refl _ | exact hF.within rfl
    | (with_reducible apply Keeps.trans; on_goal 2 => with_reducible first | apply State.furlExit_keeps)
    | (with_reducible apply Keeps.ite <;> intro _)
    | split

theorem execWakeFillDone_keeps (s : State) : Keeps.Out 0x11E046DC s (execWakeFillDone s) := by
  unfold execWakeFillDone
  have hF := Sub.refl 0x11E046DC
  apply Keeps.done
  repeat' first
    | extract_lets | with_reducible assumption | with_reducible exact Keeps.refl _ | exact hF.within rfl
    | (with_reducible apply Keeps.trans; on_goal 2 => with_reducible first
          | apply State.int_keeps | apply State.fill_keeps)
    | (with_reducible apply Keeps.ite <;> intro _)
    | split
    | (with_reducible apply Keeps.fst; on_goal 2 => with_reducible assumption)
    | (with_reducible apply Keeps.snd; on_goal 2 => with_reducible assumption)
    | with_reducible apply Keeps.mk_pw

/-! ### Machine/Requests.lean -/

theorem State.mapFenced_keeps (s : State) (r : Req) {F : Nat} (hF : Sub 0x8 F) : Keeps F s (State.mapFenced s r).1 :=
    by
  unfold State.mapFenced
  repeat' first
    | extract_lets | with_reducible assumption | with_reducible exact Keeps.refl _ | exact hF.within rfl
    | (with_reducible apply Keeps.trans; on_goal 2 => with_reducible first
          | apply State.bumpSat_keeps | apply State.countFenced_keeps)
    | (with_reducible apply Keeps.foldl; intro _ _ _)
    | (with_reducible apply Keeps.ite <;> intro _)
    | split

theorem State.checkTxn_keeps (s : State) (t : Txn) {F : Nat} (hF : Sub 0x3E147CC F) : Keeps F s (State.checkTxn s t)
    := by
  unfold State.checkTxn
  repeat' first
    | extract_lets | with_reducible assumption | with_reducible exact Keeps.refl _ | exact hF.within rfl
    | (with_reducible apply Keeps.trans; on_goal 2 => with_reducible first
          | apply State.bumpSat_keeps | apply State.int_keeps | apply State.deny_keeps | apply State.endTxn_keeps
          | apply State.refuseTxn_keeps | apply State.tryAdmit_keeps | apply State.mapFenced_keeps)
    | (with_reducible apply Keeps.ite <;> intro _)
    | split

theorem State.entryOf_keeps (s : State) (r : Req) {F : Nat} (hF : Sub 0x1E040C8 F) : ∀ o, (State.entryOf s r) = some o
    → Keeps F s o.1 := by
  intro o e
  unfold State.entryOf at e
  repeat' (first | (injection e with e; subst e) | split at e | contradiction)
  repeat' first
    | extract_lets | with_reducible assumption | with_reducible exact Keeps.refl _ | exact hF.within rfl
    | (with_reducible apply Keeps.trans; on_goal 2 => with_reducible first | apply State.stage_keeps)
    | split
    | (with_reducible apply Keeps.fst; on_goal 2 => with_reducible assumption)
    | (with_reducible apply Keeps.snd; on_goal 2 => with_reducible assumption)
    | with_reducible apply Keeps.mk_nextRx_txns

theorem State.forget_keeps (s : State) (t : Txn) {F : Nat} (hF : Sub 0x80 F) : Keeps F s (State.forget s t) := by
  unfold State.forget
  repeat' first
    | extract_lets | with_reducible assumption | with_reducible exact Keeps.refl _ | exact hF.within rfl
    | split
    | (with_reducible apply Keeps.fst; on_goal 2 => with_reducible assumption)
    | (with_reducible apply Keeps.snd; on_goal 2 => with_reducible assumption)
    | with_reducible apply Keeps.mk_txns

theorem State.request_keeps (s : State) (r : Req) (f : State → Txn → State) {F : Nat} (hF : Sub 0x1E040C8 F) (hf : ∀
    (x0 : State) (x1 : Txn), Keeps F x0 (f x0 x1)) : Keeps F s (State.request s r f) := by
  unfold State.request
  repeat' first
    | extract_lets | with_reducible assumption | with_reducible exact Keeps.refl _ | exact hF.within rfl
    | (with_reducible apply Keeps.trans; on_goal 2 => with_reducible first
          | apply State.sidMismatch_keeps
          | exact State.entryOf_keeps _ _ (hF.within rfl) _ (by with_reducible assumption)
          | apply State.forget_keeps | apply hf)
    | (with_reducible apply Keeps.ite <;> intro _)
    | split

theorem State.memRequest_keeps (s : State) (op : Nat) (r : Req) {F : Nat} (hF : Sub 0x3E147CC F) : Keeps F s
    (State.memRequest s op r) := by
  unfold State.memRequest
  repeat' first
    | extract_lets | with_reducible assumption | with_reducible exact Keeps.refl _ | exact hF.within rfl
    | (with_reducible apply Keeps.trans; on_goal 2 => with_reducible first
          | apply State.checkTxn_keeps | apply State.request_keeps)
    | split
    | intro _

theorem execRd64_keeps (r : Req) (s : State) : Keeps.Out 0x3E147CC s (execRd64 r s) := by
  unfold execRd64
  have hF := Sub.refl 0x3E147CC
  apply Keeps.done
  repeat' first
    | extract_lets | with_reducible assumption | with_reducible exact Keeps.refl _ | exact hF.within rfl
    | (with_reducible apply Keeps.trans; on_goal 2 => with_reducible first | apply State.memRequest_keeps)

theorem execRd128_keeps (r : Req) (s : State) : Keeps.Out 0x3E147CC s (execRd128 r s) := by
  unfold execRd128
  have hF := Sub.refl 0x3E147CC
  apply Keeps.done
  repeat' first
    | extract_lets | with_reducible assumption | with_reducible exact Keeps.refl _ | exact hF.within rfl
    | (with_reducible apply Keeps.trans; on_goal 2 => with_reducible first | apply State.memRequest_keeps)

theorem execRd256_keeps (r : Req) (s : State) : Keeps.Out 0x3E147CC s (execRd256 r s) := by
  unfold execRd256
  have hF := Sub.refl 0x3E147CC
  apply Keeps.done
  repeat' first
    | extract_lets | with_reducible assumption | with_reducible exact Keeps.refl _ | exact hF.within rfl
    | (with_reducible apply Keeps.trans; on_goal 2 => with_reducible first | apply State.memRequest_keeps)

theorem execWr64_keeps (r : Req) (s : State) : Keeps.Out 0x3E147CC s (execWr64 r s) := by
  unfold execWr64
  have hF := Sub.refl 0x3E147CC
  apply Keeps.done
  repeat' first
    | extract_lets | with_reducible assumption | with_reducible exact Keeps.refl _ | exact hF.within rfl
    | (with_reducible apply Keeps.trans; on_goal 2 => with_reducible first | apply State.memRequest_keeps)

theorem execWrp_keeps (r : Req) (s : State) : Keeps.Out 0x3E147CC s (execWrp r s) := by
  unfold execWrp
  have hF := Sub.refl 0x3E147CC
  apply Keeps.done
  repeat' first
    | extract_lets | with_reducible assumption | with_reducible exact Keeps.refl _ | exact hF.within rfl
    | (with_reducible apply Keeps.trans; on_goal 2 => with_reducible first | apply State.memRequest_keeps)

theorem execAtom_keeps (r : Req) (s : State) : Keeps.Out 0x3E147CC s (execAtom r s) := by
  unfold execAtom
  have hF := Sub.refl 0x3E147CC
  apply Keeps.done
  repeat' first
    | extract_lets | with_reducible assumption | with_reducible exact Keeps.refl _ | exact hF.within rfl
    | (with_reducible apply Keeps.trans; on_goal 2 => with_reducible first | apply State.memRequest_keeps)

theorem execScan_keeps (r : Req) (s : State) : Keeps.Out 0x3E147CC s (execScan r s) := by
  unfold execScan
  have hF := Sub.refl 0x3E147CC
  apply Keeps.done
  repeat' first
    | extract_lets | with_reducible assumption | with_reducible exact Keeps.refl _ | exact hF.within rfl
    | (with_reducible apply Keeps.trans; on_goal 2 => with_reducible first | apply State.memRequest_keeps)

theorem execMgmt_keeps (r : Req) (s : State) : Keeps.Out 0x3E147CC s (execMgmt r s) := by
  unfold execMgmt
  have hF := Sub.refl 0x3E147CC
  apply Keeps.done
  repeat' first
    | extract_lets | with_reducible assumption | with_reducible exact Keeps.refl _ | exact hF.within rfl
    | (with_reducible apply Keeps.trans; on_goal 2 => with_reducible first
          | apply State.deliverMgmt_keeps | apply State.releaseUnit_keeps | apply State.checkTxn_keeps
          | apply State.request_keeps)
    | (with_reducible apply Keeps.ite <;> intro _)
    | split
    | intro _

theorem execFence_keeps (r : Req) (s : State) : Keeps.Out 0x1E040C8 s (execFence r s) := by
  unfold execFence
  have hF := Sub.refl 0x1E040C8
  apply Keeps.done
  repeat' first
    | extract_lets | with_reducible assumption | with_reducible exact Keeps.refl _ | exact hF.within rfl
    | (with_reducible apply Keeps.trans; on_goal 2 => with_reducible first
          | apply State.setTxn_keeps | apply State.request_keeps)
    | split
    | intro _

theorem execUnknownOpcode_keeps (r : Req) (s : State) : Keeps.Out 0x3E147CC s (execUnknownOpcode r s) := by
  unfold execUnknownOpcode
  have hF := Sub.refl 0x3E147CC
  apply Keeps.done
  repeat' first
    | extract_lets | with_reducible assumption | with_reducible exact Keeps.refl _ | exact hF.within rfl
    | (with_reducible apply Keeps.trans; on_goal 2 => with_reducible first
          | apply State.checkTxn_keeps | apply State.request_keeps)
    | (with_reducible apply Keeps.ite <;> intro _)
    | split
    | intro _

theorem execStackIdMismatch_keeps (r : Req) (s : State) : Keeps.Out 0x1E040C8 s (execStackIdMismatch r s) := by
  unfold execStackIdMismatch
  have hF := Sub.refl 0x1E040C8
  apply Keeps.done
  repeat' first
    | extract_lets | with_reducible assumption | with_reducible exact Keeps.refl _ | exact hF.within rfl
    | (with_reducible apply Keeps.trans; on_goal 2 => with_reducible first | apply State.request_keeps)
    | (with_reducible apply Keeps.ite <;> intro _)
    | split
    | intro _

/-! ### Machine/Tick.lean -/

theorem State.fwTick_keeps (s : State) {F : Nat} (hF : Sub 0x9E06048 F) : Keeps F s (State.fwTick s) := by
  unfold State.fwTick
  repeat' first
    | extract_lets | with_reducible assumption | with_reducible exact Keeps.refl _ | exact hF.within rfl
    | (with_reducible apply Keeps.trans; on_goal 2 => with_reducible first
          | apply State.hardenNext_keeps | apply State.restartEnds_keeps | apply State.commitStep_keeps)
    | (with_reducible apply Keeps.ite <;> intro _)

theorem State.portTick_keeps (s : State) {F : Nat} (hF : Sub 0x180416C F) : Keeps F s (State.portTick s) := by
  unfold State.portTick
  repeat' first
    | extract_lets | with_reducible assumption | with_reducible exact Keeps.refl _ | exact hF.within rfl
    | (with_reducible apply Keeps.trans; on_goal 2 => with_reducible first | apply State.linkTick_keeps)
    | (with_reducible apply Keeps.foldl; intro _ _ _)
    | (with_reducible apply Keeps.ite <;> intro _)

theorem State.dbgTick_keeps (s : State) {F : Nat} (hF : Sub 0x2000000 F) : Keeps F s (State.dbgTick s) := by
  unfold State.dbgTick
  repeat' first
    | extract_lets | with_reducible assumption | with_reducible exact Keeps.refl _ | exact hF.within rfl
    | (with_reducible apply Keeps.ite <;> intro _)
    | split
    | (with_reducible apply Keeps.fst; on_goal 2 => with_reducible assumption)
    | (with_reducible apply Keeps.snd; on_goal 2 => with_reducible assumption)
    | with_reducible apply Keeps.mk_trc

theorem State.tick_keeps (s : State) {F : Nat} (hF : Sub 0x1BFDF7FE F) : Keeps F s (State.tick s) := by
  unfold State.tick
  repeat' first
    | extract_lets | with_reducible assumption | with_reducible exact Keeps.refl _ | exact hF.within rfl
    | (with_reducible apply Keeps.trans; on_goal 2 => with_reducible first
          | apply State.idle_keeps | apply State.entryTick_keeps | apply State.twTick_keeps
          | apply State.engTick_keeps | apply State.wakeTick_keeps | apply State.fwTick_keeps
          | apply State.portTick_keeps | apply State.dbgTick_keeps)

end Sys2Proof.Machine
end

