-- ==== Sys2Proof/Laws/State.lean ====
section
/-! SUPPORT. What writing a register does to every field of the state, and what a register or a field reads as after a
write, a message or an interrupt flag. -/

namespace Sys2Proof.Machine

/-! ### The other fields of the state -/

@[simp] theorem State.setReg_part (s : State) (a : Nat) (v : Word) : (s.setReg a v).part = s.part := rfl
@[simp] theorem State.setReg_now (s : State) (a : Nat) (v : Word) : (s.setReg a v).now = s.now := rfl
@[simp] theorem State.setReg_aon (s : State) (a : Nat) (v : Word) : (s.setReg a v).aon = s.aon := rfl
@[simp] theorem State.setReg_free (s : State) (a : Nat) (v : Word) : (s.setReg a v).free = s.free := rfl
@[simp] theorem State.setReg_mem (s : State) (a : Nat) (v : Word) : (s.setReg a v).mem = s.mem := rfl
@[simp] theorem State.setReg_fillOne (s : State) (a : Nat) (v : Word) : (s.setReg a v).fillOne = s.fillOne := rfl
@[simp] theorem State.setReg_ports (s : State) (a : Nat) (v : Word) : (s.setReg a v).ports = s.ports := rfl
@[simp] theorem State.setReg_links (s : State) (a : Nat) (v : Word) : (s.setReg a v).links = s.links := rfl
@[simp] theorem State.setReg_nextRx (s : State) (a : Nat) (v : Word) : (s.setReg a v).nextRx = s.nextRx := rfl
@[simp] theorem State.setReg_txns (s : State) (a : Nat) (v : Word) : (s.setReg a v).txns = s.txns := rfl
@[simp] theorem State.setReg_sch (s : State) (a : Nat) (v : Word) : (s.setReg a v).sch = s.sch := rfl
@[simp] theorem State.setReg_slices (s : State) (a : Nat) (v : Word) : (s.setReg a v).slices = s.slices := rfl
@[simp] theorem State.setReg_engs (s : State) (a : Nat) (v : Word) : (s.setReg a v).engs = s.engs := rfl
@[simp] theorem State.setReg_refs (s : State) (a : Nat) (v : Word) : (s.setReg a v).refs = s.refs := rfl
@[simp] theorem State.setReg_remap (s : State) (a : Nat) (v : Word) : (s.setReg a v).remap = s.remap := rfl
@[simp] theorem State.setReg_flush (s : State) (a : Nat) (v : Word) : (s.setReg a v).flush = s.flush := rfl
@[simp] theorem State.setReg_ecc (s : State) (a : Nat) (v : Word) : (s.setReg a v).ecc = s.ecc := rfl
@[simp] theorem State.setReg_stk (s : State) (a : Nat) (v : Word) : (s.setReg a v).stk = s.stk := rfl
@[simp] theorem State.setReg_scn (s : State) (a : Nat) (v : Word) : (s.setReg a v).scn = s.scn := rfl
@[simp] theorem State.setReg_tap (s : State) (a : Nat) (v : Word) : (s.setReg a v).tap = s.tap := rfl
@[simp] theorem State.setReg_cal (s : State) (a : Nat) (v : Word) : (s.setReg a v).cal = s.cal := rfl
@[simp] theorem State.setReg_thm (s : State) (a : Nat) (v : Word) : (s.setReg a v).thm = s.thm := rfl
@[simp] theorem State.setReg_clk (s : State) (a : Nat) (v : Word) : (s.setReg a v).clk = s.clk := rfl
@[simp] theorem State.setReg_twb (s : State) (a : Nat) (v : Word) : (s.setReg a v).twb = s.twb := rfl
@[simp] theorem State.setReg_mgc (s : State) (a : Nat) (v : Word) : (s.setReg a v).mgc = s.mgc := rfl
@[simp] theorem State.setReg_flt (s : State) (a : Nat) (v : Word) : (s.setReg a v).flt = s.flt := rfl
@[simp] theorem State.setReg_bbx (s : State) (a : Nat) (v : Word) : (s.setReg a v).bbx = s.bbx := rfl
@[simp] theorem State.setReg_trc (s : State) (a : Nat) (v : Word) : (s.setReg a v).trc = s.trc := rfl
@[simp] theorem State.setReg_cns (s : State) (a : Nat) (v : Word) : (s.setReg a v).cns = s.cns := rfl
@[simp] theorem State.setReg_otp (s : State) (a : Nat) (v : Word) : (s.setReg a v).otp = s.otp := rfl
@[simp] theorem State.setReg_pw (s : State) (a : Nat) (v : Word) : (s.setReg a v).pw = s.pw := rfl
@[simp] theorem State.setReg_inReset (s : State) (a : Nat) (v : Word) : (s.setReg a v).inReset = s.inReset := rfl
@[simp] theorem State.setReg_pending (s : State) (a : Nat) (v : Word) : (s.setReg a v).pending = s.pending := rfl

@[simp] theorem State.fset_part (s : State) (f : Fld) (v : Nat) : (s.fset f v).part = s.part := rfl
@[simp] theorem State.fset_now (s : State) (f : Fld) (v : Nat) : (s.fset f v).now = s.now := rfl
@[simp] theorem State.fset_aon (s : State) (f : Fld) (v : Nat) : (s.fset f v).aon = s.aon := rfl
@[simp] theorem State.fset_free (s : State) (f : Fld) (v : Nat) : (s.fset f v).free = s.free := rfl
@[simp] theorem State.fset_mem (s : State) (f : Fld) (v : Nat) : (s.fset f v).mem = s.mem := rfl
@[simp] theorem State.fset_fillOne (s : State) (f : Fld) (v : Nat) : (s.fset f v).fillOne = s.fillOne := rfl
@[simp] theorem State.fset_ports (s : State) (f : Fld) (v : Nat) : (s.fset f v).ports = s.ports := rfl
@[simp] theorem State.fset_links (s : State) (f : Fld) (v : Nat) : (s.fset f v).links = s.links := rfl
@[simp] theorem State.fset_nextRx (s : State) (f : Fld) (v : Nat) : (s.fset f v).nextRx = s.nextRx := rfl
@[simp] theorem State.fset_txns (s : State) (f : Fld) (v : Nat) : (s.fset f v).txns = s.txns := rfl
@[simp] theorem State.fset_sch (s : State) (f : Fld) (v : Nat) : (s.fset f v).sch = s.sch := rfl
@[simp] theorem State.fset_slices (s : State) (f : Fld) (v : Nat) : (s.fset f v).slices = s.slices := rfl
@[simp] theorem State.fset_engs (s : State) (f : Fld) (v : Nat) : (s.fset f v).engs = s.engs := rfl
@[simp] theorem State.fset_refs (s : State) (f : Fld) (v : Nat) : (s.fset f v).refs = s.refs := rfl
@[simp] theorem State.fset_remap (s : State) (f : Fld) (v : Nat) : (s.fset f v).remap = s.remap := rfl
@[simp] theorem State.fset_flush (s : State) (f : Fld) (v : Nat) : (s.fset f v).flush = s.flush := rfl
@[simp] theorem State.fset_ecc (s : State) (f : Fld) (v : Nat) : (s.fset f v).ecc = s.ecc := rfl
@[simp] theorem State.fset_stk (s : State) (f : Fld) (v : Nat) : (s.fset f v).stk = s.stk := rfl
@[simp] theorem State.fset_scn (s : State) (f : Fld) (v : Nat) : (s.fset f v).scn = s.scn := rfl
@[simp] theorem State.fset_tap (s : State) (f : Fld) (v : Nat) : (s.fset f v).tap = s.tap := rfl
@[simp] theorem State.fset_cal (s : State) (f : Fld) (v : Nat) : (s.fset f v).cal = s.cal := rfl
@[simp] theorem State.fset_thm (s : State) (f : Fld) (v : Nat) : (s.fset f v).thm = s.thm := rfl
@[simp] theorem State.fset_clk (s : State) (f : Fld) (v : Nat) : (s.fset f v).clk = s.clk := rfl
@[simp] theorem State.fset_twb (s : State) (f : Fld) (v : Nat) : (s.fset f v).twb = s.twb := rfl
@[simp] theorem State.fset_mgc (s : State) (f : Fld) (v : Nat) : (s.fset f v).mgc = s.mgc := rfl
@[simp] theorem State.fset_flt (s : State) (f : Fld) (v : Nat) : (s.fset f v).flt = s.flt := rfl
@[simp] theorem State.fset_bbx (s : State) (f : Fld) (v : Nat) : (s.fset f v).bbx = s.bbx := rfl
@[simp] theorem State.fset_trc (s : State) (f : Fld) (v : Nat) : (s.fset f v).trc = s.trc := rfl
@[simp] theorem State.fset_cns (s : State) (f : Fld) (v : Nat) : (s.fset f v).cns = s.cns := rfl
@[simp] theorem State.fset_otp (s : State) (f : Fld) (v : Nat) : (s.fset f v).otp = s.otp := rfl
@[simp] theorem State.fset_pw (s : State) (f : Fld) (v : Nat) : (s.fset f v).pw = s.pw := rfl
@[simp] theorem State.fset_inReset (s : State) (f : Fld) (v : Nat) : (s.fset f v).inReset = s.inReset := rfl
@[simp] theorem State.fset_pending (s : State) (f : Fld) (v : Nat) : (s.fset f v).pending = s.pending := rfl

@[simp] theorem State.setFlag_part (s : State) (f : Fld) (b : Bool) : (s.setFlag f b).part = s.part := rfl
@[simp] theorem State.setFlag_now (s : State) (f : Fld) (b : Bool) : (s.setFlag f b).now = s.now := rfl
@[simp] theorem State.setFlag_aon (s : State) (f : Fld) (b : Bool) : (s.setFlag f b).aon = s.aon := rfl
@[simp] theorem State.setFlag_free (s : State) (f : Fld) (b : Bool) : (s.setFlag f b).free = s.free := rfl
@[simp] theorem State.setFlag_mem (s : State) (f : Fld) (b : Bool) : (s.setFlag f b).mem = s.mem := rfl
@[simp] theorem State.setFlag_fillOne (s : State) (f : Fld) (b : Bool) : (s.setFlag f b).fillOne = s.fillOne := rfl
@[simp] theorem State.setFlag_ports (s : State) (f : Fld) (b : Bool) : (s.setFlag f b).ports = s.ports := rfl
@[simp] theorem State.setFlag_links (s : State) (f : Fld) (b : Bool) : (s.setFlag f b).links = s.links := rfl
@[simp] theorem State.setFlag_nextRx (s : State) (f : Fld) (b : Bool) : (s.setFlag f b).nextRx = s.nextRx := rfl
@[simp] theorem State.setFlag_txns (s : State) (f : Fld) (b : Bool) : (s.setFlag f b).txns = s.txns := rfl
@[simp] theorem State.setFlag_sch (s : State) (f : Fld) (b : Bool) : (s.setFlag f b).sch = s.sch := rfl
@[simp] theorem State.setFlag_slices (s : State) (f : Fld) (b : Bool) : (s.setFlag f b).slices = s.slices := rfl
@[simp] theorem State.setFlag_engs (s : State) (f : Fld) (b : Bool) : (s.setFlag f b).engs = s.engs := rfl
@[simp] theorem State.setFlag_refs (s : State) (f : Fld) (b : Bool) : (s.setFlag f b).refs = s.refs := rfl
@[simp] theorem State.setFlag_remap (s : State) (f : Fld) (b : Bool) : (s.setFlag f b).remap = s.remap := rfl
@[simp] theorem State.setFlag_flush (s : State) (f : Fld) (b : Bool) : (s.setFlag f b).flush = s.flush := rfl
@[simp] theorem State.setFlag_ecc (s : State) (f : Fld) (b : Bool) : (s.setFlag f b).ecc = s.ecc := rfl
@[simp] theorem State.setFlag_stk (s : State) (f : Fld) (b : Bool) : (s.setFlag f b).stk = s.stk := rfl
@[simp] theorem State.setFlag_scn (s : State) (f : Fld) (b : Bool) : (s.setFlag f b).scn = s.scn := rfl
@[simp] theorem State.setFlag_tap (s : State) (f : Fld) (b : Bool) : (s.setFlag f b).tap = s.tap := rfl
@[simp] theorem State.setFlag_cal (s : State) (f : Fld) (b : Bool) : (s.setFlag f b).cal = s.cal := rfl
@[simp] theorem State.setFlag_thm (s : State) (f : Fld) (b : Bool) : (s.setFlag f b).thm = s.thm := rfl
@[simp] theorem State.setFlag_clk (s : State) (f : Fld) (b : Bool) : (s.setFlag f b).clk = s.clk := rfl
@[simp] theorem State.setFlag_twb (s : State) (f : Fld) (b : Bool) : (s.setFlag f b).twb = s.twb := rfl
@[simp] theorem State.setFlag_mgc (s : State) (f : Fld) (b : Bool) : (s.setFlag f b).mgc = s.mgc := rfl
@[simp] theorem State.setFlag_flt (s : State) (f : Fld) (b : Bool) : (s.setFlag f b).flt = s.flt := rfl
@[simp] theorem State.setFlag_bbx (s : State) (f : Fld) (b : Bool) : (s.setFlag f b).bbx = s.bbx := rfl
@[simp] theorem State.setFlag_trc (s : State) (f : Fld) (b : Bool) : (s.setFlag f b).trc = s.trc := rfl
@[simp] theorem State.setFlag_cns (s : State) (f : Fld) (b : Bool) : (s.setFlag f b).cns = s.cns := rfl
@[simp] theorem State.setFlag_otp (s : State) (f : Fld) (b : Bool) : (s.setFlag f b).otp = s.otp := rfl
@[simp] theorem State.setFlag_pw (s : State) (f : Fld) (b : Bool) : (s.setFlag f b).pw = s.pw := rfl
@[simp] theorem State.setFlag_inReset (s : State) (f : Fld) (b : Bool) : (s.setFlag f b).inReset = s.inReset := rfl
@[simp] theorem State.setFlag_pending (s : State) (f : Fld) (b : Bool) : (s.setFlag f b).pending = s.pending := rfl

@[simp] theorem State.bump_part (s : State) (f : Fld) (n : Nat) : (s.bump f n).part = s.part := rfl
@[simp] theorem State.bump_now (s : State) (f : Fld) (n : Nat) : (s.bump f n).now = s.now := rfl
@[simp] theorem State.bump_aon (s : State) (f : Fld) (n : Nat) : (s.bump f n).aon = s.aon := rfl
@[simp] theorem State.bump_free (s : State) (f : Fld) (n : Nat) : (s.bump f n).free = s.free := rfl
@[simp] theorem State.bump_mem (s : State) (f : Fld) (n : Nat) : (s.bump f n).mem = s.mem := rfl
@[simp] theorem State.bump_fillOne (s : State) (f : Fld) (n : Nat) : (s.bump f n).fillOne = s.fillOne := rfl
@[simp] theorem State.bump_ports (s : State) (f : Fld) (n : Nat) : (s.bump f n).ports = s.ports := rfl
@[simp] theorem State.bump_links (s : State) (f : Fld) (n : Nat) : (s.bump f n).links = s.links := rfl
@[simp] theorem State.bump_nextRx (s : State) (f : Fld) (n : Nat) : (s.bump f n).nextRx = s.nextRx := rfl
@[simp] theorem State.bump_txns (s : State) (f : Fld) (n : Nat) : (s.bump f n).txns = s.txns := rfl
@[simp] theorem State.bump_sch (s : State) (f : Fld) (n : Nat) : (s.bump f n).sch = s.sch := rfl
@[simp] theorem State.bump_slices (s : State) (f : Fld) (n : Nat) : (s.bump f n).slices = s.slices := rfl
@[simp] theorem State.bump_engs (s : State) (f : Fld) (n : Nat) : (s.bump f n).engs = s.engs := rfl
@[simp] theorem State.bump_refs (s : State) (f : Fld) (n : Nat) : (s.bump f n).refs = s.refs := rfl
@[simp] theorem State.bump_remap (s : State) (f : Fld) (n : Nat) : (s.bump f n).remap = s.remap := rfl
@[simp] theorem State.bump_flush (s : State) (f : Fld) (n : Nat) : (s.bump f n).flush = s.flush := rfl
@[simp] theorem State.bump_ecc (s : State) (f : Fld) (n : Nat) : (s.bump f n).ecc = s.ecc := rfl
@[simp] theorem State.bump_stk (s : State) (f : Fld) (n : Nat) : (s.bump f n).stk = s.stk := rfl
@[simp] theorem State.bump_scn (s : State) (f : Fld) (n : Nat) : (s.bump f n).scn = s.scn := rfl
@[simp] theorem State.bump_tap (s : State) (f : Fld) (n : Nat) : (s.bump f n).tap = s.tap := rfl
@[simp] theorem State.bump_cal (s : State) (f : Fld) (n : Nat) : (s.bump f n).cal = s.cal := rfl
@[simp] theorem State.bump_thm (s : State) (f : Fld) (n : Nat) : (s.bump f n).thm = s.thm := rfl
@[simp] theorem State.bump_clk (s : State) (f : Fld) (n : Nat) : (s.bump f n).clk = s.clk := rfl
@[simp] theorem State.bump_twb (s : State) (f : Fld) (n : Nat) : (s.bump f n).twb = s.twb := rfl
@[simp] theorem State.bump_mgc (s : State) (f : Fld) (n : Nat) : (s.bump f n).mgc = s.mgc := rfl
@[simp] theorem State.bump_flt (s : State) (f : Fld) (n : Nat) : (s.bump f n).flt = s.flt := rfl
@[simp] theorem State.bump_bbx (s : State) (f : Fld) (n : Nat) : (s.bump f n).bbx = s.bbx := rfl
@[simp] theorem State.bump_trc (s : State) (f : Fld) (n : Nat) : (s.bump f n).trc = s.trc := rfl
@[simp] theorem State.bump_cns (s : State) (f : Fld) (n : Nat) : (s.bump f n).cns = s.cns := rfl
@[simp] theorem State.bump_otp (s : State) (f : Fld) (n : Nat) : (s.bump f n).otp = s.otp := rfl
@[simp] theorem State.bump_pw (s : State) (f : Fld) (n : Nat) : (s.bump f n).pw = s.pw := rfl
@[simp] theorem State.bump_inReset (s : State) (f : Fld) (n : Nat) : (s.bump f n).inReset = s.inReset := rfl
@[simp] theorem State.bump_pending (s : State) (f : Fld) (n : Nat) : (s.bump f n).pending = s.pending := rfl

@[simp] theorem State.bumpSat_part (s : State) (f : Fld) (n : Nat) : (s.bumpSat f n).part = s.part := rfl
@[simp] theorem State.bumpSat_now (s : State) (f : Fld) (n : Nat) : (s.bumpSat f n).now = s.now := rfl
@[simp] theorem State.bumpSat_aon (s : State) (f : Fld) (n : Nat) : (s.bumpSat f n).aon = s.aon := rfl
@[simp] theorem State.bumpSat_free (s : State) (f : Fld) (n : Nat) : (s.bumpSat f n).free = s.free := rfl
@[simp] theorem State.bumpSat_mem (s : State) (f : Fld) (n : Nat) : (s.bumpSat f n).mem = s.mem := rfl
@[simp] theorem State.bumpSat_fillOne (s : State) (f : Fld) (n : Nat) : (s.bumpSat f n).fillOne = s.fillOne := rfl
@[simp] theorem State.bumpSat_ports (s : State) (f : Fld) (n : Nat) : (s.bumpSat f n).ports = s.ports := rfl
@[simp] theorem State.bumpSat_links (s : State) (f : Fld) (n : Nat) : (s.bumpSat f n).links = s.links := rfl
@[simp] theorem State.bumpSat_nextRx (s : State) (f : Fld) (n : Nat) : (s.bumpSat f n).nextRx = s.nextRx := rfl
@[simp] theorem State.bumpSat_txns (s : State) (f : Fld) (n : Nat) : (s.bumpSat f n).txns = s.txns := rfl
@[simp] theorem State.bumpSat_sch (s : State) (f : Fld) (n : Nat) : (s.bumpSat f n).sch = s.sch := rfl
@[simp] theorem State.bumpSat_slices (s : State) (f : Fld) (n : Nat) : (s.bumpSat f n).slices = s.slices := rfl
@[simp] theorem State.bumpSat_engs (s : State) (f : Fld) (n : Nat) : (s.bumpSat f n).engs = s.engs := rfl
@[simp] theorem State.bumpSat_refs (s : State) (f : Fld) (n : Nat) : (s.bumpSat f n).refs = s.refs := rfl
@[simp] theorem State.bumpSat_remap (s : State) (f : Fld) (n : Nat) : (s.bumpSat f n).remap = s.remap := rfl
@[simp] theorem State.bumpSat_flush (s : State) (f : Fld) (n : Nat) : (s.bumpSat f n).flush = s.flush := rfl
@[simp] theorem State.bumpSat_ecc (s : State) (f : Fld) (n : Nat) : (s.bumpSat f n).ecc = s.ecc := rfl
@[simp] theorem State.bumpSat_stk (s : State) (f : Fld) (n : Nat) : (s.bumpSat f n).stk = s.stk := rfl
@[simp] theorem State.bumpSat_scn (s : State) (f : Fld) (n : Nat) : (s.bumpSat f n).scn = s.scn := rfl
@[simp] theorem State.bumpSat_tap (s : State) (f : Fld) (n : Nat) : (s.bumpSat f n).tap = s.tap := rfl
@[simp] theorem State.bumpSat_cal (s : State) (f : Fld) (n : Nat) : (s.bumpSat f n).cal = s.cal := rfl
@[simp] theorem State.bumpSat_thm (s : State) (f : Fld) (n : Nat) : (s.bumpSat f n).thm = s.thm := rfl
@[simp] theorem State.bumpSat_clk (s : State) (f : Fld) (n : Nat) : (s.bumpSat f n).clk = s.clk := rfl
@[simp] theorem State.bumpSat_twb (s : State) (f : Fld) (n : Nat) : (s.bumpSat f n).twb = s.twb := rfl
@[simp] theorem State.bumpSat_mgc (s : State) (f : Fld) (n : Nat) : (s.bumpSat f n).mgc = s.mgc := rfl
@[simp] theorem State.bumpSat_flt (s : State) (f : Fld) (n : Nat) : (s.bumpSat f n).flt = s.flt := rfl
@[simp] theorem State.bumpSat_bbx (s : State) (f : Fld) (n : Nat) : (s.bumpSat f n).bbx = s.bbx := rfl
@[simp] theorem State.bumpSat_trc (s : State) (f : Fld) (n : Nat) : (s.bumpSat f n).trc = s.trc := rfl
@[simp] theorem State.bumpSat_cns (s : State) (f : Fld) (n : Nat) : (s.bumpSat f n).cns = s.cns := rfl
@[simp] theorem State.bumpSat_otp (s : State) (f : Fld) (n : Nat) : (s.bumpSat f n).otp = s.otp := rfl
@[simp] theorem State.bumpSat_pw (s : State) (f : Fld) (n : Nat) : (s.bumpSat f n).pw = s.pw := rfl
@[simp] theorem State.bumpSat_inReset (s : State) (f : Fld) (n : Nat) : (s.bumpSat f n).inReset = s.inReset := rfl
@[simp] theorem State.bumpSat_pending (s : State) (f : Fld) (n : Nat) : (s.bumpSat f n).pending = s.pending := rfl

@[simp] theorem State.raise_part (s : State) (f : Fld) (v : Nat) : (s.raise f v).part = s.part := rfl
@[simp] theorem State.raise_now (s : State) (f : Fld) (v : Nat) : (s.raise f v).now = s.now := rfl
@[simp] theorem State.raise_aon (s : State) (f : Fld) (v : Nat) : (s.raise f v).aon = s.aon := rfl
@[simp] theorem State.raise_free (s : State) (f : Fld) (v : Nat) : (s.raise f v).free = s.free := rfl
@[simp] theorem State.raise_mem (s : State) (f : Fld) (v : Nat) : (s.raise f v).mem = s.mem := rfl
@[simp] theorem State.raise_fillOne (s : State) (f : Fld) (v : Nat) : (s.raise f v).fillOne = s.fillOne := rfl
@[simp] theorem State.raise_ports (s : State) (f : Fld) (v : Nat) : (s.raise f v).ports = s.ports := rfl
@[simp] theorem State.raise_links (s : State) (f : Fld) (v : Nat) : (s.raise f v).links = s.links := rfl
@[simp] theorem State.raise_nextRx (s : State) (f : Fld) (v : Nat) : (s.raise f v).nextRx = s.nextRx := rfl
@[simp] theorem State.raise_txns (s : State) (f : Fld) (v : Nat) : (s.raise f v).txns = s.txns := rfl
@[simp] theorem State.raise_sch (s : State) (f : Fld) (v : Nat) : (s.raise f v).sch = s.sch := rfl
@[simp] theorem State.raise_slices (s : State) (f : Fld) (v : Nat) : (s.raise f v).slices = s.slices := rfl
@[simp] theorem State.raise_engs (s : State) (f : Fld) (v : Nat) : (s.raise f v).engs = s.engs := rfl
@[simp] theorem State.raise_refs (s : State) (f : Fld) (v : Nat) : (s.raise f v).refs = s.refs := rfl
@[simp] theorem State.raise_remap (s : State) (f : Fld) (v : Nat) : (s.raise f v).remap = s.remap := rfl
@[simp] theorem State.raise_flush (s : State) (f : Fld) (v : Nat) : (s.raise f v).flush = s.flush := rfl
@[simp] theorem State.raise_ecc (s : State) (f : Fld) (v : Nat) : (s.raise f v).ecc = s.ecc := rfl
@[simp] theorem State.raise_stk (s : State) (f : Fld) (v : Nat) : (s.raise f v).stk = s.stk := rfl
@[simp] theorem State.raise_scn (s : State) (f : Fld) (v : Nat) : (s.raise f v).scn = s.scn := rfl
@[simp] theorem State.raise_tap (s : State) (f : Fld) (v : Nat) : (s.raise f v).tap = s.tap := rfl
@[simp] theorem State.raise_cal (s : State) (f : Fld) (v : Nat) : (s.raise f v).cal = s.cal := rfl
@[simp] theorem State.raise_thm (s : State) (f : Fld) (v : Nat) : (s.raise f v).thm = s.thm := rfl
@[simp] theorem State.raise_clk (s : State) (f : Fld) (v : Nat) : (s.raise f v).clk = s.clk := rfl
@[simp] theorem State.raise_twb (s : State) (f : Fld) (v : Nat) : (s.raise f v).twb = s.twb := rfl
@[simp] theorem State.raise_mgc (s : State) (f : Fld) (v : Nat) : (s.raise f v).mgc = s.mgc := rfl
@[simp] theorem State.raise_flt (s : State) (f : Fld) (v : Nat) : (s.raise f v).flt = s.flt := rfl
@[simp] theorem State.raise_bbx (s : State) (f : Fld) (v : Nat) : (s.raise f v).bbx = s.bbx := rfl
@[simp] theorem State.raise_trc (s : State) (f : Fld) (v : Nat) : (s.raise f v).trc = s.trc := rfl
@[simp] theorem State.raise_cns (s : State) (f : Fld) (v : Nat) : (s.raise f v).cns = s.cns := rfl
@[simp] theorem State.raise_otp (s : State) (f : Fld) (v : Nat) : (s.raise f v).otp = s.otp := rfl
@[simp] theorem State.raise_pw (s : State) (f : Fld) (v : Nat) : (s.raise f v).pw = s.pw := rfl
@[simp] theorem State.raise_inReset (s : State) (f : Fld) (v : Nat) : (s.raise f v).inReset = s.inReset := rfl
@[simp] theorem State.raise_pending (s : State) (f : Fld) (v : Nat) : (s.raise f v).pending = s.pending := rfl

/-! ### Bit fields -/

/-- A number as the bits below a field, the field and the bits above it. -/
theorem bits_split (w lo wd : Nat) : w = w % 2 ^ lo + bits w lo wd * 2 ^ lo + w / 2 ^ (lo + wd) * 2 ^ (lo + wd) := by
  unfold bits
  rw [Nat.shiftRight_eq_div_pow, Nat.pow_add, ← Nat.div_div_eq_div_mul]
  have h1 := Nat.div_add_mod w (2 ^ lo)
  have h2 := Nat.div_add_mod (w / 2 ^ lo) (2 ^ wd)
  calc w = 2 ^ lo * (w / 2 ^ lo) + w % 2 ^ lo := h1.symm
    _ = 2 ^ lo * (2 ^ wd * (w / 2 ^ lo / 2 ^ wd) + w / 2 ^ lo % 2 ^ wd) + w % 2 ^ lo := by rw [h2]
    _ = _ := by ring

/-- What a write of a field leaves, part by part. -/
theorem Fld.put_eq (f : Fld) (w v : Nat) :
    Fld.put f w v = w % 2 ^ f.lo + v % 2 ^ f.width * 2 ^ f.lo + w / 2 ^ (f.lo + f.width) * 2 ^ (f.lo + f.width) := by
  have h := bits_split w f.lo f.width
  unfold Fld.put
  generalize w / 2 ^ (f.lo + f.width) * 2 ^ (f.lo + f.width) = c at *
  generalize bits w f.lo f.width * 2 ^ f.lo = b at *
  omega

/-- A field within three parts. -/
theorem bits_parts {lo wd a x c : Nat} (ha : a < 2 ^ lo) (hx : x < 2 ^ wd) :
    bits (a + x * 2 ^ lo + c * 2 ^ (lo + wd)) lo wd = x := by
  unfold bits
  rw [Nat.shiftRight_eq_div_pow, Nat.pow_add, show a + x * 2 ^ lo + c * (2 ^ lo * 2 ^ wd) = a + 2 ^ lo * (x + 2 ^ wd * c) by ring,
    Nat.add_mul_div_left _ _ (Nat.two_pow_pos lo), Nat.div_eq_of_lt ha, Nat.zero_add, Nat.add_mul_mod_self_left,
    Nat.mod_eq_of_lt hx]

theorem Fld.of_put (f : Fld) (w v : Nat) : Fld.of f (Fld.put f w v) = v % 2 ^ f.width := by
  rw [Fld.put_eq]
  exact bits_parts (Nat.mod_lt _ (Nat.two_pow_pos _)) (Nat.mod_lt _ (Nat.two_pow_pos _))

theorem testBit_bits (w lo wd i : Nat) : (bits w lo wd).testBit i = (decide (i < wd) && w.testBit (lo + i)) := by
  unfold bits
  rw [Nat.testBit_mod_two_pow, Nat.testBit_shiftRight]

/-- The bits of a number outside a written field stay. -/
theorem Fld.testBit_put (f : Fld) (w v i : Nat) (h : i < f.lo ∨ f.lo + f.width ≤ i) : (Fld.put f w v).testBit i = w.testBit i := by
  have hs := bits_split w f.lo f.width
  rw [Fld.put_eq]
  have key : ∀ x < 2 ^ f.width, (w % 2 ^ f.lo + x * 2 ^ f.lo + w / 2 ^ (f.lo + f.width) * 2 ^ (f.lo + f.width)).testBit i =
      if i < f.lo then (w % 2 ^ f.lo).testBit i else (w / 2 ^ (f.lo + f.width)).testBit (i - (f.lo + f.width)) := by
    intro x hx
    have e : w % 2 ^ f.lo + x * 2 ^ f.lo + w / 2 ^ (f.lo + f.width) * 2 ^ (f.lo + f.width)
        = 2 ^ (f.lo + f.width) * (w / 2 ^ (f.lo + f.width)) + (2 ^ f.lo * x + w % 2 ^ f.lo) := by ring
    have hb : 2 ^ f.lo * x + w % 2 ^ f.lo < 2 ^ (f.lo + f.width) := by
      rw [Nat.pow_add]
      have := Nat.mod_lt w (Nat.two_pow_pos f.lo)
      nlinarith [Nat.mul_le_mul_left (2 ^ f.lo) (Nat.succ_le_of_lt hx)]
    rw [e, Nat.testBit_two_pow_mul_add _ hb]
    rcases h with h | h
    · rw [if_pos (by omega), if_pos h, Nat.testBit_two_pow_mul_add _ (Nat.mod_lt _ (Nat.two_pow_pos _)), if_pos h]
    · rw [if_neg (by omega), if_neg (by omega)]
  rw [key _ (Nat.mod_lt _ (Nat.two_pow_pos _))]
  conv_rhs => rw [hs]
  rw [key _ (by unfold bits; exact Nat.mod_lt _ (Nat.two_pow_pos _))]

theorem bits_mod (n : Nat) {lo wd k : Nat} (h : lo + wd ≤ k) : bits (n % 2 ^ k) lo wd = bits n lo wd := by
  apply Nat.eq_of_testBit_eq
  intro i
  rw [testBit_bits, testBit_bits, Nat.testBit_mod_two_pow]
  by_cases hi : i < wd
  · simp [hi, show lo + i < k by omega]
  · simp [hi]

theorem Fld.of_put_other {f g : Fld} (w v : Nat) (h : g.lo + g.width ≤ f.lo ∨ f.lo + f.width ≤ g.lo) :
    Fld.of g (Fld.put f w v) = Fld.of g w := by
  unfold Fld.of
  apply Nat.eq_of_testBit_eq
  intro i
  rw [testBit_bits, testBit_bits]
  by_cases hi : i < g.width
  · rw [Fld.testBit_put f w v _ (by omega)]
  · simp [hi]

/-! ### Reading a register after a write -/

theorem State.reg_setReg_same {s : State} (h : Regs.wf s.regs = true) (a : Nat) (v : Word) : (s.setReg a v).reg a = v :=
  SMap.get_set_same _ _ _ (SMap.rising_of_wf h)

theorem State.reg_setReg_other (s : State) {a b : Nat} (v : Word) (h : b ≠ a) : (s.setReg a v).reg b = s.reg b :=
  SMap.get_set_other _ _ _ h _

/-- A field just written. -/
theorem State.fget_fset_same {s : State} (h : Regs.wf s.regs = true) (f : Fld) (v : Nat) (hf : f.lo + f.width ≤ 32) :
    (s.fset f v).fget f = v % 2 ^ f.width := by
  unfold State.fget State.fset
  rw [State.reg_setReg_same h, BitVec.toNat_ofNat]
  unfold Fld.of
  rw [bits_mod _ hf]
  exact Fld.of_put f _ v

/-- A field of another register. -/
theorem State.fget_fset_other (s : State) {f g : Fld} (v : Nat) (h : g.addr ≠ f.addr) : (s.fset f v).fget g = s.fget g := by
  unfold State.fget State.fset
  rw [State.reg_setReg_other _ _ h]

/-- Another field of the same register. -/
theorem State.fget_fset_apart {s : State} (h : Regs.wf s.regs = true) {f g : Fld} (v : Nat) (ha : g.addr = f.addr)
    (hg : g.lo + g.width ≤ 32) (hd : g.lo + g.width ≤ f.lo ∨ f.lo + f.width ≤ g.lo) : (s.fset f v).fget g = s.fget g := by
  unfold State.fget State.fset
  rw [ha, State.reg_setReg_same h, BitVec.toNat_ofNat]
  unfold Fld.of
  rw [bits_mod _ hg]
  exact Fld.of_put_other _ v hd

/-- A register that a field write does not touch. -/
theorem State.reg_fset_other (s : State) {f : Fld} {a : Nat} (v : Nat) (h : a ≠ f.addr) : (s.fset f v).reg a = s.reg a :=
  State.reg_setReg_other _ _ h

theorem State.flag_setFlag_same {s : State} (h : Regs.wf s.regs = true) {f : Fld} (b : Bool) (hw : f.width = 1) (hf : f.lo < 32) :
    (s.setFlag f b).flag f = b := by
  unfold State.flag State.setFlag
  rw [State.fget_fset_same h f _ (by omega), hw]
  cases b <;> rfl

theorem State.reg_bump_other (s : State) {f : Fld} {a : Nat} (n : Nat) (h : a ≠ f.addr) : (s.bump f n).reg a = s.reg a :=
  State.reg_setReg_other _ _ h
theorem State.reg_bumpSat_other (s : State) {f : Fld} {a : Nat} (n : Nat) (h : a ≠ f.addr) : (s.bumpSat f n).reg a = s.reg a :=
  State.reg_setReg_other _ _ h

theorem State.fget_bumpSat_same {s : State} (h : Regs.wf s.regs = true) (f : Fld) (n : Nat) (hf : f.lo + f.width ≤ 32) :
    (s.bumpSat f n).fget f = min (s.fget f + n) (2 ^ f.width - 1) := by
  unfold State.bumpSat
  rw [State.fget_fset_same h f _ hf, satAdd, Nat.mod_eq_of_lt]
  have := Nat.two_pow_pos f.width
  omega

theorem State.fget_bump_same {s : State} (h : Regs.wf s.regs = true) (f : Fld) (n : Nat) (hf : f.lo + f.width ≤ 32) :
    (s.bump f n).fget f = (s.fget f + n) % 2 ^ f.width := State.fget_fset_same h f _ hf

/-- A read depends on the register alone. -/
theorem State.fget_congr {s t : State} {f : Fld} (h : t.reg f.addr = s.reg f.addr) : t.fget f = s.fget f := by
  unfold State.fget
  rw [h]

/-! ### Messages and interrupt flags -/

/-- A message touches no register but FLT.DROP_CNT and FLT.INT_STAT. -/
theorem State.reg_post (s : State) (m : FaultMsg) {a : Nat} (h : a ≠ Reg.FLT.DROP_CNT) (k : a ≠ Reg.FLT.INT_STAT) :
    (s.post m).reg a = s.reg a := by
  unfold State.post
  split
  · rfl
  · split
    · rfl
    · change (State.setFlag (s.bumpSat Reg.FLT.DROP_CNT_COUNT 1) Reg.FLT.INT_STAT_MSG_DROP true).reg a = s.reg a
      unfold State.setFlag
      rw [State.reg_fset_other _ _ k, State.reg_bumpSat_other _ _ h]

theorem State.reg_fault (s : State) (source kind hint locator : Nat) {a : Nat} (h : a ≠ Reg.FLT.DROP_CNT)
    (k : a ≠ Reg.FLT.INT_STAT) : (s.fault source kind hint locator).reg a = s.reg a := State.reg_post _ _ h k

/-- Setting an interrupt flag touches the block's INT_STAT and what a message touches. -/
theorem State.reg_int (s : State) (b : IntBlk) (bit : Nat) {a : Nat} (hb : a ≠ b.stat) (h : a ≠ Reg.FLT.DROP_CNT)
    (k : a ≠ Reg.FLT.INT_STAT) : (s.int b bit).reg a = s.reg a := by
  unfold State.int
  extract_lets t
  have ht : t.reg a = s.reg a := State.reg_fset_other _ _ hb
  split
  · rw [State.reg_post _ _ h k, ht]
  · exact ht

/-- The flag is set. -/
theorem State.flag_int {s : State} (w : Regs.wf s.regs = true) (b : IntBlk) (bit : Nat) (hb : bit < 32)
    (h : b.stat ≠ Reg.FLT.DROP_CNT) (k : b.stat ≠ Reg.FLT.INT_STAT) : (s.int b bit).flag ⟨b.stat, bit, 1⟩ = true := by
  have e : (s.int b bit).fget ⟨b.stat, bit, 1⟩ = 1 := by
    unfold State.int
    extract_lets t
    have ht : t.fget ⟨b.stat, bit, 1⟩ = 1 := State.fget_fset_same w _ _ (by simp only; omega)
    split
    · rw [State.fget_congr (State.reg_post _ _ h k), ht]
    · exact ht
  unfold State.flag
  rw [e]
  rfl
end Sys2Proof.Machine
end

