-- ==== Sys2Proof/Laws/Packet.lean ====
section
/-! SUPPORT. A packet that firmware takes: what reaches its opcode, and what its start leaves as it was. -/

namespace Sys2Proof.Machine

/-- A wake source touches nothing but what power control holds. -/
theorem State.wakeEvent_eq (s : State) (code port : Nat) : ∃ w, s.wakeEvent code port = { s with pw := { s.pw with wake := w } } := by
  unfold State.wakeEvent
  split
  · exact ⟨_, rfl⟩
  · exact ⟨s.pw.wake, rfl⟩

/-- A packet leaves its queue. -/
theorem State.takePacket_eq (s : State) (q : QPacket) : ∃ inq twq inRow,
    s.takePacket q = { s with mgc := { s.mgc with inq := inq, twq := twq, inRow := inRow } } := by
  unfold State.takePacket
  split <;> exact ⟨_, _, _, rfl⟩

/-- The trace touches nothing but itself. -/
theorem State.trace_eq (s : State) (src sel item : Nat) : ∃ trc, s.trace src sel item = { s with trc := trc } := by
  unfold State.trace
  split
  · exact ⟨_, rfl⟩
  · exact ⟨s.trc, rfl⟩

/-- The start of a packet touches the wake source, the queues of packets and the trace. -/
theorem State.begun_eq (s : State) (op : Nat) (h : Halyard) : ∃ w inq twq inRow trc,
    s.begun op h = { s with pw := { s.pw with wake := w }, mgc := { s.mgc with inq := inq, twq := twq, inRow := inRow }, trc := trc } := by
  unfold State.begun
  obtain ⟨w, hw⟩ := s.wakeEvent_eq (if h.src = .twoWire then 7 else 6) 0
  rw [hw]
  obtain ⟨a, b, c, hp⟩ := State.takePacket_eq { s with pw := { s.pw with wake := w } } ⟨op, h⟩
  rw [hp]
  obtain ⟨d, ht⟩ := State.trace_eq
    { s with pw := { s.pw with wake := w }, mgc := { s.mgc with inq := a, twq := b, inRow := c } } 5 0
    (op * 2 ^ 24 + h.seq * 2 ^ 16 + h.len * 2 ^ 8 + h.flags)
  exact ⟨w, a, b, c, d, ht⟩

@[simp] theorem State.begun_regs (s : State) (op : Nat) (h : Halyard) : (s.begun op h).regs = s.regs := by
  obtain ⟨_, _, _, _, _, e⟩ := s.begun_eq op h
  rw [e]
@[simp] theorem State.begun_reg (s : State) (op : Nat) (h : Halyard) (a : Nat) : (s.begun op h).reg a = s.reg a := by
  unfold State.reg
  rw [State.begun_regs]
@[simp] theorem State.begun_fget (s : State) (op : Nat) (h : Halyard) (f : Fld) : (s.begun op h).fget f = s.fget f :=
  State.fget_congr (s.begun_reg op h _)
@[simp] theorem State.begun_flag (s : State) (op : Nat) (h : Halyard) (f : Fld) : (s.begun op h).flag f = s.flag f := by
  unfold State.flag
  rw [State.begun_fget]

/-- The checks of a packet see what they saw before it started. -/
theorem State.begun_packetCheck (s : State) (op : Nat) (h : Halyard) (op' : Nat) (h' : Halyard) (len : List Nat → Option Nat) :
    (s.begun op h).packetCheck op' h' len = s.packetCheck op' h' len := by
  have hp : (s.begun op h).part = s.part := by
    obtain ⟨_, _, _, _, _, e⟩ := s.begun_eq op h
    rw [e]
  have ho : (s.begun op h).otp = s.otp := by
    obtain ⟨_, _, _, _, _, e⟩ := s.begun_eq op h
    rw [e]
  unfold State.packetCheck State.noOpcode State.srcDenied State.devState
  simp only [State.begun_flag, State.begun_fget, hp, ho]

/-- A packet that firmware takes reaches its opcode. -/
theorem State.packet_takes {s : State} {op : Nat} {h : Halyard} {len : List Nat → Option Nat} (k : s.takes op h len)
    (f : State → Bool → State) : s.packet op h len f = f (s.begun op h) false := by
  obtain ⟨⟨k1, k2, k6⟩, k3, k4, k5⟩ := k
  have hb := s.begun_packetCheck op h op h len
  obtain ⟨w, hw⟩ := s.wakeEvent_eq (if h.src = .twoWire then 7 else 6) 0
  unfold State.packet
  unfold State.begun at hb ⊢
  rw [hw] at hb ⊢
  generalize hv : ({ s with pw := { s.pw with wake := w } } : State) = v at hb ⊢
  have hn : v.naps = false := by
    have hpwr : v.pwr = 0 := by rw [← hv]; exact k2
    unfold State.naps
    rw [hpwr]
    rfl
  have hfw : v.fwRuns = true := by rw [← hv]; exact k1
  have htr : ¬ (v.tripped = true ∧ h.src ≠ .twoWire) := by
    have e : v.tripped = s.tripped := by rw [← hv]; rfl
    rw [e]
    exact fun a => a.2 (k6 a.1)
  have hst : v.mayStart ⟨op, h⟩ = true := by rw [← hv]; exact k3
  dsimp only
  rw [if_neg htr, hn, hfw, hst]
  have hrep : ((v.takePacket ⟨op, h⟩).trace 5 0 (op * 2 ^ 24 + h.seq * 2 ^ 16 + h.len * 2 ^ 8 + h.flags)).isRepeat ⟨op, h⟩ = false := by
    obtain ⟨a, b, c, hp⟩ := State.takePacket_eq v ⟨op, h⟩
    rw [hp]
    obtain ⟨d, ht⟩ := State.trace_eq { v with mgc := { v.mgc with inq := a, twq := b, inRow := c } } 5 0
      (op * 2 ^ 24 + h.seq * 2 ^ 16 + h.len * 2 ^ 8 + h.flags)
    rw [ht, ← k4, ← hv]
    rfl
  rw [k5] at hb
  rw [if_neg (by simp), if_pos rfl, if_neg (by simp), hrep, if_neg (by simp), hb]

end Sys2Proof.Machine
end

