-- ==== Sys2Proof/Laws/Begun.lean ====
section
/-! SUPPORT. What the opcodes of packets look at is as it was before the packet started. -/

namespace Sys2Proof.Machine

@[simp] theorem State.begun_part (s : State) (op : Nat) (h : Halyard) : (s.begun op h).part = s.part := by
  obtain ⟨_, _, _, _, _, e⟩ := s.begun_eq op h
  rw [e]
@[simp] theorem State.begun_otp (s : State) (op : Nat) (h : Halyard) : (s.begun op h).otp = s.otp := by
  obtain ⟨_, _, _, _, _, e⟩ := s.begun_eq op h
  rw [e]
@[simp] theorem State.begun_thm (s : State) (op : Nat) (h : Halyard) : (s.begun op h).thm = s.thm := by
  obtain ⟨_, _, _, _, _, e⟩ := s.begun_eq op h
  rw [e]
@[simp] theorem State.begun_stk (s : State) (op : Nat) (h : Halyard) : (s.begun op h).stk = s.stk := by
  obtain ⟨_, _, _, _, _, e⟩ := s.begun_eq op h
  rw [e]
@[simp] theorem State.begun_ecc (s : State) (op : Nat) (h : Halyard) : (s.begun op h).ecc = s.ecc := by
  obtain ⟨_, _, _, _, _, e⟩ := s.begun_eq op h
  rw [e]
@[simp] theorem State.begun_flt (s : State) (op : Nat) (h : Halyard) : (s.begun op h).flt = s.flt := by
  obtain ⟨_, _, _, _, _, e⟩ := s.begun_eq op h
  rw [e]
@[simp] theorem State.begun_bbx (s : State) (op : Nat) (h : Halyard) : (s.begun op h).bbx = s.bbx := by
  obtain ⟨_, _, _, _, _, e⟩ := s.begun_eq op h
  rw [e]
@[simp] theorem State.begun_cns (s : State) (op : Nat) (h : Halyard) : (s.begun op h).cns = s.cns := by
  obtain ⟨_, _, _, _, _, e⟩ := s.begun_eq op h
  rw [e]
@[simp] theorem State.begun_cal (s : State) (op : Nat) (h : Halyard) : (s.begun op h).cal = s.cal := by
  obtain ⟨_, _, _, _, _, e⟩ := s.begun_eq op h
  rw [e]
@[simp] theorem State.begun_scn (s : State) (op : Nat) (h : Halyard) : (s.begun op h).scn = s.scn := by
  obtain ⟨_, _, _, _, _, e⟩ := s.begun_eq op h
  rw [e]
@[simp] theorem State.begun_remap (s : State) (op : Nat) (h : Halyard) : (s.begun op h).remap = s.remap := by
  obtain ⟨_, _, _, _, _, e⟩ := s.begun_eq op h
  rw [e]
@[simp] theorem State.begun_now (s : State) (op : Nat) (h : Halyard) : (s.begun op h).now = s.now := by
  obtain ⟨_, _, _, _, _, e⟩ := s.begun_eq op h
  rw [e]
@[simp] theorem State.begun_free (s : State) (op : Nat) (h : Halyard) : (s.begun op h).free = s.free := by
  obtain ⟨_, _, _, _, _, e⟩ := s.begun_eq op h
  rw [e]
@[simp] theorem State.begun_txns (s : State) (op : Nat) (h : Halyard) : (s.begun op h).txns = s.txns := by
  obtain ⟨_, _, _, _, _, e⟩ := s.begun_eq op h
  rw [e]
@[simp] theorem State.begun_ports (s : State) (op : Nat) (h : Halyard) : (s.begun op h).ports = s.ports := by
  obtain ⟨_, _, _, _, _, e⟩ := s.begun_eq op h
  rw [e]
@[simp] theorem State.begun_links (s : State) (op : Nat) (h : Halyard) : (s.begun op h).links = s.links := by
  obtain ⟨_, _, _, _, _, e⟩ := s.begun_eq op h
  rw [e]
@[simp] theorem State.begun_engs (s : State) (op : Nat) (h : Halyard) : (s.begun op h).engs = s.engs := by
  obtain ⟨_, _, _, _, _, e⟩ := s.begun_eq op h
  rw [e]
@[simp] theorem State.begun_slices (s : State) (op : Nat) (h : Halyard) : (s.begun op h).slices = s.slices := by
  obtain ⟨_, _, _, _, _, e⟩ := s.begun_eq op h
  rw [e]
@[simp] theorem State.begun_tap (s : State) (op : Nat) (h : Halyard) : (s.begun op h).tap = s.tap := by
  obtain ⟨_, _, _, _, _, e⟩ := s.begun_eq op h
  rw [e]
@[simp] theorem State.begun_clk (s : State) (op : Nat) (h : Halyard) : (s.begun op h).clk = s.clk := by
  obtain ⟨_, _, _, _, _, e⟩ := s.begun_eq op h
  rw [e]
@[simp] theorem State.begun_twb (s : State) (op : Nat) (h : Halyard) : (s.begun op h).twb = s.twb := by
  obtain ⟨_, _, _, _, _, e⟩ := s.begun_eq op h
  rw [e]
@[simp] theorem State.begun_sch (s : State) (op : Nat) (h : Halyard) : (s.begun op h).sch = s.sch := by
  obtain ⟨_, _, _, _, _, e⟩ := s.begun_eq op h
  rw [e]
@[simp] theorem State.begun_mgc_ops (s : State) (op : Nat) (h : Halyard) : (s.begun op h).mgc.ops = s.mgc.ops := by
  obtain ⟨_, _, _, _, _, e⟩ := s.begun_eq op h
  rw [e]
@[simp] theorem State.begun_mgc_twEvq (s : State) (op : Nat) (h : Halyard) : (s.begun op h).mgc.twEvq = s.mgc.twEvq := by
  obtain ⟨_, _, _, _, _, e⟩ := s.begun_eq op h
  rw [e]
@[simp] theorem State.begun_mgc_twLost (s : State) (op : Nat) (h : Halyard) : (s.begun op h).mgc.twLost = s.mgc.twLost := by
  obtain ⟨_, _, _, _, _, e⟩ := s.begun_eq op h
  rw [e]
@[simp] theorem State.begun_mgc_paused (s : State) (op : Nat) (h : Halyard) : (s.begun op h).mgc.paused = s.mgc.paused := by
  obtain ⟨_, _, _, _, _, e⟩ := s.begun_eq op h
  rw [e]
@[simp] theorem State.begun_mgc_quiesce (s : State) (op : Nat) (h : Halyard) : (s.begun op h).mgc.quiesce = s.mgc.quiesce := by
  obtain ⟨_, _, _, _, _, e⟩ := s.begun_eq op h
  rw [e]
@[simp] theorem State.begun_mgc_commit (s : State) (op : Nat) (h : Halyard) : (s.begun op h).mgc.commit = s.mgc.commit := by
  obtain ⟨_, _, _, _, _, e⟩ := s.begun_eq op h
  rw [e]
@[simp] theorem State.begun_mgc_staged (s : State) (op : Nat) (h : Halyard) : (s.begun op h).mgc.staged = s.mgc.staged := by
  obtain ⟨_, _, _, _, _, e⟩ := s.begun_eq op h
  rw [e]
@[simp] theorem State.begun_mgc_evq (s : State) (op : Nat) (h : Halyard) : (s.begun op h).mgc.evq = s.mgc.evq := by
  obtain ⟨_, _, _, _, _, e⟩ := s.begun_eq op h
  rw [e]
@[simp] theorem State.begun_pw_slot (s : State) (op : Nat) (h : Halyard) : (s.begun op h).pw.slot = s.pw.slot := by
  obtain ⟨_, _, _, _, _, e⟩ := s.begun_eq op h
  rw [e]
@[simp] theorem State.begun_pw_entry (s : State) (op : Nat) (h : Halyard) : (s.begun op h).pw.entry = s.pw.entry := by
  obtain ⟨_, _, _, _, _, e⟩ := s.begun_eq op h
  rw [e]
@[simp] theorem State.begun_pw_cfg (s : State) (op : Nat) (h : Halyard) : (s.begun op h).pw.cfg = s.pw.cfg := by
  obtain ⟨_, _, _, _, _, e⟩ := s.begun_eq op h
  rw [e]
@[simp] theorem State.begun_pw_shadow (s : State) (op : Nat) (h : Halyard) : (s.begun op h).pw.shadow = s.pw.shadow := by
  obtain ⟨_, _, _, _, _, e⟩ := s.begun_eq op h
  rw [e]
@[simp] theorem State.begun_pw_fill (s : State) (op : Nat) (h : Halyard) : (s.begun op h).pw.fill = s.pw.fill := by
  obtain ⟨_, _, _, _, _, e⟩ := s.begun_eq op h
  rw [e]
@[simp] theorem State.begun_pw_hold (s : State) (op : Nat) (h : Halyard) : (s.begun op h).pw.hold = s.pw.hold := by
  obtain ⟨_, _, _, _, _, e⟩ := s.begun_eq op h
  rw [e]
@[simp] theorem State.begun_pw_waking (s : State) (op : Nat) (h : Halyard) : (s.begun op h).pw.waking = s.pw.waking := by
  obtain ⟨_, _, _, _, _, e⟩ := s.begun_eq op h
  rw [e]
@[simp] theorem State.begun_pw_took (s : State) (op : Nat) (h : Halyard) : (s.begun op h).pw.took = s.pw.took := by
  obtain ⟨_, _, _, _, _, e⟩ := s.begun_eq op h
  rw [e]
@[simp] theorem State.begun_devState (s : State) (op : Nat) (h : Halyard) : (s.begun op h).devState = s.devState := by
  obtain ⟨_, _, _, _, _, e⟩ := s.begun_eq op h
  rw [e]
  rfl
@[simp] theorem State.begun_pwr (s : State) (op : Nat) (h : Halyard) : (s.begun op h).pwr = s.pwr := by
  obtain ⟨_, _, _, _, _, e⟩ := s.begun_eq op h
  rw [e]
  rfl
@[simp] theorem State.begun_inSail (s : State) (op : Nat) (h : Halyard) : (s.begun op h).inSail = s.inSail := by
  obtain ⟨_, _, _, _, _, e⟩ := s.begun_eq op h
  rw [e]
  rfl
@[simp] theorem State.begun_mapCommits (s : State) (op : Nat) (h : Halyard) : (s.begun op h).mapCommits = s.mapCommits := by
  obtain ⟨_, _, _, _, _, e⟩ := s.begun_eq op h
  rw [e]
  rfl
@[simp] theorem State.begun_tripped (s : State) (op : Nat) (h : Halyard) : (s.begun op h).tripped = s.tripped := by
  obtain ⟨_, _, _, _, _, e⟩ := s.begun_eq op h
  rw [e]
  rfl
@[simp] theorem State.begun_frozen (s : State) (op : Nat) (h : Halyard) : (s.begun op h).frozen = s.frozen := by
  obtain ⟨_, _, _, _, _, e⟩ := s.begun_eq op h
  rw [e]
  rfl
@[simp] theorem State.begun_live (s : State) (op : Nat) (h : Halyard) : (s.begun op h).live = s.live := by
  obtain ⟨_, _, _, _, _, e⟩ := s.begun_eq op h
  rw [e]
  rfl
@[simp] theorem State.begun_mclk (s : State) (op : Nat) (h : Halyard) : (s.begun op h).mclk = s.mclk := by
  obtain ⟨_, _, _, _, _, e⟩ := s.begun_eq op h
  rw [e]
  rfl
@[simp] theorem State.begun_dies (s : State) (op : Nat) (h : Halyard) : (s.begun op h).dies = s.dies := by
  obtain ⟨_, _, _, _, _, e⟩ := s.begun_eq op h
  rw [e]
  rfl
@[simp] theorem State.begun_pcs (s : State) (op : Nat) (h : Halyard) : (s.begun op h).pcs = s.pcs := by
  obtain ⟨_, _, _, _, _, e⟩ := s.begun_eq op h
  rw [e]
  rfl
@[simp] theorem State.begun_ready (s : State) (op : Nat) (h : Halyard) : (s.begun op h).ready = s.ready := by
  obtain ⟨_, _, _, _, _, e⟩ := s.begun_eq op h
  rw [e]
  rfl
@[simp] theorem State.begun_used (s : State) (op : Nat) (h : Halyard) (d : Nat) : (s.begun op h).used d = s.used d := by
  obtain ⟨_, _, _, _, _, e⟩ := s.begun_eq op h
  rw [e]
  rfl
@[simp] theorem State.begun_die (s : State) (op : Nat) (h : Halyard) (d : Nat) : (s.begun op h).die d = s.die d := by
  obtain ⟨_, _, _, _, _, e⟩ := s.begun_eq op h
  rw [e]
  rfl
@[simp] theorem State.begun_perDie (s : State) (op : Nat) (h : Halyard) (f : Nat → Nat) :
    (s.begun op h).perDie f = s.perDie f := by
  obtain ⟨_, _, _, _, _, e⟩ := s.begun_eq op h
  rw [e]
  rfl
@[simp] theorem State.begun_curTarget (s : State) (op : Nat) (h : Halyard) : (s.begun op h).curTarget = s.curTarget := by
  obtain ⟨_, _, _, _, _, e⟩ := s.begun_eq op h
  rw [e]
  rfl
@[simp] theorem State.begun_badRetWord (s : State) (op : Nat) (h : Halyard) (p : List Nat) :
    (s.begun op h).badRetWord p = s.badRetWord p := by
  obtain ⟨_, _, _, _, _, e⟩ := s.begun_eq op h
  rw [e]
  rfl
@[simp] theorem State.begun_absentWord (s : State) (op : Nat) (h : Halyard) (p : List Nat) :
    (s.begun op h).absentWord p = s.absentWord p := by
  obtain ⟨_, _, _, _, _, e⟩ := s.begun_eq op h
  rw [e]
  rfl
@[simp] theorem State.begun_stageOwned (s : State) (op : Nat) (h : Halyard) : (s.begun op h).stageOwned = s.stageOwned := by
  obtain ⟨_, _, _, _, _, e⟩ := s.begun_eq op h
  rw [e]
  rfl
@[simp] theorem State.begun_ownsStage (s : State) (op : Nat) (h : Halyard) (k : Halyard) :
    (s.begun op h).ownsStage k = s.ownsStage k := by
  obtain ⟨_, _, _, _, _, e⟩ := s.begun_eq op h
  rw [e]
  rfl
@[simp] theorem State.begun_stagedFault (s : State) (op : Nat) (h : Halyard) (mask : Nat) :
    (s.begun op h).stagedFault mask = s.stagedFault mask := by
  obtain ⟨_, _, _, _, _, e⟩ := s.begun_eq op h
  rw [e]
  rfl
@[simp] theorem State.begun_engExists (s : State) (op : Nat) (h : Halyard) (m : Nat) :
    (s.begun op h).engExists m = s.engExists m := by
  obtain ⟨_, _, _, _, _, e⟩ := s.begun_eq op h
  rw [e]
  rfl
@[simp] theorem State.begun_bistAllowed (s : State) (op : Nat) (h : Halyard) (m : Nat) :
    (s.begun op h).bistAllowed m = s.bistAllowed m := by
  obtain ⟨_, _, _, _, _, e⟩ := s.begun_eq op h
  rw [e]
  rfl
@[simp] theorem State.begun_ftSkips (s : State) (op : Nat) (h : Halyard) (m : Nat) :
    (s.begun op h).ftSkips m = s.ftSkips m := by
  obtain ⟨_, _, _, _, _, e⟩ := s.begun_eq op h
  rw [e]
  rfl
@[simp] theorem State.begun_testing (s : State) (op : Nat) (h : Halyard) (m : Nat) :
    (s.begun op h).testing m = s.testing m := by
  obtain ⟨_, _, _, _, _, e⟩ := s.begun_eq op h
  rw [e]
  rfl
@[simp] theorem State.begun_fenced (s : State) (op : Nat) (h : Halyard) (k : Nat) :
    (s.begun op h).fenced k = s.fenced k := by
  obtain ⟨_, _, _, _, _, e⟩ := s.begun_eq op h
  rw [e]
  rfl
@[simp] theorem State.begun_evacRuns (s : State) (op : Nat) (h : Halyard) (k : Nat) :
    (s.begun op h).evacRuns k = s.evacRuns k := by
  obtain ⟨_, _, _, _, _, e⟩ := s.begun_eq op h
  rw [e]
  rfl
@[simp] theorem State.begun_spareRoom (s : State) (op : Nat) (h : Halyard) (l : Loc) :
    (s.begun op h).spareRoom l = s.spareRoom l := by
  obtain ⟨_, _, _, _, _, e⟩ := s.begun_eq op h
  rw [e]
  rfl
@[simp] theorem State.begun_physRow (s : State) (op : Nat) (h : Halyard) (array bank row : Nat) :
    (s.begun op h).physRow array bank row = s.physRow array bank row := by
  obtain ⟨_, _, _, _, _, e⟩ := s.begun_eq op h
  rw [e]
  rfl
@[simp] theorem State.begun_engineOf (s : State) (op : Nat) (h : Halyard) (k : Nat) :
    (s.begun op h).engineOf k = s.engineOf k := by
  obtain ⟨_, _, _, _, _, e⟩ := s.begun_eq op h
  rw [e]
  rfl
@[simp] theorem State.begun_lockSet (s : State) (op : Nat) (h : Halyard) (r : Nat) :
    (s.begun op h).lockSet r = s.lockSet r := by
  obtain ⟨_, _, _, _, _, e⟩ := s.begun_eq op h
  rw [e]
  rfl
@[simp] theorem State.begun_freeEntry (s : State) (op : Nat) (h : Halyard) : (s.begun op h).freeEntry = s.freeEntry := by
  obtain ⟨_, _, _, _, _, e⟩ := s.begun_eq op h
  rw [e]
  rfl
@[simp] theorem State.begun_fuseState (s : State) (op : Nat) (h : Halyard) : (s.begun op h).fuseState = s.fuseState := by
  obtain ⟨_, _, _, _, _, e⟩ := s.begun_eq op h
  rw [e]
  rfl
@[simp] theorem State.begun_onSpare (s : State) (op : Nat) (h : Halyard) (k : Nat) :
    (s.begun op h).onSpare k = s.onSpare k := by
  obtain ⟨_, _, _, _, _, e⟩ := s.begun_eq op h
  rw [e]
  rfl
@[simp] theorem State.begun_injBad (s : State) (op : Nat) (h : Halyard) (p : List Nat) :
    (s.begun op h).injBad p = s.injBad p := by
  obtain ⟨_, _, _, _, _, e⟩ := s.begun_eq op h
  rw [e]
  rfl
@[simp] theorem State.begun_badScrubWord (s : State) (op : Nat) (h : Halyard) (p : List Nat) :
    (s.begun op h).badScrubWord p = s.badScrubWord p := by
  obtain ⟨_, _, _, _, _, e⟩ := s.begun_eq op h
  rw [e]
  rfl
@[simp] theorem State.begun_clsNext (s : State) (op : Nat) (h : Halyard) (n : Nat) :
    (s.begun op h).clsNext n = s.clsNext n := by
  obtain ⟨_, _, _, _, _, e⟩ := s.begun_eq op h
  rw [e]
  rfl
@[simp] theorem State.begun_admits (s : State) (op : Nat) (h : Halyard) (view : Nat → ClsView) :
    (s.begun op h).admits view = s.admits view := by
  obtain ⟨_, _, _, _, _, e⟩ := s.begun_eq op h
  rw [e]
  rfl
@[simp] theorem State.begun_fastView (s : State) (op : Nat) (h : Halyard) (n : Nat) :
    (s.begun op h).fastView n = s.fastView n := by
  obtain ⟨_, _, _, _, _, e⟩ := s.begun_eq op h
  rw [e]
  rfl
@[simp] theorem State.begun_resView (s : State) (op : Nat) (h : Halyard) (rate n : Nat) :
    (s.begun op h).resView rate n = s.resView rate n := by
  obtain ⟨_, _, _, _, _, e⟩ := s.begun_eq op h
  rw [e]
  rfl
@[simp] theorem State.begun_fuseBusy (s : State) (op : Nat) (h : Halyard) : (s.begun op h).fuseBusy = s.fuseBusy := by
  obtain ⟨_, _, _, _, _, e⟩ := s.begun_eq op h
  rw [e]
  rfl
@[simp] theorem State.begun_fuseAt (s : State) (op : Nat) (h : Halyard) (m w : Nat) :
    (s.begun op h).fuseAt m w = s.fuseAt m w := by
  obtain ⟨_, _, _, _, _, e⟩ := s.begun_eq op h
  rw [e]
  rfl
@[simp] theorem State.begun_inUse (s : State) (op : Nat) (h : Halyard) (w : Nat) : (s.begun op h).inUse w = s.inUse w := by
  obtain ⟨_, _, _, _, _, e⟩ := s.begun_eq op h
  rw [e]
  rfl
@[simp] theorem State.begun_mayProgram (s : State) (op : Nat) (h : Halyard) (w : Nat) :
    (s.begun op h).mayProgram w = s.mayProgram w := by
  obtain ⟨_, _, _, _, _, e⟩ := s.begun_eq op h
  rw [e]
  rfl
@[simp] theorem State.begun_lockable (s : State) (op : Nat) (h : Halyard) (r : Nat) :
    (s.begun op h).lockable r = s.lockable r := by
  obtain ⟨_, _, _, _, _, e⟩ := s.begun_eq op h
  rw [e]
  rfl
@[simp] theorem State.begun_faultWords (s : State) (op : Nat) (h : Halyard) (n : Nat) :
    (s.begun op h).faultWords n = s.faultWords n := by
  obtain ⟨_, _, _, _, _, e⟩ := s.begun_eq op h
  rw [e]
  rfl
@[simp] theorem State.begun_sourceExists (s : State) (op : Nat) (h : Halyard) (src : Nat) :
    (s.begun op h).sourceExists src = s.sourceExists src := by
  obtain ⟨_, _, _, _, _, e⟩ := s.begun_eq op h
  rw [e]
  rfl
@[simp] theorem State.begun_clsEntry (s : State) (op : Nat) (h : Halyard) (src : Nat) :
    (s.begun op h).clsEntry src = s.clsEntry src := by
  obtain ⟨_, _, _, _, _, e⟩ := s.begun_eq op h
  rw [e]
  rfl
@[simp] theorem State.begun_bbxSelect (s : State) (op : Nat) (h : Halyard) (sel index count : Nat) :
    (s.begun op h).bbxSelect sel index count = s.bbxSelect sel index count := by
  obtain ⟨_, _, _, _, _, e⟩ := s.begun_eq op h
  rw [e]
  rfl
@[simp] theorem State.begun_badTarget (s : State) (op : Nat) (h : Halyard) (w : Nat) :
    (s.begun op h).badTarget w = s.badTarget w := by
  obtain ⟨_, _, _, _, _, e⟩ := s.begun_eq op h
  rw [e]
  rfl
@[simp] theorem State.begun_calTargets (s : State) (op : Nat) (h : Halyard) (w : Nat) :
    (s.begun op h).calTargets w = s.calTargets w := by
  obtain ⟨_, _, _, _, _, e⟩ := s.begun_eq op h
  rw [e]
  rfl
@[simp] theorem State.begun_calQueued (s : State) (op : Nat) (h : Halyard) (kind idx : Nat) :
    (s.begun op h).calQueued kind idx = s.calQueued kind idx := by
  obtain ⟨_, _, _, _, _, e⟩ := s.begun_eq op h
  rw [e]
  rfl
@[simp] theorem State.begun_portState (s : State) (op : Nat) (h : Halyard) (p : Nat) :
    (s.begun op h).portState p = s.portState p := by
  obtain ⟨_, _, _, _, _, e⟩ := s.begun_eq op h
  rw [e]
  rfl
@[simp] theorem State.begun_opRoom (s : State) (op : Nat) (h : Halyard) : (s.begun op h).opRoom = s.opRoom := by
  obtain ⟨_, _, _, _, _, e⟩ := s.begun_eq op h
  rw [e]
  rfl
@[simp] theorem State.begun_freeRes (s : State) (op : Nat) (h : Halyard) : (s.begun op h).freeRes = s.freeRes := by
  obtain ⟨_, _, _, _, _, e⟩ := s.begun_eq op h
  rw [e]
  rfl
@[simp] theorem State.begun_resTaken (s : State) (op : Nat) (h : Halyard) (engs : Nat) :
    (s.begun op h).resTaken engs = s.resTaken engs := by
  obtain ⟨_, _, _, _, _, e⟩ := s.begun_eq op h
  rw [e]
  rfl
@[simp] theorem State.begun_resOf (s : State) (op : Nat) (h : Halyard) (cls : Nat) :
    (s.begun op h).resOf cls = s.resOf cls := by
  obtain ⟨_, _, _, _, _, e⟩ := s.begun_eq op h
  rw [e]
  rfl
@[simp] theorem State.begun_scanOf (s : State) (op : Nat) (h : Halyard) (reqId tag : Nat) :
    (s.begun op h).scanOf reqId tag = s.scanOf reqId tag := by
  obtain ⟨_, _, _, _, _, e⟩ := s.begun_eq op h
  rw [e]
  rfl
@[simp] theorem State.begun_noOpcode (s : State) (op : Nat) (h : Halyard) (o : Nat) :
    (s.begun op h).noOpcode o = s.noOpcode o := by
  obtain ⟨_, _, _, _, _, e⟩ := s.begun_eq op h
  rw [e]
  rfl
@[simp] theorem State.begun_tableEntry (s : State) (op : Nat) (h : Halyard) (area e : Nat) :
    (s.begun op h).tableEntry area e = s.tableEntry area e := by
  obtain ⟨_, _, _, _, _, e⟩ := s.begun_eq op h
  rw [e]
  rfl
@[simp] theorem State.begun_maskPcs (s : State) (op : Nat) (h : Halyard) (p : List Nat) :
    (s.begun op h).maskPcs p = s.maskPcs p := by
  obtain ⟨_, _, _, _, _, e⟩ := s.begun_eq op h
  rw [e]
  rfl
@[simp] theorem State.begun_derate (s : State) (op : Nat) (h : Halyard) : (s.begun op h).derate = s.derate := by
  obtain ⟨_, _, _, _, _, e⟩ := s.begun_eq op h
  rw [e]
  rfl

/-- A packet that firmware refuses is answered with the status and the index of the first check that it fails. -/
theorem State.packet_refused {s : State} {op : Nat} {h : Halyard} {len : List Nat → Option Nat} {st i : Nat}
    (k : s.serves h) (k3 : s.mayStart ⟨op, h⟩ = true) (k4 : s.isRepeat ⟨op, h⟩ = false)
    (k5 : s.packetCheck op h len = some (st, i)) (f : State → Bool → State) : s.packet op h len f =
      (s.begun op h).refusePacket op h st i := by
  obtain ⟨k1, k2, k6⟩ := k
  have hb := s.begun_packetCheck op h op h len
  obtain ⟨w, hw⟩ := s.wakeEvent_eq (if h.src = .twoWire then 7 else 6) 0
  unfold State.packet
  unfold State.begun at hb ⊢
  rw [hw] at hb ⊢
  generalize hv : ({ s with pw := { s.pw with wake := w } } : State) = v at hb ⊢
  have hn : v.naps = false := by
    have hpwr : v.pwr = 0 := by rw [← hv]; exact k2
    unfold State.naps
    rw [hpwr]
    rfl
  have hfw : v.fwRuns = true := by rw [← hv]; exact k1
  have htr : ¬ (v.tripped = true ∧ h.src ≠ .twoWire) := by
    have e : v.tripped = s.tripped := by rw [← hv]; rfl
    rw [e]
    exact fun a => a.2 (k6 a.1)
  have hst : v.mayStart ⟨op, h⟩ = true := by rw [← hv]; exact k3
  dsimp only
  rw [if_neg htr, hn, hfw, hst]
  have hrep : ((v.takePacket ⟨op, h⟩).trace 5 0 (op * 2 ^ 24 + h.seq * 2 ^ 16 + h.len * 2 ^ 8 + h.flags)).isRepeat ⟨op, h⟩ = false := by
    obtain ⟨a, b, c, hp⟩ := State.takePacket_eq v ⟨op, h⟩
    rw [hp]
    obtain ⟨d, ht⟩ := State.trace_eq { v with mgc := { v.mgc with inq := a, twq := b, inRow := c } } 5 0
      (op * 2 ^ 24 + h.seq * 2 ^ 16 + h.len * 2 ^ 8 + h.flags)
    rw [ht, ← k4, ← hv]
    rfl
  rw [k5] at hb
  rw [if_neg (by simp), if_pos rfl, if_neg (by simp), hrep, if_neg (by simp), hb]

/-- Where an operation has room, its acceptance is what `accepted` says. -/
theorem State.accept_room {s : State} (k : s.opRoom = true) (op : Nat) (h : Halyard) (state arg : Nat) (f : State → Nat → State) :
    s.accept op h state arg f = f (s.accepted op h state arg).1 (s.accepted op h state arg).2 := by
  unfold State.accept State.accepted
  rw [if_pos k]

end Sys2Proof.Machine
end

