-- ==== Sys2Proof/WellFormed.lean ====
section
/-! DEFINITION. Which commands are well formed: every operand in the range that the part gives it (ports, lanes, slices,
engines, dies, indices, classes; the fields of a request header and of a halyard packet). A command out of range names
nothing on the part; its meaning leaves the state alone. -/

namespace Sys2Proof

/-- Every entry is a byte. -/
def bytesOk (l : List Nat) : Bool := l.all (fun b => decide (b < 256))

/-- Error patterns on the 80 bytes of an array word. -/
def wordErrs (l : List (Nat × Nat)) : Bool := l.all (fun e => decide (e.1 < 80 ∧ e.2 < 256))

/-- The sender's port and the fields of its header are in range (Table 3.8). -/
def Src.wf : Src → Bool
  | .inband p r t _ => decide (p < 8 ∧ r < 4096 ∧ t < 4096)
  | .twoWire => true

/-- The fields of a packet are in range (Table 4.1). -/
def Halyard.wf (h : Halyard) : Bool :=
  h.src.wf && decide (h.bytes < 65536 ∧ h.seq < 256 ∧ h.len < 256 ∧ h.flags < 256) &&
    h.payload.all (fun w => decide (w < 2 ^ 32)) && decide (h.payload.length ≤ 64)

/-- Failing words of a DRAM test: a place within Table 11.2's [19:0], and one of the 640 bits of a word as the first. -/
def failsOk (l : List (Nat × Nat)) : Bool := l.all (fun e => decide (e.1 < 2 ^ 20 ∧ e.2 < 2 ^ 32 ∧ e.2 / 2 ^ 17 % 1024 < 640))

/-- The fields of a request are in range (Table 3.8). -/
def Req.wf (r : Req) : Bool :=
  decide (r.port < 8 ∧ r.opcode < 256 ∧ r.cls < 64 ∧ r.deadline < 1024 ∧ r.reqId < 4096 ∧ r.tag < 4096 ∧ r.stackId < 4096) &&
    decide (r.addr < 2 ^ 40 ∧ r.len < 65536 ∧ r.flags < 4096 ∧ r.pos < 5) && bytesOk r.data && decide (r.data.length ≤ 320)

/-- Both copies of a fuse word are words. -/
def FuseWord.wf (f : FuseWord) : Bool :=
  [f.aNorm, f.aProg, f.aBlank, f.bNorm, f.bProg, f.bBlank].all (fun w => decide (w < 2 ^ 32))

/-- A controller-port outcome: its RESULT code is below 8 and its data is a 16-bit word. -/
def PmOutcome.wf (o : PmOutcome) : Bool := decide (o.result < 8 ∧ o.rdata < 65536)

/-- What a register packet's words meet: at most 56 words are written. -/
def WriteObs.wf (o : WriteObs) : Bool :=
  o.xfer.wf && decide (o.setNow.length ≤ 56) && o.setNow.all (fun w => decide (w < 2 ^ 32))

/-- A round reads seven rails and eight core dies at most. -/
def RoundObs.wf (o : RoundObs) : Bool :=
  decide (o.rails.length ≤ 7 ∧ o.activity.length ≤ 8 ∧ o.model.length ≤ 8) &&
    o.poll.all (fun e => decide (e.1 < 8) && decide (e.2.length ≤ 4) && e.2.all PmOutcome.wf)

/-- A via has two ends, and its window lies in the range of its setting (Table 12.1). -/
def ViaTrain.wf (t : ViaTrain) : Bool := decide (t.setting < 128) && decide (t.first + t.len ≤ 128)

/-- What training finds, on masts that exist. -/
def trainOk (l : List (Nat × List ViaTrain)) : Bool := l.all (fun v => decide (v.1 < 136) && v.2.all ViaTrain.wf)

/-- A boot reads seven rails and finds dies D1 to D8. -/
def BootObs.wf (o : BootObs) : Bool :=
  decide (o.rails.length ≤ 7) && o.found.all (fun d => decide (1 ≤ d ∧ d ≤ 8)) && decide (o.sbAddr < 8) &&
    o.words.all (fun w => failsOk w.2) && trainOk o.vias && o.hang.all (fun n => decide (1 ≤ n ∧ n ≤ 9))

/-- A Furl exit trains masts and reads seals that exist. -/
def FurlObs.wf (o : FurlObs) : Bool :=
  trainOk o.vias && o.seals.all (fun v => decide (v.1 < 128))

/-- A command is well formed. -/
def Instr.wf : Instr → Bool
  | .porstN _ obs => obs.wf
  | .bootStepTimeout => true
  | .ready => true
  | .warmReset h obs => h.wf && obs.wf
  | .railDip rail mv => decide (rail < 7) && decide (mv < 65536)
  | .trstN => true
  | .portEnable p => decide (p < 8)
  | .portDisable p => decide (p < 8)
  | .prtCtrlRetrain p => decide (p < 8)
  | .testEn p _ errs checked => decide (p < 8) && decide (errs.length ≤ 4) && decide (checked.length ≤ 4)
  | .prtSlip p lane count => decide (p < 8) && decide (lane < 4) && decide (count < 64)
  | .lpllLock k _ => decide (k < 4)
  | .signalDetect p m => decide (p < 8) && decide (m < 4)
  | .lossOfSignal p m _ => decide (p < 8) && decide (m < 4)
  | .cdrLock p m => decide (p < 8) && decide (m < 4)
  | .sdWaitExpiry p m => decide (p < 8) && decide (m < 4)
  | .trainLenExpiry p adapted => decide (p < 8) && decide (adapted < 16)
  | .bitSlipSearch p adapted => decide (p < 8) && decide (adapted < 16)
  | .alignmentMarker p m _ _ place => decide (p < 8) && decide (m < 4) && decide (place.pos < 64)
  | .maskExchangeTimeout p => decide (p < 8)
  | .markerSend p => decide (p < 8)
  | .rxreqTmo p => decide (p < 8)
  | .lpllRereference k => decide (k < 4)
  | .holdoverExpiry k => decide (k < 4)
  | .parallelAlignerTimeout p => decide (p < 8)
  | .flitReceive p flit => decide (p < 8) && bytesOk flit && decide (flit.length = 256)
  | .nakResend p => decide (p < 8)
  | .replayTimer p => decide (p < 8)
  | .creditReturn p => decide (p < 8)
  | .slotRelease p => decide (p < 8)
  | .initTmo p => decide (p < 8)
  | .rd64 r => r.wf
  | .rd128 r => r.wf
  | .rd256 r => r.wf
  | .wr64 r => r.wf
  | .wrp r => r.wf
  | .atom r => r.wf
  | .scan r => r.wf
  | .fence r => r.wf
  | .fenceComplete p reqId tag => decide (p < 8) && decide (reqId < 4096) && decide (tag < 4096)
  | .mgmt r => r.wf
  | .unknownOpcode r => r.wf
  | .stackIdMismatch r => r.wf
  | .evtSend => true
  | .identify h => h.wf
  | .devStatus h => h.wf
  | .readTelemetry h => h.wf
  | .pendingStatus h => h.wf
  | .evtRead h => h.wf
  | .regRead h => h.wf
  | .regWrite h obs => h.wf && obs.wf
  | .regRmw h obs => h.wf && obs.wf
  | .regReadList h => h.wf
  | .registerWrite addr _ _ => decide (addr < 2 ^ 24)
  | .pwrSet h => h.wf
  | .pwrGet h => h.wf
  | .setRetention h => h.wf
  | .setWake h => h.wf
  | .clearRetlost h => h.wf
  | .stageClass h => h.wf
  | .stageReqmap h => h.wf
  | .stageAddrmap h => h.wf
  | .stageGuard h => h.wf
  | .stageEvtcfg h => h.wf
  | .commit h => h.wf
  | .commitApplied => true
  | .discard h => h.wf
  | .stageTimeout => true
  | .quiesce h => h.wf
  | .quiesceDrained => true
  | .quiesceTimeout => true
  | .unquiesce h => h.wf
  | .readModel h => h.wf
  | .tableRead h => h.wf
  | .bistRun h => h.wf
  | .bistDone fails => failsOk fails
  | .bistResult h => h.wf
  | .rowSpare h => h.wf
  | .softRowSpare errs => errs.all (fun e => wordErrs e.2)
  | .rowSpareHard h => h.wf
  | .evacuate h => h.wf
  | .evacStart fails => failsOk fails
  | .evacCopyLine errs => wordErrs errs
  | .evacDone => true
  | .fieldTest h errs => h.wf && wordErrs errs
  | .errInject h => h.wf
  | .scrubCfg h => h.wf
  | .fastScrub h => h.wf
  | .fastScrubDone => true
  | .otpRead h => h.wf
  | .otpProgram h => h.wf
  | .otpReblow h => h.wf
  | .otpLock h => h.wf
  | .otpMargin h => h.wf
  | .fltRead h => h.wf
  | .fltInject h => h.wf
  | .bbxRead h => h.wf
  | .bbxCommit h => h.wf
  | .freeze h => h.wf
  | .fltTable h => h.wf
  | .alertClear h => h.wf
  | .scnReserve h => h.wf
  | .scnRelease h => h.wf
  | .scnLimits h => h.wf
  | .scnCancel h => h.wf
  | .calRun h => h.wf
  | .calStatus h => h.wf
  | .calCfg h => h.wf
  | .thmRead h => h.wf
  | .thmSetWarn h => h.wf
  | .thmModel h => h.wf
  | .traceCfg h => h.wf
  | .traceRead h => h.wf
  | .vendorOpcode op h => decide (op = 0xFE ∨ op = 0xFF) && h.wf
  | .badOpcode op h => decide (op < 256) && h.wf
  | .watchdogRestart => true
  | .admission n => decide (n < 64)
  | .windowStart n => decide (n < 64)
  | .poolRefill => true
  | .urgencyTick => true
  | .promotion m => decide (m < 136)
  | .commandChoice m off => decide (m < 136) && decide (off < 8)
  | .modelRecompute => true
  | .modelHoldExpiry p => decide (p < 8)
  | .housekeepingRound obs => obs.wf
  | .refDue m h => decide (m < 136) && decide (h < 2)
  | .refStart m h => decide (m < 136) && decide (h < 2)
  | .refreshModeChange d => decide (1 ≤ d ∧ d ≤ 8)
  | .refreshSlot m => decide (m < 136)
  | .idleBoundary m user => decide (m < 136) && decide (user < 2)
  | .powerDownEntry m => decide (m < 136)
  | .fill m errs => decide (m < 136) && wordErrs errs
  | .missForward k => decide (k < 32)
  | .pendingOperation line => decide (line < 2 ^ 34)
  | .tagFetch m errs => decide (m < 136) && wordErrs errs
  | .mergeTimeout line => decide (line < 2 ^ 34)
  | .mergeClose m errs => decide (m < 136) && wordErrs errs
  | .atomExecute line => decide (line < 2 ^ 34)
  | .writeBack k => decide (k < 32)
  | .sramScrub k bad => decide (k < 32) && decide (bad < 36 * 16385 ∧ bad % 4 < 3)
  | .flush => true
  | .flushDone => true
  | .scanStart => true
  | .stagingLine e => decide (e < 16)
  | .scanComplete reqId tag => decide (reqId < 4096) && decide (tag < 4096)
  | .timeLimit reqId tag => decide (reqId < 4096) && decide (tag < 4096)
  | .bucketLeak => true
  | .patrolScrubLine errs => wordErrs errs
  | .reef2Scrub errs => errs.all (fun e => wordErrs e.2)
  | .retentionSweep errs => wordErrs errs
  | .sweepDone => true
  | .fieldTestTick errs => wordErrs errs
  | .fieldTestRetest m errs => decide (m < 136) && wordErrs errs
  | .stkDsel dies => decide (dies < 256)
  | .stkDtap => true
  | .dtapIdcode d => decide (1 ≤ d ∧ d ≤ 8)
  | .dtapSample d vias => decide (1 ≤ d ∧ d ≤ 8) && decide (vias < 2 ^ 1088)
  | .dtapExtest d vias value => decide (1 ≤ d ∧ d ≤ 8) && decide (vias < 2 ^ 1088) && decide (value < 2 ^ 1088)
  | .dtapIntest d vias value => decide (1 ≤ d ∧ d ≤ 8) && decide (vias < 2 ^ 1088) && decide (value < 2 ^ 1088)
  | .dieBist d _ sig => decide (1 ≤ d ∧ d ≤ 8) && decide (sig < 2 ^ 32)
  | .dtapBypass d => decide (1 ≤ d ∧ d ≤ 8)
  | .extest pins value => decide (pins < 2 ^ 23) && decide (value < 2 ^ 23)
  | .samplePreload pins preload => decide (pins < 2 ^ 23) && decide (preload < 2 ^ 23)
  | .clamp => true
  | .highz => true
  | .idcode => true
  | .bypass => true
  | .devStateRd => true
  | .cnsRead _ => true
  | .cnsResume _ _ => true
  | .bbxDump => true
  | .laneTrackWindow p counts => decide (p < 8) && counts.all (fun c => decide (c.1 < 4 ∧ c.2.1 < 3))
  | .calTrigger => true
  | .calHoldExpiry => true
  | .dieRun m _ errs => decide (m < 136) && wordErrs errs
  | .runDone => true
  | .fioTrimMeasure _ => true
  | .fioTrimStep => true
  | .thmSample d vals => decide (d ≤ 8) && vals.all (fun v => decide (v.1 < 8))
  | .thermalClear d => decide (d ≤ 8)
  | .restart => true
  | .aonThermalSample _ => true
  | .reef1Entry => true
  | .reef2Entry => true
  | .reefExit _ => true
  | .entryUnwind => true
  | .pendingPowerRequest => true
  | .wakePin => true
  | .furlWakeTimer => true
  | .customerWakeTimer => true
  | .sleepAddressMatch => true
  | .furlExit obs => obs.wf
  | .wakeFillDone => true
  | .monitorWindow n _ => decide (n < 5)
  | .stabilityCountEnd n => decide (n < 5)
  | .sourceRestart n => decide (n < 5)
  | .xbAbsent => true
  | .pllUnlock j => decide (j < 6)
  | .pllRelock j _ => decide (j < 6)
  | .deadSource sw old new => decide (1 ≤ sw ∧ sw ≤ 46) && decide (old < 16) && decide (new < 16)
  | .gateUngate b => decide (b < 10)
  | .gateRequest b => decide (b < 10)
  | .gateTakesEffect b => decide (b < 10)
  | .gatedAccess addr _ => decide (addr < 2 ^ 24)
  | .xlateLo _ => true
  | .probeLo _ => true
  | .flushCtrlStart _ => true
  | .aonTimeLo => true
  | .imgWin j => decide (j < 8)
  | .twWriteFrame addr bytes _ => decide (addr < 256) && bytesOk bytes
  | .twReadFrame addr _ => decide (addr < 256)
  | .twTimeout _ => true
  | .attentionPulse _ => true
  | .pmXfer _ outcome => outcome.wf
  | .pmbusHangRecovery _ => true
  | .faultMessage arrives => arrives.all (fun a => decide (a.1 < 1024 ∧ a.2.1 < 64 ∧ a.2.2.1 < 4 ∧ a.2.2.2 < 2 ^ 30))
  | .shadowEnd k => decide (k < 16)
  | .fenceHoldExpiry k => decide (k < 128)
  | .fencePermanent k => decide (k < 128)
  | .incrementalCommit => true
  | .freezeN => true
  | .freezeEntry => true
  | .dataLost => true
  | .drainTimeout => true
  | .progDone pulses => pulses.all FuseWord.wf
  | .commitDone => true
  | .resetDone d _ => decide (1 ≤ d ∧ d ≤ 8)
  | .relayReset trained => trained.all trainOk
  | .railsInRange obs => obs.wf
  | .selfRefreshRef m => decide (m < 136)

end Sys2Proof
end

