-- ==== Sys2Proof/Laws/PerInstr.lean ====
section
/-! SUPPORT. What well-formedness says of every command, one lemma for each: the halyard packet that it carries has every
field in range (Table 4.1), the request that it carries has (Table 3.8), and the port that it names is one of P0 to P7. -/

namespace Sys2Proof.Laws.Shape

set_option Elab.async false

/-- The halyard packet that a command carries. -/
def packetOf : Instr → Option Halyard
  | .warmReset x _ => some x
  | .identify x => some x
  | .devStatus x => some x
  | .readTelemetry x => some x
  | .pendingStatus x => some x
  | .evtRead x => some x
  | .regRead x => some x
  | .regWrite x _ => some x
  | .regRmw x _ => some x
  | .regReadList x => some x
  | .pwrSet x => some x
  | .pwrGet x => some x
  | .setRetention x => some x
  | .setWake x => some x
  | .clearRetlost x => some x
  | .stageClass x => some x
  | .stageReqmap x => some x
  | .stageAddrmap x => some x
  | .stageGuard x => some x
  | .stageEvtcfg x => some x
  | .commit x => some x
  | .discard x => some x
  | .quiesce x => some x
  | .unquiesce x => some x
  | .readModel x => some x
  | .tableRead x => some x
  | .bistRun x => some x
  | .bistResult x => some x
  | .rowSpare x => some x
  | .rowSpareHard x => some x
  | .evacuate x => some x
  | .fieldTest x _ => some x
  | .errInject x => some x
  | .scrubCfg x => some x
  | .fastScrub x => some x
  | .otpRead x => some x
  | .otpProgram x => some x
  | .otpReblow x => some x
  | .otpLock x => some x
  | .otpMargin x => some x
  | .fltRead x => some x
  | .fltInject x => some x
  | .bbxRead x => some x
  | .bbxCommit x => some x
  | .freeze x => some x
  | .fltTable x => some x
  | .alertClear x => some x
  | .scnReserve x => some x
  | .scnRelease x => some x
  | .scnLimits x => some x
  | .scnCancel x => some x
  | .calRun x => some x
  | .calStatus x => some x
  | .calCfg x => some x
  | .thmRead x => some x
  | .thmSetWarn x => some x
  | .thmModel x => some x
  | .traceCfg x => some x
  | .traceRead x => some x
  | .vendorOpcode _ x => some x
  | .badOpcode _ x => some x
  | _ => none

/-- The request that a command carries. -/
def requestOf : Instr → Option Req
  | .rd64 x => some x
  | .rd128 x => some x
  | .rd256 x => some x
  | .wr64 x => some x
  | .wrp x => some x
  | .atom x => some x
  | .scan x => some x
  | .fence x => some x
  | .mgmt x => some x
  | .unknownOpcode x => some x
  | .stackIdMismatch x => some x
  | _ => none

/-- The port that a command names. -/
def portOf : Instr → Option Nat
  | .portEnable x => some x
  | .portDisable x => some x
  | .prtCtrlRetrain x => some x
  | .testEn x _ _ _ => some x
  | .prtSlip x _ _ => some x
  | .signalDetect x _ => some x
  | .lossOfSignal x _ _ => some x
  | .cdrLock x _ => some x
  | .sdWaitExpiry x _ => some x
  | .trainLenExpiry x _ => some x
  | .bitSlipSearch x _ => some x
  | .alignmentMarker x _ _ _ _ => some x
  | .maskExchangeTimeout x => some x
  | .markerSend x => some x
  | .rxreqTmo x => some x
  | .parallelAlignerTimeout x => some x
  | .flitReceive x _ => some x
  | .nakResend x => some x
  | .replayTimer x => some x
  | .creditReturn x => some x
  | .slotRelease x => some x
  | .initTmo x => some x
  | .fenceComplete x _ _ => some x
  | .modelHoldExpiry x => some x
  | .laneTrackWindow x _ => some x
  | _ => none

/-- What well-formedness says of a command. -/
def Statement (i : Instr) : Prop :=
  i.wf = true → (∀ h, packetOf i = some h → h.wf = true) ∧ (∀ r, requestOf i = some r → r.wf = true) ∧
    (∀ p, portOf i = some p → p < 8)

theorem porstN (lowNs : Nat) (obs : BootObs) : Statement (.porstN lowNs obs) := by
  exact fun _ => ⟨nofun, nofun, nofun⟩

theorem bootStepTimeout : Statement .bootStepTimeout := by
  exact fun _ => ⟨nofun, nofun, nofun⟩

theorem ready : Statement .ready := by
  exact fun _ => ⟨nofun, nofun, nofun⟩

theorem warmReset (h : Halyard) (obs : BootObs) : Statement (.warmReset h obs) := by
  simp_all [Statement, packetOf, requestOf, portOf, Instr.wf]

theorem railDip (rail : Nat) (mv : Nat) : Statement (.railDip rail mv) := by
  exact fun _ => ⟨nofun, nofun, nofun⟩

theorem trstN : Statement .trstN := by
  exact fun _ => ⟨nofun, nofun, nofun⟩

theorem portEnable (p : Nat) : Statement (.portEnable p) := by
  simp_all [Statement, packetOf, requestOf, portOf, Instr.wf]

theorem portDisable (p : Nat) : Statement (.portDisable p) := by
  simp_all [Statement, packetOf, requestOf, portOf, Instr.wf]

theorem prtCtrlRetrain (p : Nat) : Statement (.prtCtrlRetrain p) := by
  simp_all [Statement, packetOf, requestOf, portOf, Instr.wf]

theorem testEn (p : Nat) (on : Bool) (errs : List Nat) (checked : List Nat) : Statement (.testEn p on errs checked) := by
  simp_all [Statement, packetOf, requestOf, portOf, Instr.wf]

theorem prtSlip (p : Nat) (lane : Nat) (count : Nat) : Statement (.prtSlip p lane count) := by
  simp_all [Statement, packetOf, requestOf, portOf, Instr.wf]

theorem lpllLock (k : Nat) (lockUs : Nat) : Statement (.lpllLock k lockUs) := by
  exact fun _ => ⟨nofun, nofun, nofun⟩

theorem signalDetect (p : Nat) (m : Nat) : Statement (.signalDetect p m) := by
  simp_all [Statement, packetOf, requestOf, portOf, Instr.wf]

theorem lossOfSignal (p : Nat) (m : Nat) (sdLost : Bool) : Statement (.lossOfSignal p m sdLost) := by
  simp_all [Statement, packetOf, requestOf, portOf, Instr.wf]

theorem cdrLock (p : Nat) (m : Nat) : Statement (.cdrLock p m) := by
  simp_all [Statement, packetOf, requestOf, portOf, Instr.wf]

theorem sdWaitExpiry (p : Nat) (m : Nat) : Statement (.sdWaitExpiry p m) := by
  simp_all [Statement, packetOf, requestOf, portOf, Instr.wf]

theorem trainLenExpiry (p : Nat) (adapted : Nat) : Statement (.trainLenExpiry p adapted) := by
  simp_all [Statement, packetOf, requestOf, portOf, Instr.wf]

theorem bitSlipSearch (p : Nat) (adapted : Nat) : Statement (.bitSlipSearch p adapted) := by
  simp_all [Statement, packetOf, requestOf, portOf, Instr.wf]

theorem alignmentMarker (p : Nat) (m : Nat) (marker : BitVec 128) (parity : BitVec 32) (place : MarkerPlace) : Statement (.alignmentMarker p m marker parity place) := by
  simp_all [Statement, packetOf, requestOf, portOf, Instr.wf]

theorem maskExchangeTimeout (p : Nat) : Statement (.maskExchangeTimeout p) := by
  simp_all [Statement, packetOf, requestOf, portOf, Instr.wf]

theorem markerSend (p : Nat) : Statement (.markerSend p) := by
  simp_all [Statement, packetOf, requestOf, portOf, Instr.wf]

theorem rxreqTmo (p : Nat) : Statement (.rxreqTmo p) := by
  simp_all [Statement, packetOf, requestOf, portOf, Instr.wf]

theorem lpllRereference (k : Nat) : Statement (.lpllRereference k) := by
  exact fun _ => ⟨nofun, nofun, nofun⟩

theorem holdoverExpiry (k : Nat) : Statement (.holdoverExpiry k) := by
  exact fun _ => ⟨nofun, nofun, nofun⟩

theorem parallelAlignerTimeout (p : Nat) : Statement (.parallelAlignerTimeout p) := by
  simp_all [Statement, packetOf, requestOf, portOf, Instr.wf]

theorem flitReceive (p : Nat) (flit : List Nat) : Statement (.flitReceive p flit) := by
  simp_all [Statement, packetOf, requestOf, portOf, Instr.wf]

theorem nakResend (p : Nat) : Statement (.nakResend p) := by
  simp_all [Statement, packetOf, requestOf, portOf, Instr.wf]

theorem replayTimer (p : Nat) : Statement (.replayTimer p) := by
  simp_all [Statement, packetOf, requestOf, portOf, Instr.wf]

theorem creditReturn (p : Nat) : Statement (.creditReturn p) := by
  simp_all [Statement, packetOf, requestOf, portOf, Instr.wf]

theorem slotRelease (p : Nat) : Statement (.slotRelease p) := by
  simp_all [Statement, packetOf, requestOf, portOf, Instr.wf]

theorem initTmo (p : Nat) : Statement (.initTmo p) := by
  simp_all [Statement, packetOf, requestOf, portOf, Instr.wf]

theorem rd64 (r : Req) : Statement (.rd64 r) := by
  simp_all [Statement, packetOf, requestOf, portOf, Instr.wf]

theorem rd128 (r : Req) : Statement (.rd128 r) := by
  simp_all [Statement, packetOf, requestOf, portOf, Instr.wf]

theorem rd256 (r : Req) : Statement (.rd256 r) := by
  simp_all [Statement, packetOf, requestOf, portOf, Instr.wf]

theorem wr64 (r : Req) : Statement (.wr64 r) := by
  simp_all [Statement, packetOf, requestOf, portOf, Instr.wf]

theorem wrp (r : Req) : Statement (.wrp r) := by
  simp_all [Statement, packetOf, requestOf, portOf, Instr.wf]

theorem atom (r : Req) : Statement (.atom r) := by
  simp_all [Statement, packetOf, requestOf, portOf, Instr.wf]

theorem scan (r : Req) : Statement (.scan r) := by
  simp_all [Statement, packetOf, requestOf, portOf, Instr.wf]

theorem fence (r : Req) : Statement (.fence r) := by
  simp_all [Statement, packetOf, requestOf, portOf, Instr.wf]

theorem fenceComplete (p : Nat) (reqId : Nat) (tag : Nat) : Statement (.fenceComplete p reqId tag) := by
  simp_all [Statement, packetOf, requestOf, portOf, Instr.wf]

theorem mgmt (r : Req) : Statement (.mgmt r) := by
  simp_all [Statement, packetOf, requestOf, portOf, Instr.wf]

theorem unknownOpcode (r : Req) : Statement (.unknownOpcode r) := by
  simp_all [Statement, packetOf, requestOf, portOf, Instr.wf]

theorem stackIdMismatch (r : Req) : Statement (.stackIdMismatch r) := by
  simp_all [Statement, packetOf, requestOf, portOf, Instr.wf]

theorem evtSend : Statement .evtSend := by
  exact fun _ => ⟨nofun, nofun, nofun⟩

theorem identify (h : Halyard) : Statement (.identify h) := by
  simp_all [Statement, packetOf, requestOf, portOf, Instr.wf]

theorem devStatus (h : Halyard) : Statement (.devStatus h) := by
  simp_all [Statement, packetOf, requestOf, portOf, Instr.wf]

theorem readTelemetry (h : Halyard) : Statement (.readTelemetry h) := by
  simp_all [Statement, packetOf, requestOf, portOf, Instr.wf]

theorem pendingStatus (h : Halyard) : Statement (.pendingStatus h) := by
  simp_all [Statement, packetOf, requestOf, portOf, Instr.wf]

theorem evtRead (h : Halyard) : Statement (.evtRead h) := by
  simp_all [Statement, packetOf, requestOf, portOf, Instr.wf]

theorem regRead (h : Halyard) : Statement (.regRead h) := by
  simp_all [Statement, packetOf, requestOf, portOf, Instr.wf]

theorem regWrite (h : Halyard) (obs : WriteObs) : Statement (.regWrite h obs) := by
  simp_all [Statement, packetOf, requestOf, portOf, Instr.wf]

theorem regRmw (h : Halyard) (obs : WriteObs) : Statement (.regRmw h obs) := by
  simp_all [Statement, packetOf, requestOf, portOf, Instr.wf]

theorem regReadList (h : Halyard) : Statement (.regReadList h) := by
  simp_all [Statement, packetOf, requestOf, portOf, Instr.wf]

theorem registerWrite (addr : Nat) (value : Word) (setNow : Word) : Statement (.registerWrite addr value setNow) := by
  exact fun _ => ⟨nofun, nofun, nofun⟩

theorem pwrSet (h : Halyard) : Statement (.pwrSet h) := by
  simp_all [Statement, packetOf, requestOf, portOf, Instr.wf]

theorem pwrGet (h : Halyard) : Statement (.pwrGet h) := by
  simp_all [Statement, packetOf, requestOf, portOf, Instr.wf]

theorem setRetention (h : Halyard) : Statement (.setRetention h) := by
  simp_all [Statement, packetOf, requestOf, portOf, Instr.wf]

theorem setWake (h : Halyard) : Statement (.setWake h) := by
  simp_all [Statement, packetOf, requestOf, portOf, Instr.wf]

theorem clearRetlost (h : Halyard) : Statement (.clearRetlost h) := by
  simp_all [Statement, packetOf, requestOf, portOf, Instr.wf]

theorem stageClass (h : Halyard) : Statement (.stageClass h) := by
  simp_all [Statement, packetOf, requestOf, portOf, Instr.wf]

theorem stageReqmap (h : Halyard) : Statement (.stageReqmap h) := by
  simp_all [Statement, packetOf, requestOf, portOf, Instr.wf]

theorem stageAddrmap (h : Halyard) : Statement (.stageAddrmap h) := by
  simp_all [Statement, packetOf, requestOf, portOf, Instr.wf]

theorem stageGuard (h : Halyard) : Statement (.stageGuard h) := by
  simp_all [Statement, packetOf, requestOf, portOf, Instr.wf]

theorem stageEvtcfg (h : Halyard) : Statement (.stageEvtcfg h) := by
  simp_all [Statement, packetOf, requestOf, portOf, Instr.wf]

theorem commit (h : Halyard) : Statement (.commit h) := by
  simp_all [Statement, packetOf, requestOf, portOf, Instr.wf]

theorem commitApplied : Statement .commitApplied := by
  exact fun _ => ⟨nofun, nofun, nofun⟩

theorem discard (h : Halyard) : Statement (.discard h) := by
  simp_all [Statement, packetOf, requestOf, portOf, Instr.wf]

theorem stageTimeout : Statement .stageTimeout := by
  exact fun _ => ⟨nofun, nofun, nofun⟩

theorem quiesce (h : Halyard) : Statement (.quiesce h) := by
  simp_all [Statement, packetOf, requestOf, portOf, Instr.wf]

theorem quiesceDrained : Statement .quiesceDrained := by
  exact fun _ => ⟨nofun, nofun, nofun⟩

theorem quiesceTimeout : Statement .quiesceTimeout := by
  exact fun _ => ⟨nofun, nofun, nofun⟩

theorem unquiesce (h : Halyard) : Statement (.unquiesce h) := by
  simp_all [Statement, packetOf, requestOf, portOf, Instr.wf]

theorem readModel (h : Halyard) : Statement (.readModel h) := by
  simp_all [Statement, packetOf, requestOf, portOf, Instr.wf]

theorem tableRead (h : Halyard) : Statement (.tableRead h) := by
  simp_all [Statement, packetOf, requestOf, portOf, Instr.wf]

theorem bistRun (h : Halyard) : Statement (.bistRun h) := by
  simp_all [Statement, packetOf, requestOf, portOf, Instr.wf]

theorem bistDone (fails : List (Nat × Nat)) : Statement (.bistDone fails) := by
  exact fun _ => ⟨nofun, nofun, nofun⟩

theorem bistResult (h : Halyard) : Statement (.bistResult h) := by
  simp_all [Statement, packetOf, requestOf, portOf, Instr.wf]

theorem rowSpare (h : Halyard) : Statement (.rowSpare h) := by
  simp_all [Statement, packetOf, requestOf, portOf, Instr.wf]

theorem softRowSpare (errs : List (Nat × List (Nat × Nat))) : Statement (.softRowSpare errs) := by
  exact fun _ => ⟨nofun, nofun, nofun⟩

theorem rowSpareHard (h : Halyard) : Statement (.rowSpareHard h) := by
  simp_all [Statement, packetOf, requestOf, portOf, Instr.wf]

theorem evacuate (h : Halyard) : Statement (.evacuate h) := by
  simp_all [Statement, packetOf, requestOf, portOf, Instr.wf]

theorem evacStart (fails : List (Nat × Nat)) : Statement (.evacStart fails) := by
  exact fun _ => ⟨nofun, nofun, nofun⟩

theorem evacCopyLine (errs : List (Nat × Nat)) : Statement (.evacCopyLine errs) := by
  exact fun _ => ⟨nofun, nofun, nofun⟩

theorem evacDone : Statement .evacDone := by
  exact fun _ => ⟨nofun, nofun, nofun⟩

theorem fieldTest (h : Halyard) (errs : List (Nat × Nat)) : Statement (.fieldTest h errs) := by
  simp_all [Statement, packetOf, requestOf, portOf, Instr.wf]

theorem errInject (h : Halyard) : Statement (.errInject h) := by
  simp_all [Statement, packetOf, requestOf, portOf, Instr.wf]

theorem scrubCfg (h : Halyard) : Statement (.scrubCfg h) := by
  simp_all [Statement, packetOf, requestOf, portOf, Instr.wf]

theorem fastScrub (h : Halyard) : Statement (.fastScrub h) := by
  simp_all [Statement, packetOf, requestOf, portOf, Instr.wf]

theorem fastScrubDone : Statement .fastScrubDone := by
  exact fun _ => ⟨nofun, nofun, nofun⟩

theorem otpRead (h : Halyard) : Statement (.otpRead h) := by
  simp_all [Statement, packetOf, requestOf, portOf, Instr.wf]

theorem otpProgram (h : Halyard) : Statement (.otpProgram h) := by
  simp_all [Statement, packetOf, requestOf, portOf, Instr.wf]

theorem otpReblow (h : Halyard) : Statement (.otpReblow h) := by
  simp_all [Statement, packetOf, requestOf, portOf, Instr.wf]

theorem otpLock (h : Halyard) : Statement (.otpLock h) := by
  simp_all [Statement, packetOf, requestOf, portOf, Instr.wf]

theorem otpMargin (h : Halyard) : Statement (.otpMargin h) := by
  simp_all [Statement, packetOf, requestOf, portOf, Instr.wf]

theorem fltRead (h : Halyard) : Statement (.fltRead h) := by
  simp_all [Statement, packetOf, requestOf, portOf, Instr.wf]

theorem fltInject (h : Halyard) : Statement (.fltInject h) := by
  simp_all [Statement, packetOf, requestOf, portOf, Instr.wf]

theorem bbxRead (h : Halyard) : Statement (.bbxRead h) := by
  simp_all [Statement, packetOf, requestOf, portOf, Instr.wf]

theorem bbxCommit (h : Halyard) : Statement (.bbxCommit h) := by
  simp_all [Statement, packetOf, requestOf, portOf, Instr.wf]

theorem freeze (h : Halyard) : Statement (.freeze h) := by
  simp_all [Statement, packetOf, requestOf, portOf, Instr.wf]

theorem fltTable (h : Halyard) : Statement (.fltTable h) := by
  simp_all [Statement, packetOf, requestOf, portOf, Instr.wf]

theorem alertClear (h : Halyard) : Statement (.alertClear h) := by
  simp_all [Statement, packetOf, requestOf, portOf, Instr.wf]

theorem scnReserve (h : Halyard) : Statement (.scnReserve h) := by
  simp_all [Statement, packetOf, requestOf, portOf, Instr.wf]

theorem scnRelease (h : Halyard) : Statement (.scnRelease h) := by
  simp_all [Statement, packetOf, requestOf, portOf, Instr.wf]

theorem scnLimits (h : Halyard) : Statement (.scnLimits h) := by
  simp_all [Statement, packetOf, requestOf, portOf, Instr.wf]

theorem scnCancel (h : Halyard) : Statement (.scnCancel h) := by
  simp_all [Statement, packetOf, requestOf, portOf, Instr.wf]

theorem calRun (h : Halyard) : Statement (.calRun h) := by
  simp_all [Statement, packetOf, requestOf, portOf, Instr.wf]

theorem calStatus (h : Halyard) : Statement (.calStatus h) := by
  simp_all [Statement, packetOf, requestOf, portOf, Instr.wf]

theorem calCfg (h : Halyard) : Statement (.calCfg h) := by
  simp_all [Statement, packetOf, requestOf, portOf, Instr.wf]

theorem thmRead (h : Halyard) : Statement (.thmRead h) := by
  simp_all [Statement, packetOf, requestOf, portOf, Instr.wf]

theorem thmSetWarn (h : Halyard) : Statement (.thmSetWarn h) := by
  simp_all [Statement, packetOf, requestOf, portOf, Instr.wf]

theorem thmModel (h : Halyard) : Statement (.thmModel h) := by
  simp_all [Statement, packetOf, requestOf, portOf, Instr.wf]

theorem traceCfg (h : Halyard) : Statement (.traceCfg h) := by
  simp_all [Statement, packetOf, requestOf, portOf, Instr.wf]

theorem traceRead (h : Halyard) : Statement (.traceRead h) := by
  simp_all [Statement, packetOf, requestOf, portOf, Instr.wf]

theorem vendorOpcode (op : Nat) (h : Halyard) : Statement (.vendorOpcode op h) := by
  simp_all [Statement, packetOf, requestOf, portOf, Instr.wf]

theorem badOpcode (op : Nat) (h : Halyard) : Statement (.badOpcode op h) := by
  simp_all [Statement, packetOf, requestOf, portOf, Instr.wf]

theorem watchdogRestart : Statement .watchdogRestart := by
  exact fun _ => ⟨nofun, nofun, nofun⟩

theorem admission (n : Nat) : Statement (.admission n) := by
  exact fun _ => ⟨nofun, nofun, nofun⟩

theorem windowStart (n : Nat) : Statement (.windowStart n) := by
  exact fun _ => ⟨nofun, nofun, nofun⟩

theorem poolRefill : Statement .poolRefill := by
  exact fun _ => ⟨nofun, nofun, nofun⟩

theorem urgencyTick : Statement .urgencyTick := by
  exact fun _ => ⟨nofun, nofun, nofun⟩

theorem promotion (m : Nat) : Statement (.promotion m) := by
  exact fun _ => ⟨nofun, nofun, nofun⟩

theorem commandChoice (m : Nat) (off : Nat) : Statement (.commandChoice m off) := by
  exact fun _ => ⟨nofun, nofun, nofun⟩

theorem modelRecompute : Statement .modelRecompute := by
  exact fun _ => ⟨nofun, nofun, nofun⟩

theorem modelHoldExpiry (p : Nat) : Statement (.modelHoldExpiry p) := by
  simp_all [Statement, packetOf, requestOf, portOf, Instr.wf]

theorem housekeepingRound (obs : RoundObs) : Statement (.housekeepingRound obs) := by
  exact fun _ => ⟨nofun, nofun, nofun⟩

theorem refDue (m : Nat) (h : Nat) : Statement (.refDue m h) := by
  exact fun _ => ⟨nofun, nofun, nofun⟩

theorem refStart (m : Nat) (h : Nat) : Statement (.refStart m h) := by
  exact fun _ => ⟨nofun, nofun, nofun⟩

theorem refreshModeChange (d : Nat) : Statement (.refreshModeChange d) := by
  exact fun _ => ⟨nofun, nofun, nofun⟩

theorem refreshSlot (m : Nat) : Statement (.refreshSlot m) := by
  exact fun _ => ⟨nofun, nofun, nofun⟩

theorem idleBoundary (m : Nat) (user : Nat) : Statement (.idleBoundary m user) := by
  exact fun _ => ⟨nofun, nofun, nofun⟩

theorem powerDownEntry (m : Nat) : Statement (.powerDownEntry m) := by
  exact fun _ => ⟨nofun, nofun, nofun⟩

theorem fill (m : Nat) (errs : List (Nat × Nat)) : Statement (.fill m errs) := by
  exact fun _ => ⟨nofun, nofun, nofun⟩

theorem missForward (k : Nat) : Statement (.missForward k) := by
  exact fun _ => ⟨nofun, nofun, nofun⟩

theorem pendingOperation (line : Nat) : Statement (.pendingOperation line) := by
  exact fun _ => ⟨nofun, nofun, nofun⟩

theorem tagFetch (m : Nat) (errs : List (Nat × Nat)) : Statement (.tagFetch m errs) := by
  exact fun _ => ⟨nofun, nofun, nofun⟩

theorem mergeTimeout (line : Nat) : Statement (.mergeTimeout line) := by
  exact fun _ => ⟨nofun, nofun, nofun⟩

theorem mergeClose (m : Nat) (errs : List (Nat × Nat)) : Statement (.mergeClose m errs) := by
  exact fun _ => ⟨nofun, nofun, nofun⟩

theorem atomExecute (line : Nat) : Statement (.atomExecute line) := by
  exact fun _ => ⟨nofun, nofun, nofun⟩

theorem writeBack (k : Nat) : Statement (.writeBack k) := by
  exact fun _ => ⟨nofun, nofun, nofun⟩

theorem sramScrub (k : Nat) (bad : Nat) : Statement (.sramScrub k bad) := by
  exact fun _ => ⟨nofun, nofun, nofun⟩

theorem flush : Statement .flush := by
  exact fun _ => ⟨nofun, nofun, nofun⟩

theorem flushDone : Statement .flushDone := by
  exact fun _ => ⟨nofun, nofun, nofun⟩

theorem scanStart : Statement .scanStart := by
  exact fun _ => ⟨nofun, nofun, nofun⟩

theorem stagingLine (e : Nat) : Statement (.stagingLine e) := by
  exact fun _ => ⟨nofun, nofun, nofun⟩

theorem scanComplete (reqId : Nat) (tag : Nat) : Statement (.scanComplete reqId tag) := by
  exact fun _ => ⟨nofun, nofun, nofun⟩

theorem timeLimit (reqId : Nat) (tag : Nat) : Statement (.timeLimit reqId tag) := by
  exact fun _ => ⟨nofun, nofun, nofun⟩

theorem bucketLeak : Statement .bucketLeak := by
  exact fun _ => ⟨nofun, nofun, nofun⟩

theorem patrolScrubLine (errs : List (Nat × Nat)) : Statement (.patrolScrubLine errs) := by
  exact fun _ => ⟨nofun, nofun, nofun⟩

theorem reef2Scrub (errs : List (Nat × List (Nat × Nat))) : Statement (.reef2Scrub errs) := by
  exact fun _ => ⟨nofun, nofun, nofun⟩

theorem retentionSweep (errs : List (Nat × Nat)) : Statement (.retentionSweep errs) := by
  exact fun _ => ⟨nofun, nofun, nofun⟩

theorem sweepDone : Statement .sweepDone := by
  exact fun _ => ⟨nofun, nofun, nofun⟩

theorem fieldTestTick (errs : List (Nat × Nat)) : Statement (.fieldTestTick errs) := by
  exact fun _ => ⟨nofun, nofun, nofun⟩

theorem fieldTestRetest (m : Nat) (errs : List (Nat × Nat)) : Statement (.fieldTestRetest m errs) := by
  exact fun _ => ⟨nofun, nofun, nofun⟩

theorem stkDsel (dies : Nat) : Statement (.stkDsel dies) := by
  exact fun _ => ⟨nofun, nofun, nofun⟩

theorem stkDtap : Statement .stkDtap := by
  exact fun _ => ⟨nofun, nofun, nofun⟩

theorem dtapIdcode (d : Nat) : Statement (.dtapIdcode d) := by
  exact fun _ => ⟨nofun, nofun, nofun⟩

theorem dtapSample (d : Nat) (vias : Nat) : Statement (.dtapSample d vias) := by
  exact fun _ => ⟨nofun, nofun, nofun⟩

theorem dtapExtest (d : Nat) (vias : Nat) (value : Nat) : Statement (.dtapExtest d vias value) := by
  exact fun _ => ⟨nofun, nofun, nofun⟩

theorem dtapIntest (d : Nat) (vias : Nat) (value : Nat) : Statement (.dtapIntest d vias value) := by
  exact fun _ => ⟨nofun, nofun, nofun⟩

theorem dieBist (d : Nat) (pass : Bool) (sig : Nat) : Statement (.dieBist d pass sig) := by
  exact fun _ => ⟨nofun, nofun, nofun⟩

theorem dtapBypass (d : Nat) : Statement (.dtapBypass d) := by
  exact fun _ => ⟨nofun, nofun, nofun⟩

theorem extest (pins : Nat) (value : Nat) : Statement (.extest pins value) := by
  exact fun _ => ⟨nofun, nofun, nofun⟩

theorem samplePreload (pins : Nat) (preload : Nat) : Statement (.samplePreload pins preload) := by
  exact fun _ => ⟨nofun, nofun, nofun⟩

theorem clamp : Statement .clamp := by
  exact fun _ => ⟨nofun, nofun, nofun⟩

theorem highz : Statement .highz := by
  exact fun _ => ⟨nofun, nofun, nofun⟩

theorem idcode : Statement .idcode := by
  exact fun _ => ⟨nofun, nofun, nofun⟩

theorem bypass : Statement .bypass := by
  exact fun _ => ⟨nofun, nofun, nofun⟩

theorem devStateRd : Statement .devStateRd := by
  exact fun _ => ⟨nofun, nofun, nofun⟩

theorem cnsRead (shifts : Nat) : Statement (.cnsRead shifts) := by
  exact fun _ => ⟨nofun, nofun, nofun⟩

theorem cnsResume (pin : Bool) (update : Bool) : Statement (.cnsResume pin update) := by
  exact fun _ => ⟨nofun, nofun, nofun⟩

theorem bbxDump : Statement .bbxDump := by
  exact fun _ => ⟨nofun, nofun, nofun⟩

theorem laneTrackWindow (p : Nat) (counts : List (Nat × Nat × Nat × Nat)) : Statement (.laneTrackWindow p counts) := by
  simp_all [Statement, packetOf, requestOf, portOf, Instr.wf]

theorem calTrigger : Statement .calTrigger := by
  exact fun _ => ⟨nofun, nofun, nofun⟩

theorem calHoldExpiry : Statement .calHoldExpiry := by
  exact fun _ => ⟨nofun, nofun, nofun⟩

theorem dieRun (m : Nat) (meas : List (Nat × Int × Nat)) (errs : List (Nat × Nat)) : Statement (.dieRun m meas errs) := by
  exact fun _ => ⟨nofun, nofun, nofun⟩

theorem runDone : Statement .runDone := by
  exact fun _ => ⟨nofun, nofun, nofun⟩

theorem fioTrimMeasure (count : Nat) : Statement (.fioTrimMeasure count) := by
  exact fun _ => ⟨nofun, nofun, nofun⟩

theorem fioTrimStep : Statement .fioTrimStep := by
  exact fun _ => ⟨nofun, nofun, nofun⟩

theorem thmSample (d : Nat) (vals : List (Nat × Int)) : Statement (.thmSample d vals) := by
  exact fun _ => ⟨nofun, nofun, nofun⟩

theorem thermalClear (d : Nat) : Statement (.thermalClear d) := by
  exact fun _ => ⟨nofun, nofun, nofun⟩

theorem restart : Statement .restart := by
  exact fun _ => ⟨nofun, nofun, nofun⟩

theorem aonThermalSample (temps : List Int) : Statement (.aonThermalSample temps) := by
  exact fun _ => ⟨nofun, nofun, nofun⟩

theorem reef1Entry : Statement .reef1Entry := by
  exact fun _ => ⟨nofun, nofun, nofun⟩

theorem reef2Entry : Statement .reef2Entry := by
  exact fun _ => ⟨nofun, nofun, nofun⟩

theorem reefExit (ns : Nat) : Statement (.reefExit ns) := by
  exact fun _ => ⟨nofun, nofun, nofun⟩

theorem entryUnwind : Statement .entryUnwind := by
  exact fun _ => ⟨nofun, nofun, nofun⟩

theorem pendingPowerRequest : Statement .pendingPowerRequest := by
  exact fun _ => ⟨nofun, nofun, nofun⟩

theorem wakePin : Statement .wakePin := by
  exact fun _ => ⟨nofun, nofun, nofun⟩

theorem furlWakeTimer : Statement .furlWakeTimer := by
  exact fun _ => ⟨nofun, nofun, nofun⟩

theorem customerWakeTimer : Statement .customerWakeTimer := by
  exact fun _ => ⟨nofun, nofun, nofun⟩

theorem sleepAddressMatch : Statement .sleepAddressMatch := by
  exact fun _ => ⟨nofun, nofun, nofun⟩

theorem furlExit (obs : FurlObs) : Statement (.furlExit obs) := by
  exact fun _ => ⟨nofun, nofun, nofun⟩

theorem wakeFillDone : Statement .wakeFillDone := by
  exact fun _ => ⟨nofun, nofun, nofun⟩

theorem monitorWindow (n : Nat) (count : Nat) : Statement (.monitorWindow n count) := by
  exact fun _ => ⟨nofun, nofun, nofun⟩

theorem stabilityCountEnd (n : Nat) : Statement (.stabilityCountEnd n) := by
  exact fun _ => ⟨nofun, nofun, nofun⟩

theorem sourceRestart (n : Nat) : Statement (.sourceRestart n) := by
  exact fun _ => ⟨nofun, nofun, nofun⟩

theorem xbAbsent : Statement .xbAbsent := by
  exact fun _ => ⟨nofun, nofun, nofun⟩

theorem pllUnlock (j : Nat) : Statement (.pllUnlock j) := by
  exact fun _ => ⟨nofun, nofun, nofun⟩

theorem pllRelock (j : Nat) (lockUs : Nat) : Statement (.pllRelock j lockUs) := by
  exact fun _ => ⟨nofun, nofun, nofun⟩

theorem deadSource (sw : Nat) (old : Nat) (new : Nat) : Statement (.deadSource sw old new) := by
  exact fun _ => ⟨nofun, nofun, nofun⟩

theorem gateUngate (b : Nat) : Statement (.gateUngate b) := by
  exact fun _ => ⟨nofun, nofun, nofun⟩

theorem gateRequest (b : Nat) : Statement (.gateRequest b) := by
  exact fun _ => ⟨nofun, nofun, nofun⟩

theorem gateTakesEffect (b : Nat) : Statement (.gateTakesEffect b) := by
  exact fun _ => ⟨nofun, nofun, nofun⟩

theorem gatedAccess (addr : Nat) (write : Bool) : Statement (.gatedAccess addr write) := by
  exact fun _ => ⟨nofun, nofun, nofun⟩

theorem xlateLo (value : Word) : Statement (.xlateLo value) := by
  exact fun _ => ⟨nofun, nofun, nofun⟩

theorem probeLo (value : Word) : Statement (.probeLo value) := by
  exact fun _ => ⟨nofun, nofun, nofun⟩

theorem flushCtrlStart (inv : Bool) : Statement (.flushCtrlStart inv) := by
  exact fun _ => ⟨nofun, nofun, nofun⟩

theorem aonTimeLo : Statement .aonTimeLo := by
  exact fun _ => ⟨nofun, nofun, nofun⟩

theorem imgWin (j : Nat) : Statement (.imgWin j) := by
  exact fun _ => ⟨nofun, nofun, nofun⟩

theorem twWriteFrame (addr : Nat) (bytes : List Nat) (badStart : Bool) : Statement (.twWriteFrame addr bytes badStart) := by
  exact fun _ => ⟨nofun, nofun, nofun⟩

theorem twReadFrame (addr : Nat) (count : Nat) : Statement (.twReadFrame addr count) := by
  exact fun _ => ⟨nofun, nofun, nofun⟩

theorem twTimeout (scl : Bool) : Statement (.twTimeout scl) := by
  exact fun _ => ⟨nofun, nofun, nofun⟩

theorem attentionPulse (collision : Bool) : Statement (.attentionPulse collision) := by
  exact fun _ => ⟨nofun, nofun, nofun⟩

theorem pmXfer (value : Word) (outcome : PmOutcome) : Statement (.pmXfer value outcome) := by
  exact fun _ => ⟨nofun, nofun, nofun⟩

theorem pmbusHangRecovery (clocks : Option Nat) : Statement (.pmbusHangRecovery clocks) := by
  exact fun _ => ⟨nofun, nofun, nofun⟩

theorem faultMessage (arrives : Option (Nat × Nat × Nat × Nat)) : Statement (.faultMessage arrives) := by
  exact fun _ => ⟨nofun, nofun, nofun⟩

theorem shadowEnd (k : Nat) : Statement (.shadowEnd k) := by
  exact fun _ => ⟨nofun, nofun, nofun⟩

theorem fenceHoldExpiry (k : Nat) : Statement (.fenceHoldExpiry k) := by
  exact fun _ => ⟨nofun, nofun, nofun⟩

theorem fencePermanent (k : Nat) : Statement (.fencePermanent k) := by
  exact fun _ => ⟨nofun, nofun, nofun⟩

theorem incrementalCommit : Statement .incrementalCommit := by
  exact fun _ => ⟨nofun, nofun, nofun⟩

theorem freezeN : Statement .freezeN := by
  exact fun _ => ⟨nofun, nofun, nofun⟩

theorem freezeEntry : Statement .freezeEntry := by
  exact fun _ => ⟨nofun, nofun, nofun⟩

theorem dataLost : Statement .dataLost := by
  exact fun _ => ⟨nofun, nofun, nofun⟩

theorem drainTimeout : Statement .drainTimeout := by
  exact fun _ => ⟨nofun, nofun, nofun⟩

theorem progDone (pulses : List FuseWord) : Statement (.progDone pulses) := by
  exact fun _ => ⟨nofun, nofun, nofun⟩

theorem commitDone : Statement .commitDone := by
  exact fun _ => ⟨nofun, nofun, nofun⟩

theorem resetDone (d : Nat) (len : Nat) : Statement (.resetDone d len) := by
  exact fun _ => ⟨nofun, nofun, nofun⟩

theorem relayReset (trained : Option (List (Nat × List ViaTrain))) : Statement (.relayReset trained) := by
  exact fun _ => ⟨nofun, nofun, nofun⟩

theorem railsInRange (obs : BootObs) : Statement (.railsInRange obs) := by
  exact fun _ => ⟨nofun, nofun, nofun⟩

theorem selfRefreshRef (m : Nat) : Statement (.selfRefreshRef m) := by
  exact fun _ => ⟨nofun, nofun, nofun⟩

end Sys2Proof.Laws.Shape
end

