-- ==== Sys2Proof/Laws/Pieces.lean ====
section
/-! SUPPORT. What writing a port, a lane, a link, a slice, an engine, a token count, a die's temperatures, a calibration run or a
monitor does to every other field of the state. -/

namespace Sys2Proof.Machine

@[simp] theorem State.setPort_part (s : State) (p : Nat) (v : PortSt) : (s.setPort p v).part = s.part := rfl
@[simp] theorem State.setPort_now (s : State) (p : Nat) (v : PortSt) : (s.setPort p v).now = s.now := rfl
@[simp] theorem State.setPort_aon (s : State) (p : Nat) (v : PortSt) : (s.setPort p v).aon = s.aon := rfl
@[simp] theorem State.setPort_free (s : State) (p : Nat) (v : PortSt) : (s.setPort p v).free = s.free := rfl
@[simp] theorem State.setPort_mem (s : State) (p : Nat) (v : PortSt) : (s.setPort p v).mem = s.mem := rfl
@[simp] theorem State.setPort_fillOne (s : State) (p : Nat) (v : PortSt) : (s.setPort p v).fillOne = s.fillOne := rfl
@[simp] theorem State.setPort_links (s : State) (p : Nat) (v : PortSt) : (s.setPort p v).links = s.links := rfl
@[simp] theorem State.setPort_nextRx (s : State) (p : Nat) (v : PortSt) : (s.setPort p v).nextRx = s.nextRx := rfl
@[simp] theorem State.setPort_txns (s : State) (p : Nat) (v : PortSt) : (s.setPort p v).txns = s.txns := rfl
@[simp] theorem State.setPort_sch (s : State) (p : Nat) (v : PortSt) : (s.setPort p v).sch = s.sch := rfl
@[simp] theorem State.setPort_slices (s : State) (p : Nat) (v : PortSt) : (s.setPort p v).slices = s.slices := rfl
@[simp] theorem State.setPort_engs (s : State) (p : Nat) (v : PortSt) : (s.setPort p v).engs = s.engs := rfl
@[simp] theorem State.setPort_refs (s : State) (p : Nat) (v : PortSt) : (s.setPort p v).refs = s.refs := rfl
@[simp] theorem State.setPort_remap (s : State) (p : Nat) (v : PortSt) : (s.setPort p v).remap = s.remap := rfl
@[simp] theorem State.setPort_flush (s : State) (p : Nat) (v : PortSt) : (s.setPort p v).flush = s.flush := rfl
@[simp] theorem State.setPort_ecc (s : State) (p : Nat) (v : PortSt) : (s.setPort p v).ecc = s.ecc := rfl
@[simp] theorem State.setPort_stk (s : State) (p : Nat) (v : PortSt) : (s.setPort p v).stk = s.stk := rfl
@[simp] theorem State.setPort_scn (s : State) (p : Nat) (v : PortSt) : (s.setPort p v).scn = s.scn := rfl
@[simp] theorem State.setPort_tap (s : State) (p : Nat) (v : PortSt) : (s.setPort p v).tap = s.tap := rfl
@[simp] theorem State.setPort_cal (s : State) (p : Nat) (v : PortSt) : (s.setPort p v).cal = s.cal := rfl
@[simp] theorem State.setPort_thm (s : State) (p : Nat) (v : PortSt) : (s.setPort p v).thm = s.thm := rfl
@[simp] theorem State.setPort_clk (s : State) (p : Nat) (v : PortSt) : (s.setPort p v).clk = s.clk := rfl
@[simp] theorem State.setPort_twb (s : State) (p : Nat) (v : PortSt) : (s.setPort p v).twb = s.twb := rfl
@[simp] theorem State.setPort_mgc (s : State) (p : Nat) (v : PortSt) : (s.setPort p v).mgc = s.mgc := rfl
@[simp] theorem State.setPort_flt (s : State) (p : Nat) (v : PortSt) : (s.setPort p v).flt = s.flt := rfl
@[simp] theorem State.setPort_bbx (s : State) (p : Nat) (v : PortSt) : (s.setPort p v).bbx = s.bbx := rfl
@[simp] theorem State.setPort_trc (s : State) (p : Nat) (v : PortSt) : (s.setPort p v).trc = s.trc := rfl
@[simp] theorem State.setPort_cns (s : State) (p : Nat) (v : PortSt) : (s.setPort p v).cns = s.cns := rfl
@[simp] theorem State.setPort_otp (s : State) (p : Nat) (v : PortSt) : (s.setPort p v).otp = s.otp := rfl
@[simp] theorem State.setPort_pw (s : State) (p : Nat) (v : PortSt) : (s.setPort p v).pw = s.pw := rfl
@[simp] theorem State.setPort_inReset (s : State) (p : Nat) (v : PortSt) : (s.setPort p v).inReset = s.inReset := rfl
@[simp] theorem State.setPort_pending (s : State) (p : Nat) (v : PortSt) : (s.setPort p v).pending = s.pending := rfl
@[simp] theorem State.setPort_regs (s : State) (p : Nat) (v : PortSt) : (s.setPort p v).regs = s.regs := rfl
@[simp] theorem State.setPort_reg (s : State) (p : Nat) (v : PortSt) (a : Nat) : (s.setPort p v).reg a = s.reg a := rfl
@[simp] theorem State.setPort_fget (s : State) (p : Nat) (v : PortSt) (f : Fld) : (s.setPort p v).fget f = s.fget f := rfl
@[simp] theorem State.setPort_flag (s : State) (p : Nat) (v : PortSt) (f : Fld) : (s.setPort p v).flag f = s.flag f := rfl

@[simp] theorem State.setLane_part (s : State) (p m : Nat) (v : LaneSt) : (s.setLane p m v).part = s.part := rfl
@[simp] theorem State.setLane_now (s : State) (p m : Nat) (v : LaneSt) : (s.setLane p m v).now = s.now := rfl
@[simp] theorem State.setLane_aon (s : State) (p m : Nat) (v : LaneSt) : (s.setLane p m v).aon = s.aon := rfl
@[simp] theorem State.setLane_free (s : State) (p m : Nat) (v : LaneSt) : (s.setLane p m v).free = s.free := rfl
@[simp] theorem State.setLane_mem (s : State) (p m : Nat) (v : LaneSt) : (s.setLane p m v).mem = s.mem := rfl
@[simp] theorem State.setLane_fillOne (s : State) (p m : Nat) (v : LaneSt) : (s.setLane p m v).fillOne = s.fillOne := rfl
@[simp] theorem State.setLane_links (s : State) (p m : Nat) (v : LaneSt) : (s.setLane p m v).links = s.links := rfl
@[simp] theorem State.setLane_nextRx (s : State) (p m : Nat) (v : LaneSt) : (s.setLane p m v).nextRx = s.nextRx := rfl
@[simp] theorem State.setLane_txns (s : State) (p m : Nat) (v : LaneSt) : (s.setLane p m v).txns = s.txns := rfl
@[simp] theorem State.setLane_sch (s : State) (p m : Nat) (v : LaneSt) : (s.setLane p m v).sch = s.sch := rfl
@[simp] theorem State.setLane_slices (s : State) (p m : Nat) (v : LaneSt) : (s.setLane p m v).slices = s.slices := rfl
@[simp] theorem State.setLane_engs (s : State) (p m : Nat) (v : LaneSt) : (s.setLane p m v).engs = s.engs := rfl
@[simp] theorem State.setLane_refs (s : State) (p m : Nat) (v : LaneSt) : (s.setLane p m v).refs = s.refs := rfl
@[simp] theorem State.setLane_remap (s : State) (p m : Nat) (v : LaneSt) : (s.setLane p m v).remap = s.remap := rfl
@[simp] theorem State.setLane_flush (s : State) (p m : Nat) (v : LaneSt) : (s.setLane p m v).flush = s.flush := rfl
@[simp] theorem State.setLane_ecc (s : State) (p m : Nat) (v : LaneSt) : (s.setLane p m v).ecc = s.ecc := rfl
@[simp] theorem State.setLane_stk (s : State) (p m : Nat) (v : LaneSt) : (s.setLane p m v).stk = s.stk := rfl
@[simp] theorem State.setLane_scn (s : State) (p m : Nat) (v : LaneSt) : (s.setLane p m v).scn = s.scn := rfl
@[simp] theorem State.setLane_tap (s : State) (p m : Nat) (v : LaneSt) : (s.setLane p m v).tap = s.tap := rfl
@[simp] theorem State.setLane_cal (s : State) (p m : Nat) (v : LaneSt) : (s.setLane p m v).cal = s.cal := rfl
@[simp] theorem State.setLane_thm (s : State) (p m : Nat) (v : LaneSt) : (s.setLane p m v).thm = s.thm := rfl
@[simp] theorem State.setLane_clk (s : State) (p m : Nat) (v : LaneSt) : (s.setLane p m v).clk = s.clk := rfl
@[simp] theorem State.setLane_twb (s : State) (p m : Nat) (v : LaneSt) : (s.setLane p m v).twb = s.twb := rfl
@[simp] theorem State.setLane_mgc (s : State) (p m : Nat) (v : LaneSt) : (s.setLane p m v).mgc = s.mgc := rfl
@[simp] theorem State.setLane_flt (s : State) (p m : Nat) (v : LaneSt) : (s.setLane p m v).flt = s.flt := rfl
@[simp] theorem State.setLane_bbx (s : State) (p m : Nat) (v : LaneSt) : (s.setLane p m v).bbx = s.bbx := rfl
@[simp] theorem State.setLane_trc (s : State) (p m : Nat) (v : LaneSt) : (s.setLane p m v).trc = s.trc := rfl
@[simp] theorem State.setLane_cns (s : State) (p m : Nat) (v : LaneSt) : (s.setLane p m v).cns = s.cns := rfl
@[simp] theorem State.setLane_otp (s : State) (p m : Nat) (v : LaneSt) : (s.setLane p m v).otp = s.otp := rfl
@[simp] theorem State.setLane_pw (s : State) (p m : Nat) (v : LaneSt) : (s.setLane p m v).pw = s.pw := rfl
@[simp] theorem State.setLane_inReset (s : State) (p m : Nat) (v : LaneSt) : (s.setLane p m v).inReset = s.inReset := rfl
@[simp] theorem State.setLane_pending (s : State) (p m : Nat) (v : LaneSt) : (s.setLane p m v).pending = s.pending := rfl
@[simp] theorem State.setLane_regs (s : State) (p m : Nat) (v : LaneSt) : (s.setLane p m v).regs = s.regs := rfl
@[simp] theorem State.setLane_reg (s : State) (p m : Nat) (v : LaneSt) (a : Nat) : (s.setLane p m v).reg a = s.reg a := rfl
@[simp] theorem State.setLane_fget (s : State) (p m : Nat) (v : LaneSt) (f : Fld) : (s.setLane p m v).fget f = s.fget f := rfl
@[simp] theorem State.setLane_flag (s : State) (p m : Nat) (v : LaneSt) (f : Fld) : (s.setLane p m v).flag f = s.flag f := rfl

@[simp] theorem State.setLink_part (s : State) (p : Nat) (v : LinkSt) : (s.setLink p v).part = s.part := rfl
@[simp] theorem State.setLink_now (s : State) (p : Nat) (v : LinkSt) : (s.setLink p v).now = s.now := rfl
@[simp] theorem State.setLink_aon (s : State) (p : Nat) (v : LinkSt) : (s.setLink p v).aon = s.aon := rfl
@[simp] theorem State.setLink_free (s : State) (p : Nat) (v : LinkSt) : (s.setLink p v).free = s.free := rfl
@[simp] theorem State.setLink_mem (s : State) (p : Nat) (v : LinkSt) : (s.setLink p v).mem = s.mem := rfl
@[simp] theorem State.setLink_fillOne (s : State) (p : Nat) (v : LinkSt) : (s.setLink p v).fillOne = s.fillOne := rfl
@[simp] theorem State.setLink_ports (s : State) (p : Nat) (v : LinkSt) : (s.setLink p v).ports = s.ports := rfl
@[simp] theorem State.setLink_nextRx (s : State) (p : Nat) (v : LinkSt) : (s.setLink p v).nextRx = s.nextRx := rfl
@[simp] theorem State.setLink_txns (s : State) (p : Nat) (v : LinkSt) : (s.setLink p v).txns = s.txns := rfl
@[simp] theorem State.setLink_sch (s : State) (p : Nat) (v : LinkSt) : (s.setLink p v).sch = s.sch := rfl
@[simp] theorem State.setLink_slices (s : State) (p : Nat) (v : LinkSt) : (s.setLink p v).slices = s.slices := rfl
@[simp] theorem State.setLink_engs (s : State) (p : Nat) (v : LinkSt) : (s.setLink p v).engs = s.engs := rfl
@[simp] theorem State.setLink_refs (s : State) (p : Nat) (v : LinkSt) : (s.setLink p v).refs = s.refs := rfl
@[simp] theorem State.setLink_remap (s : State) (p : Nat) (v : LinkSt) : (s.setLink p v).remap = s.remap := rfl
@[simp] theorem State.setLink_flush (s : State) (p : Nat) (v : LinkSt) : (s.setLink p v).flush = s.flush := rfl
@[simp] theorem State.setLink_ecc (s : State) (p : Nat) (v : LinkSt) : (s.setLink p v).ecc = s.ecc := rfl
@[simp] theorem State.setLink_stk (s : State) (p : Nat) (v : LinkSt) : (s.setLink p v).stk = s.stk := rfl
@[simp] theorem State.setLink_scn (s : State) (p : Nat) (v : LinkSt) : (s.setLink p v).scn = s.scn := rfl
@[simp] theorem State.setLink_tap (s : State) (p : Nat) (v : LinkSt) : (s.setLink p v).tap = s.tap := rfl
@[simp] theorem State.setLink_cal (s : State) (p : Nat) (v : LinkSt) : (s.setLink p v).cal = s.cal := rfl
@[simp] theorem State.setLink_thm (s : State) (p : Nat) (v : LinkSt) : (s.setLink p v).thm = s.thm := rfl
@[simp] theorem State.setLink_clk (s : State) (p : Nat) (v : LinkSt) : (s.setLink p v).clk = s.clk := rfl
@[simp] theorem State.setLink_twb (s : State) (p : Nat) (v : LinkSt) : (s.setLink p v).twb = s.twb := rfl
@[simp] theorem State.setLink_mgc (s : State) (p : Nat) (v : LinkSt) : (s.setLink p v).mgc = s.mgc := rfl
@[simp] theorem State.setLink_flt (s : State) (p : Nat) (v : LinkSt) : (s.setLink p v).flt = s.flt := rfl
@[simp] theorem State.setLink_bbx (s : State) (p : Nat) (v : LinkSt) : (s.setLink p v).bbx = s.bbx := rfl
@[simp] theorem State.setLink_trc (s : State) (p : Nat) (v : LinkSt) : (s.setLink p v).trc = s.trc := rfl
@[simp] theorem State.setLink_cns (s : State) (p : Nat) (v : LinkSt) : (s.setLink p v).cns = s.cns := rfl
@[simp] theorem State.setLink_otp (s : State) (p : Nat) (v : LinkSt) : (s.setLink p v).otp = s.otp := rfl
@[simp] theorem State.setLink_pw (s : State) (p : Nat) (v : LinkSt) : (s.setLink p v).pw = s.pw := rfl
@[simp] theorem State.setLink_inReset (s : State) (p : Nat) (v : LinkSt) : (s.setLink p v).inReset = s.inReset := rfl
@[simp] theorem State.setLink_pending (s : State) (p : Nat) (v : LinkSt) : (s.setLink p v).pending = s.pending := rfl
@[simp] theorem State.setLink_regs (s : State) (p : Nat) (v : LinkSt) : (s.setLink p v).regs = s.regs := rfl
@[simp] theorem State.setLink_reg (s : State) (p : Nat) (v : LinkSt) (a : Nat) : (s.setLink p v).reg a = s.reg a := rfl
@[simp] theorem State.setLink_fget (s : State) (p : Nat) (v : LinkSt) (f : Fld) : (s.setLink p v).fget f = s.fget f := rfl
@[simp] theorem State.setLink_flag (s : State) (p : Nat) (v : LinkSt) (f : Fld) : (s.setLink p v).flag f = s.flag f := rfl

@[simp] theorem State.setSlc_part (s : State) (k : Nat) (v : SliceSt) : (s.setSlc k v).part = s.part := rfl
@[simp] theorem State.setSlc_now (s : State) (k : Nat) (v : SliceSt) : (s.setSlc k v).now = s.now := rfl
@[simp] theorem State.setSlc_aon (s : State) (k : Nat) (v : SliceSt) : (s.setSlc k v).aon = s.aon := rfl
@[simp] theorem State.setSlc_free (s : State) (k : Nat) (v : SliceSt) : (s.setSlc k v).free = s.free := rfl
@[simp] theorem State.setSlc_mem (s : State) (k : Nat) (v : SliceSt) : (s.setSlc k v).mem = s.mem := rfl
@[simp] theorem State.setSlc_fillOne (s : State) (k : Nat) (v : SliceSt) : (s.setSlc k v).fillOne = s.fillOne := rfl
@[simp] theorem State.setSlc_ports (s : State) (k : Nat) (v : SliceSt) : (s.setSlc k v).ports = s.ports := rfl
@[simp] theorem State.setSlc_links (s : State) (k : Nat) (v : SliceSt) : (s.setSlc k v).links = s.links := rfl
@[simp] theorem State.setSlc_nextRx (s : State) (k : Nat) (v : SliceSt) : (s.setSlc k v).nextRx = s.nextRx := rfl
@[simp] theorem State.setSlc_txns (s : State) (k : Nat) (v : SliceSt) : (s.setSlc k v).txns = s.txns := rfl
@[simp] theorem State.setSlc_sch (s : State) (k : Nat) (v : SliceSt) : (s.setSlc k v).sch = s.sch := rfl
@[simp] theorem State.setSlc_engs (s : State) (k : Nat) (v : SliceSt) : (s.setSlc k v).engs = s.engs := rfl
@[simp] theorem State.setSlc_refs (s : State) (k : Nat) (v : SliceSt) : (s.setSlc k v).refs = s.refs := rfl
@[simp] theorem State.setSlc_remap (s : State) (k : Nat) (v : SliceSt) : (s.setSlc k v).remap = s.remap := rfl
@[simp] theorem State.setSlc_flush (s : State) (k : Nat) (v : SliceSt) : (s.setSlc k v).flush = s.flush := rfl
@[simp] theorem State.setSlc_ecc (s : State) (k : Nat) (v : SliceSt) : (s.setSlc k v).ecc = s.ecc := rfl
@[simp] theorem State.setSlc_stk (s : State) (k : Nat) (v : SliceSt) : (s.setSlc k v).stk = s.stk := rfl
@[simp] theorem State.setSlc_scn (s : State) (k : Nat) (v : SliceSt) : (s.setSlc k v).scn = s.scn := rfl
@[simp] theorem State.setSlc_tap (s : State) (k : Nat) (v : SliceSt) : (s.setSlc k v).tap = s.tap := rfl
@[simp] theorem State.setSlc_cal (s : State) (k : Nat) (v : SliceSt) : (s.setSlc k v).cal = s.cal := rfl
@[simp] theorem State.setSlc_thm (s : State) (k : Nat) (v : SliceSt) : (s.setSlc k v).thm = s.thm := rfl
@[simp] theorem State.setSlc_clk (s : State) (k : Nat) (v : SliceSt) : (s.setSlc k v).clk = s.clk := rfl
@[simp] theorem State.setSlc_twb (s : State) (k : Nat) (v : SliceSt) : (s.setSlc k v).twb = s.twb := rfl
@[simp] theorem State.setSlc_mgc (s : State) (k : Nat) (v : SliceSt) : (s.setSlc k v).mgc = s.mgc := rfl
@[simp] theorem State.setSlc_flt (s : State) (k : Nat) (v : SliceSt) : (s.setSlc k v).flt = s.flt := rfl
@[simp] theorem State.setSlc_bbx (s : State) (k : Nat) (v : SliceSt) : (s.setSlc k v).bbx = s.bbx := rfl
@[simp] theorem State.setSlc_trc (s : State) (k : Nat) (v : SliceSt) : (s.setSlc k v).trc = s.trc := rfl
@[simp] theorem State.setSlc_cns (s : State) (k : Nat) (v : SliceSt) : (s.setSlc k v).cns = s.cns := rfl
@[simp] theorem State.setSlc_otp (s : State) (k : Nat) (v : SliceSt) : (s.setSlc k v).otp = s.otp := rfl
@[simp] theorem State.setSlc_pw (s : State) (k : Nat) (v : SliceSt) : (s.setSlc k v).pw = s.pw := rfl
@[simp] theorem State.setSlc_inReset (s : State) (k : Nat) (v : SliceSt) : (s.setSlc k v).inReset = s.inReset := rfl
@[simp] theorem State.setSlc_pending (s : State) (k : Nat) (v : SliceSt) : (s.setSlc k v).pending = s.pending := rfl
@[simp] theorem State.setSlc_regs (s : State) (k : Nat) (v : SliceSt) : (s.setSlc k v).regs = s.regs := rfl
@[simp] theorem State.setSlc_reg (s : State) (k : Nat) (v : SliceSt) (a : Nat) : (s.setSlc k v).reg a = s.reg a := rfl
@[simp] theorem State.setSlc_fget (s : State) (k : Nat) (v : SliceSt) (f : Fld) : (s.setSlc k v).fget f = s.fget f := rfl
@[simp] theorem State.setSlc_flag (s : State) (k : Nat) (v : SliceSt) (f : Fld) : (s.setSlc k v).flag f = s.flag f := rfl

@[simp] theorem State.setEng_part (s : State) (m : Nat) (v : EngSt) : (s.setEng m v).part = s.part := rfl
@[simp] theorem State.setEng_now (s : State) (m : Nat) (v : EngSt) : (s.setEng m v).now = s.now := rfl
@[simp] theorem State.setEng_aon (s : State) (m : Nat) (v : EngSt) : (s.setEng m v).aon = s.aon := rfl
@[simp] theorem State.setEng_free (s : State) (m : Nat) (v : EngSt) : (s.setEng m v).free = s.free := rfl
@[simp] theorem State.setEng_mem (s : State) (m : Nat) (v : EngSt) : (s.setEng m v).mem = s.mem := rfl
@[simp] theorem State.setEng_fillOne (s : State) (m : Nat) (v : EngSt) : (s.setEng m v).fillOne = s.fillOne := rfl
@[simp] theorem State.setEng_ports (s : State) (m : Nat) (v : EngSt) : (s.setEng m v).ports = s.ports := rfl
@[simp] theorem State.setEng_links (s : State) (m : Nat) (v : EngSt) : (s.setEng m v).links = s.links := rfl
@[simp] theorem State.setEng_nextRx (s : State) (m : Nat) (v : EngSt) : (s.setEng m v).nextRx = s.nextRx := rfl
@[simp] theorem State.setEng_txns (s : State) (m : Nat) (v : EngSt) : (s.setEng m v).txns = s.txns := rfl
@[simp] theorem State.setEng_sch (s : State) (m : Nat) (v : EngSt) : (s.setEng m v).sch = s.sch := rfl
@[simp] theorem State.setEng_slices (s : State) (m : Nat) (v : EngSt) : (s.setEng m v).slices = s.slices := rfl
@[simp] theorem State.setEng_refs (s : State) (m : Nat) (v : EngSt) : (s.setEng m v).refs = s.refs := rfl
@[simp] theorem State.setEng_remap (s : State) (m : Nat) (v : EngSt) : (s.setEng m v).remap = s.remap := rfl
@[simp] theorem State.setEng_flush (s : State) (m : Nat) (v : EngSt) : (s.setEng m v).flush = s.flush := rfl
@[simp] theorem State.setEng_ecc (s : State) (m : Nat) (v : EngSt) : (s.setEng m v).ecc = s.ecc := rfl
@[simp] theorem State.setEng_stk (s : State) (m : Nat) (v : EngSt) : (s.setEng m v).stk = s.stk := rfl
@[simp] theorem State.setEng_scn (s : State) (m : Nat) (v : EngSt) : (s.setEng m v).scn = s.scn := rfl
@[simp] theorem State.setEng_tap (s : State) (m : Nat) (v : EngSt) : (s.setEng m v).tap = s.tap := rfl
@[simp] theorem State.setEng_cal (s : State) (m : Nat) (v : EngSt) : (s.setEng m v).cal = s.cal := rfl
@[simp] theorem State.setEng_thm (s : State) (m : Nat) (v : EngSt) : (s.setEng m v).thm = s.thm := rfl
@[simp] theorem State.setEng_clk (s : State) (m : Nat) (v : EngSt) : (s.setEng m v).clk = s.clk := rfl
@[simp] theorem State.setEng_twb (s : State) (m : Nat) (v : EngSt) : (s.setEng m v).twb = s.twb := rfl
@[simp] theorem State.setEng_mgc (s : State) (m : Nat) (v : EngSt) : (s.setEng m v).mgc = s.mgc := rfl
@[simp] theorem State.setEng_flt (s : State) (m : Nat) (v : EngSt) : (s.setEng m v).flt = s.flt := rfl
@[simp] theorem State.setEng_bbx (s : State) (m : Nat) (v : EngSt) : (s.setEng m v).bbx = s.bbx := rfl
@[simp] theorem State.setEng_trc (s : State) (m : Nat) (v : EngSt) : (s.setEng m v).trc = s.trc := rfl
@[simp] theorem State.setEng_cns (s : State) (m : Nat) (v : EngSt) : (s.setEng m v).cns = s.cns := rfl
@[simp] theorem State.setEng_otp (s : State) (m : Nat) (v : EngSt) : (s.setEng m v).otp = s.otp := rfl
@[simp] theorem State.setEng_pw (s : State) (m : Nat) (v : EngSt) : (s.setEng m v).pw = s.pw := rfl
@[simp] theorem State.setEng_inReset (s : State) (m : Nat) (v : EngSt) : (s.setEng m v).inReset = s.inReset := rfl
@[simp] theorem State.setEng_pending (s : State) (m : Nat) (v : EngSt) : (s.setEng m v).pending = s.pending := rfl
@[simp] theorem State.setEng_regs (s : State) (m : Nat) (v : EngSt) : (s.setEng m v).regs = s.regs := rfl
@[simp] theorem State.setEng_reg (s : State) (m : Nat) (v : EngSt) (a : Nat) : (s.setEng m v).reg a = s.reg a := rfl
@[simp] theorem State.setEng_fget (s : State) (m : Nat) (v : EngSt) (f : Fld) : (s.setEng m v).fget f = s.fget f := rfl
@[simp] theorem State.setEng_flag (s : State) (m : Nat) (v : EngSt) (f : Fld) : (s.setEng m v).flag f = s.flag f := rfl

@[simp] theorem State.setTokens_part (s : State) (n : Nat) (v : Int) : (s.setTokens n v).part = s.part := rfl
@[simp] theorem State.setTokens_now (s : State) (n : Nat) (v : Int) : (s.setTokens n v).now = s.now := rfl
@[simp] theorem State.setTokens_aon (s : State) (n : Nat) (v : Int) : (s.setTokens n v).aon = s.aon := rfl
@[simp] theorem State.setTokens_free (s : State) (n : Nat) (v : Int) : (s.setTokens n v).free = s.free := rfl
@[simp] theorem State.setTokens_mem (s : State) (n : Nat) (v : Int) : (s.setTokens n v).mem = s.mem := rfl
@[simp] theorem State.setTokens_fillOne (s : State) (n : Nat) (v : Int) : (s.setTokens n v).fillOne = s.fillOne := rfl
@[simp] theorem State.setTokens_ports (s : State) (n : Nat) (v : Int) : (s.setTokens n v).ports = s.ports := rfl
@[simp] theorem State.setTokens_links (s : State) (n : Nat) (v : Int) : (s.setTokens n v).links = s.links := rfl
@[simp] theorem State.setTokens_nextRx (s : State) (n : Nat) (v : Int) : (s.setTokens n v).nextRx = s.nextRx := rfl
@[simp] theorem State.setTokens_txns (s : State) (n : Nat) (v : Int) : (s.setTokens n v).txns = s.txns := rfl
@[simp] theorem State.setTokens_slices (s : State) (n : Nat) (v : Int) : (s.setTokens n v).slices = s.slices := rfl
@[simp] theorem State.setTokens_engs (s : State) (n : Nat) (v : Int) : (s.setTokens n v).engs = s.engs := rfl
@[simp] theorem State.setTokens_refs (s : State) (n : Nat) (v : Int) : (s.setTokens n v).refs = s.refs := rfl
@[simp] theorem State.setTokens_remap (s : State) (n : Nat) (v : Int) : (s.setTokens n v).remap = s.remap := rfl
@[simp] theorem State.setTokens_flush (s : State) (n : Nat) (v : Int) : (s.setTokens n v).flush = s.flush := rfl
@[simp] theorem State.setTokens_ecc (s : State) (n : Nat) (v : Int) : (s.setTokens n v).ecc = s.ecc := rfl
@[simp] theorem State.setTokens_stk (s : State) (n : Nat) (v : Int) : (s.setTokens n v).stk = s.stk := rfl
@[simp] theorem State.setTokens_scn (s : State) (n : Nat) (v : Int) : (s.setTokens n v).scn = s.scn := rfl
@[simp] theorem State.setTokens_tap (s : State) (n : Nat) (v : Int) : (s.setTokens n v).tap = s.tap := rfl
@[simp] theorem State.setTokens_cal (s : State) (n : Nat) (v : Int) : (s.setTokens n v).cal = s.cal := rfl
@[simp] theorem State.setTokens_thm (s : State) (n : Nat) (v : Int) : (s.setTokens n v).thm = s.thm := rfl
@[simp] theorem State.setTokens_clk (s : State) (n : Nat) (v : Int) : (s.setTokens n v).clk = s.clk := rfl
@[simp] theorem State.setTokens_twb (s : State) (n : Nat) (v : Int) : (s.setTokens n v).twb = s.twb := rfl
@[simp] theorem State.setTokens_mgc (s : State) (n : Nat) (v : Int) : (s.setTokens n v).mgc = s.mgc := rfl
@[simp] theorem State.setTokens_flt (s : State) (n : Nat) (v : Int) : (s.setTokens n v).flt = s.flt := rfl
@[simp] theorem State.setTokens_bbx (s : State) (n : Nat) (v : Int) : (s.setTokens n v).bbx = s.bbx := rfl
@[simp] theorem State.setTokens_trc (s : State) (n : Nat) (v : Int) : (s.setTokens n v).trc = s.trc := rfl
@[simp] theorem State.setTokens_cns (s : State) (n : Nat) (v : Int) : (s.setTokens n v).cns = s.cns := rfl
@[simp] theorem State.setTokens_otp (s : State) (n : Nat) (v : Int) : (s.setTokens n v).otp = s.otp := rfl
@[simp] theorem State.setTokens_pw (s : State) (n : Nat) (v : Int) : (s.setTokens n v).pw = s.pw := rfl
@[simp] theorem State.setTokens_inReset (s : State) (n : Nat) (v : Int) : (s.setTokens n v).inReset = s.inReset := rfl
@[simp] theorem State.setTokens_pending (s : State) (n : Nat) (v : Int) : (s.setTokens n v).pending = s.pending := rfl
@[simp] theorem State.setTokens_regs (s : State) (n : Nat) (v : Int) : (s.setTokens n v).regs = s.regs := rfl
@[simp] theorem State.setTokens_reg (s : State) (n : Nat) (v : Int) (a : Nat) : (s.setTokens n v).reg a = s.reg a := rfl
@[simp] theorem State.setTokens_fget (s : State) (n : Nat) (v : Int) (f : Fld) : (s.setTokens n v).fget f = s.fget f := rfl
@[simp] theorem State.setTokens_flag (s : State) (n : Nat) (v : Int) (f : Fld) : (s.setTokens n v).flag f = s.flag f := rfl

@[simp] theorem State.setDie_part (s : State) (d : Nat) (v : DieTherm) : (s.setDie d v).part = s.part := rfl
@[simp] theorem State.setDie_now (s : State) (d : Nat) (v : DieTherm) : (s.setDie d v).now = s.now := rfl
@[simp] theorem State.setDie_aon (s : State) (d : Nat) (v : DieTherm) : (s.setDie d v).aon = s.aon := rfl
@[simp] theorem State.setDie_free (s : State) (d : Nat) (v : DieTherm) : (s.setDie d v).free = s.free := rfl
@[simp] theorem State.setDie_mem (s : State) (d : Nat) (v : DieTherm) : (s.setDie d v).mem = s.mem := rfl
@[simp] theorem State.setDie_fillOne (s : State) (d : Nat) (v : DieTherm) : (s.setDie d v).fillOne = s.fillOne := rfl
@[simp] theorem State.setDie_ports (s : State) (d : Nat) (v : DieTherm) : (s.setDie d v).ports = s.ports := rfl
@[simp] theorem State.setDie_links (s : State) (d : Nat) (v : DieTherm) : (s.setDie d v).links = s.links := rfl
@[simp] theorem State.setDie_nextRx (s : State) (d : Nat) (v : DieTherm) : (s.setDie d v).nextRx = s.nextRx := rfl
@[simp] theorem State.setDie_txns (s : State) (d : Nat) (v : DieTherm) : (s.setDie d v).txns = s.txns := rfl
@[simp] theorem State.setDie_sch (s : State) (d : Nat) (v : DieTherm) : (s.setDie d v).sch = s.sch := rfl
@[simp] theorem State.setDie_slices (s : State) (d : Nat) (v : DieTherm) : (s.setDie d v).slices = s.slices := rfl
@[simp] theorem State.setDie_engs (s : State) (d : Nat) (v : DieTherm) : (s.setDie d v).engs = s.engs := rfl
@[simp] theorem State.setDie_refs (s : State) (d : Nat) (v : DieTherm) : (s.setDie d v).refs = s.refs := rfl
@[simp] theorem State.setDie_remap (s : State) (d : Nat) (v : DieTherm) : (s.setDie d v).remap = s.remap := rfl
@[simp] theorem State.setDie_flush (s : State) (d : Nat) (v : DieTherm) : (s.setDie d v).flush = s.flush := rfl
@[simp] theorem State.setDie_ecc (s : State) (d : Nat) (v : DieTherm) : (s.setDie d v).ecc = s.ecc := rfl
@[simp] theorem State.setDie_stk (s : State) (d : Nat) (v : DieTherm) : (s.setDie d v).stk = s.stk := rfl
@[simp] theorem State.setDie_scn (s : State) (d : Nat) (v : DieTherm) : (s.setDie d v).scn = s.scn := rfl
@[simp] theorem State.setDie_tap (s : State) (d : Nat) (v : DieTherm) : (s.setDie d v).tap = s.tap := rfl
@[simp] theorem State.setDie_cal (s : State) (d : Nat) (v : DieTherm) : (s.setDie d v).cal = s.cal := rfl
@[simp] theorem State.setDie_clk (s : State) (d : Nat) (v : DieTherm) : (s.setDie d v).clk = s.clk := rfl
@[simp] theorem State.setDie_twb (s : State) (d : Nat) (v : DieTherm) : (s.setDie d v).twb = s.twb := rfl
@[simp] theorem State.setDie_mgc (s : State) (d : Nat) (v : DieTherm) : (s.setDie d v).mgc = s.mgc := rfl
@[simp] theorem State.setDie_flt (s : State) (d : Nat) (v : DieTherm) : (s.setDie d v).flt = s.flt := rfl
@[simp] theorem State.setDie_bbx (s : State) (d : Nat) (v : DieTherm) : (s.setDie d v).bbx = s.bbx := rfl
@[simp] theorem State.setDie_trc (s : State) (d : Nat) (v : DieTherm) : (s.setDie d v).trc = s.trc := rfl
@[simp] theorem State.setDie_cns (s : State) (d : Nat) (v : DieTherm) : (s.setDie d v).cns = s.cns := rfl
@[simp] theorem State.setDie_otp (s : State) (d : Nat) (v : DieTherm) : (s.setDie d v).otp = s.otp := rfl
@[simp] theorem State.setDie_pw (s : State) (d : Nat) (v : DieTherm) : (s.setDie d v).pw = s.pw := rfl
@[simp] theorem State.setDie_inReset (s : State) (d : Nat) (v : DieTherm) : (s.setDie d v).inReset = s.inReset := rfl
@[simp] theorem State.setDie_pending (s : State) (d : Nat) (v : DieTherm) : (s.setDie d v).pending = s.pending := rfl
@[simp] theorem State.setDie_regs (s : State) (d : Nat) (v : DieTherm) : (s.setDie d v).regs = s.regs := rfl
@[simp] theorem State.setDie_reg (s : State) (d : Nat) (v : DieTherm) (a : Nat) : (s.setDie d v).reg a = s.reg a := rfl
@[simp] theorem State.setDie_fget (s : State) (d : Nat) (v : DieTherm) (f : Fld) : (s.setDie d v).fget f = s.fget f := rfl
@[simp] theorem State.setDie_flag (s : State) (d : Nat) (v : DieTherm) (f : Fld) : (s.setDie d v).flag f = s.flag f := rfl

@[simp] theorem State.setRun_part (s : State) (v : CalRun) : (s.setRun v).part = s.part := rfl
@[simp] theorem State.setRun_now (s : State) (v : CalRun) : (s.setRun v).now = s.now := rfl
@[simp] theorem State.setRun_aon (s : State) (v : CalRun) : (s.setRun v).aon = s.aon := rfl
@[simp] theorem State.setRun_free (s : State) (v : CalRun) : (s.setRun v).free = s.free := rfl
@[simp] theorem State.setRun_mem (s : State) (v : CalRun) : (s.setRun v).mem = s.mem := rfl
@[simp] theorem State.setRun_fillOne (s : State) (v : CalRun) : (s.setRun v).fillOne = s.fillOne := rfl
@[simp] theorem State.setRun_ports (s : State) (v : CalRun) : (s.setRun v).ports = s.ports := rfl
@[simp] theorem State.setRun_links (s : State) (v : CalRun) : (s.setRun v).links = s.links := rfl
@[simp] theorem State.setRun_nextRx (s : State) (v : CalRun) : (s.setRun v).nextRx = s.nextRx := rfl
@[simp] theorem State.setRun_txns (s : State) (v : CalRun) : (s.setRun v).txns = s.txns := rfl
@[simp] theorem State.setRun_sch (s : State) (v : CalRun) : (s.setRun v).sch = s.sch := rfl
@[simp] theorem State.setRun_slices (s : State) (v : CalRun) : (s.setRun v).slices = s.slices := rfl
@[simp] theorem State.setRun_engs (s : State) (v : CalRun) : (s.setRun v).engs = s.engs := rfl
@[simp] theorem State.setRun_refs (s : State) (v : CalRun) : (s.setRun v).refs = s.refs := rfl
@[simp] theorem State.setRun_remap (s : State) (v : CalRun) : (s.setRun v).remap = s.remap := rfl
@[simp] theorem State.setRun_flush (s : State) (v : CalRun) : (s.setRun v).flush = s.flush := rfl
@[simp] theorem State.setRun_ecc (s : State) (v : CalRun) : (s.setRun v).ecc = s.ecc := rfl
@[simp] theorem State.setRun_stk (s : State) (v : CalRun) : (s.setRun v).stk = s.stk := rfl
@[simp] theorem State.setRun_scn (s : State) (v : CalRun) : (s.setRun v).scn = s.scn := rfl
@[simp] theorem State.setRun_tap (s : State) (v : CalRun) : (s.setRun v).tap = s.tap := rfl
@[simp] theorem State.setRun_thm (s : State) (v : CalRun) : (s.setRun v).thm = s.thm := rfl
@[simp] theorem State.setRun_clk (s : State) (v : CalRun) : (s.setRun v).clk = s.clk := rfl
@[simp] theorem State.setRun_twb (s : State) (v : CalRun) : (s.setRun v).twb = s.twb := rfl
@[simp] theorem State.setRun_mgc (s : State) (v : CalRun) : (s.setRun v).mgc = s.mgc := rfl
@[simp] theorem State.setRun_flt (s : State) (v : CalRun) : (s.setRun v).flt = s.flt := rfl
@[simp] theorem State.setRun_bbx (s : State) (v : CalRun) : (s.setRun v).bbx = s.bbx := rfl
@[simp] theorem State.setRun_trc (s : State) (v : CalRun) : (s.setRun v).trc = s.trc := rfl
@[simp] theorem State.setRun_cns (s : State) (v : CalRun) : (s.setRun v).cns = s.cns := rfl
@[simp] theorem State.setRun_otp (s : State) (v : CalRun) : (s.setRun v).otp = s.otp := rfl
@[simp] theorem State.setRun_pw (s : State) (v : CalRun) : (s.setRun v).pw = s.pw := rfl
@[simp] theorem State.setRun_inReset (s : State) (v : CalRun) : (s.setRun v).inReset = s.inReset := rfl
@[simp] theorem State.setRun_pending (s : State) (v : CalRun) : (s.setRun v).pending = s.pending := rfl
@[simp] theorem State.setRun_regs (s : State) (v : CalRun) : (s.setRun v).regs = s.regs := rfl
@[simp] theorem State.setRun_reg (s : State) (v : CalRun) (a : Nat) : (s.setRun v).reg a = s.reg a := rfl
@[simp] theorem State.setRun_fget (s : State) (v : CalRun) (f : Fld) : (s.setRun v).fget f = s.fget f := rfl
@[simp] theorem State.setRun_flag (s : State) (v : CalRun) (f : Fld) : (s.setRun v).flag f = s.flag f := rfl

@[simp] theorem State.setMon_part (s : State) (i : Nat) (v : MonSt) : (s.setMon i v).part = s.part := rfl
@[simp] theorem State.setMon_now (s : State) (i : Nat) (v : MonSt) : (s.setMon i v).now = s.now := rfl
@[simp] theorem State.setMon_aon (s : State) (i : Nat) (v : MonSt) : (s.setMon i v).aon = s.aon := rfl
@[simp] theorem State.setMon_free (s : State) (i : Nat) (v : MonSt) : (s.setMon i v).free = s.free := rfl
@[simp] theorem State.setMon_mem (s : State) (i : Nat) (v : MonSt) : (s.setMon i v).mem = s.mem := rfl
@[simp] theorem State.setMon_fillOne (s : State) (i : Nat) (v : MonSt) : (s.setMon i v).fillOne = s.fillOne := rfl
@[simp] theorem State.setMon_ports (s : State) (i : Nat) (v : MonSt) : (s.setMon i v).ports = s.ports := rfl
@[simp] theorem State.setMon_links (s : State) (i : Nat) (v : MonSt) : (s.setMon i v).links = s.links := rfl
@[simp] theorem State.setMon_nextRx (s : State) (i : Nat) (v : MonSt) : (s.setMon i v).nextRx = s.nextRx := rfl
@[simp] theorem State.setMon_txns (s : State) (i : Nat) (v : MonSt) : (s.setMon i v).txns = s.txns := rfl
@[simp] theorem State.setMon_sch (s : State) (i : Nat) (v : MonSt) : (s.setMon i v).sch = s.sch := rfl
@[simp] theorem State.setMon_slices (s : State) (i : Nat) (v : MonSt) : (s.setMon i v).slices = s.slices := rfl
@[simp] theorem State.setMon_engs (s : State) (i : Nat) (v : MonSt) : (s.setMon i v).engs = s.engs := rfl
@[simp] theorem State.setMon_refs (s : State) (i : Nat) (v : MonSt) : (s.setMon i v).refs = s.refs := rfl
@[simp] theorem State.setMon_remap (s : State) (i : Nat) (v : MonSt) : (s.setMon i v).remap = s.remap := rfl
@[simp] theorem State.setMon_flush (s : State) (i : Nat) (v : MonSt) : (s.setMon i v).flush = s.flush := rfl
@[simp] theorem State.setMon_ecc (s : State) (i : Nat) (v : MonSt) : (s.setMon i v).ecc = s.ecc := rfl
@[simp] theorem State.setMon_stk (s : State) (i : Nat) (v : MonSt) : (s.setMon i v).stk = s.stk := rfl
@[simp] theorem State.setMon_scn (s : State) (i : Nat) (v : MonSt) : (s.setMon i v).scn = s.scn := rfl
@[simp] theorem State.setMon_tap (s : State) (i : Nat) (v : MonSt) : (s.setMon i v).tap = s.tap := rfl
@[simp] theorem State.setMon_cal (s : State) (i : Nat) (v : MonSt) : (s.setMon i v).cal = s.cal := rfl
@[simp] theorem State.setMon_thm (s : State) (i : Nat) (v : MonSt) : (s.setMon i v).thm = s.thm := rfl
@[simp] theorem State.setMon_twb (s : State) (i : Nat) (v : MonSt) : (s.setMon i v).twb = s.twb := rfl
@[simp] theorem State.setMon_mgc (s : State) (i : Nat) (v : MonSt) : (s.setMon i v).mgc = s.mgc := rfl
@[simp] theorem State.setMon_flt (s : State) (i : Nat) (v : MonSt) : (s.setMon i v).flt = s.flt := rfl
@[simp] theorem State.setMon_bbx (s : State) (i : Nat) (v : MonSt) : (s.setMon i v).bbx = s.bbx := rfl
@[simp] theorem State.setMon_trc (s : State) (i : Nat) (v : MonSt) : (s.setMon i v).trc = s.trc := rfl
@[simp] theorem State.setMon_cns (s : State) (i : Nat) (v : MonSt) : (s.setMon i v).cns = s.cns := rfl
@[simp] theorem State.setMon_otp (s : State) (i : Nat) (v : MonSt) : (s.setMon i v).otp = s.otp := rfl
@[simp] theorem State.setMon_pw (s : State) (i : Nat) (v : MonSt) : (s.setMon i v).pw = s.pw := rfl
@[simp] theorem State.setMon_inReset (s : State) (i : Nat) (v : MonSt) : (s.setMon i v).inReset = s.inReset := rfl
@[simp] theorem State.setMon_pending (s : State) (i : Nat) (v : MonSt) : (s.setMon i v).pending = s.pending := rfl
@[simp] theorem State.setMon_regs (s : State) (i : Nat) (v : MonSt) : (s.setMon i v).regs = s.regs := rfl
@[simp] theorem State.setMon_reg (s : State) (i : Nat) (v : MonSt) (a : Nat) : (s.setMon i v).reg a = s.reg a := rfl
@[simp] theorem State.setMon_fget (s : State) (i : Nat) (v : MonSt) (f : Fld) : (s.setMon i v).fget f = s.fget f := rfl
@[simp] theorem State.setMon_flag (s : State) (i : Nat) (v : MonSt) (f : Fld) : (s.setMon i v).flag f = s.flag f := rfl

end Sys2Proof.Machine
end

