-- ==== Sys2Proof/Laws/Records.lean ====
section
/-! SUPPORT. Which registers the black box and events touch: those of BBX and FLT and, for an event that finds its queue full,
of LNK. -/

namespace Sys2Proof.Machine

open Sys2Proof.Reg

/-- The block of a register is not LNK, FLT or BBX. -/
def Aside (a : Nat) : Prop := bits a 16 8 ≠ 0x18 ∧ bits a 16 8 ≠ 0x90 ∧ bits a 16 8 ≠ 0x91

/-- A register outside those blocks is not one of them. -/
theorem Aside.ne {a b : Nat} (h : Aside a) (k : ¬ Aside b) : a ≠ b := fun e => k (e ▸ h)

theorem Aside.reg_post {a : Nat} (h : Aside a) (s : State) (m : FaultMsg) : (s.post m).reg a = s.reg a :=
  State.reg_post s m (h.ne (by unfold Aside; decide)) (h.ne (by unfold Aside; decide))

theorem Aside.reg_int {a : Nat} (h : Aside a) (s : State) (b : IntBlk) (bit : Nat) (hb : a ≠ b.stat) :
    (s.int b bit).reg a = s.reg a :=
  State.reg_int s b bit hb (h.ne (by unfold Aside; decide)) (h.ne (by unfold Aside; decide))

theorem Aside.reg_nvPlace {a : Nat} (h : Aside a) (n : Nat) (s : State) (slot : Nat) : (nvPlace n s slot).1.reg a = s.reg a := by
  have e1 : a ≠ BBX.NV_WRITES_COUNT.addr := h.ne (by unfold Aside; decide)
  have e2 : a ≠ BBX.NV_ERR_CNT_COUNT.addr := h.ne (by unfold Aside; decide)
  induction n generalizing s slot with
  | zero => rfl
  | succ n ih =>
    unfold nvPlace
    split
    · rw [ih, h.reg_int _ _ _ (h.ne (by unfold Aside; decide)), State.reg_bumpSat_other _ _ e2, State.reg_bump_other _ _ e1]
    · exact State.reg_bump_other _ _ e1

theorem Aside.reg_nvWrite {a : Nat} (h : Aside a) (s : State) (r : BbxRec) : (s.nvWrite r).reg a = s.reg a := by
  have hp := h.reg_nvPlace 4096 s s.nvNext
  unfold State.nvWrite
  split
  · rename_i t e
    rw [e] at hp
    exact hp
  · rename_i t slot e
    rw [e] at hp
    extract_lets nv u
    unfold State.raise
    rw [State.reg_fset_other _ _ (h.ne (by unfold Aside; decide)), State.reg_fset_other _ _ (h.ne (by unfold Aside; decide)),
      State.reg_fset_other _ _ (h.ne (by unfold Aside; decide))]
    exact hp

theorem Aside.reg_ringRegs {a : Nat} (h : Aside a) (s : State) : s.ringRegs.reg a = s.reg a := by
  unfold State.ringRegs State.setFlag
  extract_lets ring
  rw [State.reg_fset_other _ _ (h.ne (by unfold Aside; decide)), State.reg_fset_other _ _ (h.ne (by unfold Aside; decide)),
    State.reg_fset_other _ _ (h.ne (by unfold Aside; decide)), State.reg_fset_other _ _ (h.ne (by unfold Aside; decide))]

theorem Aside.reg_ringRoom {a : Nat} (h : Aside a) (s : State) : s.ringRoom.reg a = s.reg a := by
  unfold State.ringRoom
  split
  · rfl
  · split
    · rfl
    · split
      · rfl
      · rw [h.reg_int _ _ _ (h.ne (by unfold Aside; decide)), State.reg_bumpSat_other _ _ (h.ne (by unfold Aside; decide))]
        rfl

theorem Aside.reg_nvRateCount {a : Nat} (_ : Aside a) (s : State) : s.nvRateCount.reg a = s.reg a := by
  unfold State.nvRateCount
  split <;> rfl

/-- A record. -/
theorem Aside.reg_record {a : Nat} (h : Aside a) (s : State) (rtype flags shadowId source : Nat) (body : List Nat) (imm : Bool) :
    (s.record rtype flags shadowId source body imm).reg a = s.reg a := by
  unfold State.record
  extract_lets fl b1 t now r b2 u
  rw [h.reg_ringRegs]
  have ht : t.reg a = s.reg a := h.reg_ringRoom _
  have hu : u.reg a = s.reg a := ht
  split
  · rw [h.reg_nvWrite, h.reg_nvRateCount, hu]
  · exact hu

theorem Aside.reg_logEvent {a : Nat} (h : Aside a) (s : State) (e : Event) : (s.logEvent e).reg a = s.reg a := by
  unfold State.logEvent
  extract_lets imm t
  have ht : t.reg a = s.reg a := h.reg_record ..
  split
  · rw [h.reg_record, ht]
  · exact ht

theorem Aside.reg_queueEvt {a : Nat} (h : Aside a) (s : State) (e : Event) : (s.queueEvt e).reg a = s.reg a := by
  unfold State.queueEvt
  split
  · rfl
  · change (State.int _ _ _).reg a = _
    rw [h.reg_int _ _ _ (h.ne (by unfold Aside; decide)), State.reg_bumpSat_other _ _ (h.ne (by unfold Aside; decide))]

theorem Aside.reg_queueTwEvt {a : Nat} (_ : Aside a) (s : State) (e : Event) : (s.queueTwEvt e).reg a = s.reg a := by
  unfold State.queueTwEvt
  split <;> rfl

/-- An event. -/
theorem Aside.reg_event {a : Nat} (h : Aside a) (s : State) (code severity : Nat) (detail : List Nat) (m : Nat) :
    (s.event code severity detail m).reg a = s.reg a := by
  unfold State.event
  extract_lets sink e b t
  have ht : t.reg a = s.reg a := h.reg_logEvent _ e
  cases sink with
  | none => exact ht
  | some k =>
    dsimp only
    split
    · rw [h.reg_queueEvt, ht]
    · split
      · rw [h.reg_queueTwEvt, ht]
      · exact ht

end Sys2Proof.Machine
end

