-- ==== Sys2Proof/Tests/Slice0.lean ====
section
/-! SUPPORT. The model's own tests: a witness for every statement that has hypotheses, clause by clause; an ill-formed command
for each check of well-formedness; the worked examples of the spec; and a few single steps. -/

namespace Sys2Proof.Tests

set_option maxRecDepth 20000
set_option Elab.async false

open Sys2Proof.Machine
open Sys2Proof.Reg

/-- A part in READY: booted, firmware running, in Sail. -/
def up : State :=
  ((State.reset.fset DEV.STATE_DEV_STATE 1).fset DEV.BOOT_STEP 9).fset MGC.STATUS_FW_STATE 2

/-- `up` with fields of registers set. -/
def w (l : List (Fld × Nat)) : State := l.foldl (fun s e => s.fset e.1 e.2) up

/-- `up` with stack ID 0, every line open to every class, and ATOM and SCAN allowed to class 0. -/
def host : State :=
  w [(LNK.STACK_ID_STACK_ID, 0), (RGD.CTRL_DEFAULT_ALLOW, 1), (SCH.CLS_CFG_ATOM_OK 0, 1), (SCH.CLS_CFG_SCAN_OK 0, 1)]

/-- A request for address 0 on a port. -/
def rq (port opcode : Nat) : Req := { port := port, opcode := opcode, reqId := 0, tag := 0, stackId := 0, addr := 0 }

/-- The entry that a request takes in `host`. -/
def entry (r : Req) : Txn := { num := 0, req := r, arrival := 0 }

/-- `host` with the entry of a request. -/
def took (r : Req) : State := { host with nextRx := 1, txns := [entry r] }

/-- The descriptor of a COUNT scan of one line, with a time limit of 1 ms. -/
def desc : List Nat := [0x40, 0x80, 0, 0, 0, 1] ++ List.replicate 13 0 ++ [1] ++ List.replicate 44 0

/-- A FENCE that waits. -/
def fenced : Txn := { entry (rq 7 0x50) with stage := 4 }

/-- A scan in its queue with a time limit. -/
def scanTxn : Txn :=
  { entry { rq 7 0x40 with reqId := 4095, tag := 4095, data := desc } with stage := 3 }

/-- A unit of the receive buffer with one request. -/
def unit : RxUnit := ⟨1, 0, 0, [⟨0, 0, rq 7 0x10⟩]⟩

/-- A unit of the receive buffer with one management packet. -/
def munit : RxUnit := ⟨0, 0, 1, [⟨0, 0, rq 7 0x68⟩]⟩

/-- Fuses with an unlocked CUST region of one word and its CRC. -/
def custOne : OtpSt :=
  { words := [(0x010, fuseStrong 0x7FFF), (0x380, fuseStrong 0x10000), (0x3F6, fuseStrong (crc32 [0, 1, 0, 0]))] }

/-- A two-wire packet. -/
def pk (payload : List Nat) : Halyard := ⟨.twoWire, 8 + 4 * payload.length, 0, payload.length, 0, payload⟩

/-! ### Witnesses of the completion statements -/

/-- States that meet the hypotheses of `PortRegisterCommandsComplete`, clause by clause. -/
theorem witness_PortRegisterCommandsComplete :
    (∃ (p : Nat) (s : State), isPort p = true ∧ s.live = true ∧ s.gated (PRT.CTRL p) = false ∧ s.portState p = 0) ∧
    (∃ (p : Nat) (s : State), isPort p = true ∧ s.live = true ∧ s.gated (PRT.CTRL p) = false ∧ s.portState p ≠ 0) ∧
    (∃ (p : Nat) (s : State), isPort p = true ∧ s.live = true ∧ s.gated (PRT.CTRL p) = false ∧ s.portState p ≠ 0) ∧
    (∃ (p : Nat) (s : State), isPort p = true ∧ s.live = true ∧ s.gated (PRT.CTRL p) = false ∧ s.portState p = 0) ∧
    (∃ (p : Nat) (s : State), isPort p = true ∧ s.live = true ∧ s.gated (PRT.CTRL p) = false ∧ s.portState p ≠ 0 ∧
      s.portState p ≠ 9 ∧ s.portState p ≠ 10) ∧
    (∃ (p : Nat) (s : State), isPort p = true ∧ s.live = true ∧ s.gated (PRT.CTRL p) = false ∧ s.portState p = 10) ∧
    (∃ (p : Nat) (s : State), isPort p = true ∧ s.live = true ∧ s.gated (PRT.CTRL p) = false ∧ (s.portState p = 0 ∨
      s.portState p = 9)) ∧
    (∃ (p : Nat) (_ _ : List Nat) (s : State), isPort p = true ∧ s.live = true ∧ s.gated (PRT.CTRL p) = false ∧ s.portState p
      = 5) ∧
    (∃ (p : Nat) (_ _ : List Nat) (s : State), isPort p = true ∧ s.live = true ∧ s.gated (PRT.CTRL p) = false ∧ s.portState p
      = 9) ∧
    (∃ (p : Nat) (_ _ : List Nat) (s : State), isPort p = true ∧ s.live = true ∧ s.gated (PRT.CTRL p) = false ∧ s.portState p
      = 9) ∧
    (∃ (p : Nat) (on : Bool) (_ _ : List Nat) (s : State), isPort p = true ∧ s.live = true ∧ s.gated (PRT.CTRL p) = false ∧
      s.portState p ≠ 9 ∧ (on = false ∨ s.portState p ≠ 5)) ∧
    (∃ (p lane count : Nat) (s : State), isPort p = true ∧ s.live = true ∧ s.gated (PRT.SLIP p) = false ∧ count % 64 ≠ 0 ∧
      s.laneState p (lane % 4) = 5) ∧
    (∃ (p lane count : Nat) (s : State), isPort p = true ∧ s.live = true ∧ s.gated (PRT.SLIP p) = false ∧ count % 64 ≠ 0 ∧
      s.laneState p (lane % 4) ≠ 5) ∧
    (∃ (p _ count : Nat) (s : State), isPort p = true ∧ s.live = true ∧ s.gated (PRT.SLIP p) = false ∧ count % 64 = 0) ∧
    (∃ (p : Nat) (s : State), isPort p = true ∧ s.live = true ∧ s.gated (PRT.CTRL p) = true) ∧
    (∃ (p : Nat) (s : State), isPort p = true ∧ s.live = true ∧ s.gated (PRT.CTRL p) = true) ∧
    (∃ (p : Nat) (s : State), isPort p = true ∧ s.live = true ∧ s.gated (PRT.CTRL p) = true) ∧
    (∃ (p : Nat) (_ : Bool) (_ _ : List Nat) (s : State), isPort p = true ∧ s.live = true ∧ s.gated (PRT.CTRL p) = true) ∧
    (∃ (p _ _ : Nat) (s : State), isPort p = true ∧ s.live = true ∧ s.gated (PRT.SLIP p) = true) :=
  ⟨⟨7, up, by decide +kernel⟩,
   ⟨7, (w [(PRT.STATE_PORT_STATE 7, 10)]), by decide +kernel⟩,
   ⟨0, (w [(PRT.STATE_PORT_STATE 0, 5)]), by decide +kernel⟩,
   ⟨0, up, by decide +kernel⟩,
   ⟨7, (w [(PRT.STATE_PORT_STATE 7, 5)]), by decide +kernel⟩,
   ⟨7, (w [(PRT.STATE_PORT_STATE 7, 10)]), by decide +kernel⟩,
   ⟨7, up, by decide +kernel⟩,
   ⟨0, [], [], (w [(PRT.STATE_PORT_STATE 0, 5)]), by decide +kernel⟩,
   ⟨0, [], [], (w [(PRT.STATE_PORT_STATE 0, 9)]), by decide +kernel⟩,
   ⟨0, [], [], (w [(PRT.STATE_PORT_STATE 0, 9)]), by decide +kernel⟩,
   ⟨0, true, [], [], up, by decide +kernel⟩,
   ⟨7, 3, 63, (w [(PRT.LANE_STAT_LANE_STATE 7 3, 5)]), by decide +kernel⟩,
   ⟨7, 3, 63, up, by decide +kernel⟩,
   ⟨7, 3, 0, up, by decide +kernel⟩,
   ⟨7, w [(CLK.GATE_STAT_GATED, 128)], by decide +kernel⟩,
   ⟨7, w [(CLK.GATE_STAT_GATED, 128)], by decide +kernel⟩,
   ⟨7, w [(CLK.GATE_STAT_GATED, 128)], by decide +kernel⟩,
   ⟨7, true, [], [], w [(CLK.GATE_STAT_GATED, 128)], by decide +kernel⟩,
   ⟨7, 3, 1, w [(CLK.GATE_STAT_GATED, 128)], by decide +kernel⟩⟩

/-- States that meet the hypotheses of `LaneEventsComplete`, clause by clause. -/
theorem witness_LaneEventsComplete :
    (∃ (k _ : Nat) (s : State), k < 4 ∧ s.live = true ∧ s.flag (CLK.PLL_STAT_EN (2 + k)) = true) ∧
    (∃ (p m : Nat) (_ : State), isPort p = true ∧ m < 4) ∧
    (∃ (p m : Nat) (_ : Bool) (s : State), isPort p = true ∧ m < 4 ∧ s.live = true ∧ s.laneState p m ≠ 0) ∧
    (∃ (p m : Nat) (s : State), isPort p = true ∧ m < 4 ∧ s.live = true ∧ s.flag (PRT.LANE_STAT_SD p m) = true) ∧
    (∃ (p m : Nat) (s : State), isPort p = true ∧ m < 4 ∧ s.live = true ∧ s.laneState p m = 2) ∧
    (∃ (k : Nat) (s : State), k < 4 ∧ s.live = true ∧ s.flag (CLK.PLL_STAT_HOLDOVER (2 + k)) = true ∧ s.othersUp k = true) ∧
    (∃ (k : Nat) (s : State), k < 4 ∧ s.live = true ∧ s.flag (CLK.PLL_STAT_HOLDOVER (2 + k)) = true ∧ s.flag
      CLK.STATUS_REFCLK0_VALID = false ∧ s.flag CLK.STATUS_REFCLK1_VALID = false) :=
  ⟨⟨3, 50, (w [(CLK.PLL_STAT_EN 5, 1)]), by decide +kernel⟩,
   ⟨7, 3, up, by decide +kernel⟩,
   ⟨7, 3, true, (w [(PRT.LANE_STAT_LANE_STATE 7 3, 7)]), by decide +kernel⟩,
   ⟨0, 0, (w [(PRT.LANE_STAT_SD 0 0, 1)]), by decide +kernel⟩,
   ⟨7, 0, (w [(PRT.LANE_STAT_LANE_STATE 7 0, 2)]), by decide +kernel⟩,
   ⟨3, (w [(CLK.PLL_STAT_HOLDOVER 5, 1)]), by decide +kernel⟩,
   ⟨0, (w [(CLK.PLL_STAT_HOLDOVER 2, 1)]), by decide +kernel⟩⟩

/-- States that meet the hypotheses of `TrainingAndMarkerEventsComplete`, clause by clause. -/
theorem witness_TrainingAndMarkerEventsComplete :
    (∃ (p _ : Nat) (s : State), isPort p = true ∧ s.live = true ∧ (s.port p).training = true) ∧
    (∃ (p _ : Nat) (s : State), isPort p = true ∧ s.live = true) ∧
    (∃ (p m : Nat) (_ : BitVec 128) (_ : BitVec 32) (_ _ : Nat) (s : State), isPort p = true ∧ m < 4 ∧ s.live = true ∧
      s.portState p ≠ 9 ∧ s.laneState p m ∈ [5, 6, 7, 8, 9, 11]) ∧
    (∃ (p : Nat) (s : State), isPort p = true ∧ s.live = true ∧ s.portState p = 3 ∧ 8 ≤ (s.port p).reqMarkers.getD 0 ∧
      s.masksAgreed p = false) ∧
    (∃ (p : Nat) (s : State), isPort p = true ∧ s.live = true ∧ s.sendsMarkers p = true) ∧
    (∃ (p : Nat) (s : State), isPort p = true ∧ s.live = true ∧ 4 ≤ s.portState p ∧ s.portState p ≤ 7 ∧ (s.port p).dropMask ≠
      0 ∧ 8 ≤ (s.port p).reqMarkers.getD 0) ∧
    (∃ (p : Nat) (s : State), isPort p = true ∧ s.live = true ∧ s.portState p = 7 ∧ (s.port p).aligner = true) :=
  ⟨⟨7, 15, up.setPort 7 { training := true }, by decide +kernel⟩,
   ⟨7, 15, up, by decide +kernel⟩,
   ⟨7, 3, 0, 0, 0, 0, (w [(PRT.LANE_STAT_LANE_STATE 7 3, 11)]), by decide +kernel⟩,
   ⟨7, ((w [(PRT.STATE_PORT_STATE 7, 3)])).setPort 7 { reqMarkers := some 8 }, by decide +kernel⟩,
   ⟨7, (w [(PRT.STATE_PORT_STATE 7, 5), (CLK.PLL_STAT_LOCKED 5, 1)]), by decide +kernel⟩,
   ⟨7, ((w [(PRT.STATE_PORT_STATE 7, 5)])).setPort 7 { dropMask := 1, reqMarkers := some 8 }, by decide +kernel⟩,
   ⟨0, ((w [(PRT.STATE_PORT_STATE 0, 7)])).setPort 0 { aligner := true }, by decide +kernel⟩⟩

/-- States that meet the hypotheses of `LinkCommandsComplete`, clause by clause. -/
theorem witness_LinkCommandsComplete :
    (∃ (p : Nat) (_ : List Nat) (s : State), isPort p = true ∧ s.live = true ∧ (s.portState p = 4 ∨ s.linkRuns p = true)) ∧
    (∃ (p : Nat) (s : State), isPort p = true ∧ s.live = true ∧ s.portState p = 5 ∧ s.fget (LNK.PSTAT_LINK_STATE p) = 3 ∧
      (s.port p).dropMask = 0) ∧
    (∃ (p : Nat) (s : State), isPort p = true ∧ s.live = true ∧ s.portState p = 5 ∧ (s.link p).replay ≠ [] ∧ (s.link
      p).suspend = 0) ∧
    (∃ (p : Nat) (s : State), isPort p = true ∧ s.live = true ∧ s.portState p = 5) ∧
    (∃ (p : Nat) (u : RxUnit) (s : State), isPort p = true ∧ s.live = true ∧ s.nextUnit p = some u) ∧
    (∃ (p : Nat) (s : State), isPort p = true ∧ s.live = true ∧ s.portState p = 4) ∧
    (∃ (r : Req) (s : State), isPort r.port = true ∧ s.live = true ∧ r.pos = 0 ∧ (s.link r.port).rx.find? RxUnit.isMgmt =
      none ∧ s.queuedFrom r.port < 8) ∧
    (∃ (r : Req) (u : RxUnit) (s : State), isPort r.port = true ∧ s.live = true ∧ r.pos = 0 ∧ (s.link r.port).rx.find?
      RxUnit.isMgmt = some u ∧ u.reqs.any (fun x => x.req = r) = true ∧ s.mayLeave r.port u = true) ∧
    (∃ (r : Req) (u : State) (t : Txn) (s : State), isPort r.port = true ∧ s.live = true ∧ r.pos ≠ 0 ∧ s.entryOf
      { r with opcode := 0x68 } = some (u, t) ∧ u.sidWrong { r with opcode := 0x68 } = false) ∧
    (∃ (s : State), s.live = true) :=
  ⟨⟨7, [], (w [(PRT.STATE_PORT_STATE 7, 4)]), by decide +kernel⟩,
   ⟨7, (w [(PRT.STATE_PORT_STATE 7, 5), (LNK.PSTAT_LINK_STATE 7, 3)]), by decide +kernel⟩,
   ⟨7, ((w [(PRT.STATE_PORT_STATE 7, 5)])).setLink 7 { replay := [⟨0, [], 0, 0, 0, false⟩] }, by decide +kernel⟩,
   ⟨7, (w [(PRT.STATE_PORT_STATE 7, 5)]), by decide +kernel⟩,
   ⟨7, unit, up.setLink 7 { rx := [unit] }, by decide +kernel⟩,
   ⟨7, (w [(PRT.STATE_PORT_STATE 7, 4)]), by decide +kernel⟩,
   ⟨rq 7 0x68, up, by decide +kernel⟩,
   ⟨rq 7 0x68, munit, up.setLink 7 { rx := [munit] }, by decide +kernel⟩,
   ⟨{ rq 7 0x68 with pos := 4 }, took { rq 7 0x68 with pos := 4 }, entry { rq 7 0x68 with pos := 4 }, host, by decide +kernel⟩,
   ⟨up, by decide +kernel⟩⟩

/-- States that meet the hypotheses of `RequestsThatPassTheChecksAreMapped`, clause by clause. -/
theorem witness_RequestsThatPassTheChecksAreMapped :
    (∃ (r : Req) (u : State) (t : Txn) (s : State), s.passes { r with opcode := 0x10 } u t) ∧
    (∃ (r : Req) (u : State) (t : Txn) (s : State), s.passes { r with opcode := 0x11 } u t) ∧
    (∃ (r : Req) (u : State) (t : Txn) (s : State), s.passes { r with opcode := 0x12 } u t) ∧
    (∃ (r : Req) (u : State) (t : Txn) (s : State), s.passes { r with opcode := 0x28 } u t) ∧
    (∃ (r : Req) (u : State) (t : Txn) (s : State), s.passes { r with opcode := 0x29 } u t) ∧
    (∃ (r : Req) (u : State) (t : Txn) (s : State), s.passes { r with opcode := 0x38 } u t) :=
  ⟨⟨{ rq 7 0x10 with addr := 0x1FFFFFFFC0 }, took { rq 7 0x10 with addr := 0x1FFFFFFFC0 }, entry
     { rq 7 0x10 with addr := 0x1FFFFFFFC0 }, host, by decide +kernel⟩,
   ⟨{ rq 7 0x11 with addr := 0x1FFFFFFF80 }, took { rq 7 0x11 with addr := 0x1FFFFFFF80 }, entry
     { rq 7 0x11 with addr := 0x1FFFFFFF80 }, host, by decide +kernel⟩,
   ⟨{ rq 7 0x12 with addr := 0x1FFFFFFF00 }, took { rq 7 0x12 with addr := 0x1FFFFFFF00 }, entry
     { rq 7 0x12 with addr := 0x1FFFFFFF00 }, host, by decide +kernel⟩,
   ⟨{ rq 7 0x28 with addr := 0x1FFFFFFFC0 }, took { rq 7 0x28 with addr := 0x1FFFFFFFC0 }, entry
     { rq 7 0x28 with addr := 0x1FFFFFFFC0 }, host, by decide +kernel⟩,
   ⟨{ rq 7 0x29 with addr := 0x1FFFFFFFFF, len := 1 }, took { rq 7 0x29 with addr := 0x1FFFFFFFFF, len := 1 }, entry
     { rq 7 0x29 with addr := 0x1FFFFFFFFF, len := 1 }, host, by decide +kernel⟩,
   ⟨{ rq 7 0x38 with addr := 0x1FFFFFFFF8, len := 0x01 }, took { rq 7 0x38 with addr := 0x1FFFFFFFF8, len := 0x01 }, entry
     { rq 7 0x38 with addr := 0x1FFFFFFFF8, len := 0x01 }, host, by decide +kernel⟩⟩

/-- States that meet the hypotheses of `OtherRequestsComplete`, clause by clause. -/
theorem witness_OtherRequestsComplete :
    (∃ (r : Req) (u : State) (t : Txn) (s : State), s.passes { r with opcode := 0x40 } u t) ∧
    (∃ (r : Req) (u : State) (t : Txn) (s : State), isPort r.port = true ∧ s.live = true ∧ s.entryOf
      { r with opcode := 0x50 } = some (u, t) ∧ u.sidWrong { r with opcode := 0x50 } = false) ∧
    (∃ (p reqId tag : Nat) (t : Txn) (s : State), s.live = true ∧ (s.txns.find?
      (fun t => t.stage = 4 ∧ t.req.port = p ∧ t.req.reqId = reqId ∧ t.req.tag = tag) = some t)) ∧
    (∃ (r : Req) (u : State) (t : Txn) (s : State), isPort r.port = true ∧ s.live = true ∧ s.entryOf r = some (u, t) ∧
      u.sidWrong r = false ∧ (r.opcode ∉ takenOps ∨ (r.pos ≠ 0 ∧ bitAt r.opcode 3 = true))) ∧
    (∃ (r : Req) (u : State) (t : Txn) (s : State), isPort r.port = true ∧ s.live = true ∧ s.sidWrong r = true ∧ s.entryOf r
      = some (u, t)) :=
  ⟨⟨{ rq 7 0x40 with data := desc }, took { rq 7 0x40 with data := desc }, entry { rq 7 0x40 with data := desc }, host,
     by decide +kernel⟩,
   ⟨rq 7 0x50, took (rq 7 0x50), entry (rq 7 0x50), host, by decide +kernel⟩,
   ⟨7, 0, 0, fenced, { up with txns := [fenced] }, by decide +kernel⟩,
   ⟨{ rq 7 0x38 with pos := 1 }, took { rq 7 0x38 with pos := 1 }, entry { rq 7 0x38 with pos := 1 }, host, by decide +kernel⟩,
   ⟨{ rq 7 0x10 with stackId := 1 }, took { rq 7 0x10 with stackId := 1 }, entry { rq 7 0x10 with stackId := 1 }, host,
     by decide +kernel⟩⟩

/-- States that meet the hypotheses of `DeviceQueriesAnswerOk`, clause by clause. -/
theorem witness_DeviceQueriesAnswerOk :
    (∃ (h : Halyard) (s : State), s.takes 0x00 h (fixedLen 0)) ∧
    (∃ (h : Halyard) (s : State), s.takes 0x01 h (fixedLen 0)) ∧
    (∃ (h : Halyard) (s : State), s.takes 0x02 h (fixedLen 0)) ∧
    (∃ (h : Halyard) (s : State), s.takes 0x04 h (fixedLen 1) ∧ (arg h 0 = 0xFFFF ∨ s.mgc.ops.any (fun o => o.id = arg h 0) =
      true)) ∧
    (∃ (h : Halyard) (s : State), s.takes 0x05 h (fixedLen 0)) :=
  ⟨⟨pk [], up, by decide +kernel⟩,
   ⟨pk [], up, by decide +kernel⟩,
   ⟨pk [], up, by decide +kernel⟩,
   ⟨pk [0xFFFF], up, by decide +kernel⟩,
   ⟨pk [], up, by decide +kernel⟩⟩

/-- States that meet the hypotheses of `RegisterPacketsAnswerOk`, clause by clause. -/
theorem witness_RegisterPacketsAnswerOk :
    (∃ (h : Halyard) (s : State), s.takes 0x10 h (fixedLen 2) ∧ rangeFault h 57 = none) ∧
    (∃ (h : Halyard) (_ : WriteObs) (s : State), s.takes 0x11 h regWriteLen ∧ rangeFault h 56 = none ∧ (List.range (countOf
      h)).any (fun k => owned (arg h 0 + 4 * k)) = false) ∧
    (∃ (h : Halyard) (_ : WriteObs) (r : RegRow) (s : State), s.takes 0x12 h (fixedLen 3) ∧ arg h 0 < 2 ^ 24 ∧ regRow (arg h
      0) = some r ∧ r.owned = false) ∧
    (∃ (h : Halyard) (s : State), s.takes 0x13 h readListLen ∧ listBad h.payload = none) :=
  ⟨⟨pk [0, 1], up, by decide +kernel⟩,
   ⟨pk [LNK.STACK_ID, 1, 0], {}, up, by decide +kernel⟩,
   ⟨pk [LNK.STACK_ID, 0xFFFFFFFF, 1], {}, (regRow LNK.STACK_ID).get rfl, up, by decide +kernel⟩,
   ⟨pk [0], up, by decide +kernel⟩⟩

/-- States that meet the hypotheses of `RegisterWritesComplete`, clause by clause. -/
theorem witness_RegisterWritesComplete :
    (∃ (j : Nat) (_ : State), j % 8 = 7) ∧
    (∃ (_ : Word) (_ : PmOutcome) (s : State), s.live = true ∧ s.pwr ≤ 1) :=
  ⟨⟨7, up, by decide +kernel⟩,
   ⟨0xFFFFFFFF, {}, (w [(PWR.STATE_CUR, 1)]), by decide +kernel⟩⟩

/-- States that meet the hypotheses of `PowerPacketsComplete`, clause by clause. -/
theorem witness_PowerPacketsComplete :
    (∃ (h : Halyard) (s : State), s.takes 0x20 h (fixedLen 1) ∧ arg h 0 ∈ [0, 3, 4] ∧ s.tripped = false ∧ s.devState = 1) ∧
    (∃ (h : Halyard) (s : State), s.takes 0x21 h (fixedLen 0)) ∧
    (∃ (h : Halyard) (s : State), s.takes 0x22 h (fixedLen 5) ∧ s.badRetWord h.payload = none ∧ arg h 4 < 2) ∧
    (∃ (h : Halyard) (s : State), s.takes 0x23 h (fixedLen 2) ∧ arg h 0 < 2 ^ 16 ∧ bits (arg h 0) 5 3 = 0 ∧ bits (arg h 0) 0
      5 ≠ 0 ∧ (bitAt (arg h 0) 0 = true → bits (arg h 0) 8 8 ≠ 0) ∧ (bitAt (arg h 0) 2 = true → arg h 1 ≠ 0)) ∧
    (∃ (h : Halyard) (s : State), s.takes 0x24 h (fixedLen 4) ∧ s.absentWord h.payload = none ∧ s.inSail = true) :=
  ⟨⟨pk [4], up, by decide +kernel⟩,
   ⟨pk [], up, by decide +kernel⟩,
   ⟨pk [0, 0, 0, 0, 1], up, by decide +kernel⟩,
   ⟨pk [0xFF1F, 0xFFFFFFFF], up, by decide +kernel⟩,
   ⟨pk [0, 0, 0, 1], up, by decide +kernel⟩⟩

/-- States that meet the hypotheses of `StagingPacketsComplete`, clause by clause. -/
theorem witness_StagingPacketsComplete :
    (∃ (h : Halyard) (s : State), s.takes 0x30 h (stageLen 4 14) ∧ firstBad (entriesOf 4 h.payload) classBad = none ∧
      (s.stageOwned = true → s.ownsStage h = true) ∧ s.mgc.commit = none) ∧
    (∃ (h : Halyard) (s : State), s.takes 0x31 h (stageLen 1 58) ∧ firstBad (entriesOf 1 h.payload) reqmapBad = none ∧
      (s.stageOwned = true → s.ownsStage h = true) ∧ s.mgc.commit = none) ∧
    (∃ (h : Halyard) (s : State), s.takes 0x32 h (stageLen 1 1) ∧ firstBad [h.payload] addrmapBad = none ∧ (s.stageOwned =
      true → s.ownsStage h = true) ∧ s.mgc.commit = none) ∧
    (∃ (h : Halyard) (s : State), s.takes 0x33 h (stageLen 3 19) ∧ firstBad (entriesOf 3 h.payload) guardBad = none ∧
      (s.stageOwned = true → s.ownsStage h = true) ∧ s.mgc.commit = none) ∧
    (∃ (h : Halyard) (s : State), s.takes 0x34 h (stageLen 1 58) ∧ firstBad (entriesOf 1 h.payload) evtcfgBad = none ∧
      (s.stageOwned = true → s.ownsStage h = true) ∧ s.mgc.commit = none) :=
  ⟨⟨pk [59, 0x00FA0000, 0, 0xFFFF], w [(MGC.STAGE_OWNER_SRC, 2)], by decide +kernel⟩,
   ⟨pk [0x0FFF0000], up, by decide +kernel⟩,
   ⟨pk [0x63], w [(MGC.STAGE_OWNER_SRC, 2)], by decide +kernel⟩,
   ⟨pk [0x000000FF, 0x2200, 0], w [(MGC.STAGE_OWNER_SRC, 2)], by decide +kernel⟩,
   ⟨pk [0x00002FFF], w [(MGC.STAGE_OWNER_SRC, 2)], by decide +kernel⟩⟩

/-- States that meet the hypotheses of `CommitAndDiscardComplete`, clause by clause. -/
theorem witness_CommitAndDiscardComplete :
    (∃ (h : Halyard) (s : State), s.takes 0x38 h (fixedLen 1) ∧ s.stageOwned = true ∧ s.ownsStage h = true ∧ bits (arg h 0) 0
      5 ≠ 0 ∧ bits (arg h 0) 0 5 &&& s.fget MGC.COMMIT_STAGE_DIRTY = bits (arg h 0) 0 5 ∧ s.inSail = true ∧ s.pw.entry = none
      ∧ s.pw.slot = none ∧ s.mgc.commit = none ∧ (bitAt (bits (arg h 0) 0 5) 2 = true → s.fget MGC.QUIESCE_PORTS = 0xFF) ∧
      s.stagedFault (bits (arg h 0) 0 5) = none) ∧
    (∃ (c : CommitSt) (s : State), s.mclk = true ∧ s.commitStep.mgc.commit = some c ∧ s.commitStep.mclk = true ∧ c.flushing =
      false ∧ c.held = false ∧ s.commitStep.stk.relay = none) ∧
    (∃ (h : Halyard) (s : State), s.takes 0x39 h (fixedLen 0) ∧ s.stageOwned = true ∧ s.ownsStage h = true ∧ s.mgc.commit =
      none) ∧
    (∃ (s : State), s.mclk = true ∧ s.stageOwned = true ∧ s.mgc.commit = none) :=
  ⟨⟨pk [0x1F], w [(MGC.STAGE_OWNER_SRC, 2), (MGC.COMMIT_STAGE_DIRTY, 0x1F), (MGC.QUIESCE_PORTS, 0xFF)], by decide +kernel⟩,
   ⟨⟨1, pk [1], false, false⟩, { up with mgc := { commit := some ⟨1, pk [1], false, false⟩ } }, by decide +kernel⟩,
   ⟨pk [], w [(MGC.STAGE_OWNER_SRC, 2)], by decide +kernel⟩,
   ⟨w [(MGC.STAGE_OWNER_SRC, 2)], by decide +kernel⟩⟩

/-- States that meet the hypotheses of `QuiesceCommandsComplete`, clause by clause. -/
theorem witness_QuiesceCommandsComplete :
    (∃ (h : Halyard) (s : State), s.takes 0x3A h (fixedLen 1) ∧ s.inSail = true) ∧
    (∃ (s : State), s.mclk = true) ∧
    (∃ (q : QuiesceSt) (rest : List QuiesceSt) (s : State), s.mclk = true ∧ s.mgc.quiesce = q :: rest) ∧
    (∃ (h : Halyard) (s : State), s.takes 0x3B h (fixedLen 1) ∧ s.mapCommits = false) ∧
    (∃ (_ : Halyard) (s : State), s.mapCommits = true) ∧
    (∃ (h : Halyard) (s : State), s.takes 0x3C h (fixedLen 0)) ∧
    (∃ (h : Halyard) (s : State), s.takes 0x3D h (fixedLen 2) ∧ bits (arg h 0) 24 8 ≤ 4 ∧ bits (arg h 0) 16 8 = 0 ∧ bits (arg
      h 0) 0 16 < (areaSize (bits (arg h 0) 24 8)).1 ∧ 0 < arg h 1 ∧ arg h 1 ≤ 57 ∧ arg h 1 % (areaSize (bits (arg h 0) 24
      8)).2 = 0 ∧ bits (arg h 0) 0 16 + arg h 1 / (areaSize (bits (arg h 0) 24 8)).2 ≤ (areaSize (bits (arg h 0) 24 8)).1) :=
  ⟨⟨pk [0xFF], up, by decide +kernel⟩,
   ⟨up, by decide +kernel⟩,
   ⟨⟨0xFF, pk [0xFF]⟩, [], { up with mgc := { quiesce := [⟨0xFF, pk [0xFF]⟩] } }, by decide +kernel⟩,
   ⟨pk [0xFF], up, by decide +kernel⟩,
   ⟨pk [0], { up with mgc := { commit := some ⟨4, pk [4], true, false⟩ } }, by decide +kernel⟩,
   ⟨pk [], up, by decide +kernel⟩,
   ⟨pk [0x04000000, 1], up, by decide +kernel⟩⟩

/-- States that meet the hypotheses of `TestPacketsComplete`, clause by clause. -/
theorem witness_TestPacketsComplete :
    (∃ (h : Halyard) (s : State), s.takes 0x40 h (fixedLen 1) ∧ s.engExists (bits (arg h 0) 0 8) = true ∧ bits (arg h 0) 8 2
      < 2 ∧ bits (arg h 0) 10 22 = 0 ∧ s.inSail = true ∧ s.bistAllowed (bits (arg h 0) 0 8) = true ∧ s.stk.bist = none ∧
      s.opRoom = true) ∧
    (∃ (m set id : Nat) (_ : List (Nat × Nat)) (s : State), s.live = true ∧ s.stk.bist = some (m, set, id)) ∧
    (∃ (h : Halyard) (s : State), s.takes 0x41 h (fixedLen 1) ∧ s.engExists (bits (arg h 0) 0 8) = true) ∧
    (∃ (h : Halyard) (_ : List (Nat × Nat)) (s : State), s.takes 0x45 h (fixedLen 1) ∧ s.engExists (bits (arg h 0) 0 8) =
      true ∧ s.inSail = true ∧ s.ftSkips (bits (arg h 0) 0 8) = false ∧ s.testing (bits (arg h 0) 0 8) = false ∧ s.opRoom =
      true) ∧
    (∃ (_ : List (Nat × Nat)) (s : State), s.ready = true ∧ s.flag STK.CTRL_FT_EN = true ∧ s.frozen = false ∧ s.tripped =
      false) ∧
    (∃ (m : Nat) (t : FieldTest) (_ : List (Nat × Nat)) (s : State), s.stk.tests.find? (fun t => t.mast = m) = some t ∧
      s.testable m = true) :=
  ⟨⟨pk [0x187], up, by decide +kernel⟩,
   ⟨0, 1, 1, [], { up with stk := { bist := some (0, 1, 1) } }, by decide +kernel⟩,
   ⟨pk [135], up, by decide +kernel⟩,
   ⟨pk [134], [], up, by decide +kernel⟩,
   ⟨[], (w [(STK.CTRL_FT_EN, 1)]), by decide +kernel⟩,
   ⟨134, { mast := 134, op := none }, [], { up with stk := { tests := [{ mast := 134, op := none }] } }, by decide +kernel⟩⟩

/-- States that meet the hypotheses of `RepairCommandsComplete`, clause by clause. -/
theorem witness_RepairCommandsComplete :
    (∃ (h : Halyard) (s : State), s.takes 0x42 h (fixedLen 1) ∧ rowReserved (arg h 0) = false ∧ (rowArg (arg h 0)).pc < s.pcs
      ∧ s.inSail = true ∧ s.fenced (rowArg (arg h 0)).pc = false ∧ s.evacRuns (rowArg (arg h 0)).pc = false ∧ s.spareRoom
      (rowArg (arg h 0)).loc = true ∧ s.ecc.spares.any (fun x => x.pc = (rowArg (arg h 0)).pc) = false ∧ s.opRoom = true) ∧
    (∃ (j : SpareJob) (_ : List (Nat × List (Nat × Nat))) (s : State), s.nextSpare = some j ∧ s.live = true) ∧
    (∃ (h : Halyard) (s : State), s.takes 0x43 h (fixedLen 1) ∧ rowReserved (arg h 0) = false ∧ (rowArg (arg h 0)).pc < s.pcs
      ∧ s.ecc.soft.contains ((engArray (s.engineOf (rowArg (arg h 0)).pc) * 64 + ((rowArg (arg h 0)).bg * 16 + (rowArg (arg h
      0)).bank)) * 8192 + (rowArg (arg h 0)).row) = true ∧ s.lockSet 5 = false ∧ s.flag OTP.CTRL_PROG_EN = true ∧ s.freeEntry
      ≠ none ∧ s.fuseState = true ∧ s.opRoom = true) ∧
    (∃ (h : Halyard) (s : State), s.takes 0x44 h (fixedLen 1) ∧ bits (arg h 0) 0 7 < s.pcs ∧ s.inSail = true ∧ s.fenced (bits
      (arg h 0) 0 7) = false ∧ s.onSpare (bits (arg h 0) 0 7) = false ∧ s.fget (ECC.SPARE_STAT_STATE (pcDie (bits (arg h 0) 0
      7))) ≠ 4 ∧ (s.fget (ECC.SPARE_STAT_STATE (pcDie (bits (arg h 0) 0 7))) = 3 → s.fget (ECC.SPARE_STAT_INDEX (pcDie (bits
      (arg h 0) 0 7))) = bits (arg h 0) 0 7) ∧ (s.ecc.evacQ.any
      (fun j => pcDie j = pcDie (bits (arg h 0) 0 7) ∧ j ≠ bits (arg h 0) 0 7) = false) ∧ s.ecc.evac = none ∧ s.opRoom =
      true) ∧
    (∃ (e : Evac) (_ : List (Nat × Nat)) (s : State), s.live = true ∧ s.inSail = true ∧ s.ecc.evac = some e ∧ e.copying =
      false) ∧
    (∃ (_ : List (Nat × Nat)) (s : State), s.live = true ∧ s.inSail = true ∧ s.ecc.evac = none) ∧
    (∃ (_ : List (Nat × Nat)) (s : State), s.live = true ∧ s.pwr ≤ 1) ∧
    (∃ (e : Evac) (s : State), s.ecc.evac = some e ∧ s.live = true ∧ s.lineFree e.pc = true ∧ s.refreshed (s.engineOf e.pc) =
      true ∧ s.evacReady (s.engineOf e.pc) = true) :=
  ⟨⟨pk [0], up, by decide +kernel⟩,
   ⟨{ pc := 127, bg := 3, bank := 15, row := 8191, op := none }, [],
     { w [(DCH.TIM_REF_TREFI_NS 8, 3900)] with ecc := { spares := [{ pc := 127, bg := 3, bank := 15, row := 8191, op := none }] }, engs := [(134, { began0 := some 0, began1 := some 0 })] },
     by decide +kernel⟩,
   ⟨pk [0x7F3F1FFF],
     { w [(OTP.CTRL_PROG_EN, 1)] with ecc := { soft := [(engArray (up.engineOf 127) * 64 + 63) * 8192 + 8191] } },
     by decide +kernel⟩,
   ⟨pk [127], up, by decide +kernel⟩,
   ⟨{ pc := 127, op := none, copying := false, next := 0, lost := false }, [],
     { up with ecc := { evac := some { pc := 127, op := none, copying := false, next := 0, lost := false } } },
     by decide +kernel⟩,
   ⟨[], up, by decide +kernel⟩,
   ⟨[], (w [(PWR.STATE_CUR, 1)]), by decide +kernel⟩,
   ⟨{ pc := 127, op := none, copying := true, next := pcLines, lost := false },
     { up with ecc := { evac := some { pc := 127, op := none, copying := true, next := pcLines, lost := false } } },
     by decide +kernel⟩⟩

/-- States that meet the hypotheses of `ScrubCommandsComplete`, clause by clause. -/
theorem witness_ScrubCommandsComplete :
    (∃ (h : Halyard) (s : State), s.takes 0x46 h injLen ∧ s.injBad h.payload = none ∧ s.inSail = true) ∧
    (∃ (h : Halyard) (s : State), s.takes 0x47 h (fixedLen 1) ∧ bits (arg h 0) 16 15 = 0 ∧ 1 ≤ bits (arg h 0) 0 16 ∧ bits
      (arg h 0) 0 16 ≤ 720) ∧
    (∃ (h : Halyard) (s : State), s.takes 0x48 h (fixedLen 4) ∧ s.badScrubWord h.payload = none ∧ s.ecc.fast = none ∧
      s.ecc.sweep = none ∧ (s.begun 0x48 h).admits (s.begun 0x48 h).fastView = true ∧ s.opRoom = true) ∧
    (∃ (f : FastScrub) (s : State), s.ecc.fast = some f ∧ s.live = true ∧ s.lowestPc f.mask = none ∧ f.again = [] ∧ s.reading
      .fast = false) ∧
    (∃ (_ : List (Nat × Nat)) (s : State), s.live = true) ∧
    (∃ (_ : List (Nat × List (Nat × Nat))) (s : State), s.live = true ∧ s.pwr = 2 ∧ s.flag ECC.SCRUB_CFG_REEF2 = true ∧
      s.ecc.sweep = none ∧ s.ecc.fast = none) ∧
    (∃ (_ : List (Nat × Nat)) (s : State), s.live = true ∧ s.pwr ≤ 1) ∧
    (∃ (v : Sweep) (s : State), s.ecc.sweep = some v ∧ s.live = true ∧ pcLines ≤ v.next ∧ v.again = [] ∧ s.reading .sweep =
      false) ∧
    (∃ (s : State), s.live = true) :=
  ⟨⟨pk [0x1000001F, 3], up, by decide +kernel⟩,
   ⟨pk [720], up, by decide +kernel⟩,
   ⟨pk [0, 0, 0, 1], up, by decide +kernel⟩,
   ⟨⟨0, 0, none, 0, []⟩, { up with ecc := { fast := some ⟨0, 0, none, 0, []⟩ } }, by decide +kernel⟩,
   ⟨[], (w [(PWR.STATE_CUR, 1)]), by decide +kernel⟩,
   ⟨[], (w [(PWR.STATE_CUR, 2), (ECC.SCRUB_CFG_REEF2, 1)]), by decide +kernel⟩,
   ⟨[], (w [(PWR.STATE_CUR, 1)]), by decide +kernel⟩,
   ⟨⟨127, pcLines, []⟩, { up with ecc := { sweep := some ⟨127, pcLines, []⟩ } }, by decide +kernel⟩,
   ⟨up, by decide +kernel⟩⟩

/-- States that meet the hypotheses of `FuseCommandsComplete`, clause by clause. -/
theorem witness_FuseCommandsComplete :
    (∃ (h : Halyard) (s : State), s.takes 0x50 h (fixedLen 2) ∧ bits (arg h 0) 10 6 = 0 ∧ bits (arg h 0) 18 14 = 0 ∧ 1 ≤ arg
      h 1 ∧ arg h 1 ≤ 56 ∧ bits (arg h 0) 0 10 + arg h 1 ≤ 0x400 ∧ s.fuseBusy = false) ∧
    (∃ (h : Halyard) (s : State), s.takes 0x51 h (fixedLen 2) ∧ arg h 0 < 0x400 ∧ arg h 1 ≠ 0 ∧ lessBits (s.fuseAt 0 (arg h
      0)) (arg h 1) = 0 ∧ s.mayProgram (arg h 0) = true ∧ s.flag OTP.CTRL_PROG_EN = true ∧ s.fuseState = true ∧ s.fuseBusy =
      false ∧ s.opRoom = true) ∧
    (∃ (h : Halyard) (s : State), s.takes 0x52 h (fixedLen 1) ∧ arg h 0 < 0x400 ∧ s.inUse (arg h 0) ≠ 0 ∧ s.flag
      OTP.CTRL_PROG_EN = true ∧ s.fuseState = true ∧ s.fuseBusy = false ∧ s.opRoom = true) ∧
    (∃ (h : Halyard) (s : State), s.takes 0x53 h (fixedLen 1) ∧ arg h 0 < 7 ∧ (arg h 0 = 5 ∨ arg h 0 = 6 ∨ s.otp.vtm = true)
      ∧ s.flag OTP.CTRL_PROG_EN = true ∧ s.lockSet (arg h 0) = false ∧ s.lockable (arg h 0) = true ∧ s.fuseState = true ∧
      s.fuseBusy = false) ∧
    (∃ (h : Halyard) (s : State), s.takes 0x54 h (fixedLen 0) ∧ s.fuseBusy = false) ∧
    (∃ (j : FuseJob) (_ : List FuseWord) (s : State), s.otp.job = some j ∧ s.frozen = false ∧ s.pwr ≤ 2 ∧ s.devState ≤ 1) ∧
    (∃ (_ : List FuseWord) (s : State), s.otp.job = none) :=
  ⟨⟨pk [0x3C8, 56], up, by decide +kernel⟩,
   ⟨pk [0x380, 0x10000], w [(OTP.CTRL_PROG_EN, 1)], by decide +kernel⟩,
   ⟨pk [0x018], w [(OTP.CTRL_PROG_EN, 1)], by decide +kernel⟩,
   ⟨pk [6], { w [(OTP.CTRL_PROG_EN, 1)] with otp := custOne }, by decide +kernel⟩,
   ⟨pk [], up, by decide +kernel⟩,
   ⟨⟨0x380, 1, 1, none, none⟩, [], { up with otp := { job := some ⟨0x380, 1, 1, none, none⟩ } }, by decide +kernel⟩,
   ⟨[], up, by decide +kernel⟩⟩

/-- States that meet the hypotheses of `FaultPacketsComplete`, clause by clause. -/
theorem witness_FaultPacketsComplete :
    (∃ (h : Halyard) (s : State), s.takes 0x60 h (fixedLen 1) ∧ 1 ≤ bits (arg h 0) 0 5 ∧ bits (arg h 0) 0 5 ≤ 18) ∧
    (∃ (h : Halyard) (s : State), s.takes 0x61 h (fixedLen 2) ∧ bits (arg h 0) 16 15 = 0 ∧ s.sourceExists (msgOf (arg h 0 % 2
      ^ 16 * 2 ^ 32 + arg h 1)).source = true ∧ (msgOf (arg h 0 % 2 ^ 16 * 2 ^ 32 + arg h 1)).kind ≠ 0x1F ∧ s.inSail = true) ∧
    (∃ (h : Halyard) (s : State), s.takes 0x65 h tableLen ∧ bits (arg h 0) 26 5 = 0 ∧ bits (arg h 0) 6 10 = 0 ∧ 1 ≤ bits (arg
      h 0) 0 6 ∧ bits (arg h 0) 0 6 ≤ 28 ∧ bits (arg h 0) 16 10 + bits (arg h 0) 0 6 ≤ 0x400 ∧ bitAt (arg h 0) 31 = false) ∧
    (∃ (h : Halyard) (s : State), s.takes 0x65 h tableLen ∧ bits (arg h 0) 26 5 = 0 ∧ bits (arg h 0) 6 10 = 0 ∧ 1 ≤ bits (arg
      h 0) 0 6 ∧ bits (arg h 0) 0 6 ≤ 28 ∧ bits (arg h 0) 16 10 + bits (arg h 0) 0 6 ≤ 0x400 ∧ bitAt (arg h 0) 31 = true ∧
      badTable (bits (arg h 0) 16 10) h.payload.tail = none) ∧
    (∃ (h : Halyard) (s : State), s.takes 0x66 h (fixedLen 1)) ∧
    (∃ (h : Halyard) (s : State), s.takes 0x62 h (fixedLen 2) ∧ bits (arg h 0) 30 2 ≠ 3 ∧ bits (arg h 1) 0 2 ≠ 0 ∧ (bits (arg
      h 0) 30 2 = 0 → s.bbx.ringLost = false) ∧ (s.begun 0x62 h).bbxSelect (bits (arg h 0) 30 2) (bits (arg h 0) 0 24) (bits
      (arg h 1) 0 2) ≠ []) ∧
    (∃ (h : Halyard) (s : State), s.takes 0x63 h (fixedLen 0) ∧ s.bbx.commit = none ∧ s.opRoom = true) ∧
    (∃ (h : Halyard) (s : State), s.takes 0x64 h (fixedLen 1)) :=
  ⟨⟨pk [18], up, by decide +kernel⟩,
   ⟨pk [0, 0], up, by decide +kernel⟩,
   ⟨pk [0x03E4001C], up, by decide +kernel⟩,
   ⟨pk [0x83FF0001, 0], up, by decide +kernel⟩,
   ⟨pk [6], up, by decide +kernel⟩,
   ⟨pk [0x40000FFF, 1], { up with bbx := { nv := [(4095, [])] } }, by decide +kernel⟩,
   ⟨pk [], up, by decide +kernel⟩,
   ⟨pk [1], up, by decide +kernel⟩⟩

/-- States that meet the hypotheses of `ScanPacketsComplete`, clause by clause. -/
theorem witness_ScanPacketsComplete :
    (∃ (h : Halyard) (i : Nat) (s : State), s.takes 0x70 h (fixedLen 2) ∧ resBad (arg h 0) (arg h 1) = none ∧ (s.begun 0x70
      h).freeRes = some i ∧ (s.begun 0x70 h).resTaken (bits (arg h 0) 0 16) = false ∧ (s.begun 0x70 h).resOf (bits (arg h 0)
      16 6) = none ∧ (s.begun 0x70 h).admits ((s.begun 0x70 h).resView (arg h 1)) = true) ∧
    (∃ (h : Halyard) (i : Nat) (s : State), s.takes 0x71 h (fixedLen 1) ∧ (List.range 4).find?
      (fun i => s.flag (SCN.RES_ENG_VALID i) && decide (s.fget (SCN.RES_ENG_ENG i) = arg h 0)) = some i) ∧
    (∃ (h : Halyard) (s : State), s.takes 0x72 h (fixedLen 2) ∧ 1 ≤ arg h 0 ∧ arg h 0 ≤ 20313 ∧ 1 ≤ arg h 1 ∧ arg h 1 ≤ 16) ∧
    (∃ (h : Halyard) (t : Txn) (s : State), s.takes 0x73 h (fixedLen 1) ∧ (s.begun 0x73 h).scanOf (bits (arg h 0) 16 12)
      (bits (arg h 0) 0 12) = some t) :=
  ⟨⟨pk [0x003B8000, 1], 0, up, by decide +kernel⟩,
   ⟨pk [0x8000], 3, w [(SCN.RES_ENG_VALID 3, 1), (SCN.RES_ENG_ENG 3, 0x8000)], by decide +kernel⟩,
   ⟨pk [20313, 16], up, by decide +kernel⟩,
   ⟨pk [0x0FFF0FFF], scanTxn, { up with txns := [scanTxn] }, by decide +kernel⟩⟩

/-- States that meet the hypotheses of `CareAndTracePacketsComplete`, clause by clause. -/
theorem witness_CareAndTracePacketsComplete :
    (∃ (h : Halyard) (s : State), s.takes 0x80 h (fixedLen 1) ∧ s.badTarget (arg h 0) = false ∧ s.inSail = true ∧ bits (arg h
      0) 28 4 ≠ 1 ∧ (bits (arg h 0) 28 4 = 2 → s.flag CLK.STATUS_XA_VALID = true) ∧ (s.calTargets (arg h 0)).any
      (fun t => s.calQueued t.1 t.2) = false ∧ s.opRoom = true) ∧
    (∃ (h : Halyard) (s : State), s.takes 0x80 h (fixedLen 1) ∧ s.badTarget (arg h 0) = false ∧ s.inSail = true ∧ bits (arg h
      0) 28 4 = 1 ∧ s.portState (bits (arg h 0) 0 3) = 5 ∧ (s.calTargets (arg h 0)).any (fun t => s.calQueued t.1 t.2) =
      false ∧ s.opRoom = true) ∧
    (∃ (h : Halyard) (s : State), s.takes 0x81 h (fixedLen 1) ∧ s.badTarget (arg h 0) = false ∧ bits (arg h 0) 28 4 ≠ 3) ∧
    (∃ (h : Halyard) (s : State), s.takes 0x82 h (fixedLen 1) ∧ 2 ≤ bits (arg h 0) 24 8 ∧ bits (arg h 0) 24 8 ≤ 30 ∧ 100 ≤
      bits (arg h 0) 8 16) ∧
    (∃ (h : Halyard) (s : State), s.takes 0x90 h (fixedLen 1) ∧ bits (arg h 0) 0 4 ≤ s.dies ∧ bits (arg h 0) 4 28 = 0) ∧
    (∃ (h : Halyard) (s : State), s.takes 0x91 h (fixedLen 1) ∧ (bits (arg h 0) 0 10 = 0 ∨ (0x0F0 ≤ bits (arg h 0) 0 10 ∧
      bits (arg h 0) 0 10 ≤ 0x17C)) ∧ (bits (arg h 0) 16 10 = 0 ∨ (280 ≤ bits (arg h 0) 16 10 ∧ bits (arg h 0) 16 10 ≤ (if
      bits (arg h 0) 0 10 = 0 then s.fget THM.WARN_CFG_WARN_TJ else bits (arg h 0) 0 10)))) ∧
    (∃ (h : Halyard) (s : State), s.takes 0x92 h (fixedLen 0)) ∧
    (∃ (h : Halyard) (s : State), s.takes 0xF0 h (fixedLen 1) ∧ bits (arg h 0) 0 4 < 6) ∧
    (∃ (h : Halyard) (s : State), s.takes 0xF1 h (fixedLen 1) ∧ 1 ≤ bits (arg h 0) 0 6 ∧ bits (arg h 0) 0 6 ≤ 56) ∧
    (∃ (op : Nat) (h : Halyard) (s : State), (op = 0xFE ∨ op = 0xFF) ∧ s.takes op h (fun _ => none)) ∧
    (∃ (op : Nat) (h : Halyard) (s : State), s.noOpcode op = true ∧ s.serves h ∧ s.mayStart ⟨op, h⟩ = true ∧ s.isRepeat ⟨op,
      h⟩ = false ∧ badLength h = false ∧ (assignedOps.contains op = true → fixedLen (if op = 0x70 ∨ op = 0x72 then 2 else 1)
      h.payload = none) ∧ bitAt h.flags 7 = false) :=
  ⟨⟨pk [0], up, by decide +kernel⟩,
   ⟨pk [0x10000007], (w [(PRT.STATE_PORT_STATE 7, 5)]), by decide +kernel⟩,
   ⟨pk [0], up, by decide +kernel⟩,
   ⟨pk [0x1E006400], up, by decide +kernel⟩,
   ⟨pk [8], up, by decide +kernel⟩,
   ⟨pk [0x017C017C], up, by decide +kernel⟩,
   ⟨pk [], up, by decide +kernel⟩,
   ⟨pk [5], up, by decide +kernel⟩,
   ⟨pk [56], up, by decide +kernel⟩,
   ⟨0xFF, pk [], { up with otp := { vtm := true } }, by decide +kernel⟩,
   ⟨3, pk [], up, by decide +kernel⟩⟩

/-- States that meet the hypotheses of `SchedulerEventsComplete`, clause by clause. -/
theorem witness_SchedulerEventsComplete :
    (∃ (n : Nat) (t : Txn) (s : State), s.queueFront n = some t ∧ s.live = true ∧ s.firstInLine t = true ∧ s.budgetOk t =
      true ∧ s.poolOk t = true ∧ s.relayHolds t = false) ∧
    (∃ (n : Nat) (t : Txn) (s : State), s.queueFront n = some t ∧ s.live = true ∧ (s.firstInLine t = false ∨ s.budgetOk t =
      false ∨ s.poolOk t = false ∨ s.relayHolds t = true) ∧ t.stage = 1 ∧ (s.poolOk t = true ∨ s.firstInLine t = false ∨
      s.budgetOk t = false ∨ t.poolHeld = true)) ∧
    (∃ (n : Nat) (s : State), n < 64 ∧ s.live = true ∧ (n = 60 → s.ecc.reef2 = none) ∧ SMap.get none s.sch.nextBudget n =
      none) ∧
    (∃ (n b : Nat) (r : Bool) (s : State), n < 64 ∧ n ≠ 62 ∧ s.live = true ∧ (n = 60 → s.ecc.reef2 = none) ∧ SMap.get none
      s.sch.nextBudget n = some (b, r)) ∧
    (∃ (s : State), s.live = true) ∧
    (∃ (s : State), s.live = true) ∧
    (∃ (p : Nat) (s : State), isPort p = true ∧ s.live = true ∧ (s.portState p = 8 ∨ (1 ≤ s.portState p ∧ s.portState p ≤
      4))) ∧
    (∃ (_ : RoundObs) (s : State), s.housekeeps = true) :=
  ⟨⟨0, { entry (rq 7 0x10) with stage := 1 }, { host with txns := [{ entry (rq 7 0x10) with stage := 1 }] }, by decide +kernel⟩,
   ⟨0, { entry (rq 7 0x10) with stage := 1 },
     { w [(SCH.CLS_BUDGET_BUDGET 0, 1)] with txns := [{ entry (rq 7 0x10) with stage := 1 }] }, by decide +kernel⟩,
   ⟨63, up, by decide +kernel⟩,
   ⟨63, 1, false, { up with sch := { nextBudget := [(63, some (1, false))] } }, by decide +kernel⟩,
   ⟨up, by decide +kernel⟩,
   ⟨up, by decide +kernel⟩,
   ⟨7, (w [(PRT.STATE_PORT_STATE 7, 8)]), by decide +kernel⟩,
   ⟨{}, up, by decide +kernel⟩⟩

/-- States that meet the hypotheses of `EngineEventsComplete`, clause by clause. -/
theorem witness_EngineEventsComplete :
    (∃ (s : State), s.live = true) ∧
    (∃ (m : Nat) (s : State), s.live = true ∧ s.engExists m = true) ∧
    (∃ (m _ : Nat) (s : State), s.engRuns m = true ∧ s.engPd m = false) ∧
    (∃ (m h : Nat) (s : State), h < 2 ∧ s.refreshed m = true) ∧
    (∃ (m h : Nat) (s : State), h < 2 ∧ s.refreshed m = true) ∧
    (∃ (m h due : Nat) (s : State), h < 2 ∧ s.refreshed m = true ∧ (if h = 0 then (s.eng m).due0 else (s.eng m).due1) = some
      due ∧ s.refsRunning < 24 ∧ s.earlierRef due = false ∧ (s.eng m).halfClosed h (8 * s.now) = true ∧ s.halfLocked m h =
      false ∧ s.refOpen m = true ∧ s.slotWanted m = false) ∧
    (∃ (d : Nat) (s : State), 1 ≤ d ∧ d ≤ s.dies ∧ s.live = true) ∧
    (∃ (m : Nat) (s : State), s.refreshed m = true) ∧
    (∃ (m user : Nat) (s : State), s.refreshed m = true ∧ (s.eng m).rdq = [] ∧ (s.eng m).wrq = [] ∧ s.engLocked m = false ∧
      s.quietRef m = true ∧ user < 2 ∧ (s.eng m).silent ≤ 8 * s.now) ∧
    (∃ (m : Nat) (s : State), s.engRuns m = true ∧ s.pwr = 0) ∧
    (∃ (m : Nat) (s : State), s.engRuns m = true ∧ s.pwr = 1) ∧
    (∃ (m : Nat) (s : State), s.engExists m = true ∧ s.engSr m = true ∧ s.engPerm m = false ∧ (s.eng m).ready ≤ 8 * s.now ∧
      s.srRunning (engDie m) < 3 ∧ s.srDue m = true) :=
  ⟨⟨up, by decide +kernel⟩,
   ⟨135, up, by decide +kernel⟩,
   ⟨135, 0, up, by decide +kernel⟩,
   ⟨135, 1, up, by decide +kernel⟩,
   ⟨135, 1, up, by decide +kernel⟩,
   ⟨135, 1, 0, { up with engs := [(135, { due1 := some 0 })] }, by decide +kernel⟩,
   ⟨8, up, by decide +kernel⟩,
   ⟨0, up, by decide +kernel⟩,
   ⟨134, 1, w [(DCH.TIM_REF_TREFI_NS 8, 3900)], by decide +kernel⟩,
   ⟨0, up, by decide +kernel⟩,
   ⟨0, (w [(PWR.STATE_CUR, 1)]), by decide +kernel⟩,
   ⟨0, w [(DCH.SR_STATE_ENG 1, 1)], by decide +kernel⟩⟩

/-- States that meet the hypotheses of `CacheEventsComplete`, clause by clause. -/
theorem witness_CacheEventsComplete :
    (∃ (m : Nat) (_ : List (Nat × Nat)) (s : State), s.live = true ∧ s.engExists m = true) ∧
    (∃ (k : Nat) (s : State), s.live = true ∧ k < 32) ∧
    (∃ (_ : Nat) (s : State), s.live = true) ∧
    (∃ (m : Nat) (_ : List (Nat × Nat)) (s : State), s.live = true ∧ s.engExists m = true) ∧
    (∃ (line k : Nat) (v : Way) (s : State), s.live = true ∧ (s.slc (lineSlice line)).find line = some (k, v) ∧ v.st = .merge
      ∧ v.openAt + max 100 (s.fget LCH.MERGE_CFG_TIMEOUT_NS) ≤ s.now) ∧
    (∃ (m : Nat) (_ : List (Nat × Nat)) (s : State), s.live = true ∧ s.engExists m = true) ∧
    (∃ (_ : Nat) (s : State), s.live = true) ∧
    (∃ (k : Nat) (s : State), s.live = true ∧ k < 32) ∧
    (∃ (k _ : Nat) (s : State), s.live = true ∧ k < 32 ∧ s.flag LCH.CTRL_SRAM_SCRUB = true) ∧
    (∃ (s : State), s.live = true ∧ s.flush.isSome = true) ∧
    (∃ (f : FlushSt) (s : State), s.flush = some f ∧ s.live = true) ∧
    (∃ (_ : Bool) (s : State), s.live = true ∧ s.fwRuns = true ∧ s.flush = none) :=
  ⟨⟨135, [], up, by decide +kernel⟩,
   ⟨31, up, by decide +kernel⟩,
   ⟨0, up, by decide +kernel⟩,
   ⟨135, [], up, by decide +kernel⟩,
   ⟨0, 0, { line := 0, st := .merge, data := [] },
     { up with slices := [(0, { ways := [(0, { line := 0, st := .merge, data := [] })] })], now := 1000000 }, by decide +kernel⟩,
   ⟨135, [], up, by decide +kernel⟩,
   ⟨0, up, by decide +kernel⟩,
   ⟨31, up, by decide +kernel⟩,
   ⟨31, 0, (w [(LCH.CTRL_SRAM_SCRUB, 1)]), by decide +kernel⟩,
   ⟨{ up with flush := some ⟨true, 0, 0⟩ }, by decide +kernel⟩,
   ⟨⟨true, 0, 0⟩, { up with flush := some ⟨true, 0, 0⟩ }, by decide +kernel⟩,
   ⟨true, up, by decide +kernel⟩⟩

/-- States that meet the hypotheses of `ScanEventsComplete`, clause by clause. -/
theorem witness_ScanEventsComplete :
    (∃ (s : State), s.live = true ∧ s.scnPresent = true) ∧
    (∃ (e : Nat) (s : State), s.live = true ∧ s.scnPresent = true ∧ e < 16) ∧
    (∃ (reqId tag : Nat) (t : Txn) (r : ScanRun) (s : State), s.scanOf reqId tag = some t ∧ s.scn.runs.find?
      (fun r => r.num = t.num) = some r ∧ s.live = true) ∧
    (∃ (reqId tag : Nat) (t : Txn) (s : State), s.scanOf reqId tag = some t ∧ s.live = true ∧ t.stage = 3 ∧ (scanDesc
      t.req.data).limitMs ≠ 0) :=
  ⟨⟨up, by decide +kernel⟩,
   ⟨15, up, by decide +kernel⟩,
   ⟨4095, 4095, scanTxn, { num := 0, engs := [], res := none },
     { up with txns := [scanTxn], scn := { runs := [{ num := 0, engs := [], res := none }] } }, by decide +kernel⟩,
   ⟨4095, 4095, scanTxn, { up with txns := [scanTxn] }, by decide +kernel⟩⟩

/-- States that meet the hypotheses of `TapCommandsComplete`, clause by clause. -/
theorem witness_TapCommandsComplete :
    (∃ (_ : Nat) (s : State), s.dieAccess = true) ∧
    (∃ (_ : Nat) (s : State), s.dieAccess = false) ∧
    (∃ (s : State), s.frozen = true ∧ s.flag CNS.STATUS_REFRESH_KEPT = true ∧ s.fget CNS.IMG_PTR_BIT = 0) ∧
    (∃ (_ update : Bool) (s : State), (s.frozen = false ∨ update = false)) ∧
    (∃ (pin : Bool) (s : State), s.frozen = true ∧ (s.flag CNS.STATUS_REFRESH_KEPT = false ∨ s.fget CNS.IMG_PTR_BIT ≠ 0 ∨ pin
      = false)) :=
  ⟨⟨255, w [(STK.CTRL_T1838_EN, 1)], by decide +kernel⟩,
   ⟨255, up, by decide +kernel⟩,
   ⟨(w [(CNS.STATUS_FROZEN, 1), (CNS.STATUS_REFRESH_KEPT, 1)]), by decide +kernel⟩,
   ⟨true, true, up, by decide +kernel⟩,
   ⟨false, (w [(CNS.STATUS_FROZEN, 1), (CNS.STATUS_REFRESH_KEPT, 1)]), by decide +kernel⟩⟩

/-- States that meet the hypotheses of `CalibrationEventsComplete`, clause by clause. -/
theorem witness_CalibrationEventsComplete :
    (∃ (p : Nat) (_ : List (Nat × Nat × Nat × Nat)) (s : State), isPort p = true ∧ s.live = true ∧ s.ready = true) ∧
    (∃ (s : State), s.live = true ∧ s.ready = true) ∧
    (∃ (s : State), s.live = true) ∧
    (∃ (m : Nat) (_ : List (Nat × Int × Nat)) (_ : List (Nat × Nat)) (s : State), s.calMay = true ∧ s.engExists m = true) ∧
    (∃ (r : CalRun) (s : State), s.cal.run = some r ∧ s.live = true ∧ r.phase = 2) ∧
    (∃ (_ : Nat) (r : CalRun) (s : State), s.calMay = true ∧ s.fioStart.cal.run = some r ∧ r.job.kind = 2 ∧ r.phase = 0) ∧
    (∃ (s : State), s.mclkIdle = true) :=
  ⟨⟨7, [], up, by decide +kernel⟩,
   ⟨up, by decide +kernel⟩,
   ⟨up, by decide +kernel⟩,
   ⟨135, [], [], w [(CLK.STATUS_PLL_READY, 1)], by decide +kernel⟩,
   ⟨{ job := ⟨0, 7, 0, none⟩, phase := 2 }, { up with cal := { run := some { job := ⟨0, 7, 0, none⟩, phase := 2 } } },
     by decide +kernel⟩,
   ⟨0, { job := ⟨2, 0, 0, none⟩ }, { w [(CLK.STATUS_PLL_READY, 1)] with cal := { queue := [⟨2, 0, 0, none⟩] } },
     by decide +kernel⟩,
   ⟨up, by decide +kernel⟩⟩

/-- States that meet the hypotheses of `ThermalSamplesComplete`, clause by clause. -/
theorem witness_ThermalSamplesComplete :
    (∃ (d : Nat) (_ : List (Nat × Int)) (s : State), d ≤ s.dies ∧ s.frozen = false ∧ s.pwr ≤ 2 ∧ s.devState ≤ 1 ∧ (d = 0 ∨
      s.fget (DCH.STATUS_DIE_STATE d) = 0)) ∧
    (∃ (d : Nat) (_ : List (Nat × Int)) (s : State), 1 ≤ d ∧ d ≤ s.dies ∧ s.frozen = false ∧ s.pwr ≤ 2 ∧ s.devState ≤ 1 ∧
      s.fget (DCH.STATUS_DIE_STATE d) ≠ 0) ∧
    (∃ (d f : Nat) (s : State), d ≤ s.dies ∧ s.frozen = false ∧ s.pwr ≤ 2 ∧ (s.die d).warned = true ∧ (s.die d).coolFrom =
      some f ∧ f + 100000000 ≤ s.now) :=
  ⟨⟨8, [], up, by decide +kernel⟩,
   ⟨8, [], (w [(DCH.STATUS_DIE_STATE 8, 2)]), by decide +kernel⟩,
   ⟨8, 0, { up with thm := { dies := [(8, { warned := true, coolFrom := some 0 })] }, now := 100000000 }, by decide +kernel⟩⟩

/-- States that meet the hypotheses of `TripReleasesComplete`, clause by clause. -/
theorem witness_TripReleasesComplete :
    (∃ (f : Nat) (s : State), s.tripped = true ∧ s.flag THM.CTRL_AUTO_RESTART = true ∧ s.thm.holdFrom = some f ∧ f +
      1000000000 ≤ s.aon ∧ s.frozen = false) ∧
    (∃ (temps : List Int) (x : Int) (s : State), (s.pwr = 3 ∨ s.devState = 4 ∨ s.frozen = true) ∧ x ∈ temps ∧ 420 ≤ x) ∧
    (∃ (temps : List Int) (s : State), (s.pwr = 3 ∨ s.devState = 4 ∨ s.frozen = true) ∧ (∀ x ∈ temps, x < 420) ∧ (s.pwr ≠ 3 ∨
      s.devState = 4 ∨ s.frozen = true ∨ s.thm.pin = false)) ∧
    (∃ (temps : List Int) (s : State), s.pwr = 3 ∧ s.devState ≠ 4 ∧ s.frozen = false ∧ s.thm.pin = true ∧ (∀ x ∈ temps, x <
      420) ∧ (s.flag THM.CTRL_AUTO_RESTART = false ∨ ∃ x ∈ temps, 320 ≤ x)) ∧
    (∃ (temps : List Int) (s : State), s.pwr = 3 ∧ s.devState ≠ 4 ∧ s.frozen = false ∧ s.thm.pin = true ∧ s.flag
      THM.CTRL_AUTO_RESTART = true ∧ (∀ x ∈ temps, x < 320) ∧ s.thm.holdFrom = none) ∧
    (∃ (temps : List Int) (f : Nat) (s : State), s.pwr = 3 ∧ s.devState ≠ 4 ∧ s.frozen = false ∧ s.thm.pin = true ∧ s.flag
      THM.CTRL_AUTO_RESTART = true ∧ (∀ x ∈ temps, x < 320) ∧ s.thm.holdFrom = some f) :=
  ⟨⟨0, { w [(THM.STATUS_TRIPPED, 1), (THM.CTRL_AUTO_RESTART, 1)] with thm := { holdFrom := some 0 }, aon := 1000000000 },
     by decide +kernel⟩,
   ⟨[420], 420, (w [(PWR.STATE_CUR, 3)]), by decide +kernel⟩,
   ⟨[419], (w [(PWR.STATE_CUR, 3)]), by decide +kernel⟩,
   ⟨[320], { w [(PWR.STATE_CUR, 3), (THM.CTRL_AUTO_RESTART, 1)] with thm := { pin := true } }, by decide +kernel⟩,
   ⟨[319], { w [(PWR.STATE_CUR, 3), (THM.CTRL_AUTO_RESTART, 1)] with thm := { pin := true } }, by decide +kernel⟩,
   ⟨[319], 0,
     { w [(PWR.STATE_CUR, 3), (THM.CTRL_AUTO_RESTART, 1)] with thm := { pin := true, holdFrom := some 0 }, aon := 1000000000 },
     by decide +kernel⟩⟩

/-- States that meet the hypotheses of `PowerEventsComplete`, clause by clause. -/
theorem witness_PowerEventsComplete :
    (∃ (s : State), s.pwr = 0 ∧ s.flag PWR.CTRL_REEF1_EN = true ∧ s.mayReef = true) ∧
    (∃ (s : State), s.pwr = 1 ∧ s.flag PWR.CTRL_REEF2_EN = true ∧ s.mayReef = true) ∧
    (∃ (_ : Nat) (s : State), s.live = true ∧ (s.pwr = 1 ∨ s.pwr = 2) ∧ s.pw.entry = none ∧ (s.pw.wake.isSome = true ∨
      s.idleDevice = false)) ∧
    (∃ (e : PwrEntry) (s : State), s.pw.entry = some e ∧ s.live = true ∧ e.step ≤ lastAbort e.target ∧ s.entryDone e = true ∧
      s.wakeSeen e = true) ∧
    (∃ (t id : Nat) (s : State), s.pw.slot = some (t, id) ∧ s.pw.entry = none ∧ s.pw.waking = none ∧ s.wakeable = true ∧
      s.pwr = 0 ∧ t ≠ 0) ∧
    (∃ (t id : Nat) (s : State), s.pw.slot = some (t, id) ∧ s.pw.entry = none ∧ s.pw.waking = none ∧ s.wakeable = true ∧ t =
      s.pwr) ∧
    (∃ (t id : Nat) (s : State), s.pw.slot = some (t, id) ∧ s.pw.entry = none ∧ s.pw.waking = none ∧ s.wakeable = true ∧
      s.pwr ≠ 0 ∧ t ≠ s.pwr ∧ s.pw.wake = none) ∧
    (∃ (s : State), s.wakeable = true ∧ s.pinsTaken = false) ∧
    (∃ (s : State), s.wakeable = true ∧ s.pwr = 3) ∧
    (∃ (s : State), s.wakeable = true) ∧
    (∃ (s : State), s.wakeable = true ∧ s.twAsleep = true) ∧
    (∃ (_ : FurlObs) (x : Shadow) (code port : Nat) (s : State), s.pw.shadow = some x ∧ s.pw.wake = some (code, port) ∧ s.pwr
      = 3 ∧ s.pw.entry = none ∧ s.frozen = false ∧ s.tripped = false ∧ s.devState = 1) ∧
    (∃ (s : State), s.pw.fill ≠ 0 ∧ s.live = true) ∧
    (∃ (e : PwrEntry) (s : State), s.pw.entry = some e ∧ s.live = true ∧ 3 ≤ e.target ∧ e.step = 3 ∧ s.entryDone e = false) :=
  ⟨⟨(w [(PWR.CTRL_REEF1_EN, 1)]), by decide +kernel⟩,
   ⟨(w [(PWR.STATE_CUR, 1), (PWR.CTRL_REEF2_EN, 1)]), by decide +kernel⟩,
   ⟨0, { w [(PWR.STATE_CUR, 2)] with pw := { wake := some (2, 0) } }, by decide +kernel⟩,
   ⟨⟨3, 0, none, 5⟩, { up with pw := { entry := some ⟨3, 0, none, 5⟩, wake := some (2, 0) } }, by decide +kernel⟩,
   ⟨3, 1, { up with pw := { up.pw with slot := some (3, 1) } }, by decide +kernel⟩,
   ⟨0, 1, { up with pw := { up.pw with slot := some (0, 1) } }, by decide +kernel⟩,
   ⟨3, 1, { w [(PWR.STATE_CUR, 2)] with pw := { slot := some (3, 1) } }, by decide +kernel⟩,
   ⟨up, by decide +kernel⟩,
   ⟨(w [(PWR.STATE_CUR, 3)]), by decide +kernel⟩,
   ⟨up, by decide +kernel⟩,
   ⟨(w [(PWR.STATE_CUR, 2)]), by decide +kernel⟩,
   ⟨{}, ⟨[], [], {}, [], 0⟩, 2, 0,
     { w [(PWR.STATE_CUR, 3)] with pw := { shadow := some ⟨[], [], {}, [], 0⟩, wake := some (2, 0) } }, by decide +kernel⟩,
   ⟨{ up with pw := { up.pw with fill := 1 } }, by decide +kernel⟩,
   ⟨⟨4, 0, none, 3⟩, { up with pw := { entry := some ⟨4, 0, none, 3⟩ }, txns := [{ entry (rq 7 0x10) with stage := 2 }] },
     by decide +kernel⟩⟩

/-- States that meet the hypotheses of `ClockCommandsComplete`, clause by clause. -/
theorem witness_ClockCommandsComplete :
    (∃ (i count : Nat) (s : State), i < 5 ∧ s.devState ≠ 4 ∧ s.flag (CLK.MON_STAT_ARMED i) = true ∧ s.windowBlind i = false ∧
      s.windowDiscarded i count = false) ∧
    (∃ (i : Nat) (s : State), i < 3 ∧ s.devState ≠ 4 ∧ (i = 2 ∨ s.pwr ≤ 2) ∧ (s.mon i).stable = false) ∧
    (∃ (i : Nat) (s : State), (i = 0 ∨ i = 2) ∧ (s.mon i).failed = true ∧ s.devState ≠ 4 ∧ (i = 2 ∨ s.pwr ≤ 2)) ∧
    (∃ (s : State), s.flag CLK.STATUS_XB_VALID = false ∧ (s.mon 2).stable = false ∧ s.devState ≠ 4 ∧ s.frozen = false) ∧
    (∃ (j : Nat) (s : State), j < 6 ∧ s.live = true ∧ s.flag (CLK.PLL_STAT_EN j) = true ∧ s.flag (CLK.PLL_STAT_LOCKED j) =
      true) ∧
    (∃ (j _ : Nat) (s : State), j < 6 ∧ s.live = true ∧ s.flag (CLK.PLL_STAT_EN j) = true ∧ s.flag (CLK.PLL_STAT_LOCKED j) =
      false) ∧
    (∃ (sw _ _ : Nat) (s : State), 1 ≤ sw ∧ sw ≤ 46 ∧ s.devState ≠ 4) ∧
    (∃ (b : Nat) (s : State), s.live = true ∧ s.gateable b = true) ∧
    (∃ (b : Nat) (s : State), s.live = true ∧ s.gateable b = true ∧ bitAt (s.fget CLK.GATE_STAT_GATED) b = false) ∧
    (∃ (b : Nat) (s : State), s.live = true ∧ s.gateable b = false) ∧
    (∃ (b : Nat) (s : State), s.live = true ∧ (s.gateable b = false ∨ bitAt (s.fget CLK.GATE_STAT_GATED) b = true)) ∧
    (∃ (b : Nat) (s : State), s.live = true ∧ b < 10 ∧ bitAt (s.fget CLK.GATE_STAT_PEND) b = true ∧ s.blockIdle b = true) ∧
    (∃ (addr : Nat) (_ : Bool) (s : State), s.live = true ∧ s.gated addr = true) :=
  ⟨⟨4, 6400, (w [(CLK.MON_STAT_ARMED 4, 1)]), by decide +kernel⟩,
   ⟨2, (w [(PWR.STATE_CUR, 3)]), by decide +kernel⟩,
   ⟨2, up.setMon 2 { up.mon 2 with failed := true }, by decide +kernel⟩,
   ⟨up, by decide +kernel⟩,
   ⟨5, (w [(CLK.PLL_STAT_EN 5, 1), (CLK.PLL_STAT_LOCKED 5, 1)]), by decide +kernel⟩,
   ⟨5, 50, (w [(CLK.PLL_STAT_EN 5, 1)]), by decide +kernel⟩,
   ⟨46, 1, 2, up, by decide +kernel⟩,
   ⟨9, up, by decide +kernel⟩,
   ⟨9, up, by decide +kernel⟩,
   ⟨10, up, by decide +kernel⟩,
   ⟨10, up, by decide +kernel⟩,
   ⟨9, (w [(CLK.GATE_STAT_PEND, 512)]), by decide +kernel⟩,
   ⟨PRT.CTRL 7, true, (w [(CLK.GATE_STAT_GATED, 128)]), by decide +kernel⟩⟩

/-- States that meet the hypotheses of `TwoWireCommandsComplete`, clause by clause. -/
theorem witness_TwoWireCommandsComplete :
    (∃ (addr : Nat) (_ : List Nat) (s : State), s.twMine addr = true ∧ addr % 2 = 0 ∧ s.twb.held = none ∧ s.twAsleep = false
      ∧ s.twBusy = false) ∧
    (∃ (addr : Nat) (_ : List Nat) (s : State), s.twMine addr = true ∧ s.twb.held = none ∧ s.twAsleep = false ∧ (addr % 2 = 1
      ∨ s.twBusy = false)) ∧
    (∃ (addr : Nat) (_ : List Nat) (_ : Bool) (s : State), s.twMine addr = true ∧ addr % 2 = 0 ∧ s.twb.held = none ∧
      s.twAsleep = false ∧ s.twBusy = true) ∧
    (∃ (addr : Nat) (_ : List Nat) (bad : Bool) (s : State), s.twMine addr = true ∧ (addr % 2 = 0 ∨ bad = true) ∧ s.twb.held
      = none ∧ s.twAsleep = true) ∧
    (∃ (addr _ : Nat) (s : State), s.twMine addr = true ∧ addr % 2 = 1 ∧ s.twb.held = none ∧ s.twAsleep = false) ∧
    (∃ (addr _ : Nat) (s : State), s.twMine addr = true ∧ addr % 2 = 1 ∧ s.twb.held = none ∧ s.twAsleep = true) ∧
    (∃ (s : State), s.inReset = false ∧ s.twAsleep = false ∧ s.pinsTaken = false ∧ s.twb.held = none) ∧
    (∃ (s : State), s.inReset = false ∧ s.twAsleep = false ∧ s.pinsTaken = false ∧ s.twb.held = none) ∧
    (∃ (s : State), s.attention = true) ∧
    (∃ (s : State), s.attention = true) ∧
    (∃ (n : Nat) (s : State), s.live = true ∧ s.pwr ≤ 1 ∧ s.flag TWB.CTRL_PM_EN = true ∧ n ≤ 9) ∧
    (∃ (s : State), s.live = true ∧ s.pwr ≤ 1 ∧ s.flag TWB.CTRL_PM_EN = true) :=
  ⟨⟨2 * up.fget TWB.STATUS_ADDR, [], up, by decide +kernel⟩,
   ⟨2 * up.fget TWB.STATUS_ADDR, [], up, by decide +kernel⟩,
   ⟨2 * up.fget TWB.STATUS_ADDR, [], false, { up with mgc := { twq := some ⟨0, pk []⟩ } }, by decide +kernel⟩,
   ⟨2 * up.fget TWB.STATUS_ADDR, [], true, w [(PWR.STATE_CUR, 2)], by decide +kernel⟩,
   ⟨2 * up.fget TWB.STATUS_ADDR + 1, 255, up, by decide +kernel⟩,
   ⟨2 * up.fget TWB.STATUS_ADDR + 1, 255, w [(PWR.STATE_CUR, 2)], by decide +kernel⟩,
   ⟨up, by decide +kernel⟩,
   ⟨up, by decide +kernel⟩,
   ⟨{ w [(TWB.CTRL_ATTN_EN, 1)] with mgc := { twEvq := [⟨1, 0, 0, 0, 0, 0, [], 0⟩] }, twb := { evtNew := true } },
     by decide +kernel⟩,
   ⟨{ w [(TWB.CTRL_ATTN_EN, 1)] with mgc := { twEvq := [⟨1, 0, 0, 0, 0, 0, [], 0⟩] }, twb := { evtNew := true } },
     by decide +kernel⟩,
   ⟨9, (w [(TWB.CTRL_PM_EN, 1), (PWR.STATE_CUR, 1)]), by decide +kernel⟩,
   ⟨(w [(TWB.CTRL_PM_EN, 1), (PWR.STATE_CUR, 1)]), by decide +kernel⟩⟩

/-- States that meet the hypotheses of `FaultEventsComplete`, clause by clause. -/
theorem witness_FaultEventsComplete :
    (∃ (src kind hint loc : Nat) (s : State), (s.arrive (src % 1024) (kind % 64) (hint % 4) (loc % 2 ^ 30)).mclk = true) ∧
    (∃ (s : State), s.mclk = true) ∧
    (∃ (s : State), s.mclk = false) ∧
    (∃ (k : Nat) (_ : State), k < 16) ∧
    (∃ (k : Nat) (x : FenceHold) (s : State), s.mclk = true ∧ x ∈ s.flt.holds ∧ x.index = k ∧ x.lastMsg + s.holdTime ≤ s.now) ∧
    (∃ (k : Nat) (x : FenceHold) (s : State), s.mclk = true ∧ x ∈ s.flt.holds ∧ x.index = k ∧ x.since + 10000000000 ≤ s.now) ∧
    (∃ (d _ : Nat) (s : State), s.live = true ∧ 1 ≤ d ∧ d ≤ s.dies ∧ s.dieResetting d = true ∧ s.flt.resuming.any
      (fun x => x.1 = d) = false) ∧
    (∃ (_ : Option (List (Nat × List ViaTrain))) (s : State), s.live = true) ∧
    (∃ (s : State), s.mclk = true ∧ (s.fget MGC.STATUS_FW_STATE = 1 ∨ s.fget MGC.STATUS_FW_STATE = 2)) :=
  ⟨⟨3, 1, 1, 0, up, by decide +kernel⟩,
   ⟨up, by decide +kernel⟩,
   ⟨State.reset, by decide +kernel⟩,
   ⟨15, up, by decide +kernel⟩,
   ⟨127, ⟨127, 0, 0⟩, { up with flt := { holds := [⟨127, 0, 0⟩] }, now := 10000000000 }, by decide +kernel⟩,
   ⟨127, ⟨127, 0, 0⟩, { up with flt := { holds := [⟨127, 0, 0⟩] }, now := 10000000000 }, by decide +kernel⟩,
   ⟨8, 0, { up with flt := { reactions := [{ code := 6, target := 8, id := 0, since := 0 }] } }, by decide +kernel⟩,
   ⟨none, up, by decide +kernel⟩,
   ⟨up, by decide +kernel⟩⟩

/-- States that meet the hypotheses of `BlackBoxAndFreezeEventsComplete`, clause by clause. -/
theorem witness_BlackBoxAndFreezeEventsComplete :
    (∃ (s : State), s.fget BBX.INC_CFG_INC_S ≠ 0 ∧ s.bbx.ringLost = false ∧ s.inReset = false) ∧
    (∃ (id : Nat) (s : State), s.bbx.commit = some id) ∧
    (∃ (s : State), s.flag CNS.CTRL_PIN_EN = true ∧ s.frozen = false ∧ s.inReset = false ∧ s.pinsTaken = false ∧
      s.freezeIgnored = false) ∧
    (∃ (s : State), s.flag CNS.CTRL_PIN_EN = true ∧ s.frozen = false ∧ s.inReset = false ∧ s.pinsTaken = false ∧
      s.freezeIgnored = true) ∧
    (∃ (s : State), s.frozen = true ∧ s.cns.entered = false) ∧
    (∃ (s : State), s.frozen = false ∧ s.cns.pending = true ∧ s.freezeIgnored = false) ∧
    (∃ (s : State), s.frozen = false ∧ s.cns.pending = true ∧ s.freezeIgnored = true) ∧
    (∃ (s : State), s.frozen = true ∧ s.flag CNS.STATUS_REFRESH_KEPT = false ∧ s.cns.aonAt + 32000000 ≤ s.aon) :=
  ⟨⟨w [(BBX.INC_CFG_INC_S, 1)], by decide +kernel⟩,
   ⟨1, { up with bbx := { up.bbx with commit := some 1 } }, by decide +kernel⟩,
   ⟨(w [(CNS.CTRL_PIN_EN, 1)]), by decide +kernel⟩,
   ⟨w [(CNS.CTRL_PIN_EN, 1), (PWR.STATE_CUR, 3)], by decide +kernel⟩,
   ⟨(w [(CNS.STATUS_FROZEN, 1)]), by decide +kernel⟩,
   ⟨{ up with cns := { up.cns with pending := true } }, by decide +kernel⟩,
   ⟨{ w [(PWR.STATE_CUR, 4)] with cns := { pending := true } }, by decide +kernel⟩,
   ⟨{ w [(CNS.STATUS_FROZEN, 1)] with aon := 32000000 }, by decide +kernel⟩⟩
/-! ### Witnesses of the other statements -/

/-- States that meet the hypotheses of `StepRunsTheFrontCommand`. -/
theorem witness_StepRunsTheFrontCommand :
    (∃ (c : Instr) (rest : List Instr) (s : State), s.pending = c :: rest) ∧ ∃ s : State, s.pending = [] :=
  ⟨⟨.ready, [.trstN], { up with pending := [.ready, .trstN] }, rfl⟩, ⟨State.reset, rfl⟩⟩

/-- The state after reset is in canonical form, and so is `up`. -/
theorem reset_forms : State.reset.Forms := ⟨by decide +kernel, by decide +kernel, by decide +kernel⟩
theorem up_forms : up.Forms := ⟨by decide +kernel, by decide +kernel, by decide +kernel⟩

/-- States that meet the hypotheses of `EveryStepKeepsTheForms` and of `OnlyListedPiecesChange`. -/
theorem witness_EveryStepKeepsTheForms : ∃ s t : State, s.Forms ∧ step s = .next t :=
  ⟨State.reset, _, reset_forms, rfl⟩
theorem witness_OnlyListedPiecesChange : ∃ (c : Instr) (s t : State), exec c s = .next t ∧ Piece.ports ∉ mayChange c :=
  ⟨.wakePin, up, _, rfl, by decide⟩

/-- A state that meets the hypotheses of `ColdResetKeepsOnlyTheAlwaysOnPartAndTheStore`, with an address of its clause. -/
theorem witness_ColdResetKeepsOnlyTheAlwaysOnPartAndTheStore :
    ∃ (s : State) (a : Nat), s.Forms ∧ s.otp.job = none ∧ bits a 16 8 ≠ 0x78 ∧ bits a 16 8 ≠ 0x91 :=
  ⟨up, PRT.CTRL 7, up_forms, rfl, by decide, by decide⟩

/-- States that meet the hypotheses of `ResetsRunBoot`, clause by clause. -/
theorem witness_ResetsRunBoot :
    (∃ (lowNs : Nat) (s : State), 1000 ≤ lowNs ∧ s.inReset = false ∧ s.pinsTaken = false) ∧
    (∃ lowNs : Nat, lowNs < 1000) ∧ (∃ s : State, s.inReset = true) ∧ (∃ s : State, s.pinsTaken = true) ∧
    (∃ s : State, s.devState = 0 ∧ s.fget DEV.BOOT_STEP = 1) ∧ (∃ rail mv lim : Nat, railMin rail = some lim ∧ mv < lim ∧ rail = 5) ∧
    (∃ (h : Halyard) (s : State), s.takes 0x2F h (fixedLen 1) ∧ arg h 0 = 0x5741524D ∧ s.powerMoves = false ∧
      s.fuseBusy = false) :=
  ⟨⟨1000, up, by decide +kernel⟩, ⟨999, by decide⟩, ⟨{ up with inReset := true }, rfl⟩,
   ⟨{ up with tap := { ir := 0 } }, rfl⟩, ⟨State.reset, by decide +kernel⟩, ⟨5, 699, 700, by decide⟩,
   ⟨pk [0x5741524D], up, by decide +kernel⟩⟩

/-- States that meet the hypotheses of `BootEndsInReadyOrInHold`, clause by clause. -/
theorem witness_BootEndsInReadyOrInHold :
    (∃ s : State, Regs.wf s.regs = true ∧ s.fwRuns = true ∧ s.devState = 0 ∧ s.mayReport = true) ∧
    (∃ s : State, Regs.wf s.regs = true ∧ s.devState = 0 ∧ s.inReset = false) :=
  ⟨⟨w [(DEV.STATE_DEV_STATE, 0)], by decide +kernel⟩, ⟨State.reset, by decide +kernel⟩⟩

/-- Operands that meet the hypotheses of `AddressMapIsOneToOne` and of `HomeOfALineIsOneToOne`, at the top of the range. -/
theorem witness_AddressMapIsOneToOne :
    (∃ map n a b : Nat, a < 2 ^ (30 + n) ∧ b < 2 ^ (30 + n) ∧ a % 64 = b % 64 ∧ decompose map n a = decompose map n b) ∧
    (∃ i n : Nat, i < n ∧ n ≤ 7) ∧ (∃ map map' : Nat, map ≠ map' ∧ bits map 4 3 = bits map' 4 3) :=
  ⟨⟨0x63, 7, 0x1FFFFFFFFF, 0x1FFFFFFFFF, by decide⟩, ⟨6, 7, by decide⟩, ⟨0x23, 0x20, by decide⟩⟩
theorem witness_HomeOfALineIsOneToOne :
    (∃ a b : Nat, a < 2 ^ 40 ∧ b < 2 ^ 40 ∧ homeSlice a = homeSlice b ∧ homeSet a = homeSet b ∧
      (a >>> 21) &&& 0x7FFFF = (b >>> 21) &&& 0x7FFFF) ∧ (∃ a b : Nat, a ≠ b ∧ a >>> 6 = b >>> 6) :=
  ⟨⟨0xFFFFFFFFFF, 0xFFFFFFFFC0, by decide⟩, ⟨0, 63, by decide⟩⟩

/-- States and packets that meet the hypotheses of `UnassignedRegistersReadZeroAndDropWrites`, clause by clause. -/
theorem witness_UnassignedRegistersReadZeroAndDropWrites :
    (∃ a : Nat, regRow a ≠ none) ∧ (∃ (a : Nat) (s : State), regRow a = none ∧ s.gated a = false) ∧
    (∃ (h : Halyard) (k : Nat) (s : State), s.takes 0x10 h (fixedLen 2) ∧ k < countOf h ∧ countOf h ≤ 57 ∧
      (regRow (arg h 0 + 4 * k) = none ∨ 2 ^ 24 ≤ arg h 0)) ∧
    (∃ (h : Halyard) (k : Nat) (s : State), s.takes 0x11 h regWriteLen ∧ k < countOf h ∧ countOf h ≤ 56 ∧
      (regRow (arg h 0 + 4 * k) = none ∨ 2 ^ 24 ≤ arg h 0)) ∧
    (∃ (h : Halyard) (s : State), s.takes 0x12 h (fixedLen 3) ∧ (regRow (arg h 0) = none ∨ 2 ^ 24 ≤ arg h 0)) ∧
    (∃ (h : Halyard) (a : Nat) (s : State), s.takes 0x13 h readListLen ∧ a ∈ h.payload ∧ (regRow a = none ∨ 2 ^ 24 ≤ a)) :=
  ⟨⟨PRT.CTRL 7, by decide +kernel⟩, ⟨PRT.CTRL 7 + 1, up, by decide +kernel⟩,
   ⟨pk [PRT.CTRL 7 + 2, 57], 56, up, by decide +kernel⟩, ⟨pk [2 ^ 24, 1, 0], 0, up, by decide +kernel⟩,
   ⟨pk [0xFFFFFC, 0, 0], up, by decide +kernel⟩, ⟨pk [PRT.CTRL 7, 1], 1, up, by decide +kernel⟩⟩

/-- Packets that meet the hypotheses of `OwnedRegistersAreDenied`, clause by clause. -/
theorem witness_OwnedRegistersAreDenied :
    (∃ (h : Halyard) (k : Nat) (s : State), s.takes 0x11 h regWriteLen ∧ rangeFault h 56 = none ∧ k < countOf h ∧
      owned (arg h 0 + 4 * k) = true) ∧
    (∃ (h : Halyard) (s : State), s.takes 0x12 h (fixedLen 3) ∧ arg h 0 < 2 ^ 24 ∧ owned (arg h 0) = true) :=
  ⟨⟨pk [AMP.MAP, 1, 0], 0, up, by decide +kernel⟩, ⟨pk [AMP.MAP, 0, 0], up, by decide +kernel⟩⟩

/-- A state that meets the hypotheses of `GatedBlocksReadZeroAndDropWrites`. -/
theorem witness_GatedBlocksReadZeroAndDropWrites :
    ∃ (a : Nat) (s : State), Regs.wf s.regs = true ∧ regRow a ≠ none ∧ a < 2 ^ 24 ∧ s.blockClocked a = true ∧ s.gated a = true :=
  ⟨PRT.CTRL 7, w [(CLK.GATE_STAT_GATED, 128)], by decide +kernel⟩

/-- A state and words that meet the hypotheses of `StoredWordsReadBack`, at the last line, and of
`EncodedLinesDecodeToThemselves`. -/
theorem witness_StoredWordsReadBack :
    ∃ (s : State) (line line' : Nat) (x : List Nat), Memory.wf s.mem = true ∧ line < 2 ^ 25 ∧ x.length = 80 ∧ (∀ b ∈ x, b < 256) ∧
      line' < 2 ^ 25 ∧ line' ≠ line :=
  ⟨up, 2 ^ 25 - 1, 0, List.replicate 80 255, by decide +kernel⟩
theorem witness_EncodedLinesDecodeToThemselves :
    ∃ (data : List Nat) (utag dev : Nat), data.length = 64 ∧ (∀ b ∈ data, b < 256) ∧ utag < 2 ^ 16 ∧ dev < 256 ∧ dev % 32 = 1 :=
  ⟨List.replicate 64 255, 0xFFFF, 0xE1, by decide⟩

/-- States that meet the hypotheses of `GuardDecidesByTheHighestWindow`, clause by clause. -/
theorem witness_GuardDecidesByTheHighestWindow :
    (∃ (s : State) (a : Nat), ∀ j : Nat, j < 256 → winContains (s.reg (RGD.WIN j)).toNat a = false) ∧
    (∃ (s : State) (a i : Nat), s.decidingWin a = some i) ∧
    (∃ (s : State) (r : Req) (t : Txn) (x : Denied), t.req = r ∧ s.checkForm r = none ∧ s.checkRange r = true ∧
      s.checkClass r (s.classOf r.reqId) = true ∧ s.checkGuard r (s.classOf r.reqId) = some x) :=
  ⟨⟨up, 0, by decide +kernel⟩, ⟨w [(RGD.WIN_EN 255, 1)], 0xFFFFF, 255, by decide +kernel⟩,
   ⟨w [(RGD.WIN_EN 255, 1)], rq 7 0x10, entry (rq 7 0x10), ⟨0, 0, false⟩, by decide +kernel⟩⟩

/-- States and packets that meet the hypotheses of `PacketsAreAnsweredByTheFirstFailedCheck`, clause by clause. -/
theorem witness_PacketsAreAnsweredByTheFirstFailedCheck :
    (∃ (op : Nat) (h : Halyard) (st i : Nat) (s : State), s.serves h ∧ s.mayStart ⟨op, h⟩ = true ∧
      s.isRepeat ⟨op, h⟩ = false ∧ s.packetCheck op h (fixedLen 0) = some (st, i)) ∧
    (∃ h : Halyard, badLength h = true) ∧
    (∃ (op i : Nat) (h : Halyard), badLength h = false ∧ assignedOps.contains op = true ∧ fixedLen 1 h.payload = some i) ∧
    (∃ (op : Nat) (h : Halyard), badLength h = false ∧ assignedOps.contains op = false ∧ bitAt h.flags 7 = true) ∧
    (∃ (op : Nat) (h : Halyard) (s : State), badLength h = false ∧ assignedOps.contains op = false ∧
      bitAt h.flags 7 = false ∧ s.noOpcode op = true) ∧
    (∃ (op : Nat) (h : Halyard) (s : State), badLength h = false ∧ fixedLen 0 h.payload = none ∧ bitAt h.flags 7 = false ∧
      s.noOpcode op = false ∧ 0xFE ≤ op ∧ s.otp.vtm = false) ∧
    (∃ (op : Nat) (h : Halyard) (s : State), badLength h = false ∧ fixedLen 0 h.payload = none ∧ bitAt h.flags 7 = false ∧
      s.noOpcode op = false ∧ op < 0xFE ∧ s.srcDenied op h = true) ∧
    (∃ (op : Nat) (h : Halyard) (s : State), badLength h = false ∧ fixedLen 0 h.payload = none ∧ bitAt h.flags 7 = false ∧
      s.noOpcode op = false ∧ op < 0xFE ∧ s.srcDenied op h = false ∧ s.devState = 0 ∧ 0x20 ≤ op ∧ op < 0x60) ∧
    (∃ (op : Nat) (h : Halyard) (s : State), badLength h = false ∧ fixedLen 1 h.payload = none ∧ bitAt h.flags 7 = false ∧
      s.noOpcode op = false ∧ op < 0xFE ∧ s.srcDenied op h = false ∧ s.devState ≠ 0 ∧ 0x70 ≤ op ∧ op ≤ 0x73 ∧
      bitAt (s.fget CLK.GATE_STAT_GATED) 8 = true) :=
  ⟨⟨0x00, pk [0], 0x04, 0, up, by decide +kernel⟩, ⟨{ pk [] with len := 1 }, by decide⟩, ⟨0x38, 0, pk [], by decide⟩,
   ⟨3, { pk [] with flags := 128 }, by decide⟩, ⟨3, pk [], up, by decide +kernel⟩, ⟨0xFE, pk [], up, by decide +kernel⟩,
   ⟨0x39, pk [], w [(MGC.SRC_CTRL_TW_WR_EN, 0)], by decide +kernel⟩,
   ⟨0x39, pk [], w [(DEV.STATE_DEV_STATE, 0)], by decide +kernel⟩,
   ⟨0x73, pk [0], w [(CLK.GATE_STAT_GATED, 256)], by decide +kernel⟩⟩

/-- States and packets that meet the hypotheses of `RepeatedTwoWirePacketsAreNotExecuted`, clause by clause. -/
theorem witness_RepeatedTwoWirePacketsAreNotExecuted :
    (∃ (op : Nat) (h old : Halyard) (b : List Nat) (s : State), s.serves h ∧ s.mayStart ⟨op, h⟩ = true ∧
      h.src = .twoWire ∧ s.mgc.lastTw = some (⟨op, old⟩, b) ∧ old.seq = h.seq ∧ old.len = h.len ∧ old.payload = h.payload) ∧
    (∃ (h : Halyard) (port reqId tag : Nat) (arrivalOnly : Bool), h.src = .inband port reqId tag arrivalOnly) :=
  ⟨⟨0x39, pk [], { pk [] with flags := 64 }, [], { up with mgc := { lastTw := some (⟨0x39, { pk [] with flags := 64 }⟩, []) } },
     by decide +kernel⟩, ⟨{ pk [] with src := .inband 7 0 0 false }, 7, 0, 0, false, rfl⟩⟩

/-- States that meet the hypotheses of `SlipMovesOneLane`, clause by clause. -/
theorem witness_SlipMovesOneLane :
    (∃ (p m n : Nat) (s : State), Regs.wf s.regs = true ∧ p < 8 ∧ m < 4 ∧ s.live = true ∧ s.gated (PRT.SLIP p) = false ∧
      0 < n ∧ n < 64 ∧ s.laneState p m = 5) ∧
    (∃ (p m n : Nat) (s : State), Regs.wf s.regs = true ∧ p < 8 ∧ m < 4 ∧ s.live = true ∧ s.gated (PRT.SLIP p) = false ∧
      0 < n ∧ n < 64 ∧ s.laneState p m ≠ 5) :=
  ⟨⟨7, 3, 63, w [(PRT.LANE_STAT_LANE_STATE 7 3, 5)], by decide +kernel⟩, ⟨7, 3, 63, up, by decide +kernel⟩⟩

/-- Operands that meet the hypothesis of `AtomicsFollowTable85`. -/
theorem witness_AtomicsFollowTable85 : ∃ d : List Nat, d.length = 64 ∧ ∀ b ∈ d, b < 256 := ⟨List.replicate 64 255, by decide⟩

/-- States that meet the hypotheses of `TheFirstWakeSourceIsKept`, clause by clause. -/
theorem witness_TheFirstWakeSourceIsKept :
    (∃ s : State, s.wakeable = true ∧ s.pw.wake = none ∧ s.pwr = 2 ∧ s.pinsTaken = false) ∧
    (∃ s : State, s.wakeable = true ∧ s.pw.wake = none ∧ s.pwr = 3 ∧ s.pinsTaken = false ∧ bitAt s.pw.cfg 4 = true ∧ bitAt s.pw.cfg 1 = true ∧
      bitAt s.pw.cfg 2 = true) ∧
    (∃ (x : Nat × Nat) (s : State), s.pw.wake = some x) ∧ (∃ s : State, s.pwr = 0 ∧ s.pw.entry = none) ∧
    (∃ s : State, s.pwr = 3 ∧ s.pw.entry = none ∧ s.pw.cfg = 0) ∧ (∃ s : State, s.pinsTaken = true) :=
  ⟨⟨w [(PWR.STATE_CUR, 2)], by decide +kernel⟩, ⟨{ w [(PWR.STATE_CUR, 3)] with pw := { cfg := 0xFF1F } }, by decide +kernel⟩,
   ⟨(2, 0), { up with pw := { wake := some (2, 0) } }, rfl⟩, ⟨up, by decide +kernel⟩,
   ⟨w [(PWR.STATE_CUR, 3)], by decide +kernel⟩, ⟨{ up with tap := { ir := 0 } }, rfl⟩⟩

/-- States that meet the hypotheses of `TheAlwaysOnTimerNeverGoesBack`, clause by clause. -/
theorem witness_TheAlwaysOnTimerNeverGoesBack :
    (∃ (c : Instr) (s t : State), exec c s = .next t ∧ ∀ mv : Nat, c ≠ .railDip 5 mv) ∧
    (∃ s t : State, s.pending = [] ∧ step s = .next t ∧ s.frozen = true) ∧
    (∃ s t : State, s.pending = [] ∧ step s = .next t ∧ s.frozen = false) :=
  ⟨⟨.trstN, up, _, rfl, by intro _ h; cases h⟩, ⟨w [(CNS.STATUS_FROZEN, 1)], _, rfl, rfl, by decide +kernel⟩,
   ⟨up, _, rfl, rfl, by decide +kernel⟩⟩

/-- A state that meets the hypotheses of `MarkersAreNumbered`. -/
theorem witness_MarkersAreNumbered :
    ∃ (p : Nat) (s : State), isPort p = true ∧ s.live = true ∧ s.sendsMarkers p = true ∧ s.tables = true :=
  ⟨7, w [(PRT.STATE_PORT_STATE 7, 5), (CLK.PLL_STAT_LOCKED 5, 1)], by decide +kernel⟩

/-- Messages and states that meet the hypotheses of `TheFaultQueueHolds256`, clause by clause. -/
theorem witness_TheFaultQueueHolds256 :
    (∃ (m : FaultMsg) (s : State), Regs.wf s.regs = true ∧ s.sourceExists m.source = true ∧ s.flt.ingress.length < 256) ∧
    (∃ (m : FaultMsg) (s : State), Regs.wf s.regs = true ∧ s.sourceExists m.source = true ∧ 256 ≤ s.flt.ingress.length) ∧
    (∃ (m : FaultMsg) (s : State), Regs.wf s.regs = true ∧ s.sourceExists m.source = false) :=
  ⟨⟨⟨0x2F2, 1, 0, 0, 0, 0, false, false, false⟩, up, by decide +kernel⟩,
   ⟨⟨0, 1, 0, 0, 0, 0, false, false, false⟩,
     { up with flt := { ingress := List.replicate 256 ⟨0, 1, 0, 0, 0, 0, false, false, false⟩ } }, by decide +kernel⟩,
   ⟨⟨0x3FF, 1, 0, 0, 0, 0, false, false, false⟩, up, by decide +kernel⟩⟩

/-- Requests that meet the hypotheses of `StackIdIsUnassignedAtReset`, clause by clause. -/
theorem witness_StackIdIsUnassignedAtReset :
    (∃ (s : State) (r : Req), r.stackId ≠ s.fget LNK.STACK_ID_STACK_ID ∧ (r.opcode ≠ 0x68 ∨ r.stackId ≠ 0xFFF)) ∧
    (∃ (s : State) (r : Req), s.fget LNK.STACK_ID_STACK_ID = 0xFFF ∧ r.opcode ≠ 0x68) :=
  ⟨⟨host, { rq 7 0x10 with stackId := 1 }, by decide +kernel⟩, ⟨State.reset, rq 7 0x10, by decide +kernel⟩⟩

/-! ### Well-formed commands -/

/-- Each check of WellFormed.lean refuses a command that breaks it. -/
theorem test_ill_formed : ([
    .portEnable 8, .prtSlip 0 4 0, .prtSlip 0 0 64, .lpllLock 4 0, .signalDetect 0 4, .trainLenExpiry 0 16,
    .alignmentMarker 0 0 0 0 ⟨0, 64⟩, .testEn 0 true [0, 0, 0, 0, 0] [], .flitReceive 0 [], .flitReceive 0 (List.replicate 256 256),
    .rd64 { rq 0 0x10 with addr := 2 ^ 40 }, .rd64 { rq 0 0x10 with pos := 5 }, .wr64 { rq 0 0x28 with data := [256] },
    .wrp { rq 0 0x29 with data := List.replicate 321 0 }, .fenceComplete 0 4096 0, .mgmt { rq 0 0x68 with reqId := 4096 },
    .identify { pk [] with seq := 256 }, .regRead (pk [2 ^ 32, 1]), .devStatus (pk (List.replicate 65 0)),
    .pwrGet { pk [] with src := .inband 8 0 0 false }, .regWrite (pk []) { xfer := ⟨0, 8, 0⟩ },
    .regWrite (pk []) { setNow := List.replicate 57 0 }, .regRmw (pk []) { setNow := [2 ^ 32] }, .registerWrite (2 ^ 24) 0 0,
    .bistDone [(2 ^ 20, 0)], .bistDone [(0, 640 * 2 ^ 17)], .evacCopyLine [(80, 0)], .evacCopyLine [(0, 256)],
    .softRowSpare [(0, [(80, 0)])], .vendorOpcode 0xFD (pk []), .badOpcode 256 (pk []), .admission 64, .promotion 136,
    .commandChoice 0 8, .refDue 0 2, .refreshModeChange 0, .refreshModeChange 9, .idleBoundary 0 2, .missForward 32,
    .pendingOperation (2 ^ 34), .sramScrub 0 3, .sramScrub 0 589860, .stagingLine 16, .stkDsel 256, .dtapIdcode 0, .dtapExtest 1 (2 ^ 1088) 0,
    .dieBist 1 true (2 ^ 32), .extest (2 ^ 23) 0, .samplePreload 0 (2 ^ 23), .laneTrackWindow 0 [(4, 0, 0, 0)], .thmSample 9 [],
    .thmSample 0 [(8, 0)], .monitorWindow 5 0, .pllUnlock 6, .deadSource 0 0 0, .deadSource 47 0 0, .gateUngate 10,
    .gatedAccess (2 ^ 24) true, .imgWin 8, .twWriteFrame 256 [] false, .twReadFrame 256 0, .faultMessage (some (1024, 0, 0, 0)),
    .shadowEnd 16, .fenceHoldExpiry 128, .resetDone 9 0, .selfRefreshRef 136, .railDip 7 0, .progDone [⟨2 ^ 32, 0, 0, 0, 0, 0⟩],
    .housekeepingRound { rails := List.replicate 8 (0, 0) }, .housekeepingRound { poll := [(8, [])] }, .housekeepingRound { activity := List.replicate 9 0 },
    .housekeepingRound { model := List.replicate 9 0 }, .porstN 0 { vias := [(136, [])] }, .porstN 0 { hang := some 10 },
    .railsInRange { vias := [(0, [⟨128, 0, 0, 0⟩])] }, .relayReset (some [(0, [⟨0, 1, 128, 0⟩])]),
    .porstN 0 { found := [9] }, .porstN 0 { sbAddr := 8 }, .furlExit { vias := [(136, [])] },
    .furlExit { seals := [(128, [])] }] : List Instr).all (fun c => !c.wf) = true := by decide +kernel

/-- Well-formed commands pass. -/
theorem test_well_formed : ([.portEnable 7, .prtSlip 7 3 63, .rd64 (rq 7 0x10), .identify (pk []), .dieBist 8 true 0,
    .porstN 1000 {}, .flitReceive 0 (List.replicate 256 255)] : List Instr).all Instr.wf = true := by decide +kernel

/-- No row of the table gives bits, so no word spells a command. -/
theorem test_no_word : decodeTableWord 32 0xFFFFFFFF = none := rfl

/-! ### Worked examples of the spec -/

/-- The state after one step with a command in front, or the state itself where the step does not answer a next one. -/
def after (c : Instr) (s : State) : State :=
  match step { s with pending := [c] } with
  | .next t => t
  | _ => s

/-- The addresses that the examples of the register chapters work out. -/
theorem test_register_addresses :
    [PRT.TX_FIR 3 2, LNK.ROUTE 0x2A7, RGD.WIN 17, SCH.CLS_STAT 62, DCH.AUDIT 8 16, LCH.SLICE_ACC 7, SCN.ENG_STAT 5,
      ECC.CAP_LOSS 7, STK.FAIL_BIT 5, CAL.DIE_TIME 6, THM.DIE_STAT 5, PWR.AUDIT_WORST 3, CLK.MON_CNT 3, OTP.MARG_LIST 9, TWB.PM_DEV 5,
      FLT.REACT_CFG 6] =
    [0x130184, 0x184A9C, 0x210444, 0x2804EC, 0x370140, 0x40011C, 0x480150, 0x50016C, 0x58022C, 0x600154, 0x68014C, 0x700114,
      0x78005C, 0x800064, 0x880054, 0x900118] := by decide

/-- Writing 0xA2 to a route entry: MODE 2, ALT 4, PRIMARY 2 (03_link_layer.md). -/
theorem test_route_fields : let s := after (.registerWrite 0x184A9C 0xA2 0) up
    (s.fget (LNK.ROUTE_MODE 0x2A7), s.fget (LNK.ROUTE_ALT 0x2A7), s.fget (LNK.ROUTE_PRIMARY 0x2A7)) = (2, 4, 2) := by
  decide +kernel

/-- The RD64 header of the example under R101. -/
theorem test_request_header :
    parseReq 0 0 [0x10, 0x00, 0x20, 0x2A, 0x70, 0x1C, 0x01, 0x50, 0x52, 0x00, 0x00, 0x14, 0x00, 0x00, 0x02, 0x00] =
      { port := 0, opcode := 0x10, deadline := 32, reqId := 0x2A7, tag := 0x01C, stackId := 0x015, addr := 0x0520000140,
        len := 0, flags := 0x200 } := by decide

/-- The translation of the example under R164, by the register that starts it. -/
theorem test_xlate : (after (.xlateLo 0x20000140) (w [(AMP.XLATE_HI_ADDR_HI, 5)])).reg AMP.XLATE_OUT = 0xAB20A401 := by
  decide +kernel

/-- With GRAIN 0 the four lines of the second example go to PC 46, 47, 44 and 45. -/
theorem test_map_grain_0 :
    [0x0520000100, 0x0520000140, 0x0520000180, 0x05200001C0].map (fun a => (decompose 0x03 7 a).pc) =
      [46, 47, 44, 45] := by decide

/-- The home of the example under R248, and what PROBE_OUT reads while the line is absent. -/
theorem test_home : (homeSlice 0x0520000140, homeSet 0x0520000140) = (7, 0) := by decide
theorem test_probe_absent :
    (after (.probeLo 0x20000140) (w [(LCH.PROBE_HI_ADDR_HI, 5)])).reg LCH.PROBE_OUT = 0x9C000000 := by decide +kernel

/-- The guard of the example under R173: a write of C6 is granted and one of C9 is not; a read of C9 is. -/
theorem test_guard :
    let s := ((up.setReg (RGD.WIN 0) 0x2311).setReg (RGD.WIN 5) 0x04000D12)
    let s := ((s.setReg (RGD.MASK_LO 1) 0xFFFFFFFF).setReg (RGD.MASK_HI 1) 0x0FFFFFFF).setReg (RGD.MASK_LO 2) 0xF0
    (s.decidingWin 0x0102000040, s.rights 6 0x0102000040, s.rights 9 0x0102000040) = (some 5, (true, true), (true, false)) := by
  decide +kernel

/-- The answer to REG_READ of PRT3.STATE of the example under R147, over two-wire. -/
theorem test_reg_read :
    (after (.regRead { pk [0x00130004, 1] with seq := 5 })
      (w [(PRT.STATE_PORT_STATE 3, 5), (PRT.STATE_TX_MASK 3, 15), (PRT.STATE_RX_MASK 3, 15)])).mgc.lastTw.map (·.2) =
      some [0x10, 0x05, 0x02, 0x80, 0, 0, 0, 0, 0, 0, 0, 0, 0x5F, 0xF0, 0, 0] := by decide +kernel

/-- The REPAIR entry of the example under R448, and the fault message of the one under R477. -/
theorem test_repair_entry : rowEntry 45 1 3 77 = 0x4B53026E := by decide
theorem test_fault_word : FaultMsg.word { source := 0x16B, kind := 0x2A, hint := 2, locator := 0 } = 0x5AEA80000000 := by decide

/-! ### Single steps -/

/-- A slip wraps modulo 64 (R60), and a marker number modulo 256 (Table 2.3). -/
theorem test_slip_wraps : (after (.prtSlip 7 3 63) (w [(PRT.LANE_STAT_LANE_STATE 7 3, 5), (PRT.LANE_STAT_SLIP_POS 7 3, 5)])).fget
    (PRT.LANE_STAT_SLIP_POS 7 3) = 4 := by decide +kernel
theorem test_marker_number_wraps :
    let s := (w [(PRT.STATE_PORT_STATE 7, 5), (CLK.PLL_STAT_LOCKED 5, 1)]).setPort 7 { mkrSeq := 255 }
    ((after (.markerSend 7) s).port 7).mkrSeq = 0 := by decide +kernel

/-- Boot ends in READY; a write to a gated block is dropped and counted (R17). -/
theorem test_ready : (after .ready (w [(DEV.STATE_DEV_STATE, 0)])).devState = 1 := by decide +kernel
theorem test_gated_write : let s := after (.registerWrite (PRT.TX_FIR 7 0) 0xFFFFFFFF 0) (w [(CLK.GATE_STAT_GATED, 128)])
    (s.reg (PRT.TX_FIR 7 0) = resetOf (PRT.TX_FIR 7 0)) ∧ s.fget CLK.GATED_ACCESS_CNT_COUNT = 1 := by decide +kernel

/-- An atomic ADD wraps at 64 bits (Table 8.5); SMIN takes the negative operand. -/
theorem test_atomics : (atomNew 0x01 (2 ^ 64 - 1) [1], atomNew 0x04 1 (List.replicate 8 255)) = (0, 2 ^ 64 - 1) := by decide

end Sys2Proof.Tests
end

section
/-! The obligations of spec/00_scope.md: the canonical forms and the frame of every command and step, and what a
register access does in a gated block and at an address without a register. -/

namespace Sys2Proof.Machine

open Sys2Proof.Reg

/-! ### The frame of every command and of a step -/

/-- What an operation of any footprint keeps holds the canonical forms. -/
theorem Keeps.forms {F : Nat} {s t : State} (k : Keeps F s t) (h : s.Forms) : t.Forms :=
  ⟨k.mem h.mem, k.regs h.regs, k.tables h.tables⟩

/-- Every command answers a next state, and changes no piece but those that `mayChange` lists for it: the footprint that the
command's own law gives is the mask of that list. -/
theorem exec_keeps (c : Instr) (s : State) : Keeps.Out (Piece.mask (mayChange c)) s (exec c s) :=
  match c with
  | .porstN lowNs obs => execPorstN_keeps lowNs obs s
  | .bootStepTimeout => execBootStepTimeout_keeps s
  | .ready => execReady_keeps s
  | .warmReset h obs => execWarmReset_keeps h obs s
  | .railDip rail mv => execRailDip_keeps rail mv s
  | .trstN => execTrstN_keeps s
  | .portEnable p => execPortEnable_keeps p s
  | .portDisable p => execPortDisable_keeps p s
  | .prtCtrlRetrain p => execPrtCtrlRetrain_keeps p s
  | .testEn p on errs checked => execTestEn_keeps p on errs checked s
  | .prtSlip p lane count => execPrtSlip_keeps p lane count s
  | .lpllLock k lockUs => execLpllLock_keeps k lockUs s
  | .signalDetect p m => execSignalDetect_keeps p m s
  | .lossOfSignal p m sdLost => execLossOfSignal_keeps p m sdLost s
  | .cdrLock p m => execCdrLock_keeps p m s
  | .sdWaitExpiry p m => execSdWaitExpiry_keeps p m s
  | .trainLenExpiry p adapted => execTrainLenExpiry_keeps p adapted s
  | .bitSlipSearch p adapted => execBitSlipSearch_keeps p adapted s
  | .alignmentMarker p m marker parity place => execAlignmentMarker_keeps p m marker parity place s
  | .maskExchangeTimeout p => execMaskExchangeTimeout_keeps p s
  | .markerSend p => execMarkerSend_keeps p s
  | .rxreqTmo p => execRxreqTmo_keeps p s
  | .lpllRereference k => execLpllRereference_keeps k s
  | .holdoverExpiry k => execHoldoverExpiry_keeps k s
  | .parallelAlignerTimeout p => execParallelAlignerTimeout_keeps p s
  | .flitReceive p flit => execFlitReceive_keeps p flit s
  | .nakResend p => execNakResend_keeps p s
  | .replayTimer p => execReplayTimer_keeps p s
  | .creditReturn p => execCreditReturn_keeps p s
  | .slotRelease p => execSlotRelease_keeps p s
  | .initTmo p => execInitTmo_keeps p s
  | .rd64 r => execRd64_keeps r s
  | .rd128 r => execRd128_keeps r s
  | .rd256 r => execRd256_keeps r s
  | .wr64 r => execWr64_keeps r s
  | .wrp r => execWrp_keeps r s
  | .atom r => execAtom_keeps r s
  | .scan r => execScan_keeps r s
  | .fence r => execFence_keeps r s
  | .fenceComplete p reqId tag => execFenceComplete_keeps p reqId tag s
  | .mgmt r => execMgmt_keeps r s
  | .unknownOpcode r => execUnknownOpcode_keeps r s
  | .stackIdMismatch r => execStackIdMismatch_keeps r s
  | .evtSend => execEvtSend_keeps s
  | .identify h => execIdentify_keeps h s
  | .devStatus h => execDevStatus_keeps h s
  | .readTelemetry h => execReadTelemetry_keeps h s
  | .pendingStatus h => execPendingStatus_keeps h s
  | .evtRead h => execEvtRead_keeps h s
  | .regRead h => execRegRead_keeps h s
  | .regWrite h obs => execRegWrite_keeps h obs s
  | .regRmw h obs => execRegRmw_keeps h obs s
  | .regReadList h => execRegReadList_keeps h s
  | .registerWrite addr value setNow => execRegisterWrite_keeps addr value setNow s
  | .pwrSet h => execPwrSet_keeps h s
  | .pwrGet h => execPwrGet_keeps h s
  | .setRetention h => execSetRetention_keeps h s
  | .setWake h => execSetWake_keeps h s
  | .clearRetlost h => execClearRetlost_keeps h s
  | .stageClass h => execStageClass_keeps h s
  | .stageReqmap h => execStageReqmap_keeps h s
  | .stageAddrmap h => execStageAddrmap_keeps h s
  | .stageGuard h => execStageGuard_keeps h s
  | .stageEvtcfg h => execStageEvtcfg_keeps h s
  | .commit h => execCommit_keeps h s
  | .commitApplied => execCommitApplied_keeps s
  | .discard h => execDiscard_keeps h s
  | .stageTimeout => execStageTimeout_keeps s
  | .quiesce h => execQuiesce_keeps h s
  | .quiesceDrained => execQuiesceDrained_keeps s
  | .quiesceTimeout => execQuiesceTimeout_keeps s
  | .unquiesce h => execUnquiesce_keeps h s
  | .readModel h => execReadModel_keeps h s
  | .tableRead h => execTableRead_keeps h s
  | .bistRun h => execBistRun_keeps h s
  | .bistDone fails => execBistDone_keeps fails s
  | .bistResult h => execBistResult_keeps h s
  | .rowSpare h => execRowSpare_keeps h s
  | .softRowSpare errs => execSoftRowSpare_keeps errs s
  | .rowSpareHard h => execRowSpareHard_keeps h s
  | .evacuate h => execEvacuate_keeps h s
  | .evacStart fails => execEvacStart_keeps fails s
  | .evacCopyLine errs => execEvacCopyLine_keeps errs s
  | .evacDone => execEvacDone_keeps s
  | .fieldTest h errs => execFieldTest_keeps h errs s
  | .errInject h => execErrInject_keeps h s
  | .scrubCfg h => execScrubCfg_keeps h s
  | .fastScrub h => execFastScrub_keeps h s
  | .fastScrubDone => execFastScrubDone_keeps s
  | .otpRead h => execOtpRead_keeps h s
  | .otpProgram h => execOtpProgram_keeps h s
  | .otpReblow h => execOtpReblow_keeps h s
  | .otpLock h => execOtpLock_keeps h s
  | .otpMargin h => execOtpMargin_keeps h s
  | .fltRead h => execFltRead_keeps h s
  | .fltInject h => execFltInject_keeps h s
  | .bbxRead h => execBbxRead_keeps h s
  | .bbxCommit h => execBbxCommit_keeps h s
  | .freeze h => execFreeze_keeps h s
  | .fltTable h => execFltTable_keeps h s
  | .alertClear h => execAlertClear_keeps h s
  | .scnReserve h => execScnReserve_keeps h s
  | .scnRelease h => execScnRelease_keeps h s
  | .scnLimits h => execScnLimits_keeps h s
  | .scnCancel h => execScnCancel_keeps h s
  | .calRun h => execCalRun_keeps h s
  | .calStatus h => execCalStatus_keeps h s
  | .calCfg h => execCalCfg_keeps h s
  | .thmRead h => execThmRead_keeps h s
  | .thmSetWarn h => execThmSetWarn_keeps h s
  | .thmModel h => execThmModel_keeps h s
  | .traceCfg h => execTraceCfg_keeps h s
  | .traceRead h => execTraceRead_keeps h s
  | .vendorOpcode op h => execVendorOpcode_keeps op h s
  | .badOpcode op h => execBadOpcode_keeps op h s
  | .watchdogRestart => execWatchdogRestart_keeps s
  | .admission n => execAdmission_keeps n s
  | .windowStart n => execWindowStart_keeps n s
  | .poolRefill => execPoolRefill_keeps s
  | .urgencyTick => execUrgencyTick_keeps s
  | .promotion m => execPromotion_keeps m s
  | .commandChoice m off => execCommandChoice_keeps m off s
  | .modelRecompute => execModelRecompute_keeps s
  | .modelHoldExpiry p => execModelHoldExpiry_keeps p s
  | .housekeepingRound obs => execHousekeepingRound_keeps obs s
  | .refDue m h => execRefDue_keeps m h s
  | .refStart m h => execRefStart_keeps m h s
  | .refreshModeChange d => execRefreshModeChange_keeps d s
  | .refreshSlot m => execRefreshSlot_keeps m s
  | .idleBoundary m user => execIdleBoundary_keeps m user s
  | .powerDownEntry m => execPowerDownEntry_keeps m s
  | .fill m errs => execFill_keeps m errs s
  | .missForward k => execMissForward_keeps k s
  | .pendingOperation line => execPendingOperation_keeps line s
  | .tagFetch m errs => execTagFetch_keeps m errs s
  | .mergeTimeout line => execMergeTimeout_keeps line s
  | .mergeClose m errs => execMergeClose_keeps m errs s
  | .atomExecute line => execAtomExecute_keeps line s
  | .writeBack k => execWriteBack_keeps k s
  | .sramScrub k bad => execSramScrub_keeps k bad s
  | .flush => execFlush_keeps s
  | .flushDone => execFlushDone_keeps s
  | .scanStart => execScanStart_keeps s
  | .stagingLine e => execStagingLine_keeps e s
  | .scanComplete reqId tag => execScanComplete_keeps reqId tag s
  | .timeLimit reqId tag => execTimeLimit_keeps reqId tag s
  | .bucketLeak => execBucketLeak_keeps s
  | .patrolScrubLine errs => execPatrolScrubLine_keeps errs s
  | .reef2Scrub errs => execReef2Scrub_keeps errs s
  | .retentionSweep errs => execRetentionSweep_keeps errs s
  | .sweepDone => execSweepDone_keeps s
  | .fieldTestTick errs => execFieldTestTick_keeps errs s
  | .fieldTestRetest m errs => execFieldTestRetest_keeps m errs s
  | .stkDsel dies => execStkDsel_keeps dies s
  | .stkDtap => execStkDtap_keeps s
  | .dtapIdcode d => execDtapIdcode_keeps d s
  | .dtapSample d vias => execDtapSample_keeps d vias s
  | .dtapExtest d vias value => execDtapExtest_keeps d vias value s
  | .dtapIntest d vias value => execDtapIntest_keeps d vias value s
  | .dieBist d pass sig => execDieBist_keeps d pass sig s
  | .dtapBypass d => execDtapBypass_keeps d s
  | .extest pins value => execExtest_keeps pins value s
  | .samplePreload pins preload => execSamplePreload_keeps pins preload s
  | .clamp => execClamp_keeps s
  | .highz => execHighz_keeps s
  | .idcode => execIdcode_keeps s
  | .bypass => execBypass_keeps s
  | .devStateRd => execDevStateRd_keeps s
  | .cnsRead shifts => execCnsRead_keeps shifts s
  | .cnsResume pin update => execCnsResume_keeps pin update s
  | .bbxDump => execBbxDump_keeps s
  | .laneTrackWindow p counts => execLaneTrackWindow_keeps p counts s
  | .calTrigger => execCalTrigger_keeps s
  | .calHoldExpiry => execCalHoldExpiry_keeps s
  | .dieRun m meas errs => execDieRun_keeps m meas errs s
  | .runDone => execRunDone_keeps s
  | .fioTrimMeasure count => execFioTrimMeasure_keeps count s
  | .fioTrimStep => execFioTrimStep_keeps s
  | .thmSample d vals => execThmSample_keeps d vals s
  | .thermalClear d => execThermalClear_keeps d s
  | .restart => execRestart_keeps s
  | .aonThermalSample temps => execAonThermalSample_keeps temps s
  | .reef1Entry => execReef1Entry_keeps s
  | .reef2Entry => execReef2Entry_keeps s
  | .reefExit ns => execReefExit_keeps ns s
  | .entryUnwind => execEntryUnwind_keeps s
  | .pendingPowerRequest => execPendingPowerRequest_keeps s
  | .wakePin => execWakePin_keeps s
  | .furlWakeTimer => execFurlWakeTimer_keeps s
  | .customerWakeTimer => execCustomerWakeTimer_keeps s
  | .sleepAddressMatch => execSleepAddressMatch_keeps s
  | .furlExit obs => execFurlExit_keeps obs s
  | .wakeFillDone => execWakeFillDone_keeps s
  | .monitorWindow n count => execMonitorWindow_keeps n count s
  | .stabilityCountEnd n => execStabilityCountEnd_keeps n s
  | .sourceRestart n => execSourceRestart_keeps n s
  | .xbAbsent => execXbAbsent_keeps s
  | .pllUnlock j => execPllUnlock_keeps j s
  | .pllRelock j lockUs => execPllRelock_keeps j lockUs s
  | .deadSource sw old new => execDeadSource_keeps sw old new s
  | .gateUngate b => execGateUngate_keeps b s
  | .gateRequest b => execGateRequest_keeps b s
  | .gateTakesEffect b => execGateTakesEffect_keeps b s
  | .gatedAccess addr write => execGatedAccess_keeps addr write s
  | .xlateLo value => execXlateLo_keeps value s
  | .probeLo value => execProbeLo_keeps value s
  | .flushCtrlStart inv => execFlushCtrlStart_keeps inv s
  | .aonTimeLo => execAonTimeLo_keeps s
  | .imgWin j => execImgWin_keeps j s
  | .twWriteFrame addr bytes badStart => execTwWriteFrame_keeps addr bytes badStart s
  | .twReadFrame addr count => execTwReadFrame_keeps addr count s
  | .twTimeout scl => execTwTimeout_keeps scl s
  | .attentionPulse collision => execAttentionPulse_keeps collision s
  | .pmXfer value outcome => execPmXfer_keeps value outcome s
  | .pmbusHangRecovery clocks => execPmbusHangRecovery_keeps clocks s
  | .faultMessage arrives => execFaultMessage_keeps arrives s
  | .shadowEnd k => execShadowEnd_keeps k s
  | .fenceHoldExpiry k => execFenceHoldExpiry_keeps k s
  | .fencePermanent k => execFencePermanent_keeps k s
  | .incrementalCommit => execIncrementalCommit_keeps s
  | .freezeN => execFreezeN_keeps s
  | .freezeEntry => execFreezeEntry_keeps s
  | .dataLost => execDataLost_keeps s
  | .drainTimeout => execDrainTimeout_keeps s
  | .progDone pulses => execProgDone_keeps pulses s
  | .commitDone => execCommitDone_keeps s
  | .resetDone d len => execResetDone_keeps d len s
  | .relayReset trained => execRelayReset_keeps trained s
  | .railsInRange obs => execRailsInRange_keeps obs s
  | .selfRefreshRef m => execSelfRefreshRef_keeps m s

/-- The state that a command answers is the one its law speaks of. -/
theorem keeps_of_exec_eq_next {c : Instr} {s t : State} (h : exec c s = .next t) : Keeps (Piece.mask (mayChange c)) s t := by
  obtain ⟨u, hu, k⟩ := exec_keeps c s
  rw [hu] at h
  cases h
  exact k

/-- A step keeps the canonical forms: the tick does on an empty queue, and else the command at its front. -/
theorem forms_of_step_eq_next {s t : State} (hs : s.Forms) (h : step s = .next t) : t.Forms := by
  unfold step at h
  cases hq : s.pending with
  | nil =>
    rw [hq] at h
    cases h
    exact (s.tick_keeps (Sub.refl _)).forms hs
  | cons c rest =>
    rw [hq] at h
    have hr : State.Forms { s with pending := rest } := ⟨hs.mem, hs.regs, hs.tables⟩
    exact (keeps_of_exec_eq_next h).forms hr

/-- Settles O2: each command's law and that of the tick keep the forms. -/
theorem everyStepKeepsTheForms : Obligations.EveryStepKeepsTheForms :=
  fun _ _ => forms_of_step_eq_next

/-- Settles O4: a piece that is not listed has no bit in the command's footprint. -/
theorem onlyListedPiecesChange : Obligations.OnlyListedPiecesChange := by
  intro c s t h
  have k := keeps_of_exec_eq_next h
  exact ⟨k.pending, fun p hp => k.rest p (Piece.mask_bit _ p hp)⟩

/-! ### Accesses to a gated block (R17, R420) -/

theorem State.readReg_gated {s : State} {a : Nat} (hc : s.blockClocked a = true) (hg : s.gated a = true) :
    s.readReg a = (s.countGated a false, 0) := by
  unfold State.readReg
  rw [if_neg (not_not_intro hc), if_pos hg]

theorem State.writeReg_gated {s : State} {a : Nat} (hc : s.blockClocked a = true) (hg : s.gated a = true) (v setNow : Nat)
    (o : PmOutcome) : s.writeReg a v setNow o = s.countGated a true := by
  unfold State.writeReg
  rw [if_neg (not_not_intro hc), if_pos hg]

theorem State.wf_fset {s : State} (h : Regs.wf s.regs = true) (f : Fld) (v : Nat) : Regs.wf (s.fset f v).regs = true :=
  (s.fset_keeps f v (Sub.refl _)).regs h

theorem State.wf_bumpSat {s : State} (h : Regs.wf s.regs = true) (f : Fld) (n : Nat) : Regs.wf (s.bumpSat f n).regs = true :=
  State.wf_fset h f _

/-- A one-bit field is a bit of its register. -/
theorem State.flag_eq_bitAt (s : State) (a i : Nat) : s.flag ⟨a, i, 1⟩ = bitAt (s.reg a).toNat i := rfl

section
variable (s : State) (a : Nat) (write : Bool)

/-- The flag of a gated access touches none of the registers that count it. -/
theorem State.reg_countGated_of_ne_intStat {b : Nat} (hi : b ≠ CLK.INT_STAT) (hd : b ≠ FLT.DROP_CNT) (hf : b ≠ FLT.INT_STAT) :
    (s.countGated a write).reg b =
      (((s.bumpSat CLK.GATED_ACCESS_CNT_COUNT 1).fset CLK.GATED_LAST_ADDR a).setFlag CLK.GATED_LAST_WRITE write).reg b :=
  State.reg_int _ I.clk 2 hi hd hf

theorem State.reg_countGated_other {b : Nat} (hc : b ≠ CLK.GATED_ACCESS_CNT) (hl : b ≠ CLK.GATED_LAST) (hi : b ≠ CLK.INT_STAT)
    (hd : b ≠ FLT.DROP_CNT) (hf : b ≠ FLT.INT_STAT) : (s.countGated a write).reg b = s.reg b := by
  rw [State.reg_countGated_of_ne_intStat s a write hi hd hf]
  unfold State.setFlag
  rw [State.reg_fset_other _ _ hl, State.reg_fset_other _ _ hl, State.reg_bumpSat_other _ _ hc]

variable {s}

theorem State.fget_countGated_count (h : Regs.wf s.regs = true) : (s.countGated a write).fget CLK.GATED_ACCESS_CNT_COUNT =
    min (s.fget CLK.GATED_ACCESS_CNT_COUNT + 1) (2 ^ CLK.GATED_ACCESS_CNT_COUNT.width - 1) := by
  rw [State.fget_congr (State.reg_countGated_of_ne_intStat s a write (by decide) (by decide) (by decide))]
  unfold State.setFlag
  rw [State.fget_fset_other _ _ (by decide), State.fget_fset_other _ _ (by decide), State.fget_bumpSat_same h _ _ (by decide)]

theorem State.fget_countGated_addr (h : Regs.wf s.regs = true) :
    (s.countGated a write).fget CLK.GATED_LAST_ADDR = a % 2 ^ 24 := by
  have hb := State.wf_bumpSat h CLK.GATED_ACCESS_CNT_COUNT 1
  rw [State.fget_congr (State.reg_countGated_of_ne_intStat s a write (by decide) (by decide) (by decide))]
  unfold State.setFlag
  rw [State.fget_fset_apart (f := CLK.GATED_LAST_WRITE) (g := CLK.GATED_LAST_ADDR) (State.wf_fset hb _ _) _ rfl (by decide)
    (by decide), State.fget_fset_same hb _ _ (by decide)]

theorem State.flag_countGated_write (h : Regs.wf s.regs = true) : (s.countGated a write).flag CLK.GATED_LAST_WRITE = write := by
  have ha := State.wf_fset (State.wf_bumpSat h CLK.GATED_ACCESS_CNT_COUNT 1) CLK.GATED_LAST_ADDR a
  unfold State.flag
  rw [State.fget_congr (State.reg_countGated_of_ne_intStat s a write (by decide) (by decide) (by decide))]
  exact State.flag_setFlag_same ha write rfl (by decide)

theorem State.bitAt_countGated_intStat (h : Regs.wf s.regs = true) :
    bitAt ((s.countGated a write).reg CLK.INT_STAT).toNat 2 = true := by
  have ha := State.wf_fset (State.wf_bumpSat h CLK.GATED_ACCESS_CNT_COUNT 1) CLK.GATED_LAST_ADDR a
  rw [← State.flag_eq_bitAt]
  exact State.flag_int (State.wf_fset ha _ _) I.clk 2 (by decide) (by decide) (by decide)

end

/-- Settles O47: a read and a write are both one counted access, and differ in the direction that GATED_LAST records. -/
theorem gatedBlocksReadZeroAndDropWrites : Obligations.GatedBlocksReadZeroAndDropWrites := by
  intro a v setNow o s hwf _ ha hc hg
  refine ⟨s.countGated a false, s.countGated a true, State.readReg_gated hc hg, State.writeReg_gated hc hg v setNow o,
    State.flag_countGated_write a false hwf, State.flag_countGated_write a true hwf, fun t ht => ?_⟩
  obtain ⟨write, rfl⟩ : ∃ write, t = s.countGated a write := ht.elim (fun e => ⟨false, e⟩) (fun e => ⟨true, e⟩)
  have haddr : (s.countGated a write).fget CLK.GATED_LAST_ADDR = a :=
    (State.fget_countGated_addr a write hwf).trans (Nat.mod_eq_of_lt ha)
  exact ⟨State.fget_countGated_count a write hwf, haddr, State.bitAt_countGated_intStat a write hwf,
    fun b => State.reg_countGated_other s a write⟩

/-! ### Addresses without a register (R14) -/

/-- The addresses of the image window lie in block CNS. -/
theorem bits_block_of_imgWin {a : Nat} (h : CNS.IMG_WIN 0 ≤ a ∧ a ≤ CNS.IMG_WIN 7) : bits a 16 8 = 0x92 := by
  have hlo : 0x920020 ≤ a := h.1
  have hhi : a ≤ 0x92003C := h.2
  unfold bits
  rw [Nat.shiftRight_eq_div_pow]
  omega

/-- A read anywhere from the first to the last register of the image window answers a word of the window, also at an address
between two of them: the model does not look there whether the address is aligned. -/
theorem State.readReg_imgWin (s : State) {a : Nat} (h : CNS.IMG_WIN 0 ≤ a ∧ a ≤ CNS.IMG_WIN 7) :
    (s.readReg a).2 = s.imgWin ((a - CNS.IMG_WIN 0) / 4) := by
  have hb := bits_block_of_imgWin h
  have hc : s.blockClocked a = true := by
    unfold State.blockClocked
    rw [hb]
    rfl
  have hg : s.gated a = false := by
    unfold State.gated gateBit
    rw [hb]
    rfl
  have hd : s.absentBlock a = false := by
    unfold State.absentBlock
    rw [hb]
    rfl
  have ht : a ≠ PWR.AON_TIME_LO := fun e => absurd (e ▸ h.1 : CNS.IMG_WIN 0 ≤ PWR.AON_TIME_LO) (by decide)
  unfold State.readReg
  rw [if_neg (not_not_intro hc), hg, hd, if_neg Bool.false_ne_true, if_neg Bool.false_ne_true, if_neg ht, if_pos h]

/-- After reset the window shows word 0 of the image, its fixed marker (Table 18.12). -/
theorem State.imgWin_reset : State.reset.imgWin 0 = 0x434E5301 := by decide

/-- Refutes O45: R14 has an unaligned offset read zero, but a read of 0x92_0021, one byte into IMG_WIN[0] and no register,
answers the whole word of IMG_WIN[0], which after reset is 0x434E5301. -/
theorem not_unassignedRegistersReadZeroAndDropWrites : ¬ Obligations.UnassignedRegistersReadZeroAndDropWrites := by
  intro h
  obtain ⟨_, _, hunassigned, _⟩ := h
  have hnone : regRow 0x920021 = none := by decide
  have hzero : (State.reset.readReg 0x920021).2 = 0 := (hunassigned _ State.reset hnone).1
  have hword : (State.reset.readReg 0x920021).2 = 0x434E5301 :=
    (State.readReg_imgWin State.reset (by decide)).trans State.imgWin_reset
  exact absurd (hzero.symm.trans hword) (by decide)

/-! ### Commands that are register accesses -/

/-- Reading the last word of the window moves it on. -/
theorem exec_imgWin_last {j : Nat} (hj : j % 8 = 7) (s : State) : exec (.imgWin j) s = .next s.nextWin := by
  change done (if j % 8 = 7 then s.nextWin else s) = done s.nextWin
  rw [if_pos hj]

/-- PM_XFER is written where the part runs in Sail or Reef-1. -/
theorem exec_pmXfer_of_live {s : State} (hl : s.live = true) (hp : s.pwr ≤ 1) (value : Word) (outcome : PmOutcome) :
    exec (.pmXfer value outcome) s = .next (s.writePmXfer (value.toNat % 2 ^ 32) outcome) := by
  change done (if s.live ∧ s.pwr ≤ 1 then s.writePmXfer (value.toNat % 2 ^ 32) outcome else s) =
    done (s.writePmXfer (value.toNat % 2 ^ 32) outcome)
  rw [if_pos ⟨hl, hp⟩]

/-- Settles O18: four of the commands are a register access without a condition. -/
theorem registerWritesComplete : Obligations.RegisterWritesComplete :=
  ⟨fun _ _ _ _ => rfl, fun _ _ => rfl, fun _ _ => rfl, fun _ => rfl, fun _ s hj => exec_imgWin_last hj s,
    fun value outcome _ hl hp => exec_pmXfer_of_live hl hp value outcome⟩

end Sys2Proof.Machine
end

section
/-! The obligations of spec/01_stack_anatomy.md: a code word stored at a line of an array reads back, and the encoder's lines are
code words, which the decoder leaves as they are. -/

namespace Sys2Proof.Machine

open Sys2Proof.Reg

/-! ### Numbers and lists of bytes -/

/-- An element of a list of numbers below a positive bound, or the 0 past its end, is below the bound. -/
theorem nth_lt {l : List Nat} {c : Nat} (hc : 0 < c) (h : ∀ b ∈ l, b < c) (i : Nat) : nth l i < c := by
  unfold nth
  rcases lt_or_ge i l.length with hi | hi
  · rw [List.getD_eq_getElem l 0 hi]
    exact h _ (List.getElem_mem hi)
  · rwa [List.getD_eq_default l 0 hi]

/-- A list is its elements in order. -/
theorem map_nth_range (l : List Nat) : (List.range l.length).map (nth l) = l :=
  List.ext_getElem (by simp) fun i _ hi => by
    rw [List.getElem_map, List.getElem_range]
    exact List.getD_eq_getElem l 0 hi

theorem xor_lt_256 {a b : Nat} (ha : a < 256) (hb : b < 256) : a ^^^ b < 256 :=
  Nat.xor_lt_two_pow (n := 8) ha hb

/-! ### Reading memory after a write (R23) -/

theorem State.mget_mset_same {s : State} (h : Memory.wf s.mem = true) (k : Nat) (v : Byte) : (s.mset k v).mget k = v :=
  SMap.get_set_same _ k v (SMap.rising_of_wf h)

theorem State.mget_mset_other (s : State) {i k : Nat} (v : Byte) (hi : i ≠ k) : (s.mset k v).mget i = s.mget i :=
  SMap.get_set_other _ _ v hi s.mem

theorem State.wf_mset {s : State} (h : Memory.wf s.mem = true) (k : Nat) (v : Byte) : Memory.wf (s.mset k v).mem = true :=
  (s.mset_keeps k v (Sub.refl _)).mem h

@[simp] theorem State.mset_fillOne (s : State) (k : Nat) (v : Byte) : (s.mset k v).fillOne = s.fillOne := rfl

theorem State.msetList_cons (s : State) (k b : Nat) (r : List Nat) :
    s.msetList k (b :: r) = (s.mset k (BitVec.ofNat 8 b)).msetList (k + 1) r := rfl

/-- A write of consecutive bytes leaves what lies below and above them. -/
theorem State.mget_msetList_outside (s : State) {l : List Nat} {k i : Nat} (h : i < k ∨ k + l.length ≤ i) :
    (s.msetList k l).mget i = s.mget i := by
  induction l generalizing s k with
  | nil => rfl
  | cons b r ih =>
    rw [List.length_cons] at h
    rw [State.msetList_cons, ih _ (by omega), State.mget_mset_other s _ (by omega)]

/-- A write of consecutive bytes stores the `i`-th of them at the `i`-th place. -/
theorem State.mget_msetList_inside {s : State} (h : Memory.wf s.mem = true) {l : List Nat} {k i : Nat} (hi : i < l.length) :
    (s.msetList k l).mget (k + i) = BitVec.ofNat 8 (nth l i) := by
  induction l generalizing s k i with
  | nil => exact absurd hi (Nat.not_lt_zero i)
  | cons b r ih =>
    rw [State.msetList_cons]
    cases i with
    | zero => rw [State.mget_msetList_outside _ (.inl (by omega)), Nat.add_zero, State.mget_mset_same h]; rfl
    | succ i =>
      rw [Nat.add_comm i 1, ← Nat.add_assoc, ih (State.wf_mset h k _) (Nat.lt_of_succ_lt_succ hi), Nat.add_comm 1 i]
      rfl

@[simp] theorem State.msetList_fillOne (s : State) (k : Nat) (l : List Nat) : (s.msetList k l).fillOne = s.fillOne := by
  induction l generalizing s k with
  | nil => rfl
  | cons b r ih => rw [State.msetList_cons, ih, State.mset_fillOne]

/-! ### Lines of an array (R22, R23) -/

/-- A byte of a line is that many places after the line's first. -/
theorem cellKey_eq_add (array line byte : Nat) : cellKey array line byte = cellKey array line 0 + byte := by
  unfold cellKey
  omega

/-- The 80 places of two different lines are apart. -/
theorem cellKey_apart {array line array' line' : Nat} (hl : line < 2 ^ 25) (hl' : line' < 2 ^ 25)
    (hne : array' ≠ array ∨ line' ≠ line) {i : Nat} (hi : i < 80) :
    cellKey array' line' i < cellKey array line 0 ∨ cellKey array line 0 + 80 ≤ cellKey array' line' i := by
  unfold cellKey
  omega

/-- The difference that an array's bytes are kept with is a byte. -/
theorem State.fillDelta_lt (s : State) (array i : Nat) : s.fillDelta array i < 256 := by
  unfold State.fillDelta
  split
  · exact nth_lt (by decide) (by decide) i
  · decide

@[simp] theorem State.fillDelta_setWord (s : State) (array line : Nat) (w : List Nat) (array' i : Nat) :
    (s.setWord array line w).fillDelta array' i = s.fillDelta array' i := by
  unfold State.fillDelta State.setWord
  rw [State.msetList_fillOne]

/-- The stored byte of a line that was just written. -/
theorem State.mget_setWord_same {s : State} (h : Memory.wf s.mem = true) (array line : Nat) (w : List Nat) {i : Nat}
    (hi : i < 80) :
    (s.setWord array line w).mget (cellKey array line i) = BitVec.ofNat 8 (nth w i ^^^ s.fillDelta array i) := by
  unfold State.setWord
  rw [cellKey_eq_add array line i, State.mget_msetList_inside h (by simpa using hi)]
  simp [nth, hi]

/-- The stored byte of any other line. -/
theorem State.mget_setWord_other (s : State) {array line array' line' : Nat} (w : List Nat) (hl : line < 2 ^ 25)
    (hl' : line' < 2 ^ 25) (hne : array' ≠ array ∨ line' ≠ line) {i : Nat} (hi : i < 80) :
    (s.setWord array line w).mget (cellKey array' line' i) = s.mget (cellKey array' line' i) := by
  unfold State.setWord
  refine s.mget_msetList_outside ?_
  rw [List.length_map, List.length_range]
  exact cellKey_apart hl hl' hne hi

/-- A stored code word reads back: the difference it is kept with cancels. -/
theorem State.word_setWord_same {s : State} (h : Memory.wf s.mem = true) (array line : Nat) {w : List Nat} (hw : w.length = 80)
    (hb : ∀ b ∈ w, b < 256) : (s.setWord array line w).word array line = w := by
  have hbyte : ∀ i ∈ List.range 80, ((s.setWord array line w).mget (cellKey array line i)).toNat ^^^
      (s.setWord array line w).fillDelta array i = nth w i := by
    intro i hi
    have hlt := xor_lt_256 (nth_lt (by decide) hb i) (s.fillDelta_lt array i)
    rw [State.mget_setWord_same h array line w (List.mem_range.mp hi), State.fillDelta_setWord, BitVec.toNat_ofNat,
      Nat.mod_eq_of_lt hlt, Nat.xor_xor_cancel_right]
  calc (s.setWord array line w).word array line
      = (List.range 80).map (nth w) := List.map_congr_left hbyte
    _ = w := hw ▸ map_nth_range w

/-- Storing a code word leaves every other line as it was. -/
theorem State.word_setWord_other (s : State) {array line array' line' : Nat} (w : List Nat) (hl : line < 2 ^ 25)
    (hl' : line' < 2 ^ 25) (hne : array' ≠ array ∨ line' ≠ line) :
    (s.setWord array line w).word array' line' = s.word array' line' :=
  List.map_congr_left fun i hi => by
    rw [s.mget_setWord_other w hl hl' hne (List.mem_range.mp hi), State.fillDelta_setWord]

/-! ### The field GF(256) -/

/-- Times the primitive element: a shift, and the field polynomial where a bit leaves the byte. -/
theorem gfX_eq : ∀ a < 256, gfX a = 2 * a ^^^ (if a.testBit 7 then 0x11D else 0) := by decide +kernel

theorem gfX_lt : ∀ a < 256, gfX a < 256 := by decide +kernel

theorem two_mul_xor (a b : Nat) : 2 * (a ^^^ b) = 2 * a ^^^ 2 * b := by
  have h := Nat.shiftLeft_xor_distrib (i := 1) (a := a) (b := b)
  simpa only [Nat.shiftLeft_eq, pow_one, Nat.mul_comm _ 2] using h

/-- The multiple of a number that a bit selects is additive in the bit. -/
theorem ite_xor_bit (p q : Bool) (c : Nat) : (if p ^^ q then c else 0) = (if p then c else 0) ^^^ (if q then c else 0) := by
  cases p <;> cases q <;> simp

theorem gfX_xor {a b : Nat} (ha : a < 256) (hb : b < 256) : gfX (a ^^^ b) = gfX a ^^^ gfX b := by
  rw [gfX_eq a ha, gfX_eq b hb, gfX_eq _ (xor_lt_256 ha hb), two_mul_xor, Nat.testBit_xor, ite_xor_bit]
  ac_rfl

theorem gfMulAux_succ (n a b : Nat) : gfMulAux (n + 1) a b = (if b % 2 = 1 then a else 0) ^^^ gfMulAux n (gfX a) (b / 2) := rfl

theorem gfMulAux_lt : ∀ (n : Nat) {a : Nat} (b : Nat), a < 256 → gfMulAux n a b < 256
  | 0, _, _, _ => Nat.zero_lt_succ 255
  | n + 1, a, b, ha => by
    have hbit : (if b % 2 = 1 then a else 0) < 256 := by split <;> omega
    exact xor_lt_256 hbit (gfMulAux_lt n (b / 2) (gfX_lt a ha))

theorem gfMul_lt {a : Nat} (b : Nat) (ha : a < 256) : gfMul a b < 256 := gfMulAux_lt 8 b ha

theorem gfMulAux_xor_right : ∀ (n a b c : Nat), gfMulAux n a (b ^^^ c) = gfMulAux n a b ^^^ gfMulAux n a c
  | 0, _, _, _ => (Nat.xor_self 0).symm
  | n + 1, a, b, c => by
    have hbit : (if (b ^^^ c) % 2 = 1 then a else 0) = (if b % 2 = 1 then a else 0) ^^^ (if c % 2 = 1 then a else 0) := by
      simp only [Nat.xor_mod_two_eq_one]
      by_cases hb : b % 2 = 1 <;> by_cases hc : c % 2 = 1 <;> simp [hb, hc]
    rw [gfMulAux_succ, gfMulAux_succ, gfMulAux_succ, hbit, Nat.xor_div_two, gfMulAux_xor_right n]
    ac_rfl

theorem gfMul_xor_right (a b c : Nat) : gfMul a (b ^^^ c) = gfMul a b ^^^ gfMul a c := gfMulAux_xor_right 8 a b c

theorem gfMulAux_xor_left : ∀ (n : Nat) {a b : Nat} (c : Nat), a < 256 → b < 256 →
    gfMulAux n (a ^^^ b) c = gfMulAux n a c ^^^ gfMulAux n b c
  | 0, _, _, _, _, _ => (Nat.xor_self 0).symm
  | n + 1, a, b, c, ha, hb => by
    have hbit : (if c % 2 = 1 then a ^^^ b else 0) = (if c % 2 = 1 then a else 0) ^^^ (if c % 2 = 1 then b else 0) := by
      split <;> simp
    rw [gfMulAux_succ, gfMulAux_succ, gfMulAux_succ, hbit, gfX_xor ha hb,
      gfMulAux_xor_left n (c / 2) (gfX_lt a ha) (gfX_lt b hb)]
    ac_rfl

theorem gfMul_xor_left {a b : Nat} (c : Nat) (ha : a < 256) (hb : b < 256) : gfMul (a ^^^ b) c = gfMul a c ^^^ gfMul b c :=
  gfMulAux_xor_left 8 c ha hb

theorem gfMulAux_zero_left : ∀ n b : Nat, gfMulAux n 0 b = 0
  | 0, _ => rfl
  | n + 1, b => by
    rw [gfMulAux_succ, ite_self, show gfX 0 = 0 from rfl, gfMulAux_zero_left n, Nat.xor_self]

@[simp] theorem gfMul_zero_left (b : Nat) : gfMul 0 b = 0 := gfMulAux_zero_left 8 b

theorem gfMulAux_zero_right : ∀ n a : Nat, gfMulAux n a 0 = 0
  | 0, _ => rfl
  | n + 1, a => by
    rw [gfMulAux_succ, if_neg (by decide), Nat.zero_xor, gfMulAux_zero_right n]

@[simp] theorem gfMul_zero_right (a : Nat) : gfMul a 0 = 0 := gfMulAux_zero_right 8 a

@[simp] theorem gfMul_one_right (a : Nat) : gfMul a 1 = a := by
  rw [gfMul, gfMulAux_succ, if_pos rfl, gfMulAux_zero_right, Nat.xor_zero]

/-- Bits above those of the second factor add nothing. -/
theorem gfMulAux_succ_of_lt : ∀ {n : Nat} (a : Nat) {b : Nat}, b < 2 ^ n → gfMulAux (n + 1) a b = gfMulAux n a b
  | 0, a, b, hb => by
    obtain rfl : b = 0 := by omega
    exact gfMulAux_zero_right 1 a
  | n + 1, a, b, hb => by
    have hrest := gfMulAux_succ_of_lt (gfX a) (by omega : b / 2 < 2 ^ n)
    rw [gfMulAux_succ, hrest, ← gfMulAux_succ]

/-- The primitive element may be moved out of the first factor. -/
theorem gfMulAux_gfX_left : ∀ (n : Nat) {a : Nat} (b : Nat), a < 256 → gfMulAux n (gfX a) b = gfX (gfMulAux n a b)
  | 0, _, _, _ => rfl
  | n + 1, a, b, ha => by
    have hbit : (if b % 2 = 1 then gfX a else 0) = gfX (if b % 2 = 1 then a else 0) := by split <;> rfl
    have hlt : (if b % 2 = 1 then a else 0) < 256 := by split <;> omega
    rw [gfMulAux_succ, gfMulAux_succ, hbit, gfMulAux_gfX_left n (b / 2) (gfX_lt a ha),
      ← gfX_xor hlt (gfMulAux_lt n _ (gfX_lt a ha))]

/-- The field polynomial is zero in the field. -/
theorem gfMulAux_polynomial : ∀ a < 256, gfMulAux 9 a 0x11D = 0 := by decide +kernel

/-- The primitive element may be moved out of the second factor: over nine bits the shift of the second factor is exact, and the
field polynomial that brings it back to a byte adds nothing. -/
theorem gfMul_gfX_right {a b : Nat} (ha : a < 256) (hb : b < 256) : gfMul a (gfX b) = gfX (gfMul a b) := by
  have hpoly : gfMulAux 9 a (if b.testBit 7 then 0x11D else 0) = 0 := by
    split
    · exact gfMulAux_polynomial a ha
    · exact gfMulAux_zero_right 9 a
  have hshift : gfMulAux 9 a (2 * b) = gfMulAux 8 (gfX a) b := by
    rw [gfMulAux_succ, if_neg (by omega), Nat.zero_xor, Nat.mul_div_cancel_left b (by decide)]
  calc gfMul a (gfX b)
      = gfMulAux 9 a (gfX b) := (gfMulAux_succ_of_lt a (gfX_lt b hb)).symm
    _ = gfMulAux 8 (gfX a) b := by rw [gfX_eq b hb, gfMulAux_xor_right, hpoly, hshift, Nat.xor_zero]
    _ = gfX (gfMul a b) := gfMulAux_gfX_left 8 b ha

theorem gfMulAux_assoc : ∀ (n : Nat) {a b : Nat} (c : Nat), a < 256 → b < 256 →
    gfMulAux n (gfMul a b) c = gfMul a (gfMulAux n b c)
  | 0, a, _, _, _, _ => (gfMul_zero_right a).symm
  | n + 1, a, b, c, ha, hb => by
    have hbit : (if c % 2 = 1 then gfMul a b else 0) = gfMul a (if c % 2 = 1 then b else 0) := by split <;> simp
    rw [gfMulAux_succ, gfMulAux_succ, hbit, ← gfMul_gfX_right ha hb, gfMulAux_assoc n (c / 2) ha (gfX_lt b hb), gfMul_xor_right]

theorem gfMul_assoc {a b : Nat} (c : Nat) (ha : a < 256) (hb : b < 256) : gfMul (gfMul a b) c = gfMul a (gfMul b c) :=
  gfMulAux_assoc 8 c ha hb

/-! ### The encoder makes words that vanish at every root (R298) -/

/-- The value at `x` of a word, highest power first, read on from the value `e` of what stands before it. -/
def horner (x e : Nat) (w : List Nat) : Nat := w.foldl (fun a b => gfMul a x ^^^ b) e

@[simp] theorem horner_nil (x e : Nat) : horner x e [] = e := rfl

@[simp] theorem horner_cons (x e a : Nat) (w : List Nat) : horner x e (a :: w) = horner x (gfMul e x ^^^ a) w := rfl

theorem horner_append (x e : Nat) (v w : List Nat) : horner x e (v ++ w) = horner x (horner x e v) w := List.foldl_append

/-- A syndrome is a word's value at a root. -/
theorem rsSyndromes_eq (t2 : Nat) (w : List Nat) : rsSyndromes t2 w = (List.range t2).map (fun i => horner (alpha i) 0 w) := rfl

/-- A word plus `f` times another has the value of the one plus `f` times that of the other. -/
theorem horner_zipWith (x : Nat) {f : Nat} (hf : f < 256) : ∀ {r g : List Nat} {e d : Nat}, r.length = g.length →
    (∀ b ∈ r, b < 256) → (∀ b ∈ g, b < 256) → e < 256 → d < 256 →
    horner x (e ^^^ gfMul f d) (List.zipWith (fun a c => a ^^^ gfMul f c) r g) = horner x e r ^^^ gfMul f (horner x d g)
  | [], [], _, _, _, _, _, _, _ => rfl
  | a :: r, c :: g, e, d, hlen, hr, hg, he, hd => by
    obtain ⟨ha, hr⟩ := List.forall_mem_cons.mp hr
    obtain ⟨hc, hg⟩ := List.forall_mem_cons.mp hg
    have hstep : gfMul (e ^^^ gfMul f d) x ^^^ (a ^^^ gfMul f c) = (gfMul e x ^^^ a) ^^^ gfMul f (gfMul d x ^^^ c) := by
      rw [gfMul_xor_left x he (gfMul_lt d hf), gfMul_assoc x hf hd, gfMul_xor_right]
      ac_rfl
    rw [List.zipWith_cons_cons, horner_cons, hstep, horner_cons, horner_cons]
    exact horner_zipWith x hf (Nat.succ.inj hlen) hr hg (xor_lt_256 (gfMul_lt x he) ha) (xor_lt_256 (gfMul_lt x hd) hc)

/-! The check symbols are the remainder of the message by the generator, whose coefficients after the leading 1 are `g`. -/

section
variable {g : List Nat} {x : Nat}

theorem rsStep_eq (g r : List Nat) (m : Nat) :
    rsStep g r m = List.zipWith (fun a c => a ^^^ gfMul (m ^^^ nth r 0) c) (r.tail ++ [0]) g := rfl

/-- A step of the division keeps the remainder's length. -/
theorem length_rsStep {r : List Nat} (hlen : r.length = g.length) (hne : r ≠ []) (m : Nat) :
    (rsStep g r m).length = g.length := by
  have hlong := List.length_pos_iff.mpr hne
  simp only [rsStep_eq, List.length_zipWith, List.length_append, List.length_tail, List.length_singleton]
  omega

theorem rsStep_lt {r : List Nat} (hr : ∀ b ∈ r, b < 256) {m : Nat} (hm : m < 256) :
    ∀ b ∈ rsStep g r m, b < 256 := by
  have hf : m ^^^ nth r 0 < 256 := xor_lt_256 hm (nth_lt (by decide) hr 0)
  have hshift : ∀ b ∈ r.tail ++ [0], b < 256 :=
    List.forall_mem_append.mpr ⟨fun b hb => hr b (List.mem_of_mem_tail hb), by simp⟩
  intro b hb
  rw [rsStep_eq] at hb
  obtain ⟨i, hi, rfl⟩ := List.getElem_of_mem hb
  rw [List.getElem_zipWith]
  exact xor_lt_256 (hshift _ (List.getElem_mem _)) (gfMul_lt _ hf)

/-- If the word so far with the remainder vanishes at a root of the generator, so does the word with the next symbol `m` and
the next remainder. -/
theorem horner_rsStep (hg : ∀ b ∈ g, b < 256) (hroot : horner x 1 g = 0) {e a m : Nat} {r : List Nat}
    (hlen : (a :: r).length = g.length) (hr : ∀ b ∈ a :: r, b < 256) (he : e < 256) (hm : m < 256)
    (hzero : horner x e (a :: r) = 0) : horner x (gfMul e x ^^^ m) (rsStep g (a :: r) m) = 0 := by
  obtain ⟨ha, hr⟩ := List.forall_mem_cons.mp hr
  have hf : m ^^^ a < 256 := xor_lt_256 hm ha
  have hshift : horner x (gfMul e x ^^^ a) (r ++ [0]) = 0 := by
    rw [horner_append, ← horner_cons, hzero, horner_cons, gfMul_zero_left]
    rfl
  have hsplit : gfMul e x ^^^ m = (gfMul e x ^^^ a) ^^^ gfMul (m ^^^ a) 1 := by
    rw [gfMul_one_right, Nat.xor_comm m a, Nat.xor_assoc, Nat.xor_xor_cancel_left]
  have hbytes : ∀ b ∈ r ++ [0], b < 256 := List.forall_mem_append.mpr ⟨hr, by simp⟩
  calc horner x (gfMul e x ^^^ m) (rsStep g (a :: r) m)
      = horner x ((gfMul e x ^^^ a) ^^^ gfMul (m ^^^ a) 1)
          (List.zipWith (fun a' c => a' ^^^ gfMul (m ^^^ a) c) (r ++ [0]) g) := by rw [hsplit]; rfl
    _ = horner x (gfMul e x ^^^ a) (r ++ [0]) ^^^ gfMul (m ^^^ a) (horner x 1 g) :=
        horner_zipWith x hf (by simpa using hlen) hbytes hg (xor_lt_256 (gfMul_lt x he) ha) (by decide)
    _ = 0 := by rw [hshift, hroot, gfMul_zero_right, Nat.xor_zero]

theorem length_foldl_rsStep (hne : g ≠ []) (msg : List Nat) {r : List Nat} (hlen : r.length = g.length) :
    (msg.foldl (rsStep g) r).length = g.length := by
  induction msg generalizing r with
  | nil => exact hlen
  | cons m msg ih =>
    have hr : r ≠ [] := fun h => hne (List.length_eq_zero_iff.mp (hlen.symm.trans (congrArg List.length h)))
    exact ih (length_rsStep hlen hr m)

/-- A message with its remainder vanishes at a root of the generator, whatever word the division has gone through before. -/
theorem horner_append_foldl_rsStep (hne : g ≠ []) (hg : ∀ b ∈ g, b < 256) (hroot : horner x 1 g = 0) {msg r : List Nat} {e : Nat}
    (hlen : r.length = g.length) (hr : ∀ b ∈ r, b < 256) (he : e < 256) (hmsg : ∀ b ∈ msg, b < 256)
    (hzero : horner x e r = 0) : horner x e (msg ++ msg.foldl (rsStep g) r) = 0 := by
  induction msg generalizing r e with
  | nil => exact hzero
  | cons m msg ih =>
    obtain ⟨hm, hmsg⟩ := List.forall_mem_cons.mp hmsg
    cases r with
    | nil => exact absurd (List.length_eq_zero_iff.mp hlen.symm) hne
    | cons a r =>
      exact ih (length_rsStep hlen (List.cons_ne_nil a r) m) (rsStep_lt hr hm) (xor_lt_256 (gfMul_lt x he) hm) hmsg
        (horner_rsStep hg hroot hlen hr he hm hzero)

end

theorem horner_replicate_zero (x n : Nat) : horner x 0 (List.replicate n 0) = 0 := by
  induction n with
  | zero => rfl
  | succ n ih => rw [List.replicate_succ, horner_cons, gfMul_zero_left, Nat.xor_self, ih]

/-- The generator of the line code, roots alpha^0 to alpha^11, below its leading coefficient 1 (R296). -/
def lineGen : List Nat := (rsGen 12).reverse.tail

theorem length_lineGen : lineGen.length = 12 := by decide +kernel

theorem lineGen_ne_nil : lineGen ≠ [] := List.length_pos_iff.mp (by rw [length_lineGen]; decide)

theorem lineGen_lt : ∀ b ∈ lineGen, b < 256 := by decide +kernel

/-- With its leading coefficient the generator vanishes at the twelve roots. -/
theorem horner_lineGen : ∀ i < 12, horner (alpha i) 1 lineGen = 0 := by decide +kernel

theorem rsCheck_line (msg : List Nat) : rsCheck 12 msg = msg.foldl (rsStep lineGen) (List.replicate 12 0) := rfl

@[simp] theorem length_rsCheck_line (msg : List Nat) : (rsCheck 12 msg).length = 12 := by
  rw [rsCheck_line, length_foldl_rsStep lineGen_ne_nil msg (List.length_replicate.trans length_lineGen.symm), length_lineGen]

/-- Every syndrome of an encoded message is 0. -/
theorem rsSyndromes_rsEncode_line {msg : List Nat} (hmsg : ∀ b ∈ msg, b < 256) :
    ∀ y ∈ rsSyndromes 12 (rsEncode 12 msg), y = 0 := by
  have hstart : ∀ b ∈ List.replicate 12 0, b < 256 := by decide
  rw [rsSyndromes_eq]
  intro y hy
  obtain ⟨i, hi, rfl⟩ := List.mem_map.mp hy
  exact horner_append_foldl_rsStep lineGen_ne_nil lineGen_lt (horner_lineGen i (List.mem_range.mp hi))
    (List.length_replicate.trans length_lineGen.symm) hstart (by decide) hmsg (horner_replicate_zero _ 12)

/-! ### Stored lines (Table 1.3, R297, R298) -/

/-- A whole list of data bytes is its own slice. -/
theorem slice_zero_length (l : List Nat) : slice l 0 l.length = l := by
  simp [slice]

/-- A word that vanishes at every root and has the fixed bits of a stored line is decoded to itself (R300). -/
theorem decodeLine_eq_self {w : List Nat} (erased : Option Nat) (hs : ∀ y ∈ rsSyndromes 12 w, y = 0) (hw : wordFormed w = true) :
    decodeLine erased w = ⟨false, w, 0, none⟩ := by
  have hall : (rsSyndromes 12 w).all (· = 0) = true := List.all_eq_true.mpr fun y hy => decide_eq_true (hs y hy)
  have hdec : ∀ era, rsDecode 12 w era = .ok w 0 0 := fun era => by
    unfold rsDecode
    exact if_pos hall
  unfold decodeLine
  simp [hdec, hw]

/-- The 68 message bytes of a stored line. -/
def lineMessage (data : List Nat) (utag dev : Nat) : List Nat := data ++ [utag / 256 % 256, utag % 256, dev % 256, 0]

section
variable {data : List Nat} (hdata : data.length = 64) (utag dev : Nat)
include hdata

theorem encodeLine_eq : encodeLine data utag dev = rsEncode 12 (lineMessage data utag dev) := by
  unfold encodeLine lineMessage
  rw [← hdata, slice_zero_length]

/-- The layout of a stored line: the data, the tag and the device-state byte, the check symbols. -/
theorem encodeLine_layout : encodeLine data utag dev = data ++ ([utag / 256 % 256, utag % 256, dev % 256, 0] ++
    rsCheck 12 (lineMessage data utag dev)) :=
  (encodeLine_eq hdata utag dev).trans (List.append_assoc ..)

theorem length_encodeLine : (encodeLine data utag dev).length = 80 := by
  simp [encodeLine_layout hdata, hdata]

theorem take_encodeLine : (encodeLine data utag dev).take 64 = data := by
  rw [encodeLine_layout hdata, List.take_left' hdata]

/-- The bytes after the data. -/
theorem nth_encodeLine (i : Nat) : nth (encodeLine data utag dev) (64 + i) =
    nth ([utag / 256 % 256, utag % 256, dev % 256, 0] ++ rsCheck 12 (lineMessage data utag dev)) i := by
  unfold nth
  rw [encodeLine_layout hdata, List.getD_append_right _ _ _ _ (by omega), hdata, Nat.add_sub_cancel_left]

theorem wordTag_encodeLine (hu : utag < 2 ^ 16) : wordTag (encodeLine data utag dev) = utag := by
  have hhigh : nth (encodeLine data utag dev) 64 = utag / 256 % 256 := nth_encodeLine hdata utag dev 0
  have hlow : nth (encodeLine data utag dev) 65 = utag % 256 := nth_encodeLine hdata utag dev 1
  unfold wordTag
  omega

theorem nth_encodeLine_dev (hd : dev < 256) : nth (encodeLine data utag dev) 66 = dev :=
  (nth_encodeLine hdata utag dev 2).trans (Nat.mod_eq_of_lt hd)

theorem nth_encodeLine_reserved : nth (encodeLine data utag dev) 67 = 0 := nth_encodeLine hdata utag dev 3

theorem wordFormed_encodeLine (hd : dev < 256) (hv : dev % 32 = 1) : wordFormed (encodeLine data utag dev) = true := by
  unfold wordFormed
  rw [nth_encodeLine_dev hdata utag dev hd, nth_encodeLine_reserved hdata, hv]
  rfl

theorem rsSyndromes_encodeLine (hb : ∀ b ∈ data, b < 256) : ∀ y ∈ rsSyndromes 12 (encodeLine data utag dev), y = 0 := by
  have hmeta : ∀ b ∈ [utag / 256 % 256, utag % 256, dev % 256, 0], b < 256 := by
    simp [Nat.mod_lt]
  rw [encodeLine_eq hdata]
  exact rsSyndromes_rsEncode_line (List.forall_mem_append.mpr ⟨hb, hmeta⟩)

end

theorem State.fget_bit_lt (s : State) (a i : Nat) : s.fget ⟨a, i, 1⟩ < 2 := Nat.mod_lt _ Nat.two_pos

/-- The device-state byte of a write: VERSION 0b001 below zeros, the current EPOCH, RETLOST and POISON (R298). -/
theorem State.devState8_layout (s : State) (k : Nat) (poison retlost : Bool) :
    s.devState8 k poison retlost < 256 ∧ s.devState8 k poison retlost % 32 = 1 ∧
    bitAt (s.devState8 k poison retlost) 7 = poison ∧ bitAt (s.devState8 k poison retlost) 6 = retlost ∧
    bits (s.devState8 k poison retlost) 5 1 = s.fget (ECC.PC_HEAL_EPOCH k) := by
  have he : s.fget (ECC.PC_HEAL_EPOCH k) < 2 := s.fget_bit_lt _ _
  unfold State.devState8
  generalize s.fget (ECC.PC_HEAL_EPOCH k) = e at he ⊢
  revert poison retlost e
  decide

/-! ### The obligations -/

/-- Settles O48: the bytes of a line lie together, apart from those of every other line, and are kept with a difference that
the read takes off again. -/
theorem storedWordsReadBack : Obligations.StoredWordsReadBack := by
  intro s array line w hm hl hw hb
  exact ⟨State.word_setWord_same hm array line hw hb,
    fun _ _ hl' hne => s.word_setWord_other w hl hl' hne,
    (s.setWord_keeps array line w (Sub.refl _)).mem hm⟩

/-- Settles O49: the check symbols are the remainder by the generator, so an encoded line vanishes at every root of the code and
the decoder corrects nothing. -/
theorem encodedLinesDecodeToThemselves : Obligations.EncodedLinesDecodeToThemselves := by
  refine ⟨fun data utag dev erased hdata hb hu hd hv => ?_, fun s k poison retlost => s.devState8_layout k poison retlost⟩
  exact ⟨length_encodeLine hdata utag dev, take_encodeLine hdata utag dev, wordTag_encodeLine hdata utag dev hu,
    nth_encodeLine_dev hdata utag dev hd, nth_encodeLine_reserved hdata utag dev,
    decodeLine_eq_self erased (rsSyndromes_encodeLine hdata utag dev hb) (wordFormed_encodeLine hdata utag dev hd hv)⟩

end Sys2Proof.Machine
end

section
/-! The obligations of spec/02_lane_ports.md: what the commands of the lane ports do in each state of their port, what a write to
SLIP leaves unchanged, and how markers are numbered. -/

namespace Sys2Proof.Machine

open Sys2Proof.Reg

/-! ### Writes to a port's registers (R17, R420) -/

section
variable {p a : Nat} {s : State} (hp : isPort p = true) (hl : s.live = true) (f : State → State)
include hp hl

/-- A write to a port that runs is past the test for one that does not. -/
theorem State.portWrite_running : s.portWrite p a f = if s.gated a = true then s.countGated a true else f s :=
  if_neg (not_or.mpr ⟨not_not_intro hp, not_not_intro hl⟩)

theorem State.portWrite_reaches (hg : s.gated a = false) : s.portWrite p a f = f s := by
  rw [State.portWrite_running hp hl, if_neg (ne_true_of_eq_false hg)]

theorem State.portWrite_gated (hg : s.gated a = true) : s.portWrite p a f = s.countGated a true := by
  rw [State.portWrite_running hp hl, if_pos hg]

end

theorem exec_portEnable (p : Nat) (s : State) :
    exec (.portEnable p) s = .next (s.portWrite p (PRT.CTRL p) (fun t => t.enablePort p)) := rfl

theorem exec_portDisable (p : Nat) (s : State) :
    exec (.portDisable p) s = .next (s.portWrite p (PRT.CTRL p) (fun t => t.disablePort p)) := rfl

theorem exec_prtCtrlRetrain (p : Nat) (s : State) :
    exec (.prtCtrlRetrain p) s = .next (s.portWrite p (PRT.CTRL p) (fun t => t.writeRetrain p)) := rfl

theorem exec_testEn (p : Nat) (on : Bool) (errs checked : List Nat) (s : State) :
    exec (.testEn p on errs checked) s = .next (s.portWrite p (PRT.CTRL p) (fun t => t.testMode p on errs checked)) := rfl

theorem exec_prtSlip (p lane count : Nat) (s : State) :
    exec (.prtSlip p lane count) s = .next (s.portWrite p (PRT.SLIP p) (fun t => t.writeSlip p lane count)) := rfl

/-! ### The bits of CTRL (R57, R58, R75) -/

/-- Writing a bit of CTRL leaves the port state, which STATE holds. -/
theorem State.portState_setFlag_ctrl (s : State) (p i : Nat) (b : Bool) :
    (s.setFlag ⟨PRT.CTRL p, i, 1⟩ b).portState p = s.portState p :=
  State.fget_fset_other _ _ (show 0x100004 + 0x10000 * p ≠ 0x100000 + 0x10000 * p by omega)

section
variable {p : Nat} {s : State}

theorem State.enablePort_of_not_disabled (h : s.portState p ≠ 0) : s.enablePort p = s.setFlag (PRT.CTRL_EN p) true :=
  if_neg ((s.portState_setFlag_ctrl p 0 true).trans_ne h)

theorem State.disablePort_of_disabled (h : s.portState p = 0) : s.disablePort p = s.setFlag (PRT.CTRL_EN p) false :=
  if_pos ((s.portState_setFlag_ctrl p 0 false).trans h)

theorem State.writeRetrain_ignored (h : s.portState p = 0 ∨ s.portState p = 9) : s.writeRetrain p = s := if_pos h

/-- In any other state than DISABLED and TEST the port retrains, from DOWN with its attempts at 0. -/
theorem State.writeRetrain_taken (h0 : s.portState p ≠ 0) (h9 : s.portState p ≠ 9) : s.writeRetrain p =
    (if s.portState p = 10 then s.fset (PRT.STATE_ATTEMPT p) 0 else s).enterRetrain p 1 :=
  if_neg (not_or.mpr ⟨h0, h9⟩)

variable (on : Bool) (errs checked : List Nat)

/-- In TEST the counts go on, and TEST_EN = 0 ends the test. -/
theorem State.testMode_in_test (h : s.portState p = 9) : s.testMode p on errs checked =
    if on = true then (s.setFlag (PRT.CTRL_TEST_EN p) on).countPrbs p errs checked
    else (((s.setFlag (PRT.CTRL_TEST_EN p) on).countPrbs p errs checked).toPort p 1).restartLanes p :=
  if_pos ((s.portState_setFlag_ctrl p 9 on).trans h)

/-- Outside TEST the bit is written, and TEST_EN = 1 takes a port from UP to TEST. -/
theorem State.testMode_outside_test (h : s.portState p ≠ 9) : s.testMode p on errs checked =
    if on = true ∧ s.portState p = 5 then (s.setFlag (PRT.CTRL_TEST_EN p) on).enterTest p
    else s.setFlag (PRT.CTRL_TEST_EN p) on := by
  have hst := s.portState_setFlag_ctrl p 9 on
  unfold State.testMode
  rw [if_neg (hst.trans_ne h), hst]

end

/-! ### SLIP (R60) -/

section
variable {p lane count : Nat} {s : State}

theorem State.writeSlip_zero (h : count % 64 = 0) : s.writeSlip p lane count = s := if_pos h

theorem State.writeSlip_in_align (h : count % 64 ≠ 0) (ha : s.laneState p (lane % 4) = 5) :
    s.writeSlip p lane count = s.slip p (lane % 4) (count % 64) := by
  unfold State.writeSlip
  rw [if_neg h, if_pos ha]

theorem State.writeSlip_rejected (h : count % 64 ≠ 0) (ha : s.laneState p (lane % 4) ≠ 5) :
    s.writeSlip p lane count = s.int (I.prt p) 7 := by
  unfold State.writeSlip
  rw [if_neg h, if_neg ha]

end

section
variable {s : State} (p m n : Nat)

/-- A slip touches the lane's status register alone. -/
theorem State.reg_slip_other {b : Nat} (h : b ≠ PRT.LANE_STAT p m) : (s.slip p m n).reg b = s.reg b := by
  unfold State.slip
  rw [State.setLane_reg, State.reg_fset_other _ _ h, State.reg_fset_other _ _ h]

/-- A slip writes SLIP_POS and clears AM_LOCK. -/
theorem State.fget_slip (f : Fld) : (s.slip p m n).fget f =
    ((s.fset (PRT.LANE_STAT_SLIP_POS p m) ((s.fget (PRT.LANE_STAT_SLIP_POS p m) + n) % 64)).fset
      (PRT.LANE_STAT_AM_LOCK p m) 0).fget f := by
  refine State.fget_congr ?_
  unfold State.slip
  rw [State.setLane_reg]

variable (hwf : Regs.wf s.regs = true)
include hwf

theorem State.fget_slip_pos :
    (s.slip p m n).fget (PRT.LANE_STAT_SLIP_POS p m) = (s.fget (PRT.LANE_STAT_SLIP_POS p m) + n) % 64 := by
  rw [State.fget_slip, State.fget_fset_apart (f := PRT.LANE_STAT_AM_LOCK p m) (g := PRT.LANE_STAT_SLIP_POS p m)
    (State.wf_fset hwf _ _) _ rfl (by decide : 18 + 6 ≤ 32) (.inl (by decide : 18 + 6 ≤ 25)),
    State.fget_fset_same hwf _ _ (by decide : 18 + 6 ≤ 32)]
  exact Nat.mod_mod _ 64

theorem State.flag_slip_amLock : (s.slip p m n).flag (PRT.LANE_STAT_AM_LOCK p m) = false := by
  unfold State.flag
  rw [State.fget_slip, State.fget_fset_same (State.wf_fset hwf _ _) _ _ (by decide : 25 + 1 ≤ 32)]
  rfl

theorem State.laneState_slip : (s.slip p m n).laneState p m = s.laneState p m := by
  unfold State.laneState
  rw [State.fget_slip, State.fget_fset_apart (f := PRT.LANE_STAT_AM_LOCK p m) (g := PRT.LANE_STAT_LANE_STATE p m)
    (State.wf_fset hwf _ _) _ rfl (by decide : 28 + 4 ≤ 32) (.inr (by decide : 25 + 1 ≤ 28)),
    State.fget_fset_apart (f := PRT.LANE_STAT_SLIP_POS p m) (g := PRT.LANE_STAT_LANE_STATE p m)
    hwf _ rfl (by decide : 28 + 4 ≤ 32) (.inr (by decide : 18 + 6 ≤ 28))]

end

/-- The interrupt registers of the ports lie below block FLT. -/
theorem prtIntStat_ne_flt {p : Nat} (hp : p < 8) : PRT.INT_STAT p ≠ FLT.DROP_CNT ∧ PRT.INT_STAT p ≠ FLT.INT_STAT := by
  dsimp only [PRT.INT_STAT, FLT.DROP_CNT, FLT.INT_STAT]
  omega

/-- A flag of a port's INT_STAT is set. -/
theorem State.bitAt_int_prt {s : State} (hwf : Regs.wf s.regs = true) {p : Nat} (hp : p < 8) {i : Nat} (hi : i < 32) :
    bitAt ((s.int (I.prt p) i).reg (PRT.INT_STAT p)).toNat i = true :=
  (State.flag_eq_bitAt _ _ i).symm.trans (State.flag_int hwf _ i hi (prtIntStat_ne_flt hp).1 (prtIntStat_ne_flt hp).2)

/-! ### The number of the next marker (Table 2.3) -/

/-- The next marker of port `p` has number `n`, in a table of ports whose keys rise. -/
structure NextMarker (p n : Nat) (t : State) : Prop where
  rising : SMap.rising t.ports = true
  seq : (t.port p).mkrSeq = n

namespace NextMarker
variable {p n : Nat} {s : State} (h : NextMarker p n s)
include h

theorem of_ports {t : State} (e : t.ports = s.ports) : NextMarker p n t :=
  ⟨e ▸ h.rising, (congrArg (fun l => (SMap.get {} l p : PortSt).mkrSeq) e).trans h.seq⟩

/-- An operation without the ports in its footprint. -/
theorem of_keeps {F : Nat} {t : State} (k : Keeps F s t) (hF : F.testBit 5 = false) : NextMarker p n t :=
  h.of_ports (k.rest .ports hF)

omit h in
theorem ite {c : Prop} [Decidable c] {a b : State} (ha : NextMarker p n a) (hb : NextMarker p n b) :
    NextMarker p n (if c then a else b) := by
  split
  · exact ha
  · exact hb

theorem foldl {α : Type} (l : List α) (f : State → α → State) (hf : ∀ t x, NextMarker p n t → NextMarker p n (f t x)) :
    NextMarker p n (l.foldl f s) := by
  induction l generalizing s with
  | nil => exact h
  | cons x l ih => exact ih (hf s x h)

omit h in
/-- A write of the port's entry numbers the next marker. -/
theorem of_setPort {v : PortSt} (hr : SMap.rising s.ports = true) (hv : v.mkrSeq = n) : NextMarker p n (s.setPort p v) :=
  ⟨SMap.rising_set _ p v hr, (congrArg PortSt.mkrSeq (SMap.get_set_same _ p v hr)).trans hv⟩

theorem setPort {v : PortSt} (hv : v.mkrSeq = n) : NextMarker p n (s.setPort p v) := of_setPort h.rising hv

theorem setLane (m : Nat) (v : LaneSt) : NextMarker p n (s.setLane p m v) := h.setPort h.seq

theorem fset (f : Fld) (v : Nat) : NextMarker p n (s.fset f v) := h.of_ports rfl

theorem setLink (q : Nat) (v : LinkSt) : NextMarker p n (s.setLink q v) := h.of_ports rfl

theorem int (b : IntBlk) (bit : Nat) : NextMarker p n (s.int b bit) := h.of_keeps (s.int_keeps b bit (Sub.refl _)) rfl

theorem event (code severity : Nat) (detail : List Nat) : NextMarker p n (s.event code severity detail) :=
  h.of_keeps (s.event_keeps code severity detail 0 (Sub.refl _)) rfl

theorem toPort (q v : Nat) : NextMarker p n (s.toPort q v) := h.of_keeps (s.toPort_keeps q v (Sub.refl _)) rfl

theorem sendNak (q : Nat) : NextMarker p n (s.sendNak q) := h.of_keeps (s.sendNak_keeps q (Sub.refl _)) rfl

theorem pump (q : Nat) : NextMarker p n (s.pump q) := h.of_keeps (s.pump_keeps q (Sub.refl _)) rfl

theorem adaptNow (m : Nat) : NextMarker p n (s.adaptNow p m) := by
  unfold State.adaptNow
  have hfresh : NextMarker p n s.fresh.2 := h.of_ports rfl
  refine ite h (foldl (ite hfresh (((hfresh.fset _ _).fset _ _).fset _ _)) _ _ fun t _ ht => ?_)
  exact NextMarker.setLane (s := t.fresh.2) (ht.of_ports rfl) m _

theorem toLane (m v : Nat) : NextMarker p n (s.toLane p m v) := by
  unfold State.toLane
  extract_lets t
  have ht : NextMarker p n t := ite h (h.adaptNow m)
  exact (ite ht (ht.setLane m _)).fset _ _

theorem loseLane (m : Nat) : NextMarker p n (s.loseLane p m) :=
  ((((h.toLane m 11).fset _ _).setLane _ _).fset _ _).int _ _

/-- The end of a lane drop. -/
theorem dropDone (mask : Nat) : NextMarker p n (s.dropDone p mask) := by
  unfold State.dropDone
  extract_lets q gone t u v
  have hu : NextMarker p n u := NextMarker.setPort (s := t) (h.fset _ _) h.seq
  have hv : NextMarker p n v := hu.foldl _ _ fun _ m hx => (ite hx (hx.loseLane m)).event _ _ _
  exact ite hv (((hv.setLink p _).sendNak p).pump p)

/-- The end of the mask exchange. -/
theorem checkMasks : NextMarker p n (s.checkMasks p) := by
  unfold State.checkMasks
  split
  · extract_lets mask t q u l v
    have ht : NextMarker p n t := (h.toPort p 4).fset _ _
    have hu : NextMarker p n u := ht.setPort ht.seq
    have hv : NextMarker p n v := (hu.setLink p _).fset _ _
    exact ite hv (hv.dropDone mask)
  · exact h

theorem applyTxMask : NextMarker p n (s.applyTxMask p) := by
  unfold State.applyTxMask
  split
  · exact h
  · extract_lets gone q t
    have ht : NextMarker p n t := (h.setPort (by exact h.seq)).fset _ _
    exact ite (((ht.fset _ _).int _ _).event _ _ _) ht

theorem applyFir : NextMarker p n (s.applyFir p) :=
  h.foldl _ _ fun t m ht => by
    split
    · exact NextMarker.setLane (s := t.setReg _ _) (ht.of_ports rfl) m _
    · exact ht

theorem enterIdle (deep : Bool) : NextMarker p n (s.enterIdle p deep) := (h.setPort (by exact h.seq)).toPort _ _

theorem idleMarker : NextMarker p n (s.idleMarker p) := by
  unfold State.idleMarker
  extract_lets q
  split
  · exact h
  · exact ite h (ite (h.enterIdle _) (h.setPort h.seq))

end NextMarker

/-- A marker takes its number, and nothing that follows in the same command numbers the next one again. -/
theorem State.sendMarker_numbers (s : State) (p : Nat) (hr : SMap.rising s.ports = true) :
    NextMarker p (((s.port p).mkrSeq + 1) % 256) (s.sendMarker p) := by
  unfold State.sendMarker
  extract_lets q t
  have ht : NextMarker p ((q.mkrSeq + 1) % 256) t := .of_setPort hr rfl
  exact ht.applyTxMask.applyFir.idleMarker.checkMasks

/-! ### Commands with a guard -/

/-- A command whose guard holds answers the state that it guards. -/
theorem done_ite_of {c : Prop} [Decidable c] (h : c) (s t : State) : done (if c then t else s) = .next t :=
  congrArg done (if_pos h)

/-! ### The obligations -/

/-- Settles O53: a slip writes two fields of the lane's status register, and a write that is dropped only sets SLIP_REJ. -/
theorem slipMovesOneLane : Obligations.SlipMovesOneLane := by
  intro p m n s hwf hp hm hl hg
  have hexec : ∀ k, exec (.prtSlip p m k) s = .next (s.writeSlip p m k) := fun k => by
    rw [exec_prtSlip, State.portWrite_reaches (decide_eq_true hp) hl _ hg]
  have hmod : m % 4 = m := Nat.mod_eq_of_lt hm
  refine ⟨fun hn0 hn ha => ?_, fun hn0 hn ha => ?_, (hexec 0).trans (congrArg _ (State.writeSlip_zero rfl))⟩
  all_goals
    have hcount : n % 64 = n := Nat.mod_eq_of_lt hn
    have hne : n % 64 ≠ 0 := by omega
  · refine ⟨s.slip p m n, ?_, State.fget_slip_pos p m n hwf, State.flag_slip_amLock p m n hwf,
      (State.laneState_slip p m n hwf).trans ha, fun b => State.reg_slip_other p m n⟩
    rw [hexec, State.writeSlip_in_align hne (hmod.symm ▸ ha), hmod, hcount]
  · refine ⟨s.int (I.prt p) 7, ?_, State.bitAt_int_prt hwf hp (by decide), fun b => State.reg_int s (I.prt p) 7⟩
    rw [hexec, State.writeSlip_rejected hne (hmod.symm ▸ ha)]

/-- Settles O57: the number is counted as the marker leaves. -/
theorem markersAreNumbered : Obligations.MarkersAreNumbered :=
  fun p s hp hl hs ht =>
    ⟨s.sendMarker p, done_ite_of ⟨hp, hl, hs⟩ s _, (s.sendMarker_numbers p (State.tables_ports ht)).seq⟩

/-- Settles O10: each command is a write to CTRL or SLIP, taken by the state of the port or the lane. -/
theorem portRegisterCommandsComplete : Obligations.PortRegisterCommandsComplete := by
  refine ⟨fun p s hp hl hg h => ?_, fun p s hp hl hg h => ?_, fun p s hp hl hg h => ?_, fun p s hp hl hg h => ?_,
    fun p s hp hl hg h0 h9 h10 => ?_, fun p s hp hl hg h => ?_, fun p s hp hl hg h => ?_,
    fun p errs checked s hp hl hg h => ?_, fun p errs checked s hp hl hg h => ?_, fun p errs checked s hp hl hg h => ?_,
    fun p on errs checked s hp hl hg h9 h => ?_, fun p lane count s hp hl hg hc h => ?_,
    fun p lane count s hp hl hg hc h => ?_, fun p lane count s hp hl hg hc => ?_,
    fun p s hp hl hg => ?_, fun p s hp hl hg => ?_, fun p s hp hl hg => ?_, fun p on errs checked s hp hl hg => ?_,
    fun p lane count s hp hl hg => ?_⟩
  · rw [exec_portEnable, State.portWrite_reaches hp hl _ hg]
    exact congrArg _ (if_pos ((s.portState_setFlag_ctrl p 0 true).trans h))
  · rw [exec_portEnable, State.portWrite_reaches hp hl _ hg, State.enablePort_of_not_disabled h]
  · rw [exec_portDisable, State.portWrite_reaches hp hl _ hg]
    exact congrArg _ (if_neg ((s.portState_setFlag_ctrl p 0 false).trans_ne h))
  · rw [exec_portDisable, State.portWrite_reaches hp hl _ hg, State.disablePort_of_disabled h]
  · rw [exec_prtCtrlRetrain, State.portWrite_reaches hp hl _ hg, State.writeRetrain_taken h0 h9, if_neg h10]
  · rw [exec_prtCtrlRetrain, State.portWrite_reaches hp hl _ hg, State.writeRetrain_taken (by omega) (by omega), if_pos h]
  · rw [exec_prtCtrlRetrain, State.portWrite_reaches hp hl _ hg, State.writeRetrain_ignored h]
  · rw [exec_testEn, State.portWrite_reaches hp hl _ hg, State.testMode_outside_test _ _ _ (by omega), if_pos ⟨rfl, h⟩]
  · rw [exec_testEn, State.portWrite_reaches hp hl _ hg, State.testMode_in_test _ _ _ h, if_pos rfl]
  · rw [exec_testEn, State.portWrite_reaches hp hl _ hg, State.testMode_in_test _ _ _ h, if_neg Bool.false_ne_true]
  · have hstay : ¬ (on = true ∧ s.portState p = 5) := fun ⟨hon, h5⟩ =>
      h.elim (fun hoff => Bool.false_ne_true (hoff.symm.trans hon)) (fun h5' => h5' h5)
    rw [exec_testEn, State.portWrite_reaches hp hl _ hg, State.testMode_outside_test _ _ _ h9, if_neg hstay]
  · rw [exec_prtSlip, State.portWrite_reaches hp hl _ hg, State.writeSlip_in_align hc h]
  · rw [exec_prtSlip, State.portWrite_reaches hp hl _ hg, State.writeSlip_rejected hc h]
  · rw [exec_prtSlip, State.portWrite_reaches hp hl _ hg, State.writeSlip_zero hc]
  · rw [exec_portEnable, State.portWrite_gated hp hl _ hg]
  · rw [exec_portDisable, State.portWrite_gated hp hl _ hg]
  · rw [exec_prtCtrlRetrain, State.portWrite_gated hp hl _ hg]
  · rw [exec_testEn, State.portWrite_gated hp hl _ hg]
  · rw [exec_prtSlip, State.portWrite_gated hp hl _ hg]

/-- Settles O11: each clause meets the guard of its command. -/
theorem laneEventsComplete : Obligations.LaneEventsComplete :=
  ⟨fun _ _ s hk hl hen => done_ite_of ⟨hk, hl, hen⟩ s _,
    fun _ _ s hp hm => done_ite_of ⟨hp, hm⟩ s _,
    fun _ _ _ s hp hm hl hst => done_ite_of ⟨hp, hm, hl, hst⟩ s _,
    fun _ _ s hp hm hl hsd => done_ite_of ⟨hp, hm, hl, hsd⟩ s _,
    fun _ _ s hp hm hl hst => done_ite_of ⟨hp, hm, hl, hst⟩ s _,
    fun _ s hk hl hho hup => done_ite_of ⟨hk, hl, hho, hup⟩ s _,
    fun _ s hk hl hho h0 h1 => done_ite_of ⟨hk, hl, hho, ne_true_of_eq_false h0, ne_true_of_eq_false h1⟩ s _⟩

/-- Settles O12: each clause meets the guard of its command. -/
theorem trainingAndMarkerEventsComplete : Obligations.TrainingAndMarkerEventsComplete :=
  ⟨fun _ _ s hp hl htr => done_ite_of ⟨hp, hl, htr⟩ s _,
    fun _ _ s hp hl => done_ite_of ⟨hp, hl⟩ s _,
    fun _ _ _ _ _ _ s hp hm hl hst hlane => done_ite_of ⟨hp, hm, hl, hst, List.contains_iff_mem.mpr hlane⟩ s _,
    fun _ s hp hl hst hreq hmasks => done_ite_of ⟨hp, hl, hst, hreq, ne_true_of_eq_false hmasks⟩ s _,
    fun _ s hp hl hsend => done_ite_of ⟨hp, hl, hsend⟩ s _,
    fun _ s hp hl hlo hhi hdrop hreq => done_ite_of ⟨hp, hl, hlo, hhi, hdrop, hreq⟩ s _,
    fun _ s hp hl _ hal => done_ite_of ⟨hp, hl, hal⟩ s _⟩

end Sys2Proof.Machine
end

section
/-! The obligations of spec/03_link_layer.md: what the commands of the link layer do in the states of their rules, how a memory
request that passes every check goes on, and the values that the atomics store. -/

namespace Sys2Proof.Machine

/-! ### Bytes as numbers (R107) -/

@[simp] theorem length_slice (l : List Nat) (i n : Nat) : (slice l i n).length = n := by
  simp only [slice, List.length_append, List.length_replicate, List.length_take]
  omega

/-- A slice holds bytes of the list and zeros. -/
theorem slice_lt {l : List Nat} {c : Nat} (hc : 0 < c) (h : ∀ b ∈ l, b < c) (i n : Nat) : ∀ b ∈ slice l i n, b < c := by
  intro b hb
  rcases List.mem_append.mp hb with hb | hb
  · exact h b (List.mem_of_mem_drop (List.mem_of_mem_take hb))
  · exact (List.eq_of_mem_replicate hb).symm ▸ hc

theorem ofLe_eq_ofDigits (l : List Nat) : ofLe l = Nat.ofDigits 256 l := by
  rw [Nat.ofDigits_eq_foldr, ofLe, ofBe, List.foldl_reverse]
  congr
  funext b a
  exact (Nat.add_comm _ _).trans (congrArg (b + ·) (Nat.mul_comm a 256))

theorem ofLe_slice_lt {d : List Nat} (hd : ∀ b ∈ d, b < 256) (i n : Nat) : ofLe (slice d i n) < 256 ^ n := by
  have h := Nat.ofDigits_lt_base_pow_length (b := 256) (by decide) (slice_lt (by decide) hd i n)
  rwa [length_slice, ← ofLe_eq_ofDigits] at h

/-- The operand that bytes spell fits its width, so that the word of that width holds it whole. -/
theorem toNat_ofLe_slice {d : List Nat} (hd : ∀ b ∈ d, b < 256) (i n : Nat) :
    (BitVec.ofNat (8 * n) (ofLe (slice d i n))).toNat = ofLe (slice d i n) := by
  refine (BitVec.toNat_ofNat _ _).trans (Nat.mod_eq_of_lt ?_)
  rw [Nat.pow_mul]
  exact ofLe_slice_lt hd i n

theorem signed_toNat (x : BitVec 64) : signed 64 x.toNat = x.toInt := by
  rw [BitVec.toInt_eq_toNat_cond, signed]
  exact ite_congr (propext (by omega)) (fun _ => rfl) (fun _ => rfl)

/-! ### The sub-ops of Table 8.5 -/

section
variable (old : Nat) (d : List Nat)

theorem atomNew_add : atomNew 0x01 old d = (old + ofLe (slice d 0 8)) % 2 ^ 64 := rfl

theorem atomNew_swap : atomNew 0x02 old d = ofLe (slice d 0 8) := rfl

theorem atomNew_cas : atomNew 0x03 old d = if old = ofLe (slice d 8 8) then ofLe (slice d 0 8) else old := rfl

theorem atomNew_smin : atomNew 0x04 old d =
    if decide (signed 64 old < signed 64 (ofLe (slice d 0 8))) then old else ofLe (slice d 0 8) := rfl

theorem atomNew_smax : atomNew 0x05 old d =
    if decide (signed 64 old < signed 64 (ofLe (slice d 0 8))) then ofLe (slice d 0 8) else old := rfl

theorem atomNew_umin : atomNew 0x06 old d = min old (ofLe (slice d 0 8)) := rfl

theorem atomNew_umax : atomNew 0x07 old d = max old (ofLe (slice d 0 8)) := rfl

theorem atomNew_or : atomNew 0x08 old d = old ||| ofLe (slice d 0 8) := rfl

theorem atomNew_and : atomNew 0x09 old d = old &&& ofLe (slice d 0 8) := rfl

theorem atomNew_xor : atomNew 0x0A old d = old ^^^ ofLe (slice d 0 8) := rfl

theorem atomNew_cas128 : atomNew 0x11 old d = if old = ofLe (slice d 16 16) then ofLe (slice d 0 16) else old := rfl

theorem atomNew_swap128 : atomNew 0x12 old d = ofLe (slice d 0 16) := rfl

end

/-- A comparison of words and the same comparison of their numbers choose alike. -/
theorem toNat_ite {w : Nat} {p q : Prop} [Decidable p] [Decidable q] (h : p ↔ q) (x y : BitVec w) :
    (if p then x.toNat else y.toNat) = (if q then x else y).toNat := by
  rw [apply_ite BitVec.toNat]
  exact if_congr h rfl rfl

/-- The order that SMIN and SMAX compare by is the one of two's complement. -/
theorem decide_signed_lt_iff_slt (x y : BitVec 64) : decide (signed 64 x.toNat < signed 64 y.toNat) = true ↔ x.slt y = true := by
  rw [decide_eq_true_iff, signed_toNat, signed_toNat, BitVec.slt_iff_toInt_lt]

/-! ### Requests at decode (R97, R109, R110, R111, R116) -/

/-- The entry that a request has is its own. -/
theorem State.req_of_entryOf {s u : State} {r : Req} {t : Txn} (h : s.entryOf r = some (u, t)) : t.req = r := by
  unfold State.entryOf at h
  split at h
  next x hfind =>
    split at h
    · cases h
    · cases h
      have hx := List.find?_some hfind
      exact (of_decide_eq_true hx).2
  next =>
    split at h
    · cases h
      rfl
    · cases h

/-- A request that has its entry and the right stack ID goes on as its opcode says. -/
theorem State.request_taken {s u : State} {r : Req} {t : Txn} (hp : isPort r.port = true) (hl : s.live = true)
    (he : s.entryOf r = some (u, t)) (hs : u.sidWrong r = false) (f : State → Txn → State) : s.request r f = f u t := by
  unfold State.request
  rw [if_neg (not_not_intro ⟨hp, hl⟩), he]
  exact if_neg (ne_true_of_eq_false hs)

theorem State.memRequest_passes {s u : State} {r : Req} {t : Txn} {op : Nat} (h : s.passes { r with opcode := op } u t) :
    s.memRequest op r = u.checkTxn t := by
  obtain ⟨hp, hl, he, hs, -⟩ := h
  exact State.request_taken hp hl he hs _

/-- The stage after the last check of Table 3.14, for a request that names lines of memory: SCAN has no lines to map. -/
theorem State.checkTxn_passes {s u : State} {r : Req} {t : Txn} {op : Nat} (hop : op ≠ 0x40)
    (h : s.passes { r with opcode := op } u t) :
    u.checkTxn t =
      let m := u.mapFenced { r with opcode := op }
      let t := { t with cls := u.classOf r.reqId, lines := m.2 }
      if m.2.any LineRes.isOpen then m.1.tryAdmit t else m.1.endTxn t (m.1.completion t) := by
  obtain ⟨-, -, he, -, hform, hrange, hclass, hguard⟩ := h
  unfold State.checkTxn
  simp only [State.req_of_entryOf he, hform, hrange, hclass, hguard, hop, Bool.not_true, Bool.false_eq_true, if_false]

/-! ### MGMT slots (R112, R118, R546) -/

section
variable {r : Req} {s : State} (hp : isPort r.port = true) (hl : s.live = true)
include hp hl

theorem exec_mgmt_arriving (h0 : r.pos = 0) (hrx : (s.link r.port).rx.find? RxUnit.isMgmt = none) (hq : s.queuedFrom r.port < 8) :
    exec (.mgmt r) s = .next (s.deliverMgmt r s.now) := by
  change execMgmt r s = _
  rw [execMgmt, if_neg (not_not_intro ⟨hp, hl⟩), if_neg (not_not_intro h0)]
  dsimp only
  rw [hrx]
  exact done_ite_of hq s _

theorem exec_mgmt_buffered {u : RxUnit} (h0 : r.pos = 0) (hrx : (s.link r.port).rx.find? RxUnit.isMgmt = some u)
    (hr : u.reqs.any (fun x => x.req = r) = true) (hm : s.mayLeave r.port u = true) :
    exec (.mgmt r) s = .next (s.releaseUnit r.port u) := by
  change execMgmt r s = _
  rw [execMgmt, if_neg (not_not_intro ⟨hp, hl⟩), if_neg (not_not_intro h0)]
  dsimp only
  rw [hrx]
  exact done_ite_of ⟨hr, hm⟩ s _

/-- In a position past the first a MGMT is no packet, but a request that check 2 answers. -/
theorem exec_mgmt_misplaced {u : State} {t : Txn} (h0 : r.pos ≠ 0) (he : s.entryOf { r with opcode := 0x68 } = some (u, t))
    (hsid : u.sidWrong { r with opcode := 0x68 } = false) : exec (.mgmt r) s = .next (u.checkTxn t) := by
  change execMgmt r s = _
  rw [execMgmt, if_neg (not_not_intro ⟨hp, hl⟩), if_pos h0, State.request_taken (by exact hp) hl he hsid, done]

end

theorem exec_slotRelease_next {p : Nat} {u : RxUnit} {s : State} (hp : isPort p = true) (hl : s.live = true)
    (hu : s.nextUnit p = some u) : exec (.slotRelease p) s = .next (s.releaseUnit p u) := by
  change execSlotRelease p s = _
  rw [execSlotRelease, if_pos ⟨hp, hl⟩, hu, done]

/-! ### The obligations -/

/-- Settles O54: each sub-op's equation, with the operand and the compare value read as words of its width. -/
theorem atomicsFollowTable85 : Obligations.AtomicsFollowTable85 := by
  intro old d hd op cmp
  have hop : ofLe (slice d 0 8) = op.toNat := (toNat_ofLe_slice hd 0 8).symm
  have hcmp : ofLe (slice d 8 8) = cmp.toNat := (toNat_ofLe_slice hd 8 8).symm
  refine ⟨?_, ?_, ?_, ?_, ?_, ?_, ?_, ?_, ?_, ?_, fun wide => ?_, fun wide => ?_⟩
  · rw [atomNew_add, hop, BitVec.toNat_add]
  · rw [atomNew_swap, hop]
  · rw [atomNew_cas, hop, hcmp, toNat_ite BitVec.toNat_inj]
  · rw [atomNew_smin, hop, toNat_ite (decide_signed_lt_iff_slt old op)]
  · rw [atomNew_smax, hop, toNat_ite (decide_signed_lt_iff_slt old op)]
  · rw [atomNew_umin, hop, min_def_lt, toNat_ite (BitVec.ult_iff_toNat_lt (x := old) (y := op)).symm]
  · rw [atomNew_umax, hop, max_def_lt, toNat_ite (BitVec.ult_iff_toNat_lt (x := old) (y := op)).symm]
  · rw [atomNew_or, hop, BitVec.toNat_or]
  · rw [atomNew_and, hop, BitVec.toNat_and]
  · rw [atomNew_xor, hop, BitVec.toNat_xor]
  · rw [atomNew_cas128, ← toNat_ite BitVec.toNat_inj, toNat_ofLe_slice hd 0 16, toNat_ofLe_slice hd 16 16]
  · rw [atomNew_swap128, toNat_ofLe_slice hd 0 16]

/-- Settles O13: each clause meets the guard of its command. -/
theorem linkCommandsComplete : Obligations.LinkCommandsComplete :=
  ⟨fun _ _ s hp hl hrun => done_ite_of ⟨hp, hl, hrun⟩ s _,
    fun p s hp hl hst hwait hdrop => done_ite_of ⟨hp, hl, hst, hwait, hdrop⟩ s (s.sendNak p),
    fun _ s hp hl hst hreplay hsus => done_ite_of ⟨hp, hl, hst, hreplay, hsus⟩ s _,
    fun _ s hp hl hst => done_ite_of ⟨hp, hl, hst⟩ s _,
    fun _ _ _ hp hl hu => exec_slotRelease_next hp hl hu,
    fun _ s hp hl hst => done_ite_of ⟨hp, hl, hst⟩ s _,
    fun _ _ hp hl h0 hrx hq => exec_mgmt_arriving hp hl h0 hrx hq,
    fun _ _ _ hp hl h0 hrx hr hm => exec_mgmt_buffered hp hl h0 hrx hr hm,
    fun _ _ _ _ hp hl h0 he hsid => exec_mgmt_misplaced hp hl h0 he hsid,
    fun s hl => done_ite_of hl s _⟩

/-- Settles O14: the six commands are one request with six opcodes, none of them SCAN's. -/
theorem requestsThatPassTheChecksAreMapped : Obligations.RequestsThatPassTheChecksAreMapped :=
  ⟨fun _ _ _ _ h => congrArg done ((State.memRequest_passes h).trans (State.checkTxn_passes (by decide) h)),
    fun _ _ _ _ h => congrArg done ((State.memRequest_passes h).trans (State.checkTxn_passes (by decide) h)),
    fun _ _ _ _ h => congrArg done ((State.memRequest_passes h).trans (State.checkTxn_passes (by decide) h)),
    fun _ _ _ _ h => congrArg done ((State.memRequest_passes h).trans (State.checkTxn_passes (by decide) h)),
    fun _ _ _ _ h => congrArg done ((State.memRequest_passes h).trans (State.checkTxn_passes (by decide) h)),
    fun _ _ _ _ h => congrArg done ((State.memRequest_passes h).trans (State.checkTxn_passes (by decide) h))⟩

end Sys2Proof.Machine
end

section
/-! The obligations of spec/04_command_interface.md: the step, the checks and the kept response of the interpreter, the queries of
the device, register access by packet, and the commit and the quiesce of the configuration. -/

namespace Sys2Proof.Machine

open Sys2Proof.Reg

/-! ### The start of a packet that firmware serves (R134, R137) -/

/-- A wake source changes nothing of what the start of a packet looks at. -/
theorem State.wakeEvent_start (s : State) (code port : Nat) (q : QPacket) :
    (s.wakeEvent code port).tripped = s.tripped ∧ (s.wakeEvent code port).pwr = s.pwr ∧
      (s.wakeEvent code port).fwRuns = s.fwRuns ∧ (s.wakeEvent code port).mayStart q = s.mayStart q := by
  obtain ⟨w, hw⟩ := s.wakeEvent_eq code port
  rw [hw]
  exact ⟨rfl, rfl, rfl, rfl⟩

theorem State.begun_lastTw (s : State) (op : Nat) (h : Halyard) : (s.begun op h).mgc.lastTw = s.mgc.lastTw := by
  obtain ⟨_, _, _, _, _, e⟩ := s.begun_eq op h
  rw [e]

/-- Whether a packet is a repeat depends on the kept response alone. -/
theorem State.isRepeat_congr {s t : State} (e : t.mgc.lastTw = s.mgc.lastTw) (q : QPacket) : t.isRepeat q = s.isRepeat q := by
  unfold State.isRepeat
  rw [e]

theorem State.naps_of_sail {s : State} (h : s.pwr = 0) : s.naps = false := by
  unfold State.naps
  rw [h]
  rfl

/-- A repeat is answered with the kept response (R137). -/
theorem State.packet_repeated {s : State} {op : Nat} {h : Halyard} (k : s.serves h) (hm : s.mayStart ⟨op, h⟩ = true)
    (hr : s.isRepeat ⟨op, h⟩ = true) (len : List Nat → Option Nat) (f : State → Bool → State) :
    s.packet op h len f = (s.begun op h).repeatReply := by
  obtain ⟨hfw, hpwr, htrip⟩ := k
  obtain ⟨etrip, epwr, efw, emay⟩ := s.wakeEvent_start (if h.src = .twoWire then 7 else 6) 0 ⟨op, h⟩
  have hrep : (s.begun op h).isRepeat ⟨op, h⟩ = true := (State.isRepeat_congr (s.begun_lastTw op h) _).trans hr
  unfold State.packet
  dsimp only
  rw [etrip, efw, emay, State.naps_of_sail (epwr.trans hpwr), if_neg (fun a => a.2 (htrip a.1)), if_neg Bool.false_ne_true,
    if_pos hfw, if_neg (not_not_intro hm)]
  exact if_pos hrep

/-- The answer of a packet that firmware takes is what its opcode makes of the state in which its effect begins. -/
theorem done_packet_takes {s t : State} {op : Nat} {h : Halyard} {len : List Nat → Option Nat} {f : State → Bool → State}
    (k : s.takes op h len) (e : f (s.begun op h) false = t) : done (s.packet op h len f) = .next t :=
  congrArg done ((State.packet_takes k f).trans e)

/-! ### Responses (R133, R137) -/

section
variable (s : State) (op st i id : Nat) {h : Halyard} (words : List Nat)

theorem State.respond_twoWire (hsrc : h.src = .twoWire) : s.respond op h st i id words =
    { s with mgc := { s.mgc with lastTw := some (⟨op, h⟩, respBytes op h st i id words) }
             twb := { s.twb with unread := true, respNew := true } } := by
  unfold State.respond
  rw [hsrc]

/-- A response in-band leaves what the management controller holds as it was. -/
theorem State.mgc_respond_inband {port reqId tag : Nat} {arrivalOnly : Bool} (hsrc : h.src = .inband port reqId tag arrivalOnly) :
    (s.respond op h st i id words).mgc = s.mgc := by
  unfold State.respond
  rw [hsrc]
  exact (s.answer_keeps _ (Sub.refl _)).rest .mgc rfl

end

/-- The kept response stands, and can be read again. -/
theorem State.repeatReply_kept (s : State) : s.repeatReply.mgc = s.mgc ∧ s.repeatReply.twb.unread = true := by
  have k := State.int_keeps { s with twb := { s.twb with unread := true, respNew := true } } I.mgc 1 (Sub.refl _)
  exact ⟨k.rest .mgc rfl, congrArg TwbSt.unread (k.rest .twb rfl)⟩

/-- No packet in-band is a repeat. -/
theorem State.isRepeat_inband (s : State) (op : Nat) {h : Halyard} {port reqId tag : Nat} {arrivalOnly : Bool}
    (hsrc : h.src = .inband port reqId tag arrivalOnly) : s.isRepeat ⟨op, h⟩ = false := by
  unfold State.isRepeat
  dsimp only
  rw [hsrc]

theorem State.isRepeat_twoWire {s : State} {op : Nat} {h old : Halyard} {b : List Nat} (hsrc : h.src = .twoWire)
    (hk : s.mgc.lastTw = some (⟨op, old⟩, b)) (hseq : old.seq = h.seq) (hlen : old.len = h.len)
    (hpay : old.payload = h.payload) : s.isRepeat ⟨op, h⟩ = true := by
  unfold State.isRepeat
  simp only [hsrc, hk, hseq, hlen, hpay, decide_true, Bool.and_self]

/-! ### The checks of Table 4.15, in their order -/

section
variable {s : State} {op : Nat} {h : Halyard} {len : List Nat → Option Nat}

theorem State.packetCheck_badLength (hb : badLength h = true) : s.packetCheck op h len = some (St.badParam, 0) := if_pos hb

variable (hb : badLength h = false)
include hb

theorem State.packetCheck_len {i : Nat} (ha : assignedOps.contains op = true) (hl : len h.payload = some i) :
    s.packetCheck op h len = some (St.badParam, i) := by
  unfold State.packetCheck
  rw [hb, if_neg Bool.false_ne_true, if_pos ha, hl]

/-- Past the check of LEN: FLAGS bit 7, the opcode and the state of the part. -/
theorem State.packetCheck_past_len (hl : assignedOps.contains op = false ∨ len h.payload = none) :
    s.packetCheck op h len =
      if bitAt h.flags 7 then some (St.badParam, 0)
      else if s.noOpcode op then some (St.badOpcode, 0)
      else if 0xFE ≤ op ∧ ¬ s.otp.vtm then some (St.denied, 0)
      else if s.srcDenied op h then some (St.denied, 0)
      else if s.devState = 0 ∧ ¬ (op ≤ 0x1F ∨ (0x60 ≤ op ∧ op ≤ 0x6F)) then some (St.notInState, 0)
      else if 0x70 ≤ op ∧ op ≤ 0x73 ∧ bitAt (s.fget CLK.GATE_STAT_GATED) 8 then some (St.notInState, 0)
      else if op = 0x80 ∧ bitAt (s.fget CLK.GATE_STAT_GATED) 9 then some (St.notInState, 0)
      else none := by
  have hnone : (if assignedOps.contains op then len h.payload else none) = none := by
    rcases hl with ha | hl
    · rw [ha, if_neg Bool.false_ne_true]
    · rw [hl, ite_self]
  unfold State.packetCheck
  rw [hb, if_neg Bool.false_ne_true, hnone]

end

/-! ### Pending operations in the order of their PEND_ID (R142) -/

theorem insertOp_ne_nil (o : PendOp) (l : List PendOp) : insertOp o l ≠ [] := by
  cases l with
  | nil => exact List.cons_ne_nil _ _
  | cons x r =>
    unfold insertOp
    split
    · exact List.cons_ne_nil _ _
    · exact List.cons_ne_nil _ _

theorem foldr_insertOp_ne_nil {l : List PendOp} (h : l ≠ []) : l.foldr insertOp [] ≠ [] := by
  cases l with
  | nil => exact absurd rfl h
  | cons o r => exact insertOp_ne_nil o _

theorem exec_pendingStatus_found {h : Halyard} {s : State} (k : s.takes 0x04 h (fixedLen 1))
    (hid : arg h 0 = 0xFFFF ∨ s.mgc.ops.any (fun o => o.id = arg h 0) = true) : exec (.pendingStatus h) s = .next (
      let said := fun (o : PendOp) => decide (arg h 0 = 0xFFFF) || decide (o.id = arg h 0)
      let b := s.begun 0x04 h
      let u : State := { b with mgc := { b.mgc with ops := s.mgc.ops.filter (fun o => !(said o && decide (o.state = 2))) } }
      u.replyOk 0x04 h (((s.mgc.ops.filter said).foldr insertOp []).flatMap PendOp.words)) := by
  refine done_packet_takes k ?_
  dsimp only
  rw [State.begun_mgc_ops]
  refine if_neg fun ⟨hne, hnil⟩ => ?_
  obtain ⟨o, ho, he⟩ := List.any_eq_true.mp (hid.resolve_left hne)
  refine foldr_insertOp_ne_nil (List.ne_nil_of_mem (List.mem_filter.mpr ⟨ho, ?_⟩)) hnil
  exact Bool.or_eq_true_iff.mpr (.inr he)

/-! ### Register access by packet (R143 to R147) -/

section
variable {h : Halyard} {obs : WriteObs} {s : State}

theorem exec_regWrite_inRange (ht : s.takes 0x11 h regWriteLen) (hr : rangeFault h 56 = none) : exec (.regWrite h obs) s = .next (
    if (List.range (countOf h)).any (fun k => owned (arg h 0 + 4 * k)) then (s.begun 0x11 h).replySt 0x11 h St.denied
    else ((List.range (countOf h)).foldl (fun (u : State) k => u.writeReg (arg h 0 + 4 * k) (arg h (2 + k)) (nth obs.setNow k)
      obs.xfer) (s.begun 0x11 h)).replyOk 0x11 h []) :=
  done_packet_takes ht (by dsimp only; rw [hr])

theorem exec_regRmw_assigned {r : RegRow} (ht : s.takes 0x12 h (fixedLen 3)) (ha : arg h 0 < 2 ^ 24) (hr : regRow (arg h 0) = some r) :
    exec (.regRmw h obs) s = .next (
      if r.owned then (s.begun 0x12 h).replySt 0x12 h St.denied
      else
        let x := (s.begun 0x12 h).readReg (arg h 0)
        let y := (x.1.writeReg (arg h 0) (rmwWord r x.2 (arg h 1) (arg h 2)) (nth obs.setNow 0) obs.xfer).readReg (arg h 0)
        y.1.replyOk 0x12 h [x.2, y.2]) :=
  done_packet_takes ht (by dsimp only; rw [if_pos ha, hr])

end

/-- A register that firmware owns is an assigned one. -/
theorem exists_row_of_owned {a : Nat} (h : owned a = true) : ∃ r, regRow a = some r ∧ r.owned = true := by
  unfold owned at h
  cases hr : regRow a with
  | none => rw [hr] at h; exact absurd h Bool.false_ne_true
  | some r => rw [hr] at h; exact ⟨r, rfl, h⟩

/-! ### Commit (Table 4.12, R150 to R153) -/

/-- A commit that no check of Table 4.12 turns away goes on. -/
theorem exec_commit_starts {h : Halyard} {s : State} (ht : s.takes 0x38 h (fixedLen 1)) (ho : s.stageOwned = true)
    (hown : s.ownsStage h = true) (h0 : bits (arg h 0) 0 5 ≠ 0)
    (hdirty : bits (arg h 0) 0 5 &&& s.fget MGC.COMMIT_STAGE_DIRTY = bits (arg h 0) 0 5) (hsail : s.inSail = true)
    (hentry : s.pw.entry = none) (hslot : s.pw.slot = none) (hc : s.mgc.commit = none)
    (hq : bitAt (bits (arg h 0) 0 5) 2 = true → s.fget MGC.QUIESCE_PORTS = 0xFF)
    (hf : s.stagedFault (bits (arg h 0) 0 5) = none) :
    exec (.commit h) s = .next ((s.begun 0x38 h).startCommit h (bits (arg h 0) 0 5)) := by
  refine done_packet_takes ht ?_
  have hpower : ¬ (¬ s.inSail = true ∨ s.pw.entry.isSome = true ∨ s.pw.slot.isSome = true) := by simp [hsail, hentry, hslot]
  have hidle : ¬ s.mgc.commit.isSome = true := by simp [hc]
  simp only [State.begun_stageOwned, State.begun_ownsStage, State.begun_fget, State.begun_inSail, State.begun_pw_entry,
    State.begun_pw_slot, State.begun_mgc_commit, State.begun_stagedFault]
  rw [if_neg (not_not_intro ho), if_neg (not_not_intro hown), if_neg (not_or.mpr ⟨h0, not_not_intro hdirty⟩), if_neg hpower,
    if_neg hidle, if_neg (fun a => a.2 (hq a.1)), hf]

/-- A commit that nothing holds is applied. -/
theorem exec_commitApplied_ready {c : CommitSt} {s : State} (hm : s.mclk = true) (hc : s.commitStep.mgc.commit = some c)
    (hm' : s.commitStep.mclk = true) (hflush : c.flushing = false) (hheld : c.held = false)
    (hrelay : s.commitStep.stk.relay = none) : exec .commitApplied s = .next (s.commitStep.applyCommit c) := by
  change execCommitApplied s = _
  unfold execCommitApplied
  rw [if_pos hm]
  dsimp only
  rw [hc]
  refine done_ite_of ⟨hm', ne_true_of_eq_false hflush, ne_true_of_eq_false hheld, ?_⟩ _ _
  rw [hrelay]
  rfl

theorem exec_discard_owned {h : Halyard} {s : State} (ht : s.takes 0x39 h (fixedLen 0)) (ho : s.stageOwned = true)
    (hown : s.ownsStage h = true) (hc : s.mgc.commit = none) :
    exec (.discard h) s = .next ((s.begun 0x39 h).dropStaging.replyOk 0x39 h []) := by
  refine done_packet_takes ht ?_
  have hmay : ¬ (¬ s.ownsStage h = true ∨ s.mgc.commit.isSome = true) := by simp [hown, hc]
  simp only [State.begun_stageOwned, State.begun_ownsStage, State.begun_mgc_commit]
  rw [if_neg (not_not_intro ho), if_neg hmay]

/-! ### QUIESCE and the two table queries (R155, R156, R198) -/

theorem exec_quiesceTimeout_oldest {q : QuiesceSt} {rest : List QuiesceSt} {s : State} (hm : s.mclk = true)
    (hq : s.mgc.quiesce = q :: rest) : exec .quiesceTimeout s =
      .next (State.replySt { s with mgc := { s.mgc with quiesce := rest } } 0x3A q.pkt St.timeout) := by
  change execQuiesceTimeout s = _
  unfold execQuiesceTimeout
  rw [hq]
  exact done_ite_of hm _ _

theorem exec_unquiesce_of_mapCommits {h : Halyard} {s : State} (hc : s.mapCommits = true) :
    exec (.unquiesce h) s = .next (s.holdPacket ⟨0x3B, h⟩) := done_ite_of hc _ _

theorem exec_unquiesce_of_not_mapCommits {h : Halyard} {s : State} (ht : s.takes 0x3B h (fixedLen 1)) (hc : s.mapCommits = false) :
    exec (.unquiesce h) s = .next (
      let u := (s.begun 0x3B h).fset MGC.QUIESCE_PORTS (s.fget MGC.QUIESCE_PORTS - (s.fget MGC.QUIESCE_PORTS &&& bits (arg h 0) 0 8))
      let v : State := { u with mgc := { u.mgc with paused := false } }
      v.replyOk 0x3B h []) := by
  change execUnquiesce h s = _
  unfold execUnquiesce
  rw [hc, if_neg Bool.false_ne_true]
  refine done_packet_takes ht ?_
  simp only [State.begun_fget]

theorem exec_quiesce_sail {h : Halyard} {s : State} (ht : s.takes 0x3A h (fixedLen 1)) (hs : s.inSail = true) :
    exec (.quiesce h) s = .next (
      let u := (s.begun 0x3A h).fset MGC.QUIESCE_PORTS (s.fget MGC.QUIESCE_PORTS ||| bits (arg h 0) 0 8)
      State.quiesceDone
        { u with mgc := { u.mgc with
            paused := s.mgc.paused || decide (bits (arg h 0) 0 8 = 0xFF), quiesce := s.mgc.quiesce ++ [⟨bits (arg h 0) 0 8, h⟩] } }) := by
  refine done_packet_takes ht ?_
  simp only [State.begun_inSail, State.begun_fget, State.fset_mgc, State.begun_mgc_paused, State.begun_mgc_quiesce]
  exact if_neg (not_not_intro hs)

/-- TABLE_READ of entries that the area has. -/
theorem exec_tableRead_inRange {h : Halyard} {s : State} (ht : s.takes 0x3D h (fixedLen 2)) (harea : bits (arg h 0) 24 8 ≤ 4)
    (hres : bits (arg h 0) 16 8 = 0) (hfirst : bits (arg h 0) 0 16 < (areaSize (bits (arg h 0) 24 8)).1) (hpos : 0 < arg h 1)
    (hmost : arg h 1 ≤ 57) (hwhole : arg h 1 % (areaSize (bits (arg h 0) 24 8)).2 = 0)
    (hlast : bits (arg h 0) 0 16 + arg h 1 / (areaSize (bits (arg h 0) 24 8)).2 ≤ (areaSize (bits (arg h 0) 24 8)).1) :
    exec (.tableRead h) s = .next ((s.begun 0x3D h).replyOk 0x3D h
      ((List.range (arg h 1 / (areaSize (bits (arg h 0) 24 8)).2)).flatMap
        (fun i => (s.begun 0x3D h).tableEntry (bits (arg h 0) 24 8) (bits (arg h 0) 0 16 + i)))) := by
  refine done_packet_takes ht ?_
  dsimp only
  rw [if_neg (by omega), if_neg (by omega)]

/-! ### The obligations -/

/-- Settles O6: the law of each command names the state that it answers. -/
theorem everyCommandAnswersANextState : Obligations.EveryCommandAnswersANextState := by
  intro c s
  obtain ⟨t, ht, -⟩ := exec_keeps c s
  exact ⟨t, ht⟩

/-- Settles O46: the check of the owned registers stands before the first write. -/
theorem ownedRegistersAreDenied : Obligations.OwnedRegistersAreDenied := by
  refine ⟨fun h o n s k hr hn ho => ⟨?_, s.begun_regs 0x11 h⟩, fun h o s k ha ho => ⟨?_, s.begun_regs 0x12 h⟩⟩
  · rw [exec_regWrite_inRange k hr, if_pos (List.any_eq_true.mpr ⟨n, List.mem_range.mpr hn, ho⟩)]
  · obtain ⟨r, hrow, howned⟩ := exists_row_of_owned ho
    rw [exec_regRmw_assigned k ha hrow, if_pos howned]

/-- Settles O51: each clause is one test of the chain, under the failing of those before it. -/
theorem packetsAreAnsweredByTheFirstFailedCheck : Obligations.PacketsAreAnsweredByTheFirstFailedCheck := by
  refine ⟨fun op h len st i f s k hm hr hc => State.packet_refused k hm hr hc f, fun op h len s =>
    ⟨State.packetCheck_badLength, fun hb i => State.packetCheck_len hb, fun hb hl => ?_, fun hb hl h7 hop => ?_⟩⟩
  · rw [State.packetCheck_past_len hb hl]
    exact ⟨fun h7 => if_pos h7, fun h7 hop => by rw [h7, if_neg Bool.false_ne_true, if_pos hop]⟩
  · rw [State.packetCheck_past_len hb (.inr hl), h7, hop, if_neg Bool.false_ne_true, if_neg Bool.false_ne_true]
    have hpast : op < 0xFE ∨ s.otp.vtm = true → ¬ (0xFE ≤ op ∧ ¬ s.otp.vtm) := fun hv ⟨hle, hn⟩ =>
      hv.elim (fun hlt => absurd hle (Nat.not_le.mpr hlt)) hn
    refine ⟨fun hle hv => if_pos ⟨hle, ne_true_of_eq_false hv⟩, fun hv hd => ?_, fun hv hd hdev hlo hhi => ?_,
      fun hv hd hdev hg => ?_⟩
    · rw [if_neg (hpast hv), if_pos hd]
    · rw [if_neg (hpast hv), hd, if_neg Bool.false_ne_true, if_pos ⟨hdev, by omega⟩]
    · rw [if_neg (hpast hv), hd, if_neg Bool.false_ne_true, if_neg (fun a => hdev a.1)]
      rcases hg with hscan | hcal
      · rw [if_pos hscan]
      · rw [if_pos hcal, ite_self]

/-- Settles O52: a repeat is seen before the checks, and only a response over two-wire is kept. -/
theorem repeatedTwoWirePacketsAreNotExecuted : Obligations.RepeatedTwoWirePacketsAreNotExecuted := by
  refine ⟨fun op h old b len f s k hm hsrc hk hseq hlen hpay => ?_, fun op st i id h words s hsrc => ?_,
    fun op st i id port reqId tag arrivalOnly h words s hsrc => ?_⟩
  · obtain ⟨hmgc, hunread⟩ := (s.begun op h).repeatReply_kept
    refine ⟨State.packet_repeated k hm (State.isRepeat_twoWire hsrc hk hseq hlen hpay) len f, ?_, hunread⟩
    rw [hmgc, State.begun_lastTw, hk]
  · rw [State.respond_twoWire s op st i id words hsrc]
    exact ⟨rfl, rfl, rfl⟩
  · exact ⟨congrArg MgcSt.lastTw (s.mgc_respond_inband op st i id words hsrc), s.isRepeat_inband op hsrc⟩

/-- Settles O1: the two cases are those of the queue. -/
theorem stepRunsTheFrontCommand : Obligations.StepRunsTheFrontCommand := by
  unfold Obligations.StepRunsTheFrontCommand step
  exact ⟨fun c rest s hq => by rw [hq], fun s hq => by rw [hq]⟩

/-- Settles O16: the start of the packet leaves what the queries read as it was, and PENDING_STATUS finds an entry. -/
theorem deviceQueriesAnswerOk : Obligations.DeviceQueriesAnswerOk := by
  refine ⟨fun h s k => done_packet_takes k rfl, fun h s k => done_packet_takes k rfl, fun h s k => done_packet_takes k ?_,
    fun h s => exec_pendingStatus_found, fun h s k => done_packet_takes k ?_⟩
  · simp only [State.begun_fget, State.begun_thm, State.begun_perDie]
  · simp only [State.begun_mgc_twEvq, State.begun_mgc_twLost]

/-- Settles O17: the range, the list or the register passes the opcode's own check. -/
theorem registerPacketsAnswerOk : Obligations.RegisterPacketsAnswerOk := by
  refine ⟨fun h s k hr => done_packet_takes k ?_, fun h obs s k hr ho => ?_, fun h obs r s k ha hr ho => ?_,
    fun h s k hl => done_packet_takes k ?_⟩
  · dsimp only
    rw [hr]
  · rw [exec_regWrite_inRange k hr, ho, if_neg Bool.false_ne_true]
  · rw [exec_regRmw_assigned k ha hr, ho, if_neg Bool.false_ne_true]
  · dsimp only
    rw [hl]

/-- Settles O21: none of the checks of COMMIT and DISCARD finds anything, and nothing holds the commit or the timeout. -/
theorem commitAndDiscardComplete : Obligations.CommitAndDiscardComplete :=
  ⟨fun _ _ => exec_commit_starts, fun _ _ => exec_commitApplied_ready, fun _ _ => exec_discard_owned,
    fun s hm ho hc => done_ite_of ⟨hm, ho, Option.isNone_iff_eq_none.mpr hc⟩ s _⟩

/-- Settles O22: each clause passes the check of its command. -/
theorem quiesceCommandsComplete : Obligations.QuiesceCommandsComplete :=
  ⟨fun _ _ => exec_quiesce_sail, fun s hm => done_ite_of hm s _, fun _ _ _ => exec_quiesceTimeout_oldest,
    fun _ _ => exec_unquiesce_of_not_mapCommits, fun _ _ => exec_unquiesce_of_mapCommits,
    fun _ _ ht => done_packet_takes ht rfl, fun _ _ => exec_tableRead_inRange⟩

end Sys2Proof.Machine
end

section
/-! The obligations of spec/05_address_map.md: the map of device addresses is one-to-one under every map word, and the
highest-numbered enabled window decides the rights of a line. -/

namespace Sys2Proof.Machine

open Sys2Proof.Reg

/-! ### Masks of bits -/

theorem bitAt_eq_testBit (x i : Nat) : bitAt x i = x.testBit i := by
  rw [Nat.testBit_eq_decide_div_mod_eq, ← Nat.shiftRight_eq_div_pow]
  rfl

theorem maskOf_succ (w : Nat) (f : Nat → Bool) : maskOf (w + 1) f = if f w then maskOf w f ||| 2 ^ w else maskOf w f := by
  simp [maskOf, List.range_succ, Nat.one_shiftLeft]

/-- A mask has the bits at which its predicate holds, below its width. -/
theorem testBit_maskOf (w : Nat) (f : Nat → Bool) (i : Nat) : (maskOf w f).testBit i = (decide (i < w) && f i) := by
  induction w with
  | zero => exact Nat.zero_testBit i
  | succ w ih =>
    have hbit : (maskOf (w + 1) f).testBit i = ((maskOf w f).testBit i || (f w && decide (w = i))) := by
      rw [maskOf_succ]
      cases f w <;> simp [Nat.testBit_two_pow]
    rw [hbit, ih]
    rcases Nat.lt_trichotomy i w with h | rfl | h
    · simp [h, h.ne', Nat.lt_succ_of_lt h]
    · simp
    · simp [h.ne, Nat.not_lt_of_gt h, Nat.not_lt.mpr h]

theorem maskOf_lt (w : Nat) (f : Nat → Bool) : maskOf w f < 2 ^ w := by
  refine Nat.lt_pow_two_of_testBit _ fun i hi => ?_
  rw [testBit_maskOf, decide_eq_false (Nat.not_lt.mpr hi), Bool.false_and]

/-! ### The hashes (R164, Table 5.3) -/

theorem pcHash_lt (row seg n : Nat) : pcHash row seg n < 2 ^ n := maskOf_lt n _

/-- The parity of Table 5.3 on a select bit of a part: there is none above bit 6. -/
theorem bitAt_pcHash (row seg : Nat) {n i : Nat} (hi : i < n) (hn : n ≤ 7) : bitAt (pcHash row seg n) i =
    if i = 6 then bitAt row 6 ^^ bitAt seg 2 else bitAt row i ^^ bitAt row (i + 7) := by
  rw [bitAt_eq_testBit, pcHash, testBit_maskOf, decide_eq_true hi, Bool.true_and]
  by_cases h : i = 6
  · rw [if_neg (by omega), if_pos h]
  · rw [if_pos (by omega), if_neg h]

/-- A hash hides nothing where both fields are hashed with the same value, or neither is. -/
theorem eq_of_hashed_eq {c : Prop} [Decidable c] {x y p q h k : Nat} (hx : x = if c then p ^^^ h else p)
    (hy : y = if c then q ^^^ k else q) (hhash : h = k) (hxy : x = y) : p = q := by
  subst hx hy hhash
  by_cases hc : c
  · rw [if_pos hc, if_pos hc] at hxy
    exact Nat.xor_left_inj.mp hxy
  · rwa [if_neg hc, if_neg hc] at hxy

/-! ### The offset within a pseudo-channel (R163, Table 5.2) -/

/-- The address bits of a grain of `2 ^ g` bytes: GRAIN is in bits 4 to 6 of a map word (R162). -/
def grainBits (map : Nat) : Nat := 6 + bits map 4 3

theorem grainBits_le (map : Nat) : grainBits map ≤ 13 := by
  have : bits map 4 3 < 2 ^ 3 := Nat.mod_lt _ (by decide)
  unfold grainBits
  omega

/-- The offset of an address within its pseudo-channel: the address without the `n` select bits above its grain. -/
def pcOffset (g n a : Nat) : Nat := (a >>> (g + n)) * 2 ^ g + a % 2 ^ g

theorem pcOffset_mod (g n a : Nat) : pcOffset g n a % 2 ^ g = a % 2 ^ g := by
  rw [pcOffset, Nat.mul_add_mod_self_right, Nat.mod_mod]

theorem pcOffset_div (g n a : Nat) : pcOffset g n a / 2 ^ g = a / 2 ^ (g + n) := by
  rw [pcOffset, Nat.mul_comm, Nat.mul_add_div (Nat.two_pow_pos g), Nat.div_eq_of_lt (Nat.mod_lt _ (Nat.two_pow_pos g)),
    Nat.add_zero, Nat.shiftRight_eq_div_pow]

theorem pcOffset_lt {g n a : Nat} (hg : g ≤ 30) (ha : a < 2 ^ (30 + n)) : pcOffset g n a < 2 ^ 30 := by
  have hdiv : pcOffset g n a / 2 ^ g < 2 ^ (30 - g) := by
    rw [pcOffset_div, Nat.div_lt_iff_lt_mul (Nat.two_pow_pos _), ← Nat.pow_add]
    rwa [show 30 - g + (g + n) = 30 + n by omega]
  rw [Nat.div_lt_iff_lt_mul (Nat.two_pow_pos g), ← Nat.pow_add] at hdiv
  rwa [Nat.sub_add_cancel hg] at hdiv

/-- The byte within the line is below every grain. -/
theorem pcOffset_mod_line {g : Nat} (n a : Nat) (hg : 6 ≤ g) : pcOffset g n a % 64 = a % 64 := by
  have hdvd : 2 ^ 6 ∣ 2 ^ g := Nat.pow_dvd_pow 2 hg
  rw [show 64 = 2 ^ 6 from rfl, ← Nat.mod_mod_of_dvd (pcOffset g n a) hdvd, pcOffset_mod, Nat.mod_mod_of_dvd a hdvd]

/-- The select bits and the offset give the address back. -/
theorem eq_of_select_of_pcOffset {g n a b : Nat} (hsel : bits a g n = bits b g n) (hoff : pcOffset g n a = pcOffset g n b) :
    a = b := by
  have hlow : a % 2 ^ g = b % 2 ^ g := by rw [← pcOffset_mod g n a, hoff, pcOffset_mod]
  have hhigh : a / 2 ^ (g + n) = b / 2 ^ (g + n) := by rw [← pcOffset_div, hoff, pcOffset_div]
  rw [bits_split a g n, bits_split b g n, hlow, hsel, hhigh]

/-- The fields of Table 5.2 give a 30-bit offset back. -/
theorem eq_of_offset_fields {o p : Nat} (ho : o < 2 ^ 30) (hp : p < 2 ^ 30) (hbyte : o % 64 = p % 64)
    (hcol : bits o 6 2 = bits p 6 2) (hbg : bits o 8 2 = bits p 8 2) (hbank : bits o 10 4 = bits p 10 4)
    (hseg : bits o 14 3 = bits p 14 3) (hrow : bits o 17 13 = bits p 17 13) : o = p := by
  simp only [bits, Nat.shiftRight_eq_div_pow] at *
  omega

/-! ### The place of an address (R163) -/

section
variable (map n a : Nat)

theorem decompose_row : (decompose map n a).row = bits (pcOffset (grainBits map) n a) 17 13 := rfl

theorem decompose_seg : (decompose map n a).seg = bits (pcOffset (grainBits map) n a) 14 3 := rfl

theorem decompose_col : (decompose map n a).col = bits (pcOffset (grainBits map) n a) 6 2 := rfl

theorem decompose_pc : (decompose map n a).pc =
    if bitAt map 0 then bits a (grainBits map) n ^^^ pcHash (decompose map n a).row (decompose map n a).seg n
    else bits a (grainBits map) n := rfl

theorem decompose_bg : (decompose map n a).bg =
    if bitAt map 1 then bits (pcOffset (grainBits map) n a) 8 2 ^^^ bits (decompose map n a).row 0 2
    else bits (pcOffset (grainBits map) n a) 8 2 := rfl

theorem decompose_bank : (decompose map n a).bank =
    if bitAt map 1 then bits (pcOffset (grainBits map) n a) 10 4 ^^^ bits (decompose map n a).row 2 4
    else bits (pcOffset (grainBits map) n a) 10 4 := rfl

end

/-- The hashes take their inputs from row and segment, which they do not change: equal places have equal hashes, so equal
fields before the hashes. -/
theorem decompose_inj {map n a b : Nat} (ha : a < 2 ^ (30 + n)) (hb : b < 2 ^ (30 + n)) (hbyte : a % 64 = b % 64)
    (h : decompose map n a = decompose map n b) : a = b := by
  have hg := grainBits_le map
  have hline : 6 ≤ grainBits map := Nat.le_add_right 6 _
  have hsel : bits a (grainBits map) n = bits b (grainBits map) n :=
    eq_of_hashed_eq (decompose_pc map n a) (decompose_pc map n b) (by rw [h]) (congrArg Loc.pc h)
  have hoff : pcOffset (grainBits map) n a = pcOffset (grainBits map) n b := by
    refine eq_of_offset_fields (pcOffset_lt (by omega) ha) (pcOffset_lt (by omega) hb) ?byte ?col ?bg ?bank ?seg ?row
    case byte => rw [pcOffset_mod_line n a hline, pcOffset_mod_line n b hline, hbyte]
    case col => rw [← decompose_col, h, decompose_col]
    case bg => exact eq_of_hashed_eq (decompose_bg map n a) (decompose_bg map n b) (by rw [h]) (congrArg Loc.bg h)
    case bank => exact eq_of_hashed_eq (decompose_bank map n a) (decompose_bank map n b) (by rw [h]) (congrArg Loc.bank h)
    case seg => rw [← decompose_seg, h, decompose_seg]
    case row => rw [← decompose_row, h, decompose_row]
  exact eq_of_select_of_pcOffset hsel hoff

/-- Row and segment depend on the map word through GRAIN alone. -/
theorem decompose_row_seg_of_grain {map map' : Nat} (n a : Nat) (h : bits map 4 3 = bits map' 4 3) :
    (decompose map n a).row = (decompose map' n a).row ∧ (decompose map n a).seg = (decompose map' n a).seg := by
  have hg : grainBits map = grainBits map' := congrArg (6 + ·) h
  rw [decompose_row, decompose_row, decompose_seg, decompose_seg, hg]
  exact ⟨rfl, rfl⟩

/-! ### The deciding window (R168, R169) -/

/-- The last number below `n` at which a predicate holds. -/
theorem find?_reverse_range_eq_some (p : Nat → Bool) (n i : Nat) : (List.range n).reverse.find? p = some i ↔
    i < n ∧ p i = true ∧ ∀ j, i < j → j < n → p j = false := by
  induction n with
  | zero => simp
  | succ n ih =>
    rw [List.range_succ, List.reverse_append, List.reverse_singleton, List.singleton_append, List.find?_cons]
    cases hp : p n with
    | true =>
      constructor
      · intro h
        obtain rfl := Option.some.inj h
        exact ⟨Nat.lt_succ_self _, hp, fun j hj hjn => absurd hjn (by omega)⟩
      · rintro ⟨hi, -, hlast⟩
        rcases Nat.lt_succ_iff_lt_or_eq.mp hi with hlt | rfl
        · exact absurd (hlast n hlt (Nat.lt_succ_self n)) (by simp [hp])
        · rfl
    | false =>
      refine ih.trans ⟨?_, ?_⟩
      · rintro ⟨hi, hpi, hlast⟩
        refine ⟨Nat.lt_succ_of_lt hi, hpi, fun j hj hjn => ?_⟩
        rcases Nat.lt_succ_iff_lt_or_eq.mp hjn with hlt | rfl
        · exact hlast j hj hlt
        · exact hp
      · rintro ⟨hi, hpi, hlast⟩
        have hne : i ≠ n := fun e => by simp [e, hp] at hpi
        exact ⟨by omega, hpi, fun j hj hjn => hlast j hj (Nat.lt_succ_of_lt hjn)⟩

theorem State.decidingWin_eq_some_iff (s : State) (a i : Nat) : s.decidingWin a = some i ↔ i < 256 ∧
    winContains (s.reg (RGD.WIN i)).toNat a = true ∧
    ∀ j, i < j → j < 256 → winContains (s.reg (RGD.WIN j)).toNat a = false :=
  find?_reverse_range_eq_some _ 256 i

theorem State.decidingWin_eq_none {s : State} {a : Nat}
    (h : ∀ j < 256, winContains (s.reg (RGD.WIN j)).toNat a = false) : s.decidingWin a = none := by
  refine List.find?_eq_none.mpr fun j hj => ?_
  rw [h j (List.mem_range.mp (List.mem_reverse.mp hj))]
  exact Bool.false_ne_true

theorem State.rights_of_no_window {s : State} {a : Nat} (cls : Nat) (h : s.decidingWin a = none) :
    s.rights cls a = (s.flag RGD.CTRL_DEFAULT_ALLOW, s.flag RGD.CTRL_DEFAULT_ALLOW) := by
  unfold State.rights
  rw [h]

theorem State.rights_of_window {s : State} {a i : Nat} (cls : Nat) (h : s.decidingWin a = some i) : s.rights cls a =
    (s.grants (bits (s.reg (RGD.WIN i)).toNat 4 4) cls, s.grants (bits (s.reg (RGD.WIN i)).toNat 0 4) cls) := by
  unfold State.rights
  rw [h]

theorem winContains_iff (w a : Nat) : winContains w a = true ↔ bitAt w 8 = true ∧ bits w 14 17 * 2 ^ 20 ≤ a ∧
    a < bits w 14 17 * 2 ^ 20 + 2 ^ (20 + bits w 9 5) := by
  rw [winContains, Bool.and_eq_true, Bool.and_eq_true, decide_eq_true_iff, decide_eq_true_iff, and_assoc]

/-! ### A denied request (R169, R170) -/

/-- The guard check reads the class that it is given, not the CLASS of the header. -/
theorem State.checkGuard_header (s : State) (r : Req) (header cls : Nat) :
    s.checkGuard { r with cls := header } cls = s.checkGuard r cls := rfl

/-- A request that passes the checks before the guard (Table 3.14) and lacks a right is recorded and refused, under the
class of its REQ_ID. -/
theorem State.checkTxn_denied {s : State} {t : Txn} {x : Denied} (hform : s.checkForm t.req = none)
    (hrange : s.checkRange t.req = true) (hclass : s.checkClass t.req (s.classOf t.req.reqId) = true)
    (hguard : s.checkGuard t.req (s.classOf t.req.reqId) = some x) : s.checkTxn t =
      (s.deny x.addr (s.decidingWin x.at_) (s.classOf t.req.reqId) t.req.reqId x.write).refuseTxn
        { t with cls := s.classOf t.req.reqId } 2 0 := by
  unfold State.checkTxn
  simp only [hform, hrange, hclass, hguard, Bool.not_true, Bool.false_eq_true, if_false]

/-! ### The obligations -/

/-- Settles O43: the place of an address gives its select bits and its offset back, the hashes undone. -/
theorem addressMapIsOneToOne : Obligations.AddressMapIsOneToOne :=
  ⟨fun _ _ _ _ => decompose_inj, fun row seg _ _ => bitAt_pcHash row seg, pcHash_lt, decompose_pc,
    fun _ _ n a => decompose_row_seg_of_grain n a⟩

/-- Settles O50: the windows are searched from the highest number down, and the rights are those of the window found. -/
theorem guardDecidesByTheHighestWindow : Obligations.GuardDecidesByTheHighestWindow := by
  refine ⟨State.decidingWin_eq_some_iff, fun _ cls _ h => State.rights_of_no_window cls (State.decidingWin_eq_none h),
    fun _ cls _ _ => State.rights_of_window cls, winContains_iff, State.checkGuard_header, ?_⟩
  rintro s _ t x rfl
  exact State.checkTxn_denied

end Sys2Proof.Machine
end

section
/-! The obligations of spec/06_service_classes.md: what the staging packets stage, and what the events of the scheduler, of the
channel engines and of the housekeeping round do where they act. -/

namespace Sys2Proof.Machine

open Sys2Proof.Reg

/-! ### Staging (R150, R158, R176, R183) -/

/-- Staging entries that are in range, from the owner of staging or with staging free, and with no commit running. -/
theorem State.stage_accepted {s : State} {h : Halyard} (hown : s.stageOwned = true → s.ownsStage h = true)
    (hc : s.mgc.commit = none) (op area : Nat) (put : Staged → Staged) : s.stage op area h none put = (
      let u := s.takeStage h
      let v : State := { u with mgc := { u.mgc with staged := put u.mgc.staged } }
      (v.fset MGC.COMMIT_STAGE_DIRTY (setBit (v.fget MGC.COMMIT_STAGE_DIRTY) area true)).replyOk op h []) := by
  have hmay : ¬ ((s.stageOwned && !s.ownsStage h) || s.mgc.commit.isSome) = true := by
    rw [hc]
    cases ho : s.stageOwned with
    | false => exact Bool.false_ne_true
    | true => rw [hown ho]; exact Bool.false_ne_true
  unfold State.stage
  exact if_neg hmay

/-- A staging packet that firmware takes, of which no entry is at fault. -/
theorem done_stage_packet {s : State} {op area : Nat} {h : Halyard} {len : List Nat → Option Nat} {bad : Option Nat}
    {put : Staged → Staged} (ht : s.takes op h len) (hbad : bad = none) (hown : s.stageOwned = true → s.ownsStage h = true)
    (hc : s.mgc.commit = none) : done (s.packet op h len (fun u _ => u.stage op area h bad put)) = .next (
      let u := (s.begun op h).takeStage h
      let v : State := { u with mgc := { u.mgc with staged := put u.mgc.staged } }
      (v.fset MGC.COMMIT_STAGE_DIRTY (setBit (v.fget MGC.COMMIT_STAGE_DIRTY) area true)).replyOk op h []) := by
  subst hbad
  refine done_packet_takes ht (State.stage_accepted ?_ ?_ op area put)
  · rwa [State.begun_stageOwned, State.begun_ownsStage]
  · rwa [State.begun_mgc_commit]

/-! ### Admission (R185, R186, R206) -/

theorem State.tryAdmit_admits {s : State} {t : Txn} (hfirst : s.firstInLine t = true) (hbudget : s.budgetOk t = true)
    (hpool : s.poolOk t = true) (hrelay : s.relayHolds t = false) : s.tryAdmit t = s.admitTxn t := by
  unfold State.tryAdmit
  rw [hfirst, hbudget, hpool, hrelay]
  rfl

/-- A request that something holds, and that was held before and, where the pool alone holds it, counted for the pool
before, stays as it is. -/
theorem State.tryAdmit_waits {s : State} {t : Txn}
    (hheld : s.firstInLine t = false ∨ s.budgetOk t = false ∨ s.poolOk t = false ∨ s.relayHolds t = true) (hstage : t.stage = 1)
    (hcounted : s.poolOk t = true ∨ s.firstInLine t = false ∨ s.budgetOk t = false ∨ t.poolHeld = true) :
    s.tryAdmit t = s.setTxn t := by
  have hno : ¬ (s.firstInLine t && s.budgetOk t && s.poolOk t && !s.relayHolds t) = true := by
    rcases hheld with h | h | h | h <;> simp [h]
  have hstall : (!s.poolOk t && s.firstInLine t && s.budgetOk t && !t.poolHeld) = false := by
    rcases hcounted with h | h | h | h <;> simp [h]
  unfold State.tryAdmit
  rw [if_neg hno, if_pos hstage]
  dsimp only
  rw [hstall, if_neg Bool.false_ne_true, Bool.or_false, ← hstage]

theorem exec_admission_front {n : Nat} {t : Txn} {s : State} (hq : s.queueFront n = some t) (hl : s.live = true) :
    exec (.admission n) s = .next (s.tryAdmit t) := by
  change execAdmission n s = _
  unfold execAdmission
  rw [hq]
  exact done_ite_of hl s _

/-! ### Windows (R185, R188) -/

theorem State.applyBudget_of_none {s : State} {n : Nat} (h : SMap.get none s.sch.nextBudget n = none) :
    s.applyBudget n = s := by
  unfold State.applyBudget
  rw [h]

theorem State.windowStart_of_ne {n : Nat} (h : n ≠ 62) (s : State) : s.windowStart n = (s.applyBudget n).refill n :=
  if_neg (fun a => h a.1)

/-- A window with no committed budget waiting only refills; whether SCN deals the tokens can be asked before the refill. -/
theorem State.windowStart_without_budget {s : State} {n : Nat} (h : SMap.get none s.sch.nextBudget n = none) :
    s.windowStart n = if n = 62 ∧ s.scnPresent then (s.refill n).scanWindow else s.refill n := by
  unfold State.windowStart
  rw [State.applyBudget_of_none h]
  rfl

theorem exec_windowStart_opens {n : Nat} {s : State} (hn : n < 64) (hl : s.live = true) (h60 : n = 60 → s.ecc.reef2 = none) :
    exec (.windowStart n) s = .next (s.windowStart n) := by
  refine done_ite_of ⟨hn, hl, fun ⟨hscrub, hsome⟩ => ?_⟩ s _
  rw [h60 hscrub] at hsome
  exact Bool.false_ne_true hsome

/-! ### Refresh and power-down (R227, R231, R234, R235) -/

/-- A due REF that none of its waits holds is sent. -/
theorem State.refStart_sends {s : State} {m h due : Nat}
    (hdue : (if h = 0 then (s.eng m).due0 else (s.eng m).due1) = some due) (hrun : s.refsRunning < 24)
    (hfirst : s.earlierRef due = false) (hclosed : (s.eng m).halfClosed h (8 * s.now) = true)
    (hlocked : s.halfLocked m h = false) (hopen : s.refOpen m = true) (hslot : s.slotWanted m = false) :
    s.refStart m h = ((s.ref m h (8 * s.now)).refDelay m due).repower m := by
  have hfree : ¬ (24 ≤ s.refsRunning ∨ s.earlierRef due = true ∨ ¬ (s.eng m).halfClosed h (8 * s.now) = true ∨
      s.halfLocked m h = true ∨ ¬ s.refOpen m = true ∨ s.slotWanted m = true) := by
    simp [Nat.not_le.mpr hrun, hfirst, hclosed, hlocked, hopen, hslot]
  unfold State.refStart
  dsimp only
  rw [hdue]
  exact if_neg hfree

theorem exec_powerDownEntry_reef1 {m : Nat} {s : State} (hrun : s.engRuns m = true) (hp : s.pwr = 1) :
    exec (.powerDownEntry m) s = .next (s.repower m) :=
  (congrArg done (if_neg (fun a => absurd (hp.symm.trans a.2) Nat.one_ne_zero))).trans (done_ite_of ⟨hrun, hp⟩ s _)

/-- An engine in self-refresh that may start a REF adds it to the audit. -/
theorem State.srRef_starts {s : State} {m : Nat} (hready : (s.eng m).ready ≤ 8 * s.now) (hrun : s.srRunning (engDie m) < 3)
    (hdue : s.srDue m = true) : s.srRef m = (
      let u := s.auditAdd m 1
      u.setEng m { u.eng m with srAt := some u.now, srRefs := (u.eng m).srRefs + 1 }) :=
  if_neg (not_or.mpr ⟨Nat.not_lt.mpr hready, not_or.mpr ⟨Nat.not_le.mpr hrun, not_not_intro hdue⟩⟩)

/-! ### The obligations -/

/-- Settles O20: each opcode is a staging packet with an area, a range check and a way to stage of its own. -/
theorem stagingPacketsComplete : Obligations.StagingPacketsComplete :=
  ⟨fun _ _ => done_stage_packet, fun _ _ => done_stage_packet, fun _ _ => done_stage_packet, fun _ _ => done_stage_packet,
    fun _ _ => done_stage_packet⟩

/-- Settles O30: each clause meets the guard of its event, and the budget, the pool and the queue decide what an admission
does. -/
theorem schedulerEventsComplete : Obligations.SchedulerEventsComplete := by
  refine ⟨fun n t s hq hl hfirst hbudget hpool hrelay => ?_, fun n t s hq hl hheld hstage hcounted => ?_,
    fun n s hn hl h60 hnone => ?_, fun n b r s hn h62 hl h60 _ => ?_, fun s hl => done_ite_of hl s _,
    fun s hl => done_ite_of hl s _, fun p s hp hl hst => done_ite_of ⟨hp, hl, hst⟩ s _, fun obs s hk => done_ite_of hk s _⟩
  · rw [exec_admission_front hq hl, State.tryAdmit_admits hfirst hbudget hpool hrelay]
  · rw [exec_admission_front hq hl, State.tryAdmit_waits hheld hstage hcounted]
  · exact (exec_windowStart_opens hn hl h60).trans (congrArg _ (State.windowStart_without_budget hnone))
  · rw [exec_windowStart_opens hn hl h60, State.windowStart_of_ne h62]

/-- Settles O31: each clause meets the guard of its event. -/
theorem engineEventsComplete : Obligations.EngineEventsComplete := by
  refine ⟨fun s hl => done_ite_of hl s _, fun m s hl he => done_ite_of ⟨hl, he⟩ s _,
    fun m off s hrun hpd => done_ite_of ⟨hrun, ne_true_of_eq_false hpd⟩ s _, fun m h s hh hr => done_ite_of ⟨hh, hr⟩ s _,
    fun m h s hh hr => done_ite_of ⟨hh, hr⟩ s _, fun m h due s hh hr hdue hrun hfirst hclosed hlocked hopen hslot => ?_,
    fun d s h1 hd hl => done_ite_of ⟨h1, hd, hl⟩ s _, fun m s hr => done_ite_of hr s _,
    fun m user s hr hrd hwr hlocked hquiet hu hsilent =>
      done_ite_of ⟨hr, hrd, hwr, ne_true_of_eq_false hlocked, hquiet, hu, hsilent⟩ s _,
    fun m s hrun hp => done_ite_of ⟨hrun, hp⟩ _ _, fun m s => exec_powerDownEntry_reef1,
    fun m s he hsr hperm hready hrun hdue => ?_⟩
  · rw [← State.refStart_sends hdue hrun hfirst hclosed hlocked hopen hslot]
    exact done_ite_of ⟨hh, hr⟩ s _
  · rw [← State.srRef_starts hready hrun hdue]
    exact done_ite_of ⟨he, hsr, ne_true_of_eq_false hperm⟩ s _

end Sys2Proof.Machine
end

section
/-! The obligation of spec/07_channel_controllers.md: outside the commands that store or take power away, every stored byte and
every stored code word reads as before. -/

namespace Sys2Proof.Machine

theorem State.mget_of_arrays_same {s t : State} (h : Piece.arrays.Same s t) (k : Nat) : t.mget k = s.mget k := by
  obtain ⟨hmem, -⟩ := h
  rw [State.mget, hmem, State.mget]

theorem State.fillDelta_of_arrays_same {s t : State} (h : Piece.arrays.Same s t) (array byte : Nat) :
    t.fillDelta array byte = s.fillDelta array byte := by
  obtain ⟨-, hfill⟩ := h
  rw [State.fillDelta, hfill, State.fillDelta]

theorem State.word_of_arrays_same {s t : State} (h : Piece.arrays.Same s t) (array line : Nat) :
    t.word array line = s.word array line := by
  simp only [State.word, State.mget_of_arrays_same h, State.fillDelta_of_arrays_same h]

/-- A command that does not list the arrays answers a state in which they are the same. -/
theorem exec_arrays_same {c : Instr} (hc : .arrays ∉ mayChange c) (s : State) :
    ∃ t, exec c s = .next t ∧ Piece.arrays.Same s t := by
  obtain ⟨t, ht⟩ := everyCommandAnswersANextState c s
  obtain ⟨-, hsame⟩ := onlyListedPiecesChange c s t ht
  exact ⟨t, ht, hsame .arrays hc⟩

/-- Settles O5: the commands that list the arrays are among the twenty-eight, and every other one leaves them the same. -/
theorem storedBytesStayOutsideTheStoringCommands : Obligations.StoredBytesStayOutsideTheStoringCommands := by
  intro c s hc
  have hkept : .arrays ∉ mayChange c := by
    cases c
    case porstN | bootStepTimeout | warmReset | railDip | evacCopyLine | watchdogRestart | commandChoice
        | housekeepingRound | fill | missForward | tagFetch | mergeClose | flushDone | patrolScrubLine
        | retentionSweep | cnsResume | dieRun | thmSample | entryUnwind | furlExit | wakeFillDone
        | monitorWindow | faultMessage | fencePermanent | dataLost | drainTimeout | relayReset | railsInRange =>
      exact hc.elim
    all_goals simp [mayChange]
  obtain ⟨t, ht, hsame⟩ := exec_arrays_same hkept s
  exact ⟨t, ht, State.mget_of_arrays_same hsame, State.word_of_arrays_same hsame⟩

end Sys2Proof.Machine
end

section
/-! The obligations of spec/08_line_cache_and_atomics.md: the home of a line is one-to-one, and what the events of the line
cache do where they act. -/

namespace Sys2Proof.Machine

open Sys2Proof.Reg

/-! ### The home of a line (R248) -/

theorem shiftRight_eq_of_le {a b i j : Nat} (hij : i ≤ j) (h : a >>> i = b >>> i) : a >>> j = b >>> j := by
  rw [← Nat.add_sub_cancel' hij, Nat.shiftRight_add, h, Nat.shiftRight_add]

theorem homeSlice_eq_and (a : Nat) : homeSlice a =
    ((a >>> 6) ^^^ (a >>> 11) ^^^ (a >>> 16) ^^^ (a >>> 21) ^^^ (a >>> 26) ^^^ (a >>> 31) ^^^ (a >>> 36)) &&& 0x1F :=
  (Nat.and_two_pow_sub_one_eq_mod _ 5).symm

theorem homeSet_eq_and (a : Nat) : homeSet a = (a >>> 11) &&& 0x3FF := (Nat.and_two_pow_sub_one_eq_mod _ 10).symm

/-- The six shifts of the home slice from set and tag alone: `h` is the address from its bit 11 on. -/
def setTagFold (h : Nat) : Nat := h ^^^ (h >>> 5) ^^^ (h >>> 10) ^^^ (h >>> 15) ^^^ (h >>> 20) ^^^ (h >>> 25)

/-- The home slice is bits 10 to 6 of the address, under a mask that set and tag give. -/
theorem homeSlice_eq_xor (a : Nat) : homeSlice a = bits a 6 5 ^^^ setTagFold (a >>> 11) % 2 ^ 5 := by
  simp only [homeSlice, setTagFold, bits, ← Nat.shiftRight_add, ← Nat.xor_mod_two_pow, Nat.xor_assoc]

/-- Set and tag are the address from bit 11 on. -/
theorem shiftRight_eq_of_set_of_tag {a b : Nat} (ha : a < 2 ^ 40) (hb : b < 2 ^ 40) (hset : homeSet a = homeSet b)
    (htag : bits a 21 19 = bits b 21 19) : a >>> 11 = b >>> 11 := by
  simp only [homeSet, bits, Nat.shiftRight_eq_div_pow] at *
  omega

/-- The mask on bits 10 to 6 is the same where set and tag are, so equal slices have equal bits under it. -/
theorem line_eq_of_home {a b : Nat} (ha : a < 2 ^ 40) (hb : b < 2 ^ 40) (hslice : homeSlice a = homeSlice b)
    (hset : homeSet a = homeSet b) (htag : bits a 21 19 = bits b 21 19) : a >>> 6 = b >>> 6 := by
  have hhigh : a >>> 11 = b >>> 11 := shiftRight_eq_of_set_of_tag ha hb hset htag
  have hlow : bits a 6 5 = bits b 6 5 := by
    rw [homeSlice_eq_xor, homeSlice_eq_xor, hhigh] at hslice
    exact Nat.xor_left_inj.mp hslice
  simp only [bits, Nat.shiftRight_eq_div_pow] at *
  omega

theorem homeSet_eq_of_line {a b : Nat} (h : a >>> 6 = b >>> 6) : homeSet a = homeSet b :=
  congrArg (· % 2 ^ 10) (shiftRight_eq_of_le (by decide) h)

theorem homeSlice_eq_of_line {a b : Nat} (h : a >>> 6 = b >>> 6) : homeSlice a = homeSlice b := by
  have hhigh : a >>> 11 = b >>> 11 := shiftRight_eq_of_le (by decide) h
  rw [homeSlice_eq_xor, homeSlice_eq_xor, hhigh, bits, h, bits]

/-! ### Merge entries and flushes (R262, R272) -/

theorem exec_mergeTimeout_elapsed {line k : Nat} {v : Way} {s : State} (hl : s.live = true)
    (hfind : (s.slc (lineSlice line)).find line = some (k, v)) (hst : v.st = .merge)
    (htime : v.openAt + max 100 (s.fget LCH.MERGE_CFG_TIMEOUT_NS) ≤ s.now) :
    exec (.mergeTimeout line) s = .next (s.closeMerge (lineSlice line) k true) := by
  change execMergeTimeout line s = _
  unfold execMergeTimeout
  rw [if_pos hl, hfind]
  exact done_ite_of ⟨hst, htime⟩ s _

theorem exec_flushDone_running {f : FlushSt} {s : State} (hf : s.flush = some f) (hl : s.live = true) :
    exec .flushDone s = .next (s.flushEnd f) := by
  change execFlushDone s = _
  unfold execFlushDone
  rw [hf]
  exact done_ite_of hl s _

theorem State.startFlush_of_none {s : State} (hf : s.flush = none) (inv : Bool) (by' : Nat) : s.startFlush inv by' =
    (State.setFlag { s with flush := some ⟨inv, s.now, by'⟩ } LCH.FLUSH_CTRL_BUSY true).fset LCH.STATUS_FLUSH_STATE 1 :=
  if_neg (by rw [hf]; exact Bool.false_ne_true)

theorem exec_flushCtrlStart_starts {s : State} (inv : Bool) (hl : s.live = true) (hfw : s.fwRuns = true)
    (hf : s.flush = none) : exec (.flushCtrlStart inv) s = .next
      ((State.setFlag { s with flush := some ⟨inv, s.now, 0⟩ } LCH.FLUSH_CTRL_BUSY true).fset LCH.STATUS_FLUSH_STATE 1) := by
  rw [← State.startFlush_of_none hf]
  exact done_ite_of ⟨hl, hfw, Option.isNone_iff_eq_none.mpr hf⟩ s _

/-! ### The obligations -/

/-- Settles O44: the slice is bits 10 to 6 of the address under a mask of set and tag, which are the bits above. -/
theorem homeOfALineIsOneToOne : Obligations.HomeOfALineIsOneToOne := by
  refine ⟨homeSlice_eq_and, homeSet_eq_and, fun a b ha hb hslice hset htag => line_eq_of_home ha hb hslice hset ?tag,
    fun a b h => ⟨homeSlice_eq_of_line h, homeSet_eq_of_line h⟩⟩
  case tag =>
    have hmask : ∀ x : Nat, bits x 21 19 = (x >>> 21) &&& 0x7FFFF := fun x => (Nat.and_two_pow_sub_one_eq_mod _ 19).symm
    rw [hmask, htag, hmask]

/-- Settles O32: each clause meets the guard of its event; a merge entry is found in its slice, and a flush is taken from the
state. -/
theorem cacheEventsComplete : Obligations.CacheEventsComplete :=
  ⟨fun _ _ s hl he => done_ite_of ⟨hl, he⟩ s _, fun _ s hl hk => done_ite_of ⟨hl, hk⟩ s _,
    fun _ s hl => done_ite_of hl s _, fun _ _ s hl he => done_ite_of ⟨hl, he⟩ s _,
    fun _ _ _ _ => exec_mergeTimeout_elapsed, fun _ _ s hl he => done_ite_of ⟨hl, he⟩ s _,
    fun _ s hl => done_ite_of hl s _, fun _ s hl hk => done_ite_of ⟨hl, hk⟩ s _,
    fun _ _ s hl hk hscrub => done_ite_of ⟨hl, hk, hscrub⟩ s _, fun s hl hf => done_ite_of ⟨hl, hf⟩ s _,
    fun _ _ => exec_flushDone_running, fun inv _ => exec_flushCtrlStart_starts inv⟩

end Sys2Proof.Machine
end

section
/-! The obligations of spec/09_scan_engines.md: the requests other than those to memory, the packets that firmware takes for the
scan engines, and the events of the scans. -/

namespace Sys2Proof.Machine

open Sys2Proof.Reg

/-! ### Requests at decode (R103, R116, R277) -/

/-- Taking an entry leaves the registers. -/
theorem State.regs_of_entryOf {s u : State} {r : Req} {t : Txn} (h : s.entryOf r = some (u, t)) : u.regs = s.regs := by
  unfold State.entryOf at h
  split at h
  next =>
    split at h
    · cases h
    · cases h
      rfl
  next =>
    split at h
    · cases h
      rfl
    · cases h

/-- Whether a request has the wrong stack ID depends on the registers alone. -/
theorem State.sidWrong_congr {s u : State} (h : u.regs = s.regs) (r : Req) : u.sidWrong r = s.sidWrong r := by
  have hsid : u.fget LNK.STACK_ID_STACK_ID = s.fget LNK.STACK_ID_STACK_ID :=
    State.fget_congr (by unfold State.reg; rw [h])
  unfold State.sidWrong
  rw [hsid]

/-- A request with the wrong stack ID gives its entry back, whatever its opcode would do. -/
theorem State.request_mismatched {s u : State} {r : Req} {t : Txn} (hp : isPort r.port = true) (hl : s.live = true)
    (he : s.entryOf r = some (u, t)) (hs : u.sidWrong r = true) (f : State → Txn → State) :
    s.request r f = (u.forget t).sidMismatch r (u.classOf r.reqId) t.arrival := by
  unfold State.request
  rw [if_neg (not_not_intro ⟨hp, hl⟩), he]
  exact if_pos hs

/-- A SCAN that passes the checks of Table 3.14 has no lines to map, and goes to admission. -/
theorem State.checkTxn_passes_scan {s u : State} {r : Req} {t : Txn} (h : s.passes { r with opcode := 0x40 } u t) :
    u.checkTxn t = u.tryAdmit { t with cls := u.classOf r.reqId, lines := [] } := by
  obtain ⟨-, -, he, -, hform, hrange, hclass, hguard⟩ := h
  unfold State.checkTxn
  simp only [State.req_of_entryOf he, hform, hrange, hclass, hguard, Bool.not_true, Bool.false_eq_true, if_false, if_true]

section
variable {r : Req} {u s : State} {t : Txn} (hl : s.live = true)
include hl

theorem exec_fenceComplete_waiting {p reqId tag : Nat} (hfind : (s.txns.find? (fun t => t.stage = 4 ∧ t.req.port = p ∧
    t.req.reqId = reqId ∧ t.req.tag = tag)) = some t) :
    exec (.fenceComplete p reqId tag) s = .next (s.completeFence t) := by
  change execFenceComplete p reqId tag s = _
  unfold execFenceComplete
  rw [hfind]
  exact done_ite_of hl s _

variable (hp : isPort r.port = true)
include hp

/-- An opcode that the device does not take, or one with data in a position past the first, goes to the checks. -/
theorem exec_unknownOpcode_checked (he : s.entryOf r = some (u, t)) (hs : u.sidWrong r = false)
    (hop : r.opcode ∉ takenOps ∨ (r.pos ≠ 0 ∧ bitAt r.opcode 3 = true)) :
    exec (.unknownOpcode r) s = .next (u.checkTxn t) := by
  have hunknown : ¬ (takenOps.contains r.opcode = true ∧ ¬ (r.pos ≠ 0 ∧ bitAt r.opcode 3 = true)) := fun ⟨htaken, hplace⟩ =>
    hop.elim (fun hout => hout (List.contains_iff_mem.mp htaken)) hplace
  rw [← State.request_taken hp hl he hs (fun s t => s.checkTxn t)]
  exact congrArg done (if_neg hunknown)

theorem exec_stackIdMismatch_answered (hs : s.sidWrong r = true) (he : s.entryOf r = some (u, t)) :
    exec (.stackIdMismatch r) s = .next ((u.forget t).sidMismatch r (u.classOf r.reqId) t.arrival) := by
  have hu : u.sidWrong r = true := (State.sidWrong_congr (State.regs_of_entryOf he) r).trans hs
  rw [← State.request_mismatched hp hl he hu (fun s _ => s)]
  exact done_ite_of hs s _

end

/-! ### Packets of the scan engines (Table 9.9, R293, R294) -/

section
variable {h : Halyard} {s : State}

/-- A reservation that no check of SCN_RESERVE turns away takes the lowest place that is free. -/
theorem exec_scnReserve_reserves {i : Nat} (ht : s.takes 0x70 h (fixedLen 2)) (hbad : resBad (arg h 0) (arg h 1) = none)
    (hfree : (s.begun 0x70 h).freeRes = some i) (htaken : (s.begun 0x70 h).resTaken (bits (arg h 0) 0 16) = false)
    (hcls : (s.begun 0x70 h).resOf (bits (arg h 0) 16 6) = none)
    (hroom : (s.begun 0x70 h).admits ((s.begun 0x70 h).resView (arg h 1)) = true) :
    exec (.scnReserve h) s = .next (((s.begun 0x70 h).reserve i (bits (arg h 0) 16 6) (bits (arg h 0) 0 16) (arg h 1)).replyOk
      0x70 h [i]) := by
  refine done_packet_takes ht ?_
  dsimp only
  rw [hbad, hfree, htaken, hcls]
  exact (if_neg (not_or.mpr ⟨Bool.false_ne_true, Bool.false_ne_true⟩)).trans (if_neg (not_not_intro hroom))

theorem exec_scnRelease_held {i : Nat} (ht : s.takes 0x71 h (fixedLen 1)) (hfind : (List.range 4).find? (fun i =>
    s.flag (SCN.RES_ENG_VALID i) && decide (s.fget (SCN.RES_ENG_ENG i) = arg h 0)) = some i) :
    exec (.scnRelease h) s = .next (((s.begun 0x71 h).releaseRes i).replyOk 0x71 h []) := by
  refine done_packet_takes ht ?_
  simp only [State.begun_flag, State.begun_fget]
  rw [hfind]

theorem exec_scnLimits_inRange (ht : s.takes 0x72 h (fixedLen 2)) (hcap0 : 1 ≤ arg h 0) (hcap : arg h 0 ≤ 20313)
    (hmax0 : 1 ≤ arg h 1) (hmax : arg h 1 ≤ 16) :
    exec (.scnLimits h) s = .next (((((s.begun 0x72 h).fset SCN.LIMITS_CAP (arg h 0)).fset SCN.LIMITS_MAX_ENG (arg h
      1)).setC62).replyOk 0x72 h []) := by
  refine done_packet_takes ht ?_
  rw [if_neg (by omega), if_neg (by omega)]

theorem exec_scnCancel_held {t : Txn} (ht : s.takes 0x73 h (fixedLen 1))
    (hscan : (s.begun 0x73 h).scanOf (bits (arg h 0) 16 12) (bits (arg h 0) 0 12) = some t) :
    exec (.scnCancel h) s = .next (((s.begun 0x73 h).abortScan t 1).replyOk 0x73 h []) := by
  refine done_packet_takes ht ?_
  rw [hscan]

end

/-! ### Scans that the device holds (R290, R293) -/

section
variable {reqId tag : Nat} {t : Txn} {s : State} (hscan : s.scanOf reqId tag = some t)
include hscan

theorem exec_scanComplete_running {r : ScanRun} (hrun : s.scn.runs.find? (fun r => r.num = t.num) = some r)
    (hl : s.live = true) : exec (.scanComplete reqId tag) s = .next (s.completeScan t r) := by
  change execScanComplete reqId tag s = _
  unfold execScanComplete
  rw [hscan]
  dsimp only
  rw [hrun]
  exact done_ite_of hl s _

theorem exec_timeLimit_admitted (hl : s.live = true) (hst : t.stage = 3) (hlimit : (scanDesc t.req.data).limitMs ≠ 0) :
    exec (.timeLimit reqId tag) s = .next (s.abortScan t 2) := by
  change execTimeLimit reqId tag s = _
  unfold execTimeLimit
  rw [hscan]
  exact done_ite_of ⟨hl, hst, hlimit⟩ s _

end

/-! ### The obligations -/

/-- Settles O15: a SCAN and a FENCE have their entry and the right stack ID, and the other three meet the guard of their
command. -/
theorem otherRequestsComplete : Obligations.OtherRequestsComplete :=
  ⟨fun _ _ _ _ h => congrArg done ((State.memRequest_passes h).trans (State.checkTxn_passes_scan h)),
    fun _ _ _ _ hp hl he hs => congrArg done (State.request_taken (by exact hp) hl he hs _),
    fun _ _ _ _ _ hl => exec_fenceComplete_waiting hl,
    fun _ _ _ _ hp hl => exec_unknownOpcode_checked hl hp,
    fun _ _ _ _ hp hl => exec_stackIdMismatch_answered hl hp⟩

/-- Settles O28: none of the checks of a scan opcode turns its packet away. -/
theorem scanPacketsComplete : Obligations.ScanPacketsComplete :=
  ⟨fun _ _ _ => exec_scnReserve_reserves, fun _ _ _ => exec_scnRelease_held, fun _ _ => exec_scnLimits_inRange,
    fun _ _ _ => exec_scnCancel_held⟩

/-- Settles O33: the start and a staging line meet the guard of their event; the other two find their scan in the device. -/
theorem scanEventsComplete : Obligations.ScanEventsComplete :=
  ⟨fun s hl hscn => done_ite_of ⟨hl, hscn⟩ s _, fun _ s hl hscn he => done_ite_of ⟨hl, hscn, he⟩ s _,
    fun _ _ _ _ _ hscan => exec_scanComplete_running hscan, fun _ _ _ _ => exec_timeLimit_admitted⟩

end Sys2Proof.Machine
end

section
/-! The obligations of spec/10_data_integrity.md: sparing of rows and evacuation of indices, and the scrub, the sweep and the
error buckets, where their commands act. -/

namespace Sys2Proof.Machine

open Sys2Proof.Reg

section
variable {h : Halyard} {s : State}

/-! ### Packets that start an operation -/

/-- An operation that a packet starts has room exactly where the state before the packet had it. -/
theorem State.accept_begun_room (hroom : s.opRoom = true) (op : Nat) (state arg : Nat) (f : State → Nat → State) :
    (s.begun op h).accept op h state arg f =
      f ((s.begun op h).accepted op h state arg).1 ((s.begun op h).accepted op h state arg).2 :=
  State.accept_room ((s.begun_opRoom op h).trans hroom) op h state arg f

/-! ### Sparing of rows (R317 to R319) -/

/-- ROW_SPARE of a row that its index can spare, with no other row of the index waiting. -/
theorem exec_rowSpare_accepted (ht : s.takes 0x42 h (fixedLen 1)) (hres : rowReserved (arg h 0) = false)
    (hpc : (rowArg (arg h 0)).pc < s.pcs) (hsail : s.inSail = true) (hfence : s.fenced (rowArg (arg h 0)).pc = false)
    (hevac : s.evacRuns (rowArg (arg h 0)).pc = false) (hspare : s.spareRoom (rowArg (arg h 0)).loc = true)
    (hidle : s.ecc.spares.any (fun x => x.pc = (rowArg (arg h 0)).pc) = false) (hroom : s.opRoom = true) :
    exec (.rowSpare h) s = .next (
      let a := (s.begun 0x42 h).accepted 0x42 h 1 0
      { a.1 with ecc := { a.1.ecc with
          spares := a.1.ecc.spares ++ [{ rowArg (arg h 0) with op := some a.2, since := a.1.now }] } }) := by
  refine done_packet_takes ht ?_
  have hrow : ¬ (rowReserved (arg h 0) = true ∨ s.pcs ≤ (rowArg (arg h 0)).pc) := by simp [hres, hpc]
  have hstate : ¬ (¬ s.inSail = true ∨ s.fenced (rowArg (arg h 0)).pc = true ∨ s.evacRuns (rowArg (arg h 0)).pc = true ∨
      ¬ s.spareRoom (rowArg (arg h 0)).loc = true) := by simp [hsail, hfence, hevac, hspare]
  simp only [State.begun_pcs, State.begun_inSail, State.begun_fenced, State.begun_evacRuns, State.begun_spareRoom,
    State.begun_ecc]
  rw [if_neg hrow, if_neg hstate, if_neg (ne_true_of_eq_false hidle), State.accept_begun_room hroom]

theorem exec_softRowSpare_next {j : SpareJob} {errs : List (Nat × List (Nat × Nat))} (hj : s.nextSpare = some j)
    (hl : s.live = true) : exec (.softRowSpare errs) s = .next (s.lockSpare j errs) := by
  change execSoftRowSpare errs s = _
  unfold execSoftRowSpare
  rw [hj]
  exact done_ite_of hl s _

/-- ROW_SPARE_HARD of a row that has a soft spare, with an entry of the REPAIR region that a fuse can still take. -/
theorem exec_rowSpareHard_accepted (ht : s.takes 0x43 h (fixedLen 1)) (hres : rowReserved (arg h 0) = false)
    (hpc : (rowArg (arg h 0)).pc < s.pcs)
    (hsoft : s.ecc.soft.contains ((engArray (s.engineOf (rowArg (arg h 0)).pc) * 64 +
      ((rowArg (arg h 0)).bg * 16 + (rowArg (arg h 0)).bank)) * 8192 + (rowArg (arg h 0)).row) = true)
    (hlock : s.lockSet 5 = false) (hprog : s.flag OTP.CTRL_PROG_EN = true) (hentry : s.freeEntry ≠ none)
    (hfuse : s.fuseState = true) (hroom : s.opRoom = true) : exec (.rowSpareHard h) s = .next (
      let j := rowArg (arg h 0)
      let a := (s.begun 0x43 h).accepted 0x43 h 0 0
      State.hardenNext
        { a.1 with otp := { a.1.otp with
            wait := a.1.otp.wait ++ [(rowEntry (s.engineOf j.pc) j.bg j.bank j.row, a.2)] } }) := by
  refine done_packet_takes ht ?_
  have hallowed : ¬ (s.lockSet 5 = true ∨ ¬ s.flag OTP.CTRL_PROG_EN = true) := by simp [hlock, hprog]
  have hstate : ¬ (s.freeEntry.isNone = true ∨ ¬ s.fuseState = true) := by simp [hentry, hfuse]
  simp only [State.begun_pcs, State.begun_engineOf, State.begun_ecc, State.begun_lockSet, State.begun_flag,
    State.begun_freeEntry, State.begun_fuseState, hsoft]
  rw [if_neg (by simp [hres, hpc]), if_neg hallowed, if_neg hstate, State.accept_begun_room hroom]

/-! ### Evacuation (R320 to R323) -/

/-- EVACUATE of an index of whose die the spare has not failed, serves no other index and is held for no other. -/
theorem exec_evacuate_accepted (ht : s.takes 0x44 h (fixedLen 1)) (hpc : bits (arg h 0) 0 7 < s.pcs) (hsail : s.inSail = true)
    (hfence : s.fenced (bits (arg h 0) 0 7) = false) (hon : s.onSpare (bits (arg h 0) 0 7) = false)
    (hgood : s.fget (ECC.SPARE_STAT_STATE (pcDie (bits (arg h 0) 0 7))) ≠ 4)
    (hown : s.fget (ECC.SPARE_STAT_STATE (pcDie (bits (arg h 0) 0 7))) = 3 →
      s.fget (ECC.SPARE_STAT_INDEX (pcDie (bits (arg h 0) 0 7))) = bits (arg h 0) 0 7)
    (hqueue : s.ecc.evacQ.any (fun j => pcDie j = pcDie (bits (arg h 0) 0 7) ∧ j ≠ bits (arg h 0) 0 7) = false)
    (hidle : s.ecc.evac = none) (hroom : s.opRoom = true) : exec (.evacuate h) s = .next (
      let a := (s.begun 0x44 h).accepted 0x44 h 1 (bits (arg h 0) 0 7)
      State.beginEvac { a.1 with ecc := { a.1.ecc with evacQ := a.1.ecc.evacQ.filter (· ≠ bits (arg h 0) 0 7) } }
        (bits (arg h 0) 0 7) (some a.2)) := by
  refine done_packet_takes ht ?_
  simp only [State.begun_pcs, State.begun_inSail, State.begun_fenced, State.begun_onSpare, State.begun_fget, State.begun_ecc]
  rw [if_neg (Nat.not_le.mpr hpc), if_neg ?state, if_neg (by simp [hidle]), State.accept_begun_room hroom]
  case state =>
    rintro (hn | hf | ho | h4 | ⟨h3, hother⟩ | hq)
    · exact hn hsail
    · exact ne_true_of_eq_false hfence hf
    · exact ne_true_of_eq_false hon ho
    · exact hgood h4
    · exact hother (hown h3)
    · exact ne_true_of_eq_false hqueue hq

section
variable (hl : s.live = true) (hsail : s.inSail = true) (fails : List (Nat × Nat))
include hl hsail

/-- With an evacuation whose copy has not begun, EVAC_START judges the test of its spare (R321). -/
theorem exec_evacStart_testing {e : Evac} (he : s.ecc.evac = some e) (hcopy : e.copying = false) :
    exec (.evacStart fails) s = .next (s.evacTested e (quickFails fails)) := by
  change execEvacStart fails s = _
  unfold execEvacStart
  rw [if_neg (not_or.mpr ⟨not_not_intro hl, not_not_intro hsail⟩), he]
  exact congrArg done (if_neg (ne_true_of_eq_false hcopy))

/-- With no evacuation, it starts the next one (R320). -/
theorem exec_evacStart_idle (he : s.ecc.evac = none) : exec (.evacStart fails) s = .next s.nextEvac := by
  change execEvacStart fails s = _
  unfold execEvacStart
  rw [if_neg (not_or.mpr ⟨not_not_intro hl, not_not_intro hsail⟩), he]

end

theorem exec_evacDone_running {e : Evac} (he : s.ecc.evac = some e) (hl : s.live = true) (hfree : s.lineFree e.pc = true)
    (href : s.refreshed (s.engineOf e.pc) = true) : exec .evacDone s = .next (s.evacEnd e) := by
  change execEvacDone s = _
  unfold execEvacDone
  rw [he]
  exact done_ite_of ⟨hl, hfree, href⟩ s _

/-! ### Injection of errors and the settings of scrub (R308, R315) -/

theorem exec_errInject_armed (ht : s.takes 0x46 h injLen) (hbad : s.injBad h.payload = none) (hsail : s.inSail = true) :
    exec (.errInject h) s = .next (((s.begun 0x46 h).armInj h.payload).replyOk 0x46 h []) := by
  refine done_packet_takes ht ?_
  simp only [State.begun_injBad, State.begun_inSail]
  rw [hbad]
  exact if_neg (not_not_intro hsail)

theorem exec_scrubCfg_inRange (ht : s.takes 0x47 h (fixedLen 1)) (hres : bits (arg h 0) 16 15 = 0)
    (hleast : 1 ≤ bits (arg h 0) 0 16) (hmost : bits (arg h 0) 0 16 ≤ 720) : exec (.scrubCfg h) s =
      .next (((((s.begun 0x47 h).fset ECC.SCRUB_CFG_PERIOD_H (bits (arg h 0) 0 16)).setFlag ECC.SCRUB_CFG_REEF2
        (bitAt (arg h 0) 31)).setC60).replyOk 0x47 h []) := by
  refine done_packet_takes ht ?_
  exact if_neg (by omega)

/-! ### Fast scrub and the sweep (R305, R309) -/

/-- FAST_SCRUB of indices that exist and are not fenced, where neither of the two engines runs and the demand has room. -/
theorem exec_fastScrub_accepted (ht : s.takes 0x48 h (fixedLen 4)) (hbad : s.badScrubWord h.payload = none)
    (hfast : s.ecc.fast = none) (hsweep : s.ecc.sweep = none)
    (hdem : (s.begun 0x48 h).admits (s.begun 0x48 h).fastView = true) (hroom : s.opRoom = true) :
    exec (.fastScrub h) s = .next (
      let a := (s.begun 0x48 h).accepted 0x48 h 1 0
      State.setC60 { a.1 with ecc := { a.1.ecc with fast := some ⟨maskWords h.payload, 0, some a.2, 0, []⟩ } }) := by
  refine done_packet_takes ht ?_
  have hidle : ¬ (s.ecc.fast.isSome = true ∨ s.ecc.sweep.isSome = true) := by simp [hfast, hsweep]
  rw [State.begun_badScrubWord, State.begun_ecc, hbad]
  dsimp only
  rw [if_neg hidle, if_neg (not_not_intro hdem), State.accept_begun_room hroom]

theorem exec_fastScrubDone_finished {f : FastScrub} (hf : s.ecc.fast = some f) (hl : s.live = true)
    (hmask : s.lowestPc f.mask = none) (hagain : f.again = []) (hread : s.reading .fast = false) :
    exec .fastScrubDone s = .next (s.fastEnd f) := by
  change execFastScrubDone s = _
  unfold execFastScrubDone
  rw [hf]
  exact done_ite_of ⟨hl, hmask, hagain, ne_true_of_eq_false hread⟩ s _

theorem exec_sweepDone_finished {v : Sweep} (hv : s.ecc.sweep = some v) (hl : s.live = true) (hlast : pcLines ≤ v.next)
    (hagain : v.again = []) (hread : s.reading .sweep = false) : exec .sweepDone s = .next (s.sweepEnd v) := by
  change execSweepDone s = _
  unfold execSweepDone
  rw [hv]
  exact done_ite_of ⟨hl, hlast, hagain, ne_true_of_eq_false hread⟩ s _

end

/-! ### The obligations -/

/-- Settles O24: the three packets pass each of their checks and have room, and the events meet their guards; the test of the
spare and the next evacuation are the two cases of EVAC_START, and an evacuation that is ready ends by a step of the slot. -/
theorem repairCommandsComplete : Obligations.RepairCommandsComplete :=
  ⟨fun _ _ => exec_rowSpare_accepted, fun _ _ _ => exec_softRowSpare_next, fun _ _ => exec_rowSpareHard_accepted,
    fun _ _ => exec_evacuate_accepted, fun _ fails _ hl hsail => exec_evacStart_testing hl hsail fails,
    fun fails _ hl hsail => exec_evacStart_idle hl hsail fails, fun _ s hl hp => done_ite_of ⟨hl, hp⟩ s _,
    fun _ _ he hl hfree href hready =>
      (exec_evacDone_running he hl hfree href).trans (congrArg done (if_neg (not_not_intro hready)))⟩

/-- Settles O25: the three packets pass each of their checks, and the events meet their guards. -/
theorem scrubCommandsComplete : Obligations.ScrubCommandsComplete :=
  ⟨fun _ _ => exec_errInject_armed, fun _ _ => exec_scrubCfg_inRange, fun _ _ => exec_fastScrub_accepted,
    fun _ _ => exec_fastScrubDone_finished, fun _ s hl => done_ite_of hl s _,
    fun _ s hl hp hreef hsweep hfast => done_ite_of ⟨hl, hp, hreef, by simp [hsweep], by simp [hfast]⟩ s _,
    fun _ s hl hp => done_ite_of ⟨hl, hp⟩ s _, fun _ _ => exec_sweepDone_finished, fun s hl => done_ite_of hl s _⟩

end Sys2Proof.Machine
end

section
/-! The obligations of spec/16_reset_boot_and_fuses.md: what the resets clear and keep, the always-on timer, the ends of boot, and
the fuse commands. -/

namespace Sys2Proof.Machine

open Sys2Proof.Reg

/-! ### Time (R410, R437) -/

/-- An operation whose footprint leaves out time keeps both timers. -/
theorem Keeps.time {F : Nat} {s t : State} (k : Keeps F s t) (hF : F.testBit 1 = false) :
    t.now = s.now ∧ t.aon = s.aon :=
  k.rest .time hF

/-- The state in which boot begins its step 2: the time that it will have taken has passed. -/
def State.bootTimed (s : State) (o : BootObs) : State :=
  { s with now := s.now + 1000 * o.bootUs, aon := s.aon + 1000 * o.bootUs, pw := { s.pw with since := s.aon } }

/-- What boot does after its time has been counted. -/
theorem State.boot_keeps_of_bootTimed (s : State) (cold : Bool) (o : BootObs) : Keeps 0x1FFDF7FD (s.bootTimed o) (s.boot cold o) := by
  have hF := Sub.refl 0x1FFDF7FD
  unfold State.boot
  extract_lets _ timed sensed shown masked measured
  have hsensed : Keeps 0x1FFDF7FD (s.bootTimed o) sensed :=
    (State.fset_keeps timed _ _ (hF.within rfl)).trans (State.senseFuses_keeps _ (hF.within rfl))
  have hshown : Keeps 0x1FFDF7FD (s.bootTimed o) shown :=
    (hsensed.trans (State.showPart_keeps _ _ (hF.within rfl))).trans (State.loadTrim_keeps _ _ (hF.within rfl))
  have hmasked : Keeps 0x1FFDF7FD (s.bootTimed o) masked :=
    Keeps.ite (fun _ => hshown.trans (State.setRetMask_keeps _ _ (hF.within rfl))) fun _ => hshown
  have hmeasured : Keeps 0x1FFDF7FD (s.bootTimed o) measured :=
    (hmasked.trans (State.fset_keeps _ _ _ (hF.within rfl))).trans (State.startClocks_keeps _ _ (hF.within rfl))
  split
  · exact hsensed.trans (State.holdBoot_keeps _ _ (hF.within rfl))
  refine Keeps.ite (fun _ => (hmasked.trans (State.limp_keeps _ _ (hF.within rfl))).trans
    (State.bootRecord_keeps _ (hF.within rfl))) fun _ => ?_
  split
  · exact hmeasured.trans (State.holdBoot_keeps _ _ (hF.within rfl))
  · exact Keeps.ite (fun _ => hmeasured.trans (State.holdBoot_keeps _ _ (hF.within rfl)))
      fun _ => hmeasured.trans (State.testAndRun_keeps _ _ (hF.within rfl))

/-- Boot takes its time on both timers. -/
theorem State.time_boot (s : State) (cold : Bool) (o : BootObs) :
    (s.boot cold o).now = s.now + 1000 * o.bootUs ∧ (s.boot cold o).aon = s.aon + 1000 * o.bootUs :=
  (s.boot_keeps_of_bootTimed cold o).time rfl

/-! ### The reset of PORST_N (R434) -/

/-- What PORST_N leaves before XB's monitor and the scan of the store are shown in the registers. -/
def State.coldBase (s : State) : State :=
  { part := s.part, aon := s.aon, free := s.free, pending := s.pending, bbx := { nv := s.bbx.nv, nvBad := s.bbx.nvBad },
    otp := { words := s.otp.words, trim := s.otp.trim } }

theorem State.coldReset_keeps_of_coldBase (s : State) : Keeps 0x100008 s.cutPulse.coldBase s.coldReset :=
  (State.keepXb_keeps _ _ (Sub.refl _)).trans (State.scanStore_keeps _ (Sub.within (Sub.refl _) rfl))

theorem State.cutPulse_idle {s : State} (h : s.otp.job = none) : s.cutPulse = s := by
  unfold State.cutPulse
  rw [h]

theorem State.time_coldReset (s : State) : s.coldReset.now = 0 ∧ s.coldReset.aon = s.aon := by
  obtain ⟨hnow, haon⟩ := s.coldReset_keeps_of_coldBase.time rfl
  obtain ⟨_, hcut⟩ := (s.cutPulse_keeps (Sub.refl _)).time rfl
  exact ⟨hnow, haon.trans hcut⟩

theorem State.time_bootCold (s : State) (o : BootObs) :
    (s.bootCold o).now = 1000 * o.bootUs ∧ (s.bootCold o).aon = s.aon + 1000 * o.bootUs := by
  obtain ⟨hnow, haon⟩ := s.time_coldReset
  obtain ⟨hn, ha⟩ := (s.coldReset.fset TWB.STATUS_ADDR (0x58 + o.sbAddr % 4)).time_boot true o
  rw [State.fset_now, hnow, Nat.zero_add] at hn
  rw [State.fset_aon, haon] at ha
  exact ⟨hn, ha⟩

/-! ### What PORST_N leaves (Table 16.1) -/

/-- A field of a register of another block. -/
theorem State.reg_fset_block (s : State) {f : Fld} {a : Nat} (v : Nat) (h : bits a 16 8 ≠ bits f.addr 16 8) :
    (s.fset f v).reg a = s.reg a :=
  State.reg_fset_other s v fun e => h (congrArg (bits · 16 8) e)

/-- The monitor of XB and what shows it valid are registers of CLK. -/
theorem State.reg_keepXb (s t : State) {a : Nat} (h : bits a 16 8 ≠ 0x78) : (s.keepXb t).reg a = t.reg a := by
  unfold State.keepXb State.setValid State.setFlag
  extract_lets u v
  have hv : v.reg a = t.reg a := State.reg_fset_block u _ h
  split
  · rw [State.reg_fset_block _ _ h, State.reg_fset_block _ _ h, State.reg_fset_block _ _ h, State.reg_fset_block _ _ h, hv]
  · rw [State.reg_fset_block _ _ h, hv]

/-- What BBX finds in its store is shown in its own registers. -/
theorem State.reg_scanStore (s : State) {a : Nat} (h : bits a 16 8 ≠ 0x91) : s.scanStore.reg a = s.reg a := by
  unfold State.scanStore State.setFlag
  extract_lets valid scanned oldest
  have hscanned : scanned.reg a = s.reg a := (State.reg_fset_block _ _ h).trans (State.reg_fset_block s _ h)
  have holdest : oldest.reg a = s.reg a := by
    unfold oldest
    split
    · rw [State.reg_fset_block _ _ h, hscanned]
    · exact hscanned
  split
  · rw [State.reg_fset_block _ _ h, State.reg_fset_block _ _ h, holdest]
  · rw [State.reg_fset_block _ _ h, holdest]

theorem State.reg_coldReset (s : State) {a : Nat} (hclk : bits a 16 8 ≠ 0x78) (hbbx : bits a 16 8 ≠ 0x91) :
    s.coldReset.reg a = resetOf a :=
  (State.reg_scanStore _ hbbx).trans (State.reg_keepXb s.cutPulse s.cutPulse.coldBase hclk)

/-- The reset of PORST_N leaves the records of the store: a fuse pulse that it cuts short is no record. -/
theorem State.nv_coldReset (s : State) : s.coldReset.bbx.nv = s.bbx.nv := by
  have hcut : s.cutPulse.bbx = s.bbx := (s.cutPulse_keeps (Sub.refl _)).rest .bbx rfl
  have hreset : s.coldReset.bbx = s.cutPulse.coldBase.bbx := s.coldReset_keeps_of_coldBase.rest .bbx rfl
  rw [hreset, ← hcut]
  rfl

/-! ### Rails (R514) -/

/-- What a dip of a rail changes beside the reset of PORST_N: registers, clocking, the timer and that the part is held. It holds
the part in reset, and only a dip of VDD_AON restarts the always-on timer. -/
theorem State.railReset_after_coldReset (s : State) (rail : Nat) : Keeps 0x2010000A s.coldReset (s.railReset rail) ∧
    (s.railReset rail).inReset = true ∧ (s.railReset rail).now = 0 ∧
    (s.railReset rail).aon = if rail = 5 then 0 else s.aon := by
  have hF := Sub.refl 0x2010000A
  obtain ⟨hnow, haon⟩ := s.time_coldReset
  unfold State.railReset
  generalize s.coldReset = t at hnow haon ⊢
  extract_lets _ held xb disarmed
  have hheld : Keeps 0x2010000A t held := Keeps.mk_inReset (Keeps.refl t) (hF.within rfl)
  have hdisarmed : Keeps 0x8 held disarmed :=
    (((held.setValid_keeps _ _ (Sub.refl _)).trans (State.setFlag_keeps _ _ _ (Sub.refl _))).trans
      (State.setFlag_keeps _ _ _ (Sub.refl _))).trans (State.fset_keeps _ _ _ (Sub.refl _))
  by_cases hrail : rail = 5
  · rw [if_neg (not_not_intro hrail), if_pos hrail]
    refine ⟨Keeps.mk_aon_clk (hheld.trans (hdisarmed.weaken (hF.within rfl))) (hF.within rfl), ?_, ?_, rfl⟩ <;> dsimp only
    · exact hdisarmed.rest .inReset rfl
    · exact (hdisarmed.time rfl).1.trans hnow
  · rw [if_pos hrail, if_neg hrail]
    exact ⟨hheld, rfl, hnow, haon⟩

theorem exec_railDip_below {rail mv lim : Nat} {s : State} (hrail : railMin rail = some lim) (hmv : mv < lim) :
    exec (.railDip rail mv) s = .next (s.railReset rail) := by
  change execRailDip rail mv s = _
  unfold execRailDip
  rw [hrail]
  exact done_ite_of hmv s _

/-! ### Packets -/

/-- An operation whose footprint leaves out time does not take the always-on timer back. -/
theorem Keeps.aon_le {F : Nat} {s t : State} (k : Keeps F s t) (hF : F.testBit 1 = false) : s.aon ≤ t.aon :=
  (k.time hF).2.ge

section
variable {f : State → Bool → State} (hf : ∀ (u : State) (hw : Bool), u.aon ≤ (f u hw).aon)
include hf

theorem State.aon_le_hwPacket (s : State) (op : Nat) (h : Halyard) (len : List Nat → Option Nat) :
    s.aon ≤ (s.hwPacket op h len f).aon := by
  unfold State.hwPacket
  extract_lets q
  have htake : s.aon ≤ (s.takePacket q).aon := (s.takePacket_keeps q (Sub.refl _)).aon_le rfl
  split
  · exact htake.trans ((State.repeatReply_keeps _ (Sub.refl _)).aon_le rfl)
  split
  · exact htake.trans ((State.refusePacket_keeps _ _ _ _ _ (Sub.refl _)).aon_le rfl)
  split
  · exact htake.trans (hf _ _)
  split
  · exact (s.holdPacket_keeps q (Sub.refl _)).aon_le rfl
  · exact htake.trans ((State.replySt_keeps _ _ _ _ (Sub.refl _)).aon_le rfl)

/-- A packet takes the always-on timer back only where its opcode does. -/
theorem State.aon_le_packet (s : State) (op : Nat) (h : Halyard) (len : List Nat → Option Nat) :
    s.aon ≤ (s.packet op h len f).aon := by
  unfold State.packet
  extract_lets q woken taken
  have hwoken : s.aon ≤ woken.aon := (s.wakeEvent_keeps _ _ (Sub.refl _)).aon_le rfl
  have hheld : s.aon ≤ (woken.holdPacket q).aon := hwoken.trans ((woken.holdPacket_keeps q (Sub.refl _)).aon_le rfl)
  have htaken : s.aon ≤ taken.aon := (hwoken.trans ((woken.takePacket_keeps q (Sub.refl _)).aon_le rfl)).trans
    ((State.trace_keeps _ _ _ _ (Sub.refl _)).aon_le rfl)
  split
  · exact hwoken
  split
  · exact hheld
  split
  · split
    · exact hwoken
    split
    · exact htaken.trans ((State.repeatReply_keeps _ (Sub.refl _)).aon_le rfl)
    split
    · exact htaken.trans ((State.refusePacket_keeps _ _ _ _ _ (Sub.refl _)).aon_le rfl)
    · exact htaken.trans (hf _ _)
  split
  · split
    · exact hwoken.trans (woken.aon_le_hwPacket hf op h len)
    · exact hwoken
  split
  · exact hheld
  · exact hwoken

end

/-- The reset of WARM_RESET and its boot take the always-on timer on by the time they take. -/
theorem State.time_boot_warmReset (s : State) (o : BootObs) :
    (s.warmReset.boot false o).aon = s.aon + 1000 * o.bootUs := by
  rw [(s.warmReset.time_boot false o).2, ((s.warmReset_keeps (Sub.refl _)).time rfl).2]

/-! ### Commands and the always-on timer -/

theorem aon_le_porstN {lowNs : Nat} {obs : BootObs} {s t : State} (h : exec (.porstN lowNs obs) s = .next t) : s.aon ≤ t.aon := by
  change done (if _ then s else s.bootCold obs) = .next t at h
  cases h
  split
  · exact le_rfl
  · exact (Nat.le_add_right _ _).trans (s.time_bootCold obs).2.ge

theorem aon_le_railsInRange {obs : BootObs} {s t : State} (h : exec (.railsInRange obs) s = .next t) : s.aon ≤ t.aon := by
  change done (if _ then s.bootCold obs else s) = .next t at h
  cases h
  split
  · exact (Nat.le_add_right _ _).trans (s.time_bootCold obs).2.ge
  · exact le_rfl

theorem aon_le_railDip {rail mv : Nat} {s t : State} (hrail : rail ≠ 5) (h : exec (.railDip rail mv) s = .next t) :
    s.aon ≤ t.aon := by
  change execRailDip rail mv s = .next t at h
  unfold execRailDip at h
  cases h
  split
  · split
    · exact ((s.railReset_after_coldReset rail).2.2.2.trans (if_neg hrail)).ge
    · exact le_rfl
  · exact le_rfl

theorem aon_le_warmReset {p : Halyard} {obs : BootObs} {s t : State} (h : exec (.warmReset p obs) s = .next t) :
    s.aon ≤ t.aon := by
  change execWarmReset p obs s = .next t at h
  unfold execWarmReset at h
  cases h
  refine State.aon_le_packet (fun u hw => ?_) s _ _ _
  dsimp only
  split
  · exact (u.replyBad_keeps _ _ _ (Sub.refl _)).aon_le rfl
  split
  · exact (u.replySt_keeps _ _ _ (Sub.refl _)).aon_le rfl
  split
  · exact (u.replySt_keeps _ _ _ (Sub.refl _)).aon_le rfl
  · rw [State.time_boot_warmReset]
    have hanswered := (u.replyOk_keeps 0x2F p [] (Sub.refl _)).aon_le rfl
    have hcommitted := ((u.replyOk 0x2F p []).fullCommit_keeps (Sub.refl _)).aon_le rfl
    dsimp only
    omega

/-- Idle time passes on the always-on timer, and on the part's own except in freeze (R410, R499). -/
theorem State.time_idle (s : State) : s.idle.aon = s.aon + 1 ∧ (s.frozen = true → s.idle.now = s.now) ∧
    (s.frozen = false → s.idle.now = s.now + 1) := by
  unfold State.idle
  cases s.frozen <;> simp

theorem State.tick_keeps_of_idle (s : State) : Keeps 0x1BFDF7FC s.idle s.tick := by
  have hF := Sub.refl 0x1BFDF7FC
  exact ((((((State.portTick_keeps _ (hF.within rfl)).trans (State.engTick_keeps _ (hF.within rfl))).trans
    (State.entryTick_keeps _ (hF.within rfl))).trans (State.wakeTick_keeps _ (hF.within rfl))).trans
    (State.twTick_keeps _ (hF.within rfl))).trans (State.dbgTick_keeps _ (hF.within rfl))).trans
    (State.fwTick_keeps _ (hF.within rfl))

/-- A command that may not change time leaves the always-on timer alone. -/
theorem aon_le_of_time_not_mem {c : Instr} {s t : State} (h : exec c s = .next t) (hc : Piece.time ∉ mayChange c) :
    s.aon ≤ t.aon :=
  (keeps_of_exec_eq_next h).aon_le (Piece.mask_bit _ .time hc)

/-! ### WARM_RESET (R436) -/

theorem exec_warmReset_sail {h : Halyard} {obs : BootObs} {s : State} (ht : s.takes 0x2F h (fixedLen 1))
    (hkey : arg h 0 = 0x5741524D) (hmoves : s.powerMoves = false) (hfuse : s.fuseBusy = false) :
    exec (.warmReset h obs) s = .next (
      let u := (((s.begun 0x2F h).replyOk 0x2F h []).fullCommit).1
      (State.warmReset { u with now := u.now + 100000, aon := u.aon + 100000 }).boot false obs) := by
  refine done_packet_takes ht ?_
  have hm : (s.begun 0x2F h).powerMoves = false := by
    unfold State.powerMoves
    rw [State.begun_pw_entry, State.begun_pw_slot, State.begun_inSail]
    exact hmoves
  rw [if_neg (not_not_intro hkey), hm, if_neg Bool.false_ne_true, State.begun_fuseBusy, hfuse, if_neg Bool.false_ne_true]

/-! ### The ends of boot (R438, R440) -/

/-- A calibration trigger is no register. -/
theorem State.regs_foldl_calAdd (s : State) (l : List Nat) (j : Nat → CalJob) :
    (l.foldl (fun (s : State) i => s.calAdd (j i)) s).regs = s.regs :=
  (Keeps.foldl l _ (fun u i h => h.trans (u.calAdd_keeps (j i) (Sub.refl _))) (Keeps.refl s)).rest .regs rfl

/-- What follows DEV.STATE and DEV.BOOT in the report of READY touches neither. -/
theorem State.reg_becomeReady (s : State) {a : Nat} (ha : Aside a) (htime : a ≠ DEV.BOOT_TIME) : s.becomeReady.reg a =
    (((s.fset DEV.STATE_DEV_STATE 1).fset DEV.BOOT_STEP 9).setFlag DEV.BOOT_READY true).reg a := by
  unfold State.becomeReady
  extract_lets ready recorded
  have hrecorded : recorded.reg a = ready.reg a := (ha.reg_record ..).trans (State.reg_fset_other _ _ htime)
  rw [← hrecorded]
  exact congrArg (SMap.get (resetOf a) · a) (recorded.regs_foldl_calAdd _ _)

/-- Reset hold shows its state and its reason, and firmware does not run; the records that follow touch neither. -/
theorem State.reg_holdBoot (s : State) (reason : Nat) {a : Nat} (ha : Aside a) : (s.holdBoot reason).reg a =
    ((((((s.endPackets St.aborted).disableAll.discardRequests.discardReceived).fset DEV.STATE_DEV_STATE 3).fset DEV.STATE_REASON
      reason).fset MGC.STATUS_FW_STATE 0)).reg a := by
  unfold State.holdBoot State.bootRecord State.resetHold State.recordState
  rw [ha.reg_record, ha.reg_record]

theorem State.wf_stopped {s : State} (h : Regs.wf s.regs = true) :
    Regs.wf ((s.endPackets St.aborted).disableAll.discardRequests.discardReceived).regs = true := by
  have hF := Sub.refl 0x9E147FC
  exact ((((s.endPackets_keeps _ (hF.within rfl)).trans (State.disableAll_keeps _ (hF.within rfl))).trans
    (State.discardRequests_keeps _ (hF.within rfl))).trans (State.discardReceived_keeps _ (hF.within rfl))).regs h

/-! ### The fuse packets (Table 16.7) -/

section
variable {h : Halyard} {s : State}

theorem exec_otpRead_inRange (ht : s.takes 0x50 h (fixedLen 2)) (hres : bits (arg h 0) 10 6 = 0) (hres' : bits (arg h 0) 18 14 = 0)
    (hleast : 1 ≤ arg h 1) (hmost : arg h 1 ≤ 56) (hlast : bits (arg h 0) 0 10 + arg h 1 ≤ 0x400) (hbusy : s.fuseBusy = false) :
    exec (.otpRead h) s = .next ((s.begun 0x50 h).replyOk 0x50 h ((List.range (arg h 1)).map (fun i =>
      if bits (arg h 0) 16 2 = 3 then s.inUse (bits (arg h 0) 0 10 + i)
      else s.fuseAt (bits (arg h 0) 16 2) (bits (arg h 0) 0 10 + i)))) := by
  refine done_packet_takes ht ?_
  simp only [State.begun_fuseBusy, State.begun_inUse, State.begun_fuseAt]
  rw [if_neg (not_or.mpr ⟨not_not_intro hres, not_not_intro hres'⟩), if_neg (by omega), hbusy, if_neg Bool.false_ne_true]

theorem exec_otpProgram_accepted (ht : s.takes 0x51 h (fixedLen 2)) (hword : arg h 0 < 0x400) (hvalue : arg h 1 ≠ 0)
    (hclears : lessBits (s.fuseAt 0 (arg h 0)) (arg h 1) = 0) (hmay : s.mayProgram (arg h 0) = true)
    (hen : s.flag OTP.CTRL_PROG_EN = true) (hstate : s.fuseState = true) (hbusy : s.fuseBusy = false) (hroom : s.opRoom = true) :
    exec (.otpProgram h) s = .next (
      let a := (s.begun 0x51 h).accepted 0x51 h 1 (arg h 0)
      a.1.startFuse ⟨arg h 0, arg h 1, 1, some a.2, none⟩) := by
  refine done_packet_takes ht ?_
  simp only [State.begun_fuseBusy, State.begun_fuseAt, State.begun_mayProgram, State.begun_flag, State.begun_fuseState]
  rw [if_neg (Nat.not_le.mpr hword), if_neg (not_or.mpr ⟨hvalue, not_not_intro hclears⟩),
    if_neg (not_or.mpr ⟨not_not_intro hmay, not_not_intro hen⟩), if_neg (not_not_intro hstate), hbusy, if_neg Bool.false_ne_true,
    State.accept_begun_room hroom]

theorem exec_otpReblow_accepted (ht : s.takes 0x52 h (fixedLen 1)) (hword : arg h 0 < 0x400) (hused : s.inUse (arg h 0) ≠ 0)
    (hen : s.flag OTP.CTRL_PROG_EN = true) (hstate : s.fuseState = true) (hbusy : s.fuseBusy = false) (hroom : s.opRoom = true) :
    exec (.otpReblow h) s = .next (
      let a := (s.begun 0x52 h).accepted 0x52 h 1 (arg h 0)
      a.1.startFuse ⟨arg h 0, a.1.inUse (arg h 0), 2, some a.2, none⟩) := by
  refine done_packet_takes ht ?_
  simp only [State.begun_fuseBusy, State.begun_inUse, State.begun_flag, State.begun_fuseState]
  rw [if_neg (not_or.mpr ⟨Nat.not_le.mpr hword, hused⟩), if_neg (not_not_intro hen), if_neg (not_not_intro hstate), hbusy,
    if_neg Bool.false_ne_true, State.accept_begun_room hroom]

theorem exec_otpLock_starts (ht : s.takes 0x53 h (fixedLen 1)) (hregion : arg h 0 < 7)
    (hmay : arg h 0 = 5 ∨ arg h 0 = 6 ∨ s.otp.vtm = true) (hen : s.flag OTP.CTRL_PROG_EN = true) (hlock : s.lockSet (arg h 0) = false)
    (hlockable : s.lockable (arg h 0) = true) (hstate : s.fuseState = true) (hbusy : s.fuseBusy = false) :
    exec (.otpLock h) s = .next ((s.begun 0x53 h).startFuse ⟨0x010, 7 * 2 ^ (3 * arg h 0), 3, none, some h⟩) := by
  refine done_packet_takes ht ?_
  have hallowed : ¬ ((arg h 0 ≠ 5 ∧ arg h 0 ≠ 6 ∧ ¬ s.otp.vtm = true) ∨ ¬ s.flag OTP.CTRL_PROG_EN = true) := by
    rintro (⟨h5, h6, hv⟩ | hn)
    · exact hmay.elim h5 fun hmay => hmay.elim h6 hv
    · exact hn hen
  simp only [State.begun_fuseBusy, State.begun_otp, State.begun_flag, State.begun_lockSet, State.begun_lockable,
    State.begun_fuseState]
  rw [if_neg (Nat.not_le.mpr hregion), if_neg hallowed, hlock, if_neg Bool.false_ne_true, if_neg (not_not_intro hlockable),
    if_neg (not_not_intro hstate), hbusy, if_neg Bool.false_ne_true]

theorem exec_otpMargin_idle (ht : s.takes 0x54 h (fixedLen 0)) (hbusy : s.fuseBusy = false) :
    exec (.otpMargin h) s = .next ((s.begun 0x54 h).replyOk 0x54 h (s.fget OTP.MARG_CNT_COUNT ::
      ((List.range 16).filter (fun k => s.flag (OTP.MARG_LIST_VALID k))).map (fun k => (s.reg (OTP.MARG_LIST k)).toNat))) := by
  refine done_packet_takes ht ?_
  simp only [State.begun_fuseBusy, State.begun_flag, State.begun_fget, State.begun_reg]
  rw [hbusy, if_neg Bool.false_ne_true]

theorem exec_progDone_running {j : FuseJob} (hj : s.otp.job = some j) (hfrozen : s.frozen = false) (hpwr : s.pwr ≤ 2)
    (hdev : s.devState ≤ 1) (pulses : List FuseWord) :
    exec (.progDone pulses) s = .next ((s.fuseDone j pulses).hardenNext) := by
  change execProgDone pulses s = _
  unfold execProgDone
  rw [hj]
  exact congrArg done (if_neg (by simp only [hfrozen, Bool.false_eq_true, false_or]; omega))

theorem exec_progDone_idle (hj : s.otp.job = none) (pulses : List FuseWord) : exec (.progDone pulses) s = .next s.hardenNext := by
  change execProgDone pulses s = _
  unfold execProgDone
  rw [hj]

end

/-! ### The obligations -/

/-- Settles O56: time is no piece of any command but four, of which three count it on and a dip of another rail keeps it; an idle
step is one nanosecond, and what then goes on keeps time. -/
theorem theAlwaysOnTimerNeverGoesBack : Obligations.TheAlwaysOnTimerNeverGoesBack := by
  refine ⟨fun c s t h hdip => ?_, fun s t hq h => ?_⟩
  · cases c with
    | porstN => exact aon_le_porstN h
    | warmReset => exact aon_le_warmReset h
    | railDip rail mv => exact aon_le_railDip (fun e => hdip mv (e ▸ rfl)) h
    | railsInRange => exact aon_le_railsInRange h
    | _ => exact aon_le_of_time_not_mem h (of_decide_eq_true rfl)
  · rw [stepRunsTheFrontCommand.2 s hq] at h
    cases h
    obtain ⟨hnow, haon⟩ := s.tick_keeps_of_idle.time rfl
    obtain ⟨hidle, hfrozen, hruns⟩ := s.time_idle
    exact ⟨haon.trans hidle, fun hf => hnow.trans (hfrozen hf), fun hf => hnow.trans (hruns hf)⟩

/-- Settles O7: the monitor of XB and the scan of the store change registers and clocking only, and everything else is as the
reset's base has it. -/
theorem coldResetKeepsOnlyTheAlwaysOnPartAndTheStore : Obligations.ColdResetKeepsOnlyTheAlwaysOnPartAndTheStore := by
  intro s _ hjob
  have k := s.coldReset_keeps_of_coldBase
  rw [State.cutPulse_idle hjob] at k
  have hwords : s.coldReset.otp.words = s.coldBase.otp.words := congrArg OtpSt.words (k.rest .otp rfl)
  exact ⟨(k.rest .arrays rfl).1, k.rest .ports rfl, k.rest .links rfl, (k.rest .txns rfl).1, k.rest .slices rfl, k.rest .engs rfl,
    k.rest .scn rfl, k.rest .flt rfl, k.rest .mgc rfl, s.time_coldReset.1, fun a hclk hbbx => s.reg_coldReset hclk hbbx,
    s.time_coldReset.2, s.nv_coldReset, hwords, k.rest .part rfl, k.pending⟩

/-- Settles O8: each reset meets its guard; the time is that of boot, and a rail's reset is that of PORST_N, held. -/
theorem resetsRunBoot : Obligations.ResetsRunBoot := by
  refine ⟨fun lowNs obs s hlow hreset hpins => ⟨congrArg done (if_neg ?_), s.time_bootCold obs⟩,
    fun lowNs obs s hguard => congrArg done (if_pos hguard), fun obs s hguard => done_ite_of hguard s _,
    fun rail mv lim s hrail hmv => ⟨_, exec_railDip_below hrail hmv, ?_⟩,
    fun h obs s ht hkey hmoves hfuse => ⟨_, rfl, exec_warmReset_sail ht hkey hmoves hfuse⟩, fun s => rfl⟩
  · rintro (hshort | hheld | htaken)
    · exact absurd hlow (Nat.not_le.mpr hshort)
    · exact ne_true_of_eq_false hreset hheld
    · exact ne_true_of_eq_false hpins htaken
  · have k := s.coldReset_keeps_of_coldBase
    obtain ⟨r, hheld, hnow, haon⟩ := s.railReset_after_coldReset rail
    exact ⟨hheld, (r.rest .arrays rfl).1.trans (k.rest .arrays rfl).1, (r.rest .txns rfl).1.trans (k.rest .txns rfl).1, hnow,
      (congrArg BbxSt.nv (r.rest .bbx rfl)).trans s.nv_coldReset, haon⟩

/-- Settles O9: the fields are written last but for the records of the black box, which touch other blocks. -/
theorem bootEndsInReadyOrInHold : Obligations.BootEndsInReadyOrInHold := by
  refine ⟨fun s h hfw hdev hmay => ⟨_, done_ite_of ⟨hfw, hdev, hmay⟩ s _, ?_⟩,
    fun s h hdev hreset => ⟨_, done_ite_of ⟨hdev, ne_true_of_eq_false hreset⟩ s _, ?_⟩⟩
  · have hstate := State.wf_fset h DEV.STATE_DEV_STATE 1
    have hboot := State.wf_fset hstate DEV.BOOT_STEP 9
    refine ⟨?_, ?_, ?_⟩
    · refine (State.fget_congr (s.reg_becomeReady (by unfold Aside; decide) (by decide))).trans ?_
      unfold State.setFlag
      rw [State.fget_fset_other _ _ (by decide), State.fget_fset_other _ _ (by decide), State.fget_fset_same h _ _ (by decide)]
      rfl
    · refine (State.fget_congr (s.reg_becomeReady (by unfold Aside; decide) (by decide))).trans ?_
      unfold State.setFlag
      rw [State.fget_fset_apart (f := DEV.BOOT_READY) (g := DEV.BOOT_STEP) hboot _ rfl (by decide) (by decide),
        State.fget_fset_same hstate _ _ (by decide)]
      rfl
    · unfold State.flag
      rw [State.fget_congr (s.reg_becomeReady (by unfold Aside; decide) (by decide))]
      exact State.flag_setFlag_same hboot true rfl (by decide)
  · have hwf := State.wf_stopped h
    have hstate := State.wf_fset hwf DEV.STATE_DEV_STATE 3
    have hreason := State.wf_fset hstate DEV.STATE_REASON 0x0701
    refine ⟨?_, ?_, ?_⟩
    · refine (State.fget_congr (s.reg_holdBoot _ (by unfold Aside; decide))).trans ?_
      rw [State.fget_fset_other _ _ (by decide), State.fget_fset_apart (f := DEV.STATE_REASON)
        (g := DEV.STATE_DEV_STATE) hstate _ rfl (by decide) (by decide), State.fget_fset_same hwf _ _ (by decide)]
      rfl
    · rw [State.fget_congr (s.reg_holdBoot _ (by unfold Aside; decide)), State.fget_fset_other _ _ (by decide),
        State.fget_fset_same hstate _ _ (by decide)]
      rfl
    · rw [State.fget_congr (s.reg_holdBoot _ (by unfold Aside; decide)), State.fget_fset_same hreason _ _ (by decide)]
      rfl

/-- Settles O3: State.reset lists nothing. -/
theorem resetIsInCanonicalForm : Obligations.ResetIsInCanonicalForm :=
  ⟨⟨rfl, rfl, rfl⟩, rfl, rfl, rfl, fun _ => rfl⟩

/-- Settles O26: the five packets pass each of their checks, and the two cases of PROG_DONE are whether an operation runs. -/
theorem fuseCommandsComplete : Obligations.FuseCommandsComplete :=
  ⟨fun _ _ => exec_otpRead_inRange, fun _ _ => exec_otpProgram_accepted, fun _ _ => exec_otpReblow_accepted,
    fun _ _ => exec_otpLock_starts, fun _ _ => exec_otpMargin_idle,
    fun _ pulses _ hj hfrozen hpwr hdev => exec_progDone_running hj hfrozen hpwr hdev pulses,
    fun pulses _ hj => exec_progDone_idle hj pulses⟩

end Sys2Proof.Machine
end

section
/-! The obligations of spec/11_stack_test_and_repair.md on tests: BIST and field test, and the test access port. -/

namespace Sys2Proof.Machine

open Sys2Proof.Reg

/-! ### BIST (R342, R343) -/

section
variable {h : Halyard} {s : State}

theorem exec_bistRun_accepted (ht : s.takes 0x40 h (fixedLen 1)) (heng : s.engExists (bits (arg h 0) 0 8) = true)
    (hset : bits (arg h 0) 8 2 < 2) (hres : bits (arg h 0) 10 22 = 0) (hsail : s.inSail = true)
    (hallowed : s.bistAllowed (bits (arg h 0) 0 8) = true) (hidle : s.stk.bist = none) (hroom : s.opRoom = true) :
    exec (.bistRun h) s = .next (
      let a := (s.begun 0x40 h).accepted 0x40 h 1 (bits (arg h 0) 0 8)
      State.setFlag { a.1 with stk := { a.1.stk with bist := some (bits (arg h 0) 0 8, bits (arg h 0) 8 2, a.2) } }
        STK.STATUS_BIST_BUSY true) := by
  refine done_packet_takes ht ?_
  have hlegal : ¬ (¬ s.engExists (bits (arg h 0) 0 8) = true ∨ 2 ≤ bits (arg h 0) 8 2 ∨ bits (arg h 0) 10 22 ≠ 0) := by
    simp [heng, hset, hres]
  simp only [State.begun_engExists, State.begun_inSail, State.begun_bistAllowed, State.begun_stk, hidle]
  rw [if_neg hlegal, if_neg (not_or.mpr ⟨not_not_intro hsail, not_not_intro hallowed⟩), State.accept_begun_room hroom]
  rfl

theorem exec_bistDone_running {m set id : Nat} (hl : s.live = true) (hb : s.stk.bist = some (m, set, id))
    (fails : List (Nat × Nat)) :
    exec (.bistDone fails) s = .next (s.bistDone m set id (if set = 0 then quickFails fails else fails)) := by
  change execBistDone fails s = _
  unfold execBistDone
  rw [hb]
  exact done_ite_of hl s _

theorem exec_bistResult_existing (ht : s.takes 0x41 h (fixedLen 1)) (heng : s.engExists (bits (arg h 0) 0 8) = true) :
    exec (.bistResult h) s = .next (
      let t := SMap.get ⟨0xFF, 0, []⟩ s.stk.last (bits (arg h 0) 0 8)
      (s.begun 0x41 h).replyOk 0x41 h
        ((t.set * 2 ^ 24 + t.recs.length * 2 ^ 16 + min 0xFFFF t.words) :: t.recs.flatMap (fun r => [r.1, r.2]))) := by
  refine done_packet_takes ht ?_
  simp only [State.begun_engExists, State.begun_stk]
  exact if_neg (not_not_intro heng)

/-! ### Field test (R344 to R348) -/

theorem exec_fieldTest_accepted (ht : s.takes 0x45 h (fixedLen 1)) (heng : s.engExists (bits (arg h 0) 0 8) = true)
    (hsail : s.inSail = true) (hskip : s.ftSkips (bits (arg h 0) 0 8) = false) (hidle : s.testing (bits (arg h 0) 0 8) = false)
    (hroom : s.opRoom = true) (errs : List (Nat × Nat)) : exec (.fieldTest h errs) s = .next (
      let a := (s.begun 0x45 h).accepted 0x45 h 1 (bits (arg h 0) 0 8)
      a.1.beginTest (bits (arg h 0) 0 8) (some a.2) errs) := by
  refine done_packet_takes ht ?_
  simp only [State.begun_engExists, State.begun_inSail, State.begun_ftSkips, State.begun_testing]
  rw [if_neg (not_not_intro heng), if_neg (not_or.mpr ⟨not_not_intro hsail, ne_true_of_eq_false hskip⟩),
    if_neg (ne_true_of_eq_false hidle), State.accept_begun_room hroom]

theorem exec_fieldTestRetest_running {m : Nat} {t : FieldTest} (ht : s.stk.tests.find? (fun t => t.mast = m) = some t)
    (hmay : s.testable m = true) (errs : List (Nat × Nat)) : exec (.fieldTestRetest m errs) s = .next (s.retest t errs) := by
  change execFieldTestRetest m errs s = _
  unfold execFieldTestRetest
  rw [ht]
  exact done_ite_of hmay s _

end

/-! ### The test access port (R352 to R355, R501) -/

theorem exec_cnsResume_resumes {s : State} (hfrozen : s.frozen = true) (hkept : s.flag CNS.STATUS_REFRESH_KEPT = true)
    (hptr : s.fget CNS.IMG_PTR_BIT = 0) : exec (.cnsResume true true) s = .next ((s.tapSelect 0x3C bypassOut).resume) :=
  congrArg done ((if_neg (not_or.mpr ⟨not_not_intro hfrozen, not_not_intro rfl⟩)).trans (if_pos ⟨hkept, hptr, rfl⟩))

theorem exec_cnsResume_selects {s : State} {pin update : Bool} (h : s.frozen = false ∨ update = false) :
    exec (.cnsResume pin update) s = .next (s.tapSelect 0x3C bypassOut) :=
  congrArg done (if_pos (h.imp ne_true_of_eq_false ne_true_of_eq_false))

theorem exec_cnsResume_denied {s : State} {pin : Bool} (hfrozen : s.frozen = true)
    (h : s.flag CNS.STATUS_REFRESH_KEPT = false ∨ s.fget CNS.IMG_PTR_BIT ≠ 0 ∨ pin = false) :
    exec (.cnsResume pin true) s = .next ((s.tapSelect 0x3C bypassOut).setFlag CNS.STATUS_RESUME_DENIED true) := by
  refine congrArg done ((if_neg (not_or.mpr ⟨not_not_intro hfrozen, not_not_intro rfl⟩)).trans (if_neg ?_))
  rintro ⟨hkept, hptr, hpin⟩
  exact h.elim (ne_true_of_eq_false · hkept) fun h => h.elim (· hptr) (ne_true_of_eq_false · hpin)

/-! ### The obligations -/

/-- Settles O23: the packets pass each of their checks and have room, and the events meet their guards. -/
theorem testPacketsComplete : Obligations.TestPacketsComplete :=
  ⟨fun _ _ => exec_bistRun_accepted, fun _ _ _ fails _ hl hb => exec_bistDone_running hl hb fails,
    fun _ _ => exec_bistResult_existing,
    fun _ errs _ ht heng hsail hskip hidle hroom => exec_fieldTest_accepted ht heng hsail hskip hidle hroom errs,
    fun _ s hready hen hfrozen htrip =>
      done_ite_of ⟨hready, hen, ne_true_of_eq_false hfrozen, ne_true_of_eq_false htrip⟩ s _,
    fun _ _ errs _ ht hmay => exec_fieldTestRetest_running ht hmay errs⟩

/-- Settles O34: an instruction of the base die selects itself without a condition, and a die instruction by its operation; STK_DSEL
asks for access to the dies, and CNS_RESUME for a freeze and then for what a resume needs. -/
theorem tapCommandsComplete : Obligations.TapCommandsComplete :=
  ⟨fun _ _ _ => rfl, fun _ _ _ => rfl, fun _ => rfl, fun _ => rfl, fun _ => rfl, fun _ => rfl, fun _ => rfl, fun _ _ => rfl,
    fun _ => rfl, fun _ s hacc => done_ite_of hacc (s.tapSelect 0x38 bypassOut) _,
    fun _ _ hacc => congrArg done (if_neg (ne_true_of_eq_false hacc)), fun _ => rfl, fun _ _ => rfl, fun _ _ _ => rfl,
    fun _ _ _ _ => rfl, fun _ _ _ _ => rfl, fun _ _ _ _ => rfl, fun _ _ => rfl, fun _ => exec_cnsResume_resumes,
    fun _ _ _ => exec_cnsResume_selects, fun _ _ => exec_cnsResume_denied⟩

end Sys2Proof.Machine
end

section
/-! The obligations of spec/12_calibration.md and spec/13_thermal.md, with the opcodes of the debug trace and those without a
meaning of their own: packets, events of calibration, samples and the ends of a trip. -/

namespace Sys2Proof.Machine

open Sys2Proof.Reg

/-! ### Calibration packets (R368) -/

section
variable {h : Halyard} {s : State}

/-- What CAL_RUN makes of legal targets that are in reach and of which none is queued. -/
theorem exec_calRun_accepted (ht : s.takes 0x80 h (fixedLen 1)) (htarget : s.badTarget (arg h 0) = false)
    (hsail : s.inSail = true) (hup : bits (arg h 0) 28 4 = 1 → s.portState (bits (arg h 0) 0 3) = 5)
    (hxa : bits (arg h 0) 28 4 = 2 → s.flag CLK.STATUS_XA_VALID = true)
    (hidle : (s.calTargets (arg h 0)).any (fun t => s.calQueued t.1 t.2) = false) (hroom : s.opRoom = true) :
    exec (.calRun h) s = .next (
      if bits (arg h 0) 28 4 = 1 then
        let a := (s.begun 0x80 h).accepted 0x80 h 1 (arg h 0)
        State.newWindow { a.1 with cal := { a.1.cal with windows := SMap.insert a.1.cal.windows (bits (arg h 0) 0 3) a.2 } }
          (bits (arg h 0) 0 3)
      else
        let a := (s.begun 0x80 h).accepted 0x80 h 0 (arg h 0)
        (s.calTargets (arg h 0)).foldl (fun (u : State) t => u.calAdd ⟨t.1, t.2, 2, some a.2⟩) a.1) := by
  refine done_packet_takes ht ?_
  have hreach : ¬ (¬ s.inSail = true ∨ (bits (arg h 0) 28 4 = 1 ∧ s.portState (bits (arg h 0) 0 3) ≠ 5) ∨
      (bits (arg h 0) 28 4 = 2 ∧ ¬ s.flag CLK.STATUS_XA_VALID = true)) := by
    rintro (hn | ⟨h1, h5⟩ | ⟨h2, hx⟩)
    · exact hn hsail
    · exact h5 (hup h1)
    · exact hx (hxa h2)
  simp only [State.begun_badTarget, State.begun_inSail, State.begun_portState, State.begun_flag, State.begun_calTargets,
    State.begun_calQueued, State.accept_begun_room hroom]
  rw [htarget, if_neg Bool.false_ne_true, if_neg hreach, hidle, if_neg Bool.false_ne_true]

theorem exec_calStatus_legal (ht : s.takes 0x81 h (fixedLen 1)) (htarget : s.badTarget (arg h 0) = false)
    (hkind : bits (arg h 0) 28 4 ≠ 3) : exec (.calStatus h) s = .next ((s.begun 0x81 h).replyOk 0x81 h
      ((if bits (arg h 0) 28 4 = 0 then
          [CAL.DIE_CAL (bits (arg h 0) 0 3 + 1), CAL.DIE_TIME (bits (arg h 0) 0 3 + 1), CAL.DIE_TEMP (bits (arg h 0) 0 3 + 1)]
        else if bits (arg h 0) 28 4 = 1 then [CAL.LANE_CAL (bits (arg h 0) 0 3)] else [CAL.FIO_STAT, CAL.FIO_TIME]).map
          (fun a => (s.reg a).toNat))) := by
  refine done_packet_takes ht ?_
  simp only [State.begun_badTarget, State.begun_reg]
  exact if_neg (not_or.mpr ⟨ne_true_of_eq_false htarget, hkind⟩)

theorem exec_calCfg_inRange (ht : s.takes 0x82 h (fixedLen 1)) (hleast : 2 ≤ bits (arg h 0) 24 8)
    (hmost : bits (arg h 0) 24 8 ≤ 30) (hperiod : 100 ≤ bits (arg h 0) 8 16) : exec (.calCfg h) s =
      .next (((s.begun 0x82 h).setReg CAL.TRIG_CFG (BitVec.ofNat 32 (arg h 0))).replyOk 0x82 h []) :=
  done_packet_takes ht (if_neg (by omega))

/-! ### Thermal packets (R385) -/

theorem exec_thmRead_existing (ht : s.takes 0x90 h (fixedLen 1)) (hdie : bits (arg h 0) 0 4 ≤ s.dies)
    (hres : bits (arg h 0) 4 28 = 0) : exec (.thmRead h) s = .next (
      let d := bits (arg h 0) 0 4
      let sens := (List.range 4).map (fun i => if d = 0 ∨ i < 2 then pair10 (s.fget (sensorFld d (2 * i + 1))) (s.fget
        (sensorFld d (2 * i))) else 0)
      let model := if d = 0 then s.fget THM.BASE_EST_MODEL else s.fget (THM.DIE_EST_MODEL d)
      let near := if d = 0 then 0 else s.fget (THM.DIE_EST_NEIGHBOUR d)
      let dbl := decide (0 < d) && s.flag (DCH.STATUS_REF_DOUBLE d)
      let sub := decide (0 < d) && s.flag (THM.DIE_STAT_SUBST d)
      let flags := (s.die d).exclMask d * 2 ^ 24 + 8 * b2n sub + 4 * b2n dbl + 2 * b2n (s.die d).warned + b2n (bitAt (s.fget
        THM.STATUS_FAST) d)
      (s.begun 0x90 h).replyOk 0x90 h (sens ++ [pair10 (tj10 ((s.die d).reading.getD 0)) model, pair10 near (tj10 (s.used d)),
        flags])) := by
  refine done_packet_takes ht ?_
  simp only [State.begun_dies, State.begun_die, State.begun_fget, State.begun_flag, State.begun_used]
  exact if_neg (by omega)

theorem exec_thmSetWarn_inRange (ht : s.takes 0x91 h (fixedLen 1))
    (hwarn : bits (arg h 0) 0 10 = 0 ∨ (0x0F0 ≤ bits (arg h 0) 0 10 ∧ bits (arg h 0) 0 10 ≤ 0x17C))
    (hthr : bits (arg h 0) 16 10 = 0 ∨ (280 ≤ bits (arg h 0) 16 10 ∧ bits (arg h 0) 16 10 ≤
      (if bits (arg h 0) 0 10 = 0 then s.fget THM.WARN_CFG_WARN_TJ else bits (arg h 0) 0 10))) :
    exec (.thmSetWarn h) s = .next (
      let next := if bits (arg h 0) 0 10 = 0 then s.fget THM.WARN_CFG_WARN_TJ else bits (arg h 0) 0 10
      let u := (s.begun 0x91 h).fset THM.WARN_CFG_WARN_TJ next
      let v := if bits (arg h 0) 16 10 = 0 then u else u.fset THM.THR_CFG_THROTTLE_TJ (bits (arg h 0) 16 10)
      (v.retestLevels).replyOk 0x91 h []) := by
  refine done_packet_takes ht ?_
  simp only [State.begun_fget]
  rw [if_neg (by omega), if_neg (by omega)]

theorem exec_thmModel_taken (ht : s.takes 0x92 h (fixedLen 0)) : exec (.thmModel h) s = .next ((s.begun 0x92 h).replyOk 0x92 h
    ([b2n (s.flag THM.STATUS_MODEL_ARMED) * 2 ^ 31 + (if s.flag THM.STATUS_MODEL_ARMED then min 0xFFFF s.thm.armedFor else 0)]
    ++ s.perDie (fun d => toBits 16 (s.die d).model) ++ s.perDie (fun d => min 0xFFFF (SMap.get 0 s.thm.power d)))) := by
  refine done_packet_takes ht ?_
  simp only [State.begun_flag, State.begun_thm, State.begun_perDie, State.begun_die]

/-! ### The trace (R495, R496), and opcodes without a meaning of their own (R140, R545) -/

theorem exec_traceCfg_inRange (ht : s.takes 0xF0 h (fixedLen 1)) (hsrc : bits (arg h 0) 0 4 < 6) :
    exec (.traceCfg h) s = .next (
      let b := s.begun 0xF0 h
      let v : State :=
        { b with trc := { b.trc with src := bits (arg h 0) 0 4, sel := bits (arg h 0) 8 8, pins := bitAt (arg h 0) 16 } }
      v.replyOk 0xF0 h []) :=
  done_packet_takes ht (if_neg (Nat.not_le.mpr hsrc))

theorem exec_traceRead_inRange (ht : s.takes 0xF1 h (fixedLen 1)) (hleast : 1 ≤ bits (arg h 0) 0 6)
    (hmost : bits (arg h 0) 0 6 ≤ 56) : exec (.traceRead h) s = .next (
      let b := s.begun 0xF1 h
      let v : State := { b with trc := { b.trc with buf := b.trc.buf.drop (bits (arg h 0) 0 6) } }
      v.replyOk 0xF1 h ((b.trc.buf.drop (bits (arg h 0) 0 6)).length :: b.trc.buf.take (bits (arg h 0) 0 6))) :=
  done_packet_takes ht (if_neg (by omega))

theorem exec_vendorOpcode_taken {op : Nat} (hop : op = 0xFE ∨ op = 0xFF) (ht : s.takes op h (fun _ => none)) :
    exec (.vendorOpcode op h) s = .next (
      let r := (s.begun op h).fresh
      r.2.replySt op h (r.1 % 256)) := by
  change done (if op = 0xFE ∨ op = 0xFF then _ else s) = _
  rw [if_pos hop]
  exact done_packet_takes ht rfl

/-- An opcode that the part does not have fails the fourth check, where it passes those before. -/
theorem exec_badOpcode_answered {op : Nat} (hop : s.noOpcode op = true) (hserves : s.serves h)
    (hmay : s.mayStart ⟨op, h⟩ = true) (hrep : s.isRepeat ⟨op, h⟩ = false) (hlen : badLength h = false)
    (hwords : assignedOps.contains op = true → fixedLen (if op = 0x70 ∨ op = 0x72 then 2 else 1) h.payload = none)
    (hflag : bitAt h.flags 7 = false) :
    exec (.badOpcode op h) s = .next ((s.begun op h).replySt op h St.badOpcode) := by
  have hpast : assignedOps.contains op = false ∨ fixedLen (if op = 0x70 ∨ op = 0x72 then 2 else 1) h.payload = none := by
    cases ha : assignedOps.contains op with
    | false => exact .inl rfl
    | true => exact .inr (hwords ha)
  have hcheck : s.packetCheck op h (fixedLen (if op = 0x70 ∨ op = 0x72 then 2 else 1)) = some (St.badOpcode, 0) := by
    rw [State.packetCheck_past_len hlen hpast, hflag, if_neg Bool.false_ne_true, if_pos hop]
  change done (if s.noOpcode op then _ else s) = _
  rw [if_pos hop, State.packet_refused hserves hmay hrep hcheck]
  unfold State.refusePacket
  rw [hlen]
  rfl

/-! ### Events of calibration (R360, R362, R366) -/

theorem exec_runDone_last {r : CalRun} (hr : s.cal.run = some r) (hl : s.live = true) (hphase : r.phase = 2) :
    exec .runDone s = .next (s.calEnd r) := by
  change execRunDone s = _
  unfold execRunDone
  rw [hr]
  exact done_ite_of ⟨hl, hphase⟩ s _

theorem exec_fioTrimMeasure_first {r : CalRun} (hmay : s.calMay = true) (hr : s.fioStart.cal.run = some r)
    (hkind : r.job.kind = 2) (hphase : r.phase = 0) (count : Nat) :
    exec (.fioTrimMeasure count) s = .next (s.fioStart.fioMeasure r count) := by
  change execFioTrimMeasure count s = _
  unfold execFioTrimMeasure
  rw [if_pos hmay]
  dsimp only
  rw [hr]
  exact done_ite_of ⟨hkind, hphase⟩ _ _

/-! ### Samples and warnings (R371, R379) -/

/-- The sensors of the base die, and of a die that is in no die reset, are sampled. -/
theorem State.sampleDie_sensed {d : Nat} (hdie : d = 0 ∨ s.fget (DCH.STATUS_DIE_STATE d) = 0) (vals : List (Nat × Int)) :
    s.sampleDie d vals = (
      let u := (sensorsOf d).foldl (State.sampleSensor d vals) s
      let good := (sensorsOf d).any (fun i => decide (((u.die d).sensor i).bad = 0) && !((u.die d).sensor i).failed)
      ((((((u.unholdSensors d good).formTemp d).fastSample d).throttle).warn d).tripTest d).restartHold) := by
  unfold State.sampleDie
  rw [if_neg (by omega)]

/-- In a die reset the temperature of the die is substituted. -/
theorem State.sampleDie_held {d : Nat} (hpos : 1 ≤ d) (hdie : s.fget (DCH.STATUS_DIE_STATE d) ≠ 0) (vals : List (Nat × Int)) :
    s.sampleDie d vals = (((((s.holdSensors d).fastSample d).throttle).warn d).tripTest d).restartHold := by
  unfold State.sampleDie
  rw [if_pos ⟨hpos, hdie⟩]

theorem exec_thmSample_reading {d : Nat} (hd : d ≤ s.dies) (hfrozen : s.frozen = false) (hpwr : s.pwr ≤ 2)
    (hdev : s.devState ≤ 1) (vals : List (Nat × Int)) : exec (.thmSample d vals) s = .next (s.sampleDie d vals) :=
  done_ite_of ⟨hd, ne_true_of_eq_false hfrozen, hpwr, hdev⟩ s _

/-- A warned die that has been cool for long enough clears. -/
theorem State.thermalClear_cooled {d f : Nat} (hwarned : (s.die d).warned = true) (hcool : (s.die d).coolFrom = some f)
    (hlong : f + 100000000 ≤ s.now) : s.thermalClear d = (
      let u := (s.setDie d { s.die d with warned := false, coolFrom := none }).showWarn
      (u.int I.thm 1).event 0x0021 0 (u.warnDetail d)) := by
  unfold State.thermalClear
  simp only [hwarned, hcool, hlong, decide_true, Bool.and_self]
  exact if_pos trivial

/-! ### The ends of a trip (R381, R382) -/

theorem exec_restart_cooled {f : Nat} (htrip : s.tripped = true) (hauto : s.flag THM.CTRL_AUTO_RESTART = true)
    (hhold : s.thm.holdFrom = some f) (hlong : f + 1000000000 ≤ s.aon) (hfrozen : s.frozen = false) :
    exec .restart s = .next s.restart := by
  change execRestart s = _
  unfold execRestart
  rw [hhold]
  exact done_ite_of ⟨htrip, hauto, hlong, ne_true_of_eq_false hfrozen⟩ s _

/-- Whether a reading is as warm as a limit, and the two ways of saying that none is. -/
theorem any_hot_iff {temps : List Int} {limit : Int} :
    temps.any (fun t => decide (limit ≤ t)) = true ↔ ∃ x ∈ temps, limit ≤ x := by simp

theorem any_hot_eq_false {temps : List Int} {limit : Int} (h : ∀ x ∈ temps, x < limit) :
    temps.any (fun t => decide (limit ≤ t)) = false := by simpa using h

theorem State.aonSample_hot {temps : List Int} {x : Int} (hx : x ∈ temps) (hhot : 420 ≤ x) :
    s.aonSample temps = { s with thm := { s.thm with pin := true, holdFrom := none } } :=
  if_pos (any_hot_iff.mpr ⟨x, hx, hhot⟩)

/-- With no reading at the trip level, a part that is not in Furl with THERMTRIP_N driven stays as it is. -/
theorem State.aonSample_idle {temps : List Int} (hcool : ∀ x ∈ temps, x < 420)
    (h : s.pwr ≠ 3 ∨ s.devState = 4 ∨ s.frozen = true ∨ s.thm.pin = false) : s.aonSample temps = s := by
  unfold State.aonSample
  rw [any_hot_eq_false hcool, if_neg Bool.false_ne_true,
    if_pos (h.imp_right (Or.imp_right (Or.imp_right ne_true_of_eq_false)))]

/-- In Furl with THERMTRIP_N driven the condition of a restart decides. -/
theorem State.aonSample_tripped {temps : List Int} (hcool : ∀ x ∈ temps, x < 420) (hpwr : s.pwr = 3) (hdev : s.devState ≠ 4)
    (hfrozen : s.frozen = false) (hpin : s.thm.pin = true) : s.aonSample temps =
      if ¬ s.flag THM.CTRL_AUTO_RESTART ∨ temps.any (fun t => decide (320 ≤ t)) then
        { s with thm := { s.thm with holdFrom := none } }
      else
        match s.thm.holdFrom with
        | some f => if f + 1000000000 ≤ s.aon then { s with thm := { s.thm with pin := false, holdFrom := none } } else s
        | none => { s with thm := { s.thm with holdFrom := some s.aon } } := by
  have hsamples : ¬ (s.pwr ≠ 3 ∨ s.devState = 4 ∨ s.frozen = true ∨ ¬ s.thm.pin = true) := by
    simp [hpwr, hdev, hfrozen, hpin]
  unfold State.aonSample
  rw [any_hot_eq_false hcool, if_neg Bool.false_ne_true]
  exact if_neg hsamples

theorem not_restart_held {temps : List Int} (hauto : s.flag THM.CTRL_AUTO_RESTART = true) (hcold : ∀ x ∈ temps, x < 320) :
    ¬ (¬ s.flag THM.CTRL_AUTO_RESTART = true ∨ temps.any (fun t => decide (320 ≤ t)) = true) :=
  not_or.mpr ⟨not_not_intro hauto, ne_true_of_eq_false (any_hot_eq_false hcold)⟩

end

/-! ### The obligations -/

/-- Settles O29: each packet passes its own checks; a port is the one kind of target of CAL_RUN with a window, and BAD_OPCODE is the
fourth check of every packet. -/
theorem careAndTracePacketsComplete : Obligations.CareAndTracePacketsComplete :=
  ⟨fun _ _ ht htarget hsail hkind hxa hidle hroom =>
      (exec_calRun_accepted ht htarget hsail (absurd · hkind) hxa hidle hroom).trans
      (congrArg done (if_neg hkind)),
    fun _ _ ht htarget hsail hkind hup hidle hroom => (exec_calRun_accepted ht htarget hsail (fun _ => hup)
      (fun h2 => absurd (hkind.symm.trans h2) (by decide)) hidle hroom).trans (congrArg done (if_pos hkind)),
    fun _ _ => exec_calStatus_legal, fun _ _ => exec_calCfg_inRange, fun _ _ => exec_thmRead_existing,
    fun _ _ => exec_thmSetWarn_inRange, fun _ _ => exec_thmModel_taken, fun _ _ => exec_traceCfg_inRange,
    fun _ _ => exec_traceRead_inRange, fun _ _ _ => exec_vendorOpcode_taken, fun _ _ _ => exec_badOpcode_answered⟩

/-- Settles O35: each event meets its guard, with the run that it ends or measures for. -/
theorem calibrationEventsComplete : Obligations.CalibrationEventsComplete :=
  ⟨fun _ _ s hp hl hready => done_ite_of ⟨hp, hl, hready⟩ s _, fun s hl hready => done_ite_of ⟨hl, hready⟩ s _,
    fun s hl => done_ite_of hl s _, fun _ _ _ s hmay heng => done_ite_of ⟨hmay, heng⟩ s _, fun _ _ => exec_runDone_last,
    fun count _ _ hmay hr hkind hphase => exec_fioTrimMeasure_first hmay hr hkind hphase count,
    fun s hidle => done_ite_of hidle s _⟩

/-- Settles O36: the die reset tells the two cases of a sample apart. -/
theorem thermalSamplesComplete : Obligations.ThermalSamplesComplete :=
  ⟨fun _ vals _ hd hfrozen hpwr hdev hdie => (exec_thmSample_reading hd hfrozen hpwr hdev vals).trans
      (congrArg done (State.sampleDie_sensed hdie vals)),
    fun _ vals _ hpos hd hfrozen hpwr hdev hdie => (exec_thmSample_reading hd hfrozen hpwr hdev vals).trans
      (congrArg done (State.sampleDie_held hpos hdie vals)),
    fun _ _ s hd hfrozen hpwr hwarned hcool hlong => (done_ite_of ⟨hd, ne_true_of_eq_false hfrozen, hpwr⟩ s _).trans
      (congrArg done (State.thermalClear_cooled hwarned hcool hlong))⟩

/-- Settles O37: RESTART meets its guard, and the clauses of AON_THERMAL_SAMPLE are the branches of the sample in their order. -/
theorem tripReleasesComplete : Obligations.TripReleasesComplete := by
  refine ⟨fun f s htrip hauto hhold hlong hfrozen => exec_restart_cooled htrip hauto hhold hlong hfrozen,
    fun temps x s hon hx hhot => (done_ite_of hon s _).trans (congrArg done (State.aonSample_hot hx hhot)),
    fun temps s hon hcool hidle => (done_ite_of hon s _).trans (congrArg done (State.aonSample_idle hcool hidle)),
    fun temps s hpwr hdev hfrozen hpin hcool hheld => (done_ite_of (.inl hpwr) s _).trans (congrArg done ?_),
    fun temps s hpwr hdev hfrozen hpin hauto hcold hhold => (done_ite_of (.inl hpwr) s _).trans (congrArg done ?_),
    fun temps f s hpwr hdev hfrozen hpin hauto hcold hhold => (done_ite_of (.inl hpwr) s _).trans (congrArg done ?_)⟩
  · rw [State.aonSample_tripped hcool hpwr hdev hfrozen hpin, if_pos (hheld.imp ne_true_of_eq_false any_hot_iff.mpr)]
  · rw [State.aonSample_tripped (fun x hx => (hcold x hx).trans (by decide)) hpwr hdev hfrozen hpin,
      if_neg (not_restart_held hauto hcold), hhold]
  · rw [State.aonSample_tripped (fun x hx => (hcold x hx).trans (by decide)) hpwr hdev hfrozen hpin,
      if_neg (not_restart_held hauto hcold), hhold]

end Sys2Proof.Machine
end

section
/-! The obligations of spec/14_power_states.md and spec/15_clocks.md: the power packets, the entries, exits and wakes of the power
states, and the monitors, PLLs and gates of the clocks. -/

namespace Sys2Proof.Machine

open Sys2Proof.Reg

/-! ### Power packets (R404, R406, R304) -/

section
variable {h : Halyard} {s : State}

theorem exec_pwrSet_resolved (ht : s.takes 0x20 h (fixedLen 1)) (hstate : arg h 0 ∈ [0, 3, 4]) (htrip : s.tripped = false)
    (hdev : s.devState = 1) : exec (.pwrSet h) s = .next ((s.begun 0x20 h).resolvePwr h (arg h 0)) := by
  refine done_packet_takes ht ?_
  simp only [State.begun_tripped, State.begun_devState]
  rw [if_neg (not_not_intro (List.contains_iff_mem.mpr hstate)),
    if_neg (not_or.mpr ⟨ne_true_of_eq_false htrip, not_not_intro hdev⟩)]

theorem exec_pwrGet_taken (ht : s.takes 0x21 h (fixedLen 0)) : exec (.pwrGet h) s = .next ((s.begun 0x21 h).replyOk 0x21 h
    [s.fget PWR.STATE_CUR * 2 ^ 28 + s.curTarget * 2 ^ 24 + (s.pw.slot.map (·.1)).getD 15 * 2 ^ 20 + s.fget PWR.STATE_STEP * 2
    ^ 8 + s.fget PWR.STATE_NEXT_ABORT, (match s.pw.entry with | some e => e.op.getD 0 | none => 0) * 65536 + (s.pw.slot.map
    (·.2)).getD 0, (s.reg PWR.LAST_RESULT).toNat]) := by
  refine done_packet_takes ht ?_
  obtain ⟨_, _, _, _, _, e⟩ := s.begun_eq 0x21 h
  rw [e]
  rfl

theorem exec_setRetention_legal (ht : s.takes 0x22 h (fixedLen 5)) (hmask : s.badRetWord h.payload = none) (hscrub : arg h 4 < 2) :
    exec (.setRetention h) s = .next ((((s.begun 0x22 h).setRetMask (maskWords h.payload)).setFlag PWR.CTRL_WAKE_SCRUB (decide
      (arg h 4 = 1))).replyOk 0x22 h []) := by
  refine done_packet_takes ht ?_
  rw [State.begun_badRetWord, hmask]
  exact if_neg (Nat.not_le.mpr hscrub)

theorem exec_setWake_legal (ht : s.takes 0x23 h (fixedLen 2)) (hword : arg h 0 < 2 ^ 16) (hres : bits (arg h 0) 5 3 = 0)
    (hsource : bits (arg h 0) 0 5 ≠ 0) (hports : bitAt (arg h 0) 0 = true → bits (arg h 0) 8 8 ≠ 0)
    (htimer : bitAt (arg h 0) 2 = true → arg h 1 ≠ 0) : exec (.setWake h) s = .next ((((s.begun 0x23 h).setReg PWR.WAKE_CFG
      (BitVec.ofNat 32 (arg h 0))).setReg PWR.FURL_TIMER (BitVec.ofNat 32 (arg h 1))).replyOk 0x23 h []) := by
  refine done_packet_takes ht ?_
  have hhigh : arg h 0 / 2 ^ 16 = 0 := Nat.div_eq_of_lt hword
  have hlegal : ¬ (arg h 0 / 2 ^ 16 ≠ 0 ∨ bits (arg h 0) 5 3 ≠ 0 ∨ bits (arg h 0) 0 5 = 0 ∨
      (bitAt (arg h 0) 0 = true ∧ bits (arg h 0) 8 8 = 0)) := by
    rintro (hn | hn | hn | ⟨h0, hn⟩)
    · exact hn hhigh
    · exact hn hres
    · exact hsource hn
    · exact hports h0 hn
  dsimp only
  rw [if_neg hlegal, if_neg (fun a => htimer a.1 a.2)]

theorem exec_clearRetlost_sail (ht : s.takes 0x24 h (fixedLen 4)) (hmask : s.absentWord h.payload = none)
    (hsail : s.inSail = true) : exec (.clearRetlost h) s =
      .next ((((s.maskPcs h.payload).foldl State.clearLost (s.begun 0x24 h)).startSweep).replyOk 0x24 h []) := by
  refine done_packet_takes ht ?_
  rw [State.begun_absentWord, hmask]
  simp only [State.begun_inSail, State.begun_maskPcs]
  exact if_neg (not_not_intro hsail)

end

/-! ### Entries, exits and the request that waits (R391 to R404) -/

section
variable {s : State}

theorem exec_entryUnwind_woken {e : PwrEntry} (he : s.pw.entry = some e) (hl : s.live = true)
    (hstep : e.step ≤ lastAbort e.target) (hdone : s.entryDone e = true) (hwake : s.wakeSeen e = true) :
    exec .entryUnwind s = .next (s.unwind e (unwindCause ((s.pw.wake.map (·.1)).getD 0)) ((s.pw.wake.map (·.1)).getD 0)) := by
  change execEntryUnwind s = _
  unfold execEntryUnwind
  rw [he]
  exact done_ite_of ⟨hl, hstep, hdone, hwake⟩ s _

theorem exec_drainTimeout_waiting {e : PwrEntry} (he : s.pw.entry = some e) (hl : s.live = true) (htarget : 3 ≤ e.target)
    (hstep : e.step = 3) (hdone : s.entryDone e = false) : exec .drainTimeout s = .next (s.unwind e 4 0) := by
  change execDrainTimeout s = _
  unfold execDrainTimeout
  rw [he]
  exact done_ite_of ⟨hl, htarget, hstep, ne_true_of_eq_false hdone⟩ s _

/-- A request that waits, with no transition in progress, is met at once, starts its entry in Sail, or wakes the part. -/
theorem exec_pendingPowerRequest_taken {t id : Nat} (hslot : s.pw.slot = some (t, id)) (hentry : s.pw.entry = none)
    (hwaking : s.pw.waking = none) (hw : s.wakeable = true) : exec .pendingPowerRequest s = .next (
      if t = s.pwr then
        State.showPwr (State.endPwrSet { s with pw := { s.pw with slot := none } } (some id) St.ok (pwrResult t 0 0 0))
      else if s.pwr = 0 then State.startEntry { s with pw := { s.pw with slot := none } } t (some id)
      else if s.pw.wake.isNone then { s with pw := { s.pw with wake := some (if s.pwr = 3 then 8 else 7, 0) } }
      else s) := by
  have hfree : ¬ (s.pw.entry.isSome = true ∨ s.pw.waking.isSome = true ∨ ¬ s.wakeable = true) := by simp [hentry, hwaking, hw]
  change execPendingPowerRequest s = _
  unfold execPendingPowerRequest
  rw [hslot]
  exact congrArg done (if_neg hfree)

theorem exec_sleepAddressMatch_asleep (hw : s.wakeable = true) (hasleep : s.twAsleep = true) :
    exec .sleepAddressMatch s = .next (s.wakeEvent 3 0) :=
  (done_ite_of hasleep s _).trans (congrArg done (if_pos hw))

theorem exec_furlExit_woken {x : Shadow} {code port : Nat} (hx : s.pw.shadow = some x) (hw : s.pw.wake = some (code, port))
    (hpwr : s.pwr = 3) (hentry : s.pw.entry = none) (hfrozen : s.frozen = false) (htrip : s.tripped = false)
    (hdev : s.devState = 1) (obs : FurlObs) : exec (.furlExit obs) s = .next (s.furlExit obs x code port) := by
  change execFurlExit obs s = _
  unfold execFurlExit
  rw [hx, hw]
  exact done_ite_of
    ⟨hpwr, Option.isNone_iff_eq_none.mpr hentry, ne_true_of_eq_false hfrozen, ne_true_of_eq_false htrip, hdev⟩ s _

/-! ### Gates (R419) -/

theorem State.askGate_ungated {b : Nat} (hb : s.gateable b = true) (hgated : bitAt (s.fget CLK.GATE_STAT_GATED) b = false) :
    s.askGate b = s.setGate b false false true :=
  if_pos ⟨hb, ne_true_of_eq_false hgated⟩

theorem State.askGate_without_effect {b : Nat} (h : s.gateable b = false ∨ bitAt (s.fget CLK.GATE_STAT_GATED) b = true) :
    s.askGate b = s :=
  if_neg fun ⟨hb, hn⟩ => h.elim (ne_true_of_eq_false · hb) hn

end

/-! ### The obligations -/

/-- Settles O19: each packet passes its own checks. -/
theorem powerPacketsComplete : Obligations.PowerPacketsComplete :=
  ⟨fun _ _ => exec_pwrSet_resolved, fun _ _ => exec_pwrGet_taken, fun _ _ => exec_setRetention_legal,
    fun _ _ => exec_setWake_legal, fun _ _ => exec_clearRetlost_sail⟩

/-- Settles O38: each event meets its guard, and the three clauses of the request that waits are the first three cases of its
resolution. -/
theorem powerEventsComplete : Obligations.PowerEventsComplete :=
  ⟨fun s hpwr hen hmay => done_ite_of ⟨hpwr, hen, hmay⟩ s _, fun s hpwr hen hmay => done_ite_of ⟨hpwr, hen, hmay⟩ s _,
    fun _ s hl hpwr hentry hwake => done_ite_of
      ⟨hl, hpwr, Option.isNone_iff_eq_none.mpr hentry, hwake.imp_right ne_true_of_eq_false⟩ s _,
    fun _ _ => exec_entryUnwind_woken,
    fun _ _ _ hslot hentry hwaking hw hpwr ht => (exec_pendingPowerRequest_taken hslot hentry hwaking hw).trans
      (congrArg done ((if_neg (hpwr ▸ ht)).trans (if_pos hpwr))),
    fun _ _ _ hslot hentry hwaking hw ht => (exec_pendingPowerRequest_taken hslot hentry hwaking hw).trans
      (congrArg done (if_pos ht)),
    fun _ _ _ hslot hentry hwaking hw hpwr ht hwake => (exec_pendingPowerRequest_taken hslot hentry hwaking hw).trans
      (congrArg done ((if_neg ht).trans ((if_neg hpwr).trans (if_pos (Option.isNone_iff_eq_none.mpr hwake))))),
    fun s hw hpins => done_ite_of ⟨hw, ne_true_of_eq_false hpins⟩ s _, fun s hw hpwr => done_ite_of ⟨hw, hpwr⟩ s _,
    fun s hw => done_ite_of hw s _, fun _ => exec_sleepAddressMatch_asleep,
    fun obs _ _ _ _ hx hw hpwr hentry hfrozen htrip hdev => exec_furlExit_woken hx hw hpwr hentry hfrozen htrip hdev obs,
    fun _ hfill hl => congrArg done (if_neg (not_or.mpr ⟨hfill, not_not_intro hl⟩)), fun _ _ => exec_drainTimeout_waiting⟩

/-- Settles O39: each command meets its guard, and GATE_UNGATE and GATE_REQUEST that of their operation. -/
theorem clockCommandsComplete : Obligations.ClockCommandsComplete :=
  ⟨fun _ _ s hi hdev harmed hblind hdisc =>
      done_ite_of ⟨hi, hdev, harmed, ne_true_of_eq_false hblind, ne_true_of_eq_false hdisc⟩ s _,
    fun _ s hi hdev hpwr hstable => done_ite_of ⟨hi, hdev, hpwr, ne_true_of_eq_false hstable⟩ s _,
    fun _ s hi hfailed hdev hpwr => done_ite_of ⟨hi, hfailed, hdev, hpwr⟩ s _,
    fun _ hxb hstable hdev hfrozen => congrArg done (if_neg (by simp [hxb, hstable, hdev, hfrozen])),
    fun _ s hj hl hen hlocked => done_ite_of ⟨hj, hl, hen, hlocked⟩ s _,
    fun _ _ s hj hl hen hlocked => done_ite_of ⟨hj, hl, hen, ne_true_of_eq_false hlocked⟩ s _,
    fun _ _ _ _ hlo hhi hdev => congrArg done (if_neg (by omega)),
    fun _ s hl hb => (done_ite_of hl s _).trans (congrArg done (if_pos hb)),
    fun _ s hl hb hgated => (done_ite_of hl s _).trans (congrArg done (State.askGate_ungated hb hgated)),
    fun _ s hl hb => (done_ite_of hl s _).trans (congrArg done (if_neg (ne_true_of_eq_false hb))),
    fun _ s hl hwithout => (done_ite_of hl s _).trans (congrArg done (State.askGate_without_effect hwithout)),
    fun _ s hl hb hpend hidle => done_ite_of ⟨hl, hb, hpend, hidle⟩ s _,
    fun _ _ s hl hgated => done_ite_of ⟨hl, hgated⟩ s _⟩

end Sys2Proof.Machine
end

section
/-! The obligation of spec/17_two_wire_ports.md: frames, timeouts, attention pulses and a hung PMBus. -/

namespace Sys2Proof.Machine

open Sys2Proof.Reg

section
variable {s : State}

/-! ### Frames (R460, R463, R467) -/

/-- A write frame that is the part's own and finds no frame held: it is held, not acknowledged, a protocol error, or taken. -/
theorem exec_twWriteFrame_mine {addr : Nat} {bad : Bool} (hmine : s.twMine addr = true) (hdir : addr % 2 = 0 ∨ bad = true)
    (hheld : s.twb.held = none) (bytes : List Nat) : exec (.twWriteFrame addr bytes bad) s = .next (
      if s.twAsleep then s.twStretch ⟨addr, bytes, bad, 0, s.aon⟩
      else if s.twBusy ∧ addr % 2 = 0 then s.twMatch.bumpSat TWB.TGT_XFER_CNT_NACKED 1
      else if bad then s.twMatch.twProto 5
      else s.twMatch.twWrite addr bytes) := by
  refine congrArg done (if_neg ?_)
  rintro (hn | ⟨hodd, hgood⟩ | hn)
  · exact hn hmine
  · exact hdir.elim (by omega) hgood
  · simp [hheld] at hn

theorem exec_twWriteFrame_asleep {addr : Nat} {bytes : List Nat} {bad : Bool} (hmine : s.twMine addr = true)
    (hdir : addr % 2 = 0 ∨ bad = true) (hheld : s.twb.held = none) (hasleep : s.twAsleep = true) :
    exec (.twWriteFrame addr bytes bad) s = .next (s.twStretch ⟨addr, bytes, bad, 0, s.aon⟩) := by
  rw [exec_twWriteFrame_mine hmine hdir hheld, if_pos hasleep]

theorem exec_twWriteFrame_busy {addr : Nat} {bytes : List Nat} {bad : Bool} (hmine : s.twMine addr = true)
    (hdir : addr % 2 = 0) (hheld : s.twb.held = none) (hawake : s.twAsleep = false) (hbusy : s.twBusy = true) :
    exec (.twWriteFrame addr bytes bad) s = .next (s.twMatch.bumpSat TWB.TGT_XFER_CNT_NACKED 1) := by
  rw [exec_twWriteFrame_mine hmine (.inl hdir) hheld, if_neg (ne_true_of_eq_false hawake), if_pos ⟨hbusy, hdir⟩]

theorem exec_twWriteFrame_bad {addr : Nat} {bytes : List Nat} (hmine : s.twMine addr = true) (hheld : s.twb.held = none)
    (hawake : s.twAsleep = false) (hfree : addr % 2 = 1 ∨ s.twBusy = false) :
    exec (.twWriteFrame addr bytes true) s = .next (s.twMatch.twProto 5) := by
  have hbusy : ¬ (s.twBusy = true ∧ addr % 2 = 0) := fun ⟨hb, h0⟩ => hfree.elim (by omega) (ne_true_of_eq_false · hb)
  rw [exec_twWriteFrame_mine hmine (.inr rfl) hheld, if_neg (ne_true_of_eq_false hawake), if_neg hbusy, if_pos rfl]

theorem exec_twWriteFrame_taken {addr : Nat} {bytes : List Nat} (hmine : s.twMine addr = true) (hdir : addr % 2 = 0)
    (hheld : s.twb.held = none) (hawake : s.twAsleep = false) (hfree : s.twBusy = false) :
    exec (.twWriteFrame addr bytes false) s = .next (s.twMatch.twWrite addr bytes) := by
  rw [exec_twWriteFrame_mine hmine (.inl hdir) hheld, if_neg (ne_true_of_eq_false hawake),
    if_neg (fun hb => ne_true_of_eq_false hfree hb.1), if_neg Bool.false_ne_true]

/-- A read frame that is the part's own and finds no frame held: it is held or answered. -/
theorem exec_twReadFrame_mine {addr : Nat} (hmine : s.twMine addr = true) (hdir : addr % 2 = 1) (hheld : s.twb.held = none)
    (count : Nat) : exec (.twReadFrame addr count) s = .next (
      if s.twAsleep then s.twStretch ⟨addr, [], false, count, s.aon⟩ else s.twMatch.twRead addr count) := by
  refine congrArg done (if_neg ?_)
  rintro (hn | heven | hn)
  · exact hn hmine
  · omega
  · simp [hheld] at hn

theorem exec_twReadFrame_asleep {addr count : Nat} (hmine : s.twMine addr = true) (hdir : addr % 2 = 1)
    (hheld : s.twb.held = none) (hasleep : s.twAsleep = true) :
    exec (.twReadFrame addr count) s = .next (s.twStretch ⟨addr, [], false, count, s.aon⟩) := by
  rw [exec_twReadFrame_mine hmine hdir hheld, if_pos hasleep]

theorem exec_twReadFrame_answered {addr count : Nat} (hmine : s.twMine addr = true) (hdir : addr % 2 = 1)
    (hheld : s.twb.held = none) (hawake : s.twAsleep = false) :
    exec (.twReadFrame addr count) s = .next (s.twMatch.twRead addr count) := by
  rw [exec_twReadFrame_mine hmine hdir hheld, if_neg (ne_true_of_eq_false hawake)]

/-! ### Timeouts, attention and the PMBus (R465, R466, R474) -/

theorem exec_twTimeout_served (hreset : s.inReset = false) (hawake : s.twAsleep = false) (hpins : s.pinsTaken = false)
    (hheld : s.twb.held = none) (scl : Bool) : exec (.twTimeout scl) s = .next
      (((s.bumpSat (if scl then TWB.TO_CNT_SCL_LOW else TWB.TO_CNT_SDA_LOW) 1).int I.twb 3).twErr 6) :=
  congrArg done (if_neg (by simp [hreset, hawake, hpins, hheld]))

theorem exec_attentionPulse_due (hdue : s.attention = true) (collision : Bool) :
    exec (.attentionPulse collision) s = .next (
      if collision then s.bumpSat TWB.ATTN_CNT_COLLISIONS 1
      else
        let u := (s.bumpSat TWB.ATTN_CNT_PULSES 1).int I.twb 0
        if u.fget TWB.TGT_CFG_ATTN_REPEAT_MS = 0 then { u with twb := { u.twb with evtNew := false, respNew := false } } else u) :=
  congrArg done (if_neg (not_not_intro hdue))

/-- A hung PMBus of a part that serves it: recovered within 9 clocks, or failed. -/
theorem exec_pmbusHangRecovery_enabled (hl : s.live = true) (hpwr : s.pwr ≤ 1) (hen : s.flag TWB.CTRL_PM_EN = true)
    (clocks : Option Nat) : exec (.pmbusHangRecovery clocks) s = .next (
      match clocks with
      | some n => if n ≤ 9 then s.bumpSat TWB.PM_HANG_CNT_RECOVERED 1 else s
      | none => ((s.bumpSat TWB.PM_HANG_CNT_FAILED 1).fset TWB.PM_STAT_LAST_RESULT 4).int I.twb 6) := by
  refine congrArg done (if_neg ?_)
  rintro (hn | hn | hn)
  · exact hn hl
  · omega
  · exact hn hen

end

/-! ### The obligations -/

/-- Settles O40: each command meets its guard, and of a frame the branch that its hypotheses name. -/
theorem twoWireCommandsComplete : Obligations.TwoWireCommandsComplete :=
  ⟨fun _ _ _ => exec_twWriteFrame_taken, fun _ _ _ => exec_twWriteFrame_bad, fun _ _ _ _ => exec_twWriteFrame_busy,
    fun _ _ _ _ => exec_twWriteFrame_asleep, fun _ _ _ => exec_twReadFrame_answered, fun _ _ _ => exec_twReadFrame_asleep,
    fun _ hreset hawake hpins hheld => exec_twTimeout_served hreset hawake hpins hheld true,
    fun _ hreset hawake hpins hheld => exec_twTimeout_served hreset hawake hpins hheld false,
    fun _ hdue => exec_attentionPulse_due hdue true, fun _ hdue => exec_attentionPulse_due hdue false,
    fun n _ hl hpwr hen hn => (exec_pmbusHangRecovery_enabled hl hpwr hen (some n)).trans (congrArg done (if_pos hn)),
    fun _ hl hpwr hen => exec_pmbusHangRecovery_enabled hl hpwr hen none⟩

end Sys2Proof.Machine
end

section
/-! The obligations of spec/18_faults_black_box_freeze.md: the fault queue, the packets of faults and of the black box, the events
of fault handling, and the steps of a commit and a freeze. -/

namespace Sys2Proof.Machine

open Sys2Proof.Reg

section
variable {s : State}

/-! ### The fault queue (R478, R480) -/

theorem State.post_absent {m : FaultMsg} (hsrc : s.sourceExists m.source = false) : s.post m = s :=
  if_pos (by simp [hsrc])

theorem State.post_queued {m : FaultMsg} (hsrc : s.sourceExists m.source = true) (hroom : s.flt.ingress.length < 256) :
    s.post m = { s with flt := { s.flt with
      ingress := s.flt.ingress ++ [{ m with arrival := s.now, num := s.flt.posted, noReact := m.noReact || !s.mclk }],
      posted := s.flt.posted + 1 } } :=
  (if_neg (by simp [hsrc])).trans (if_pos hroom)

theorem State.post_dropped {m : FaultMsg} (hsrc : s.sourceExists m.source = true) (hfull : 256 ≤ s.flt.ingress.length) :
    s.post m = { (s.bumpSat FLT.DROP_CNT_COUNT 1).setFlag FLT.INT_STAT_MSG_DROP true with bbx := { s.bbx with lost := true } } :=
  (if_neg (by simp [hsrc])).trans (if_neg (Nat.not_lt.mpr hfull))

/-- A dropped message writes no register but those of its count and of its interrupt bit. -/
theorem State.reg_post_dropped {m : FaultMsg} (hsrc : s.sourceExists m.source = true) (hfull : 256 ≤ s.flt.ingress.length)
    (a : Nat) : (s.post m).reg a = ((s.bumpSat FLT.DROP_CNT_COUNT 1).setFlag FLT.INT_STAT_MSG_DROP true).reg a := by
  rw [State.post_dropped hsrc hfull]
  rfl

theorem State.flag_post_dropped {m : FaultMsg} (hwf : Regs.wf s.regs = true) (hsrc : s.sourceExists m.source = true)
    (hfull : 256 ≤ s.flt.ingress.length) : (s.post m).flag FLT.INT_STAT_MSG_DROP = true := by
  have hset := State.flag_setFlag_same (State.wf_bumpSat hwf FLT.DROP_CNT_COUNT 1) (f := FLT.INT_STAT_MSG_DROP) true rfl
    (by decide)
  unfold State.flag at hset ⊢
  rw [State.fget_congr (State.reg_post_dropped hsrc hfull _), hset]

theorem State.fget_post_dropped {m : FaultMsg} (hwf : Regs.wf s.regs = true) (hsrc : s.sourceExists m.source = true)
    (hfull : 256 ≤ s.flt.ingress.length) : (s.post m).fget FLT.DROP_CNT_COUNT =
      min (s.fget FLT.DROP_CNT_COUNT + 1) (2 ^ FLT.DROP_CNT_COUNT.width - 1) := by
  rw [State.fget_congr (State.reg_post_dropped hsrc hfull _), State.setFlag, State.fget_fset_other _ _ (by decide),
    State.fget_bumpSat_same hwf _ 1 (by decide)]

theorem State.reg_post_dropped_other {m : FaultMsg} (hsrc : s.sourceExists m.source = true)
    (hfull : 256 ≤ s.flt.ingress.length) {a : Nat} (hdrop : a ≠ FLT.DROP_CNT) (hint : a ≠ FLT.INT_STAT) :
    (s.post m).reg a = s.reg a := by
  rw [State.reg_post_dropped hsrc hfull, State.setFlag, State.reg_fset_other _ _ hint, State.reg_bumpSat_other _ _ hdrop]

/-! ### Packets of faults and of the black box (R490, R493 to R495, R498) -/

section
variable {h : Halyard}

theorem exec_fltRead_inRange (ht : s.takes 0x60 h (fixedLen 1)) (hleast : 1 ≤ bits (arg h 0) 0 5)
    (hmost : bits (arg h 0) 0 5 ≤ 18) : exec (.fltRead h) s = .next ((s.begun 0x60 h).replyOk 0x60 h
      ((s.faultWords (bits (arg h 0) 0 5)).length :: (s.faultWords (bits (arg h 0) 0 5)).flatMap id)) := by
  refine done_packet_takes ht ?_
  simp only [State.begun_faultWords]
  exact if_neg (by omega)

theorem exec_fltInject_sail (ht : s.takes 0x61 h (fixedLen 2)) (hres : bits (arg h 0) 16 15 = 0)
    (hsrc : s.sourceExists (msgOf (arg h 0 % 2 ^ 16 * 2 ^ 32 + arg h 1)).source = true)
    (hkind : (msgOf (arg h 0 % 2 ^ 16 * 2 ^ 32 + arg h 1)).kind ≠ 0x1F) (hsail : s.inSail = true) :
    exec (.fltInject h) s = .next (((s.begun 0x61 h).post { msgOf (arg h 0 % 2 ^ 16 * 2 ^ 32 + arg h 1) with
      injected := true, noReact := bitAt (arg h 0) 31 }).replyOk 0x61 h []) := by
  refine done_packet_takes ht ?_
  simp only [State.begun_sourceExists, State.begun_inSail]
  rw [if_neg (not_or.mpr ⟨not_not_intro hres, not_or.mpr ⟨not_not_intro hsrc, hkind⟩⟩), if_neg (not_not_intro hsail)]

/-- FLT_TABLE of a legal range with a LEN that fits: the entries are written or read. -/
theorem exec_fltTable_inRange (ht : s.takes 0x65 h tableLen) (hres : bits (arg h 0) 26 5 = 0) (hres' : bits (arg h 0) 6 10 = 0)
    (hleast : 1 ≤ bits (arg h 0) 0 6) (hmost : bits (arg h 0) 0 6 ≤ 28)
    (hend : bits (arg h 0) 16 10 + bits (arg h 0) 0 6 ≤ 0x400) : exec (.fltTable h) s = .next (
      let b := s.begun 0x65 h
      let first := bits (arg h 0) 16 10
      if bitAt (arg h 0) 31 then
        match badTable first h.payload.tail with
        | some i => b.replyBad 0x65 h i
        | none => (b.writeTable first h.payload.tail).replyOk 0x65 h []
      else b.replyOk 0x65 h ((List.range (bits (arg h 0) 0 6)).flatMap (fun i =>
        [(b.clsEntry (first + i)).cfg, (b.clsEntry (first + i)).stateWord b.now]))) :=
  done_packet_takes ht (if_neg (by omega))

theorem exec_fltTable_read (ht : s.takes 0x65 h tableLen) (hres : bits (arg h 0) 26 5 = 0) (hres' : bits (arg h 0) 6 10 = 0)
    (hleast : 1 ≤ bits (arg h 0) 0 6) (hmost : bits (arg h 0) 0 6 ≤ 28)
    (hend : bits (arg h 0) 16 10 + bits (arg h 0) 0 6 ≤ 0x400) (hread : bitAt (arg h 0) 31 = false) :
    exec (.fltTable h) s = .next ((s.begun 0x65 h).replyOk 0x65 h ((List.range (bits (arg h 0) 0 6)).flatMap (fun i =>
      [((s.begun 0x65 h).clsEntry (bits (arg h 0) 16 10 + i)).cfg,
        ((s.begun 0x65 h).clsEntry (bits (arg h 0) 16 10 + i)).stateWord s.now]))) := by
  rw [exec_fltTable_inRange ht hres hres' hleast hmost hend]
  dsimp only
  rw [if_neg (ne_true_of_eq_false hread), State.begun_now]

theorem exec_fltTable_write (ht : s.takes 0x65 h tableLen) (hres : bits (arg h 0) 26 5 = 0) (hres' : bits (arg h 0) 6 10 = 0)
    (hleast : 1 ≤ bits (arg h 0) 0 6) (hmost : bits (arg h 0) 0 6 ≤ 28)
    (hend : bits (arg h 0) 16 10 + bits (arg h 0) 0 6 ≤ 0x400) (hwrite : bitAt (arg h 0) 31 = true)
    (hlegal : badTable (bits (arg h 0) 16 10) h.payload.tail = none) : exec (.fltTable h) s = .next
      (((s.begun 0x65 h).writeTable (bits (arg h 0) 16 10) h.payload.tail).replyOk 0x65 h []) := by
  rw [exec_fltTable_inRange ht hres hres' hleast hmost hend]
  dsimp only
  rw [if_pos hwrite, hlegal]

theorem exec_bbxRead_found (ht : s.takes 0x62 h (fixedLen 2)) (hsel : bits (arg h 0) 30 2 ≠ 3)
    (hcount : bits (arg h 1) 0 2 ≠ 0) (hring : bits (arg h 0) 30 2 = 0 → s.bbx.ringLost = false)
    (hfound : (s.begun 0x62 h).bbxSelect (bits (arg h 0) 30 2) (bits (arg h 0) 0 24) (bits (arg h 1) 0 2) ≠ []) :
    exec (.bbxRead h) s = .next (
      let recs := (s.begun 0x62 h).bbxSelect (bits (arg h 0) 30 2) (bits (arg h 0) 0 24) (bits (arg h 1) 0 2)
      (s.begun 0x62 h).replyOk 0x62 h ((recs.length * 2 ^ 24 + bits (arg h 0) 0 24) :: recs.flatMap wordsOf)) := by
  have hkept : ¬ (bits (arg h 0) 30 2 = 0 ∧ (s.begun 0x62 h).bbx.ringLost = true) := by
    rw [State.begun_bbx]
    exact fun ⟨h0, hlost⟩ => ne_true_of_eq_false (hring h0) hlost
  refine done_packet_takes ht ?_
  dsimp only
  rw [if_neg hsel, if_neg hcount, if_neg hkept, if_neg hfound]

theorem exec_bbxCommit_idle (ht : s.takes 0x63 h (fixedLen 0)) (hidle : s.bbx.commit = none) (hroom : s.opRoom = true) :
    exec (.bbxCommit h) s = .next (
      let a := (s.begun 0x63 h).accepted 0x63 h 1 0
      State.setFlag { a.1 with bbx := { a.1.bbx with commit := some a.2 } } BBX.STATUS_COMMIT_BUSY true) := by
  have hbusy : ¬ (s.begun 0x63 h).bbx.commit.isSome = true := by simp [hidle]
  refine done_packet_takes ht ?_
  rw [if_neg hbusy, State.accept_begun_room hroom]

end

/-! ### Held indices (R488) -/

/-- A held index is found by any test of its time that it meets. -/
theorem any_hold_of_mem {holds : List FenceHold} {x : FenceHold} {k now : Nat} {due : FenceHold → Nat} (hx : x ∈ holds)
    (hk : x.index = k) (hdue : due x ≤ now) : holds.any (fun y => decide (y.index = k) && decide (due y ≤ now)) = true :=
  List.any_eq_true.mpr ⟨x, hx, by simp [hk, hdue]⟩

theorem exec_fenceHoldExpiry_due {k : Nat} {x : FenceHold} (hclk : s.mclk = true) (hx : x ∈ s.flt.holds) (hk : x.index = k)
    (hdue : x.lastMsg + s.holdTime ≤ s.now) : exec (.fenceHoldExpiry k) s = .next (s.liftHold k) :=
  done_ite_of ⟨hclk, any_hold_of_mem (due := fun y => y.lastMsg + s.holdTime) hx hk hdue⟩ s _

theorem exec_fencePermanent_due {k : Nat} {x : FenceHold} (hclk : s.mclk = true) (hx : x ∈ s.flt.holds) (hk : x.index = k)
    (hdue : x.since + 10000000000 ≤ s.now) :
    exec (.fencePermanent k) s = .next (s.fresh.2.fencePerm k (s.fresh.1 % 256)) :=
  done_ite_of ⟨hclk, any_hold_of_mem (due := fun y => y.since + 10000000000) hx hk hdue⟩ s _

/-! ### Commits and freezes (R493, R497) -/

theorem State.endCommit_running {id : Nat} (hc : s.bbx.commit = some id) :
    s.endCommit = (s.fullCommit.1.setFlag BBX.STATUS_COMMIT_BUSY false).finishOp id St.ok s.fullCommit.2 := by
  unfold State.endCommit
  rw [hc]

theorem exec_commitDone_running {id : Nat} (hc : s.bbx.commit = some id) : exec .commitDone s = .next
    ((s.fullCommit.1.setFlag BBX.STATUS_COMMIT_BUSY false).finishOp id St.ok s.fullCommit.2) :=
  (done_ite_of (by simp [hc]) s _).trans (congrArg done (State.endCommit_running hc))

/-- A falling edge of FREEZE_N that the part sees: it starts a freeze, or is ignored where none may start. -/
theorem exec_freezeN_seen (hen : s.flag CNS.CTRL_PIN_EN = true) (hfrozen : s.frozen = false) (hreset : s.inReset = false)
    (hpins : s.pinsTaken = false) :
    exec .freezeN s = .next (if s.freezeIgnored then s.ignoreFreeze else s.startFreeze 0) :=
  congrArg done (if_neg (by simp [hen, hfrozen, hreset, hpins]))

theorem exec_freezeEntry_frozen (hfrozen : s.frozen = true) (hentered : s.cns.entered = false) :
    exec .freezeEntry s = .next s.enterFreeze :=
  (done_ite_of hfrozen _ _).trans (congrArg done (if_neg (ne_true_of_eq_false hentered)))

/-- The freeze that a packet ordered is entered, or ignored where none may start. -/
theorem exec_freezeEntry_pending (hfrozen : s.frozen = false) (hpending : s.cns.pending = true) :
    exec .freezeEntry s = .next (if s.freezeIgnored then s.ignoreFreeze else (s.startFreeze 1).enterFreeze) :=
  congrArg done ((if_neg (ne_true_of_eq_false hfrozen)).trans (if_pos hpending))

end

/-! ### The obligations -/

/-- Settles O58: the three cases of a posted message. -/
theorem theFaultQueueHolds256 : Obligations.TheFaultQueueHolds256 := by
  refine fun m s hwf => ⟨fun hsrc hroom => ?_, fun hsrc hfull => ?_, State.post_absent⟩
  · rw [State.post_queued hsrc hroom]
    exact ⟨rfl, rfl, rfl⟩
  · refine ⟨?_, ?_, State.flag_post_dropped hwf hsrc hfull, State.fget_post_dropped hwf hsrc hfull,
      fun _ => State.reg_post_dropped_other hsrc hfull⟩
    · rw [State.post_dropped hsrc hfull]
      rfl
    · rw [State.post_dropped hsrc hfull]

/-- Settles O27: each packet passes its own checks. -/
theorem faultPacketsComplete : Obligations.FaultPacketsComplete :=
  ⟨fun _ _ => exec_fltRead_inRange, fun _ _ => exec_fltInject_sail, fun _ _ => exec_fltTable_read,
    fun _ _ => exec_fltTable_write, fun _ _ ht => done_packet_takes ht rfl, fun _ _ => exec_bbxRead_found,
    fun _ _ => exec_bbxCommit_idle, fun _ _ ht => done_packet_takes ht rfl⟩

/-- Settles O41: each event meets its guard. -/
theorem faultEventsComplete : Obligations.FaultEventsComplete :=
  ⟨fun _ _ _ _ _ hclk => congrArg done (if_pos hclk), fun _ hclk => congrArg done (if_pos hclk),
    fun _ hclk => congrArg done (if_neg (ne_true_of_eq_false hclk)),
    fun _ s hk => done_ite_of hk s _, fun _ _ _ => exec_fenceHoldExpiry_due, fun _ _ _ => exec_fencePermanent_due,
    fun _ _ s hl hleast hmost hres hidle => done_ite_of ⟨hl, hleast, hmost, hres, ne_true_of_eq_false hidle⟩ s _,
    fun _ s hl => done_ite_of hl s _, fun s hclk hfw => done_ite_of ⟨hclk, hfw⟩ s _⟩

/-- Settles O42: each event meets its guard; an edge or an order takes the branch that `State.freezeIgnored` decides. -/
theorem blackBoxAndFreezeEventsComplete : Obligations.BlackBoxAndFreezeEventsComplete :=
  ⟨fun _ hinc hring hreset => congrArg done (if_neg (by simp [hinc, hring, hreset])),
    fun _ _ => exec_commitDone_running,
    fun _ hen hfrozen hreset hpins hmay => (exec_freezeN_seen hen hfrozen hreset hpins).trans
      (congrArg done (if_neg (ne_true_of_eq_false hmay))),
    fun _ hen hfrozen hreset hpins hign => (exec_freezeN_seen hen hfrozen hreset hpins).trans (congrArg done (if_pos hign)),
    fun _ => exec_freezeEntry_frozen,
    fun _ hfrozen hpending hmay => (exec_freezeEntry_pending hfrozen hpending).trans
      (congrArg done (if_neg (ne_true_of_eq_false hmay))),
    fun _ hfrozen hpending hign => (exec_freezeEntry_pending hfrozen hpending).trans (congrArg done (if_pos hign)),
    fun s hfrozen hkept hdue => done_ite_of ⟨hfrozen, ne_true_of_eq_false hkept, hdue⟩ s _⟩

end Sys2Proof.Machine
end
